-- ==== Sys2Proof/Word.lean ====
section
/-!
DEFINITION. Word.lean: the plain word types of the block.
-/
namespace Sys2Proof

/-- One byte. -/
abbrev Byte := BitVec 8

/-- A register as BAR0 sees it: every register, 32 or 64 bits wide, is held in 64 bits. -/
abbrev Word := BitVec 64

/-- A run of bytes, lowest address first. -/
abbrev Bytes := List Byte

end Sys2Proof
end

