-- ==== Sys2Proof/Syntax.lean ====
section
/-!
DEFINITION. Syntax.lean: the commands the block takes, and the small types of their operands.
The operation table gives no operand fields; the operands here are what each row's rule says the step is given.
-/
namespace Sys2Proof

/-- How the previous rail left its on state at power-down (R101, R102). -/
inductive RailFall where
  /-- It fell below its off threshold within 10 ms. -/
  | fell
  /-- 10 ms passed with the rail still above its off threshold. -/
  | timeout
  /-- The rail reported a fault and is passed over at once. -/
  | fault
deriving DecidableEq, Repr

/-- A transaction with the steward (R147, R149): an SMBus transaction with its direction, data and whether a
packet error code that was sent is right, or the service of the outstanding mailbox request. -/
inductive StwTr where
  | smb (wr : Bool) (data : Bytes) (pecOk : Bool)
  | mailbox
deriving DecidableEq, Repr

/-- A Kolber frame as received (R62). -/
structure KolFrame where
  typ : Nat
  seq : Nat
  len : Nat
  payload : Bytes
  crc : Nat
deriving DecidableEq, Repr

/-- What a read of host memory returns (R682, R683): data, data with EP set, or an error completion. -/
inductive HostRead where
  | ok (data : Bytes)
  | ep
  | err
deriving DecidableEq, Repr

/-- What the protection of a memory finds in the word read (R679): nothing, a corrected error, an uncorrectable one;
or, in a pipeline, a residue failure. -/
inductive Ecc where
  | clean | ce | ue | residue
deriving DecidableEq, Repr

/-- What an LSA says (R638): epoch, time-suspect state, root, and state, role and neighbour of each port. -/
structure LsaInfo where
  epoch : Nat
  suspect : Bool
  root : Bool
  ports : List (Nat × Nat × Nat)
deriving DecidableEq, Repr


/-- The commands of the block: one constructor per row of the operation table. Those without operands stand last:
the code generator of Lean numbers only so many constructors that have operands. -/
inductive Instr where
  /-- RAIL_DISABLE_NEXT (R101): The previous rail falls below its off threshold or 10 ms pass, and the next rail is disabled. -/
  | railDisableNext (how : RailFall)
  /-- PERST_N_ASSERT (R113): PERST_N is asserted, or a PCIe hot reset or link-down arrives, and the engine performs a cold reset. -/
  | perstNAssert (linkDown : Bool)
  /-- COLD_RESET (R122): CLK_RST_CTRL.COLD is written with the right KEY and the whole engine is cold reset. -/
  | coldReset (key : Nat)
  /-- WARM_RESET (R116): CLK_RST_CTRL.WARM is written with the right KEY and the warm reset of Table CLK-7 starts. -/
  | warmReset (key : Nat)
  /-- BLOCK_RESET (R117): A write to CLK_RST_BLOCK requests per-block resets, which are performed together or refused as a whole. -/
  | blockReset (mask : Nat)
  /-- BLOCK_RESET_DRAIN_TIMEOUT (R128): The drain for a rill bank or mill quad reset is not confirmed in 50 µs, so the reset proceeds anyway. -/
  | blockResetDrainTimeout (dom : Nat)
  /-- DOMAIN_GATE (R105): A CLK_DOM_CTRL bit changes to 0, and the domain enters DRAINING with its remap entries rewritten. -/
  | domainGate (dom : Nat)
  /-- DOMAIN_WAKE (R104): A CLK_DOM_CTRL bit changes to 1, which wakes a GATED domain or ends a drain. -/
  | domainWake (dom : Nat)
  /-- DRAIN_CONFIRMED (R105): A draining domain's in-flight count reaches zero, and the domain is gated. -/
  | drainConfirmed (dom : Nat)
  /-- DRAIN_ABORT (R106): A drain is unconfirmed 50 µs after it started, so the domain returns to ON and the abort is counted. -/
  | drainAbort (dom : Nat)
  /-- DOMAIN_ON (R104): A waking domain reaches ON, and its remap entry names it again. -/
  | domainOn (dom : Nat)
  /-- CLK_DOM_PROFILE_SELECT (R119): CLK_DOM_PROFILE is written and its expansion is written to CLK_DOM_CTRL. -/
  | clkDomProfileSelect (v : Nat)
  /-- POINT_SAMPLE (R137): The steward samples every monitored point every 10 ms and updates the point states. -/
  | pointSample (readings : List (Option Nat)) (speeds : List Nat)
  /-- FAN_FAILURE (R142): A fan's tachometer has read below 300 rpm for 5 s at a duty of 20 % or more, and the fan is marked failed. -/
  | fanFailure (fan : Nat)
  /-- THERMAL_TRIP_105 (R146): The engine hotspot reaches 105 °C, and the engine throttles and enters bypass with cause THERMAL. -/
  | thermalTrip105 (temp : Int)
  /-- THERMAL_HALT_115 (R146): The engine hotspot reaches 115 °C, and the engine halts. -/
  | thermalHalt115 (temp : Int)
  /-- MAILBOX_GO (R149): STW_MB_CTRL is written with GO, which sends a mailbox request to the steward. -/
  | mailboxGo (ctrl : Nat)
  /-- PAGE (R151): The PAGE command selects the point index for READ_POINT and POINT_LIMITS. -/
  | page (tr : StwTr)
  /-- CLEAR_FAULTS (R151): The CLEAR_FAULTS command clears the latched fault summary. -/
  | clearFaults (tr : StwTr)
  /-- STATUS_WORD (R151): The STATUS_WORD command returns the summary status bits. -/
  | statusWord (tr : StwTr)
  /-- MFR_ID (R151): The MFR_ID command returns ASCII from label page 0. -/
  | mfrId (tr : StwTr)
  /-- MFR_MODEL (R151): The MFR_MODEL command returns ASCII from label page 0. -/
  | mfrModel (tr : StwTr)
  /-- MFR_REVISION (R151): The MFR_REVISION command returns ASCII from label page 0. -/
  | mfrRevision (tr : StwTr)
  /-- MFR_SERIAL (R151): The MFR_SERIAL command returns ASCII from label page 0. -/
  | mfrSerial (tr : StwTr)
  /-- READ_POINT (R148): The READ_POINT command returns the reading of the selected point. -/
  | readPoint (tr : StwTr)
  /-- POINT_LIMITS (R164): The POINT_LIMITS command reads the selected point's limits, or writes them, where a write may only tighten them. -/
  | pointLimits (tr : StwTr)
  /-- READ_ALL (R148): The READ_ALL command returns the readings of points 0–51. -/
  | readAll (tr : StwTr)
  /-- POINT_STATUS (R137): The POINT_STATUS command returns the state of every point. -/
  | pointStatus (tr : StwTr)
  /-- POWER_CTRL_OFF (R162): POWER_CTRL with value OFF sets the power enable setting to OFF, which starts a power-down. -/
  | powerCtrlOff (tr : StwTr)
  /-- POWER_CTRL_ON (R162): POWER_CTRL with value ON sets the power enable setting to ON. -/
  | powerCtrlOn (tr : StwTr)
  /-- POWER_CTRL_RETRY (R99): POWER_CTRL with value RETRY ends a wake-fail hold and starts a fresh power-up. -/
  | powerCtrlRetry (tr : StwTr)
  /-- POWER_CTRL_ENGINE_RESET (R113): POWER_CTRL with value ENGINE_RESET cold-resets the engine. -/
  | powerCtrlEngineReset (tr : StwTr)
  /-- POWER_STATE (R151): The POWER_STATE command returns the power state, the wake-fail code, the failed rails, the restart count and the boot state. -/
  | powerState (tr : StwTr)
  /-- FAN_PROFILE (R161): The FAN_PROFILE command selects a fan profile and writes its expansion into FAN_CONFIG. -/
  | fanProfile (tr : StwTr)
  /-- FAN_CONFIG (R163): The FAN_CONFIG command reads or writes the fan law parameters, and a write sets the readback to CUSTOM. -/
  | fanConfig (tr : StwTr)
  /-- FAN_STATUS (R151): The FAN_STATUS command returns the duty, the speeds, the fault mask and the profile readback. -/
  | fanStatus (tr : StwTr)
  /-- LAST_STATUS (R151): The LAST_STATUS command returns the status of the last command on this interface. -/
  | lastStatus (tr : StwTr)
  /-- LABEL_SEL (R152): The LABEL_SEL command selects a label page and half for this interface. -/
  | labelSel (tr : StwTr)
  /-- SMB_LABEL_DATA_READ (R152): A LABEL_DATA read returns one half of a whole-page snapshot. -/
  | smbLabelDataRead (tr : StwTr)
  /-- SMB_LABEL_DATA_WRITE (R152): A LABEL_DATA write stores one half into this interface's staging buffer. -/
  | smbLabelDataWrite (tr : StwTr)
  /-- LABEL_COMMIT (R152): The LABEL_COMMIT command queues the interface's staging for a journalled write to the page. -/
  | labelCommit (tr : StwTr)
  /-- LABEL_VIS (R72): The LABEL_VIS command sets whether a user page is field-visible. -/
  | labelVis (tr : StwTr)
  /-- FW_BEGIN (R156): The FW_BEGIN command opens a firmware session on the copy that is not running and marks it invalid. -/
  | fwBegin (tr : StwTr)
  /-- FW_DATA (R156): The FW_DATA command writes a block of the image at an offset. -/
  | fwData (tr : StwTr)
  /-- FW_END (R156): The FW_END command validates the CRC and marks the copy valid. -/
  | fwEnd (tr : StwTr)
  /-- FW_ACTIVATE (R156): The FW_ACTIVATE command makes a valid copy preferred; for the steward target it also triggers a controlled restart. -/
  | fwActivate (tr : StwTr)
  /-- FW_STATUS (R151): The FW_STATUS command returns the session state and the versions of the copies. -/
  | fwStatus (tr : StwTr)
  /-- FW_ABORT (R156): The FW_ABORT command ends the session and leaves the copy invalid. -/
  | fwAbort (tr : StwTr)
  /-- CAL_WRITE (R160): The CAL_WRITE command writes a user calibration record, or selects one for reading. -/
  | calWrite (tr : StwTr)
  /-- CAL_READ (R159): The CAL_READ command returns the effective calibration record that was selected. -/
  | calRead (tr : StwTr)
  /-- CAL_RESTORE_FACTORY (R160): The CAL_RESTORE_FACTORY command, with the key, invalidates every user record. -/
  | calRestoreFactory (tr : StwTr)
  /-- LOG_READ (R151): The LOG_READ command returns event log entry n. -/
  | logRead (tr : StwTr)
  /-- KOL_PROFILE_SELECT (R79): KOL_PROFILE is written and its expansion is written to KOL_CTRL. -/
  | kolProfileSelect (v : Nat)
  /-- KOL_CTRL_WRITE (R81): A KOL_CTRL write changes the Kolber settings, sets CUSTOM, and disarms the trigger when EN becomes 0. -/
  | kolCtrlWrite (v : Nat)
  /-- LINK_HELLO_SEND (R65): Each Kolber end sends LINK_HELLO every 10 ms. -/
  | linkHelloSend (fromField : Bool)
  /-- LINK_HELLO (R65): A LINK_HELLO frame is received, and LINK_UP is set after two consecutive valid ones. -/
  | linkHello (fr : KolFrame)
  /-- TRIGGER_IN (R69): A TRIGGER_IN message confirms a trigger edge, or is timestamped coarsely on arrival when TRIGDIR is 1. -/
  | triggerIn (fr : KolFrame)
  /-- TRIGGER_OUT (R84): A TRIGGER_OUT message reaches the field end, which emits the pulse on receipt in mode 1. -/
  | triggerOut (fr : KolFrame)
  /-- PPS_EDGE (R86): A PPS_EDGE message confirms a PPS edge and reports whether its width is valid. -/
  | ppsEdge (fr : KolFrame)
  /-- REF_STATE (R66): A REF_STATE message updates REF presence and the frequency offset. -/
  | refState (fr : KolFrame)
  /-- LABEL_READ (R76): A field LABEL_READ asks the steward for a snapshot of a label page. -/
  | labelRead (fr : KolFrame)
  /-- LABEL_DATA (R75): A LABEL_DATA chunk of a page snapshot reaches the field end. -/
  | labelData (fr : KolFrame)
  /-- FIXTURE_ID (R87): A FIXTURE_ID message updates fixture presence and identity. -/
  | fixtureId (fr : KolFrame)
  /-- FIELD_ALARM (R88): A FIELD_ALARM message updates KOL_ALARM. -/
  | fieldAlarm (fr : KolFrame)
  /-- E0_EDGE (R67): A PPS edge on line E0 is timestamped in lattice time. -/
  | e0Edge (rising : Bool) (frac : Nat)
  /-- E1_TRIGGER_IN_EDGE (R67): A trigger-in edge on E1 is timestamped and may be a tally boundary. -/
  | e1TriggerInEdge (rising : Bool) (frac : Nat)
  /-- REF_GATE_END (R66): The field end's 1.024 s measurement gate on REF10_IN ends and REF_STATE is sent. -/
  | refGateEnd (ppb : Int)
  /-- FID_PRES_SETTLED (R87): FID_PRES_N settles after 50 ms of debounce, and FIXTURE_ID is sent. -/
  | fidPresSettled (present : Bool) (ident : Bytes)
  /-- VFLD_RETRY (R88): Every 1 s the field end retries the switched-off VFLD_OUT. -/
  | vfldRetry (ok : Bool)
  /-- OPTICS_INSERT (R52): An optical module is inserted and brought up under CMIS. -/
  | opticsInsert (cage : Nat) (deciWatts : Nat)
  /-- OPTICS_REMOVE (R253): An optical module is removed: the frame in reception ends with PCS_ERR and the link drops. -/
  | opticsRemove (cage : Nat) (data : List Bytes)
  /-- DOORBELL (R180): A 32-bit doorbell write is checked and updates TAIL or CONS, or puts the ring in ERROR. -/
  | doorbell (off : Nat) (width : Nat) (v : Nat)
  /-- FETCH_DATA_RETURN (R185): Descriptor read data returns, HEAD advances and the descriptors go to acceptance. -/
  | fetchDataReturn (ring : Nat) (data : Bytes)
  /-- NOP (R186): The NOP command has no effect and acts as a fence with ORDER. -/
  | nop (cmd : Nat)
  /-- COPY (R187): The COPY command moves LENGTH bytes between host memory and the module-local space. -/
  | copy (cmd : Nat) (src : HostRead) (ecc : Ecc)
  /-- EMIT (R188): The EMIT command transmits a host frame on an emit port, after waiting for cells and admission. -/
  | emit (cmd : Nat) (src : HostRead)
  /-- COMPLETION_WRITE (R201): A command's completion record is written to its completion ring when a slot is free, releasing its in-flight slot. -/
  | completionWrite (ring : Nat)
  /-- WRITE_BACK_REFRESH (R183): A stale ring write-back is refreshed at least once every 1 µs. -/
  | writeBackRefresh (ring : Nat)
  /-- MSIX_COALESCE_TIMEOUT (R204): COAL_TIME has passed since the first pending record, so an MSI-X message is sent. -/
  | msixCoalesceTimeout (ring : Nat)
  /-- RING_ENABLE (R208): HIF_RING_CTRL.EN = 1 checks the ring set-up and makes a DISABLED ring ACTIVE. -/
  | ringEnable (ring : Nat)
  /-- RING_DISABLE (R209): HIF_RING_CTRL.EN = 0 disables a ring, or puts a completion ring into DRAINING. -/
  | ringDisable (ring : Nat)
  /-- RING_DRAIN_COMPLETE (R209): A DRAINING completion ring becomes DISABLED when no accepted command names it any more. -/
  | ringDrainComplete (ring : Nat)
  /-- HIF_PROFILE_SELECT (R206): HIF_PROFILE is written, and the rings that its expansion names are disabled first. -/
  | hifProfileSelect (v : Nat)
  /-- BAR4_ACCESS (R205): A BAR4 read or write reaches the module-local space through the window, or misses. -/
  | bar4Access (write : Bool) (off : Nat) (data : Bytes)
  /-- FRAME_START (R230): A frame's first byte arrives: intake earmarks cells or drops the frame for exhaustion. -/
  | frameStart (port : Nat) (frac : Nat)
  /-- EMIT_PORT_FRAME (R218): A frame received on an emit port is counted and discarded. -/
  | emitPortFrame (port : Nat)
  /-- MAC_CONTROL_DISCARD (R226): At byte 13 a MAC control frame is counted, and discarded when MACCTL is 0. -/
  | macControlDiscard (pkt : Nat)
  /-- FRAME_HANDOFF (R232): The thresher completes its parse and intake hands the frame to the cascade. -/
  | frameHandoff (pkt : Nat) (hdr : Bytes) (len : Nat)
  /-- FRAME_END (R225): A frame's reception ends with its end-of-frame status, which is reported to the cascade or frees the frame. -/
  | frameEnd (pkt : Nat) (data : Bytes) (pcsErr : Bool)
  /-- PORT_UP (R220): A write of UP = 1 brings a port up when every condition holds, and is refused otherwise. -/
  | portUp (port : Nat)
  /-- PORT_DOWN (R252): A write of UP = 0 aborts the frame in reception and holds the PCS idle. -/
  | portDown (port : Nat) (data : Bytes)
  /-- LINK_CHANGE (R734): A port's PCS alignment or FEC lock changes, so LINK changes. -/
  | linkChange (port : Nat) (aligned : Bool)
  /-- ITK_PORT_CFG_WRITE (R219): A write to a port's MODE, PAIR, CUT, MACCTL or MAXLEN is applied, or refused while the port is up. -/
  | itkPortCfgWrite (port : Nat) (v : Nat)
  /-- ITK_CAGE_CFG_WRITE (R219): A write to a cage's BREAKOUT is applied, or refused while any of its ports is up. -/
  | itkCageCfgWrite (cage : Nat) (v : Nat)
  /-- ITK_PROFILE_SELECT (R245): ITK_PROFILE is written and its expansion is written to every port and cage, or refused while any port is up. -/
  | itkProfileSelect (v : Nat)
  /-- THR_PROFILE_SELECT (R246): THR_PROFILE is written and THR_MAL_ACT is set from Table THR-8. -/
  | thrProfileSelect (v : Nat)
  /-- THR_MAL_ACT_WRITE (R248): A write to THR_MAL_ACT sets the malformation actions, or is ignored with CFG_ERR. -/
  | thrMalActWrite (v : Nat)
  /-- PARSE (R241): The PARSE step consumes the parse vector and indexes on OUTCOME. -/
  | parse (pkt : Nat)
  /-- CLASSIFY (R263): The CLASSIFY step builds a key and matches the rules, which sets class, colour and queue. -/
  | classify (pkt : Nat)
  /-- SHEAF_FETCH (R304): The SHEAF_FETCH step takes the flow, then finds or creates the sheaf across tiers or at the home. -/
  | sheafFetch (pkt : Nat) (ecc : Ecc)
  /-- SHEAF_COMMIT (R311): The SHEAF_COMMIT step updates the counts, LAST_TS and history, and releases the flow. -/
  | sheafCommit (pkt : Nat)
  /-- GRADE (R376): The GRADE step builds the feature vector from a grader set, waiting for grader capacity. -/
  | grade (pkt : Nat) (ecc : Ecc)
  /-- ORCHARD (R388): The ORCHARD step is admitted under the class policy, evaluates trees and sets S and BUCKET. -/
  | orchard (pkt : Nat) (ecc : Ecc)
  /-- EARLY_VERDICT (R533): The EARLY_VERDICT step writes an EARLY record, or a final one when the status is known. -/
  | earlyVerdict (pkt : Nat)
  /-- SPROUT (R442): The SPROUT step starts a rill thread on the flow's core, or spreads it or skips it. -/
  | sprout (pkt : Nat)
  /-- MILL_ENQUEUE (R415): The MILL_ENQUEUE step builds the input row, reads the history and queues an item on a quad. -/
  | millEnqueue (pkt : Nat) (ecc : Ecc)
  /-- JOIN (R276): The JOIN step waits for every mill result of the packet and sets SEQ. -/
  | join (pkt : Nat)
  /-- JOIN_DEADLINE (R276): The JOIN budget expires before every result has arrived, so SEQ is 0 with JOIN_BUDGET. -/
  | joinDeadline (pkt : Nat)
  /-- VERDICT (R274): The VERDICT step waits for the end-of-frame status and writes the packet's final record. -/
  | verdict (pkt : Nat)
  /-- ENQUEUE_TX (R551): The ENQUEUE_TX step polices the frame and admits it to the partner port's transmit queue. -/
  | enqueueTx (pkt : Nat)
  /-- SLOW_PATH (R513): The SLOW_PATH step places the frame in the slow-path queue, or drops it or waits when the queue is full. -/
  | slowPath (pkt : Nat)
  /-- DROP (R272): The DROP step ends the path and frees the frame. -/
  | drop (pkt : Nat)
  /-- INVALID (R288): A reached INVALID entry acts as DROP and is counted. -/
  | invalid (pkt : Nat)
  /-- PATH_LIMIT_END (R279): After the 16th step the engine ends the path itself and writes a PATH_LIMIT verdict if none exists. -/
  | pathLimitEnd (pkt : Nat)
  /-- TBL_LOAD_RULES (R284): The TBL_LOAD_RULES command writes rule images into the SHADOW bank. -/
  | tblLoadRules (cmd : Nat) (src : HostRead)
  /-- TBL_LOAD_RANGES (R284): The TBL_LOAD_RANGES command writes range units into the SHADOW bank. -/
  | tblLoadRanges (cmd : Nat) (src : HostRead)
  /-- TBL_LOAD_LAYOUTS (R284): The TBL_LOAD_LAYOUTS command writes key layouts into the SHADOW bank. -/
  | tblLoadLayouts (cmd : Nat) (src : HostRead)
  /-- TBL_LOAD_CASCADE (R284): The TBL_LOAD_CASCADE command writes cascade entries into the SHADOW bank. -/
  | tblLoadCascade (cmd : Nat) (src : HostRead)
  /-- TBL_LOAD_STARTS (R284): The TBL_LOAD_STARTS command writes start entries into the SHADOW bank. -/
  | tblLoadStarts (cmd : Nat) (src : HostRead)
  /-- TBL_PREPARE (R285): The TBL_PREPARE command empties the SHADOW bank or copies LIVE into it. -/
  | tblPrepare (cmd : Nat)
  /-- TBL_SWITCH (R286): The TBL_SWITCH command checks the shadow and switches it now, pends it, or cancels a pending switch. -/
  | tblSwitch (cmd : Nat)
  /-- TBL_READ (R283): The TBL_READ command copies table items of a bank to DST. -/
  | tblRead (cmd : Nat)
  /-- CSC_PROFILE_SELECT (R280): CSC_PROFILE performs prepare, expansion write and switch NOW for TREES or SEQUENCE. -/
  | cscProfileSelect (v : Nat)
  /-- SHEAF_MIGRATION_COMPLETE (R323): A migration copy not overlapped by a commit completes, and the sheaf's residence changes. -/
  | sheafMigrationComplete (key : Bytes)
  /-- REMOTE_HOME_TIMEOUT (R333): The home does not answer within TIMEOUT_US, so the packet is evaluated without a sheaf. -/
  | remoteHomeTimeout (pkt : Nat)
  /-- SHF_READ (R329): The SHF_READ command writes a sheaf's hot part and history to DST. -/
  | shfRead (cmd : Nat) (src : HostRead)
  /-- SHF_DELETE (R329): The SHF_DELETE command waits until the flow is free, then deletes the sheaf. -/
  | shfDelete (cmd : Nat) (src : HostRead)
  /-- SHF_FLUSH (R329): The SHF_FLUSH command deletes every sheaf when every port is down. -/
  | shfFlush (cmd : Nat)
  /-- SHF_LOFT_MAP (R330): The SHF_LOFT_MAP command registers a loft window. -/
  | shfLoftMap (cmd : Nat)
  /-- SHF_LOFT_ENABLE (R331): The SHF_LOFT_ENABLE command enables the loft, or disables it and evicts every loft sheaf. -/
  | shfLoftEnable (cmd : Nat)
  /-- SHF_HOME_SET (R332): The SHF_HOME_SET command stages home-table entries and N for the next tally boundary. -/
  | shfHomeSet (cmd : Nat) (src : HostRead)
  /-- SHF_PROFILE_SELECT (R327): SHF_PROFILE is written and its expansion is written to the sheaf limits. -/
  | shfProfileSelect (v : Nat)
  /-- NUM_CONVERT (R362): The NUM_CONVERT command dequantises and quantises a tensor between formats. -/
  | numConvert (cmd : Nat) (src : HostRead)
  /-- NUM_STATS (R363): The NUM_STATS command writes context register images. -/
  | numStats (cmd : Nat)
  /-- NUM_CLEAR (R363): The NUM_CLEAR command zeroes the statistics of contexts and discards their open windows. -/
  | numClear (cmd : Nat)
  /-- NUM_PROFILE_SELECT (R359): NUM_PROFILE is written and its expansion is written to every context and to NUM_CFG. -/
  | numProfileSelect (v : Nat)
  /-- ORC_GRADE (R394): The ORC_GRADE command builds a feature vector from a host input block. -/
  | orcGrade (cmd : Nat) (src : HostRead)
  /-- ORC_EVAL (R394): The ORC_EVAL command evaluates an ensemble over a host vector. -/
  | orcEval (cmd : Nat) (src : HostRead)
  /-- ORC_PROFILE_SELECT (R392): ORC_PROFILE is written and its expansion is written to ORC_CFG and every policy. -/
  | orcProfileSelect (v : Nat)
  /-- MILL_BATCH_START (R416): An idle mill takes the oldest queued item and compatible items as one batch. -/
  | millBatchStart (mill : Nat)
  /-- MILL_BATCH_COMPLETE (R418): A batch completes, and each item's result joins its packet. -/
  | millBatchComplete (mill : Nat) (ecc : Ecc)
  /-- MILL_YIELD (R422): Non-packet work reaches a chunk boundary while a packet item waits, spills and is suspended. -/
  | millYield (mill : Nat)
  /-- MILL_RESUME (R422): Suspended work reloads its spill and resumes when the mill is free for its class. -/
  | millResume (mill : Nat)
  /-- MIL_RUN (R428): The MIL_RUN command runs a stage list on a quad as FOREGROUND or HARVEST work. -/
  | milRun (cmd : Nat) (src : HostRead) (ends : Bool)
  /-- MIL_TEMPLATE (R429): The MIL_TEMPLATE command runs a sequence template on supplied inputs. -/
  | milTemplate (cmd : Nat) (src : HostRead) (ends : Bool)
  /-- MIL_PROFILE_SELECT (R425): MIL_PROFILE is written and its expansion is written to MIL_CFG. -/
  | milProfileSelect (v : Nat)
  /-- THR_START (R468): The THR_START command starts a thread from a host start block. -/
  | thrStart (cmd : Nat) (src : HostRead)
  /-- THR_KILL (R469): The THR_KILL command kills a thread and completes once its context is FREE. -/
  | thrKill (cmd : Nat)
  /-- THR_STATUS (R467): The THR_STATUS command writes the state of every context. -/
  | thrStatus (cmd : Nat)
  /-- RV_INSTRUCTION (R448): A rill thread issues an ordinary RV64IMA instruction. -/
  | rvInstruction (tid : Nat)
  /-- LOAD (R458): A thread load reads local memory, or waits for a remote response. -/
  | load (tid : Nat) (ecc : Ecc)
  /-- STORE (R457): A thread store is performed locally, or posted remotely. -/
  | store (tid : Nat)
  /-- AMO (R461): A thread AMO is performed indivisibly at the location's memory. -/
  | amo (tid : Nat) (ecc : Ecc)
  /-- LR (R462): A load-reserved sets a reservation on local scratch or granary. -/
  | lr (tid : Nat)
  /-- SC (R462): A store-conditional succeeds only while the reservation holds. -/
  | sc (tid : Nat)
  /-- FENCE (R459): A FENCE orders the thread's accesses and waits for remote store acknowledgements. -/
  | fence (tid : Nat)
  /-- CSR_ACCESS (R449): A CSR instruction reads a permitted control register, or raises ILLEGAL_INSN. -/
  | csrAccess (tid : Nat)
  /-- REMOTE_REQUEST_TIMEOUT (R455): A remote request is unanswered within REMOTE_TIMEOUT_US and raises REMOTE_TIMEOUT. -/
  | remoteRequestTimeout (tag : Nat)
  /-- THREAD_END_FREE (R446): An ENDING thread's stores and mill submissions are all performed, and its context becomes FREE. -/
  | threadEndFree (tid : Nat)
  /-- RIL_PROFILE_SELECT (R464): RIL_PROFILE is written and its expansion is written to RIL_CFG. -/
  | rilProfileSelect (v : Nat)
  /-- X_END (R482): X.END ends the thread with an exit value. -/
  | xEnd (tid : Nat)
  /-- X_SPAWN (R483): X.SPAWN starts a thread on the spawner's module. -/
  | xSpawn (tid : Nat)
  /-- X_SLEEP (R484): X.SLEEP waits until lattice time reaches a deadline. -/
  | xSleep (tid : Nat)
  /-- X_SLEEP_WAKE (R484): Lattice time reaches a sleeping thread's deadline, and the thread retires X.SLEEP. -/
  | xSleepWake (tid : Nat)
  /-- X_WAITNE (R485): X.WAITNE waits until a local word differs from a value, or a deadline passes. -/
  | xWaitne (tid : Nat)
  /-- X_WAITNE_WAKE (R485): The watched word changes or the deadline passes, and X.WAITNE retires with the last value. -/
  | xWaitneWake (tid : Nat)
  /-- X_WAITC (R496): X.WAITC waits for a mill submission's ticket to complete. -/
  | xWaitc (tid : Nat)
  /-- XMILL_SUBMISSION_COMPLETE (R496): An X.MILL submission completes and releases a thread waiting in X.WAITC. -/
  | xmillSubmissionComplete (tid : Nat) (ticket : Nat)
  /-- X_SHKEY (R486): X.SHKEY builds a flow key from a parse vector and returns the flow hash. -/
  | xShkey (tid : Nat)
  /-- X_SHRD (R488): X.SHRD copies a sheaf snapshot to a buffer. -/
  | xShrd (tid : Nat)
  /-- X_SHWU (R489): X.SHWU updates a USER field of a sheaf. -/
  | xShwu (tid : Nat)
  /-- X_ORCG (R492): X.ORCG builds a feature vector from a grader set. -/
  | xOrcg (tid : Nat)
  /-- X_ORCE (R493): X.ORCE evaluates an ensemble over a vector, never truncated. -/
  | xOrce (tid : Nat)
  /-- X_MILL (R494): X.MILL submits mill work and returns a ticket. -/
  | xMill (tid : Nat)
  /-- X_EMITV (R497): X.EMITV enqueues a thread-built verdict record on a host-bound queue. -/
  | xEmitv (tid : Nat)
  /-- GLEAN_MARK (R503): GLEAN.MARK records a BEGIN, END or POINT marker when marker tracing is enabled. -/
  | gleanMark (tid : Nat)
  /-- X_CAS_W (R499): X.CAS.W performs a 32-bit compare-and-swap, locally or remotely. -/
  | xCasW (tid : Nat)
  /-- X_CAS_D (R499): X.CAS.D performs a 64-bit compare-and-swap, locally or remotely. -/
  | xCasD (tid : Nat)
  /-- X_SADD_D (R500): X.SADD.D performs an unsigned saturating add. -/
  | xSaddD (tid : Nat)
  /-- X_NRW (R501): X.NRW narrows a binary32 value to a format. -/
  | xNrw (tid : Nat)
  /-- X_QNT (R502): X.QNT quantises a binary32 value with a scale and zero point. -/
  | xQnt (tid : Nat)
  /-- X_DQT (R502): X.DQT dequantises a code to binary32. -/
  | xDqt (tid : Nat)
  /-- X_FADD (R501): X.FADD adds two binary32 values with one rounding. -/
  | xFadd (tid : Nat)
  /-- X_FMUL (R501): X.FMUL multiplies two binary32 values with one rounding. -/
  | xFmul (tid : Nat)
  /-- SLOW_PATH_RECORD_WRITE (R517): A held slow-path record and its data slot are written once its ring has room. -/
  | slowPathRecordWrite (ecc : Ecc) (cell : Nat)
  /-- CUSTOMER_HANDLER (R521): The customer partition handles a CUSTOM frame and returns DELIVER or DROP. -/
  | customerHandler (pkt : Nat) (deliver : Bool) (user : Nat)
  /-- CUSTOMER_FAULT (R522): The customer handler exceeds 100 µs or faults; the frame is delivered with CUST_FAULT and the partition restarts. -/
  | customerFault (pkt : Nat)
  /-- GARNER_WATCHDOG_RESTART (R523): A garner pair has not signalled for 100 ms and is restarted, with its duties moved to the fallback cores. -/
  | garnerWatchdogRestart (pair : Nat)
  /-- GARNER_PAIR_ON (R523): A restarted garner pair reaches ON and takes its duties back. -/
  | garnerPairOn (pair : Nat)
  /-- GAR_INFO (R528): The GAR_INFO command writes firmware and partition information. -/
  | garInfo (cmd : Nat)
  /-- GAR_CUST_LOAD (R528): The GAR_CUST_LOAD command loads a customer image. -/
  | garCustLoad (cmd : Nat) (src : HostRead)
  /-- GAR_CUST_CTRL (R528): The GAR_CUST_CTRL command starts or stops the customer partition. -/
  | garCustCtrl (cmd : Nat)
  /-- GAR_CMIS_FW (R529): The GAR_CMIS_FW command runs a CMIS firmware download, run or commit step for a cage. -/
  | garCmisFw (cmd : Nat) (src : HostRead) (status : Nat)
  /-- GAR_PROFILE_SELECT (R526): GAR_PROFILE is written and its expansion is written to the slow-path set-up. -/
  | garProfileSelect (v : Nat)
  /-- FRAME_FAIL_ON_PATH (R534): A failure is reported for a packet on its path, and the engine ends the path and undoes its effects. -/
  | frameFailOnPath (pkt : Nat)
  /-- FRAME_FAIL_AFTER_PATH (R535): A failure is reported for a packet whose path has already ended, so undo, retraction and stomp are applied. -/
  | frameFailAfterPath (pkt : Nat)
  /-- REMOTE_UNDO_TIMEOUT (R541): A home releases a pending remote undo entry that has had no resolution within RESOLVE_US. -/
  | remoteUndoTimeout (src : Nat) (ptag : Nat)
  /-- CSC_ERV_PROFILE_SELECT (R543): CSC_ERV_PROFILE is written and MODE is set. -/
  | cscErvProfileSelect (v : Nat)
  /-- TX_FRAME_START (R558): A port's scheduler selects the eligible head with the least finish tag and starts its transmission. -/
  | txFrameStart (port : Nat) (frac : Nat) (ecc : Ecc) (cell : Nat)
  /-- TX_FRAME_END (R536): A frame's transmission ends, which releases its cells and completes any EMIT. -/
  | txFrameEnd (port : Nat)
  /-- LAUNCH_TIME_REACHED (R562): Lattice time reaches an EMIT frame's LAUNCH, and the frame becomes eligible. -/
  | launchTimeReached (txq : Nat)
  /-- GCL_COMMIT (R567): SLC_GCL_CTRL.COMMIT copies the administrative list to a pending list. -/
  | gclCommit (port : Nat)
  /-- GCL_DISABLE (R567): Writing gate-list EN 0 opens every gate and discards a pending list. -/
  | gclDisable (port : Nat)
  /-- GCL_ACTIVATION (R567): A pending gate list becomes operative at its activation time. -/
  | gclActivation (port : Nat)
  /-- GATE_ENTRY_CHANGE (R564): A gate list entry's interval ends or a cycle starts, which changes which gates are open. -/
  | gateEntryChange (port : Nat)
  /-- WINDOW_OVERSIZE_DROP (R566): A head frame longer than every window, that has been head for CYCLE, is dropped. -/
  | windowOversizeDrop (txq : Nat)
  /-- SLC_PPROFILE_SELECT (R571): A port profile is written and its expansion is written to its queues and gate list. -/
  | slcPprofileSelect (port : Nat) (v : Nat)
  /-- SLC_HPROFILE_SELECT (R572): The host-bound profile is written and its expansion is written. -/
  | slcHprofileSelect (v : Nat)
  /-- GFT_LOAD (R583): The GFT_LOAD command checks a model image and places it in the shadow slot. -/
  | gftLoad (cmd : Nat) (src : HostRead) (ends : Bool)
  /-- GFT_GRAFT (R588): The GFT_GRAFT command arms the shadow for a tally or time graft, or cancels an armed one. -/
  | gftGraft (cmd : Nat)
  /-- GFT_DISCARD (R606): The GFT_DISCARD command empties the shadow slot. -/
  | gftDiscard (cmd : Nat)
  /-- GFT_EXPORT (R607): The GFT_EXPORT command writes the live or shadow model as an image. -/
  | gftExport (cmd : Nat)
  /-- GFT_LPREPARE (R591): The GFT_LPREPARE command starts a lattice graft by sending G_PREPARE to every participant. -/
  | gftLprepare (cmd : Nat)
  /-- GFT_LABORT (R591): The GFT_LABORT command aborts the lattice graft that this module coordinates. -/
  | gftLabort (cmd : Nat)
  /-- GFT_LEARN (R606): The GFT_LEARN command pauses or resumes learning, or resets the learning state. -/
  | gftLearn (cmd : Nat)
  /-- G_PREPARE (R591): A participant receives G_PREPARE, checks its shadow and votes. -/
  | gPrepare (msg : Nat)
  /-- G_VOTE (R594): The coordinator receives a vote and decides COMMIT or ABORT when the votes allow. -/
  | gVote (msg : Nat)
  /-- G_DECIDE (R591): A participant receives COMMIT and arms at Tc, or receives ABORT and returns to READY. -/
  | gDecide (msg : Nat)
  /-- G_DONE (R593): The coordinator receives G_DONE and completes GFT_LPREPARE when all have reported. -/
  | gDone (msg : Nat)
  /-- GFT_PROFILE_SELECT (R604): GFT_PROFILE is written and its expansion is written to GFT_CFG. -/
  | gftProfileSelect (v : Nat)
  /-- SH_INSN (R487): A home performs a remote X.SHRD or X.SHWU. -/
  | shInsn (msg : Nat)
  /-- RD_RSP (R454): A read response completes the waiting load. -/
  | rdRsp (msg : Nat)
  /-- WR_ACK (R454): A write acknowledgement completes a posted remote store. -/
  | wrAck (msg : Nat)
  /-- AMO_RSP (R454): An AMO response returns the old value to the waiting thread. -/
  | amoRsp (msg : Nat)
  /-- SH_INSN_RSP (R487): A sheaf instruction response completes the waiting X.SHRD or X.SHWU. -/
  | shInsnRsp (msg : Nat)
  /-- TRACE (R668): A collector receives TRACE records and writes them to its own destination, or discards them. -/
  | trace (msg : Nat)
  /-- CNT_SNAP (R661): The CNT_SNAP command reads counter ranges coherently from the live or shadow bank. -/
  | cntSnap (cmd : Nat) (src : HostRead)
  /-- CNT_CLEAR (R662): The CNT_CLEAR command zeroes the event counters of the masked blocks. -/
  | cntClear (cmd : Nat)
  /-- TRACE_FLUSH (R663): The TRACE_FLUSH command completes once every earlier staged record has been written. -/
  | traceFlush (cmd : Nat)
  /-- HANG_ANALYZE (R672): The HANG_ANALYZE command builds and writes the wait-for graph. -/
  | hangAnalyze (cmd : Nat)
  /-- GLN_PROFILE_SELECT (R674): GLN_PROFILE is written and its expansion is written to GLN_TRACE_CFG. -/
  | glnProfileSelect (v : Nat)
  /-- PATROL_READ (R680): A scrub patrol read corrects a word, or writes the poison code into it. -/
  | patrolRead (mem : Nat) (addr : Nat) (ecc : Ecc)
  /-- THERMAL_CLEAR (R688): The hotspot has read 95 °C or less for 10 s, and cause THERMAL ends. -/
  | thermalClear (temp : Int)
  /-- SELFTEST_COMPLETE (R693): The self-test ends: failed units stay gated, and ENGINE_UE ends. -/
  | selftestComplete (failed : List Nat)
  /-- BYPASS_CMD (R690): Writing ERR_BYPASS_CTRL.CMD enters or ends cause COMMAND. -/
  | bypassCmd (v : Nat)
  /-- ERR_INJECT (R696): ERR_INJECT with the key arms one injected error for the next read of a memory. -/
  | errInject (v : Nat)
  /-- ERR_PROFILE_SELECT (R694): ERR_PROFILE is written and its expansion is written to ERR_CFG and ERR_SCRUB. -/
  | errProfileSelect (v : Nat)
  /-- BAD_ACCESS (R701): A BAR0 access to an unpopulated offset, or of a bad width, is ignored and recorded. -/
  | badAccess (write : Bool) (off : Nat) (width : Nat)
  /-- GLB_TIME_SET (R715): A write to GLB_TIME_SET sets lattice time on a root or a stand-alone module. -/
  | glbTimeSet (v : Nat)
  /-- PART_APPLY (R718): APPLY with the key checks the conditions and starts a partition apply, or is refused. -/
  | partApply (v : Nat)
  /-- GLB_PART_PROFILE_SELECT (R725): GLB_PART_PROFILE is written and stages its partition sizes. -/
  | glbPartProfileSelect (v : Nat)
  /-- PROFILE_EXPANSION_COMPLETE (R708): An asynchronous profile expansion finishes, and the block's GLB_PEND bit clears. -/
  | profileExpansionComplete (blk : Nat)
  /-- REGISTER_WRITE (R710): A BAR0 write to a register with no row of its own is applied under its access code and write condition. -/
  | registerWrite (off : Nat) (data : Bytes)
  /-- FALM_N_CHANGE (R88): The field alarm input FALM_N changes level, so the field end sets or clears FALM_IN and sends FIELD_ALARM. -/
  | falmNChange (low : Bool)
  /-- REF_PRESENCE_CHANGE (R66): REF10_IN appears or disappears, and the field end sends REF_STATE at once. -/
  | refPresenceChange (present : Bool)
  /-- CBL_PRES_CHANGE (R54): CBL_PRES_N of a Felgen connector changes, and V3P3_CBL to that connector is switched on or off. -/
  | cblPresChange (conn : Nat) (low : Bool)
  /-- FLIT_RECEIVE (R620): A Felgen group is corrected and its flits are checked; DATA flits are accepted in order, or discarded with a NAK. -/
  | flitReceive (port : Nat) (frac : Nat) (group : Bytes)
  /-- NAK_RECEIVE (R620): A received NAK makes the sender replay from ACK + 1. -/
  | nakReceive (port : Nat)
  /-- RETRAIN_START (R621): Retry limits, loss of lock or LAT_LINK start a retrain, and the credits go in transit. -/
  | retrainStart (port : Nat) (lossOfLock : Bool)
  /-- RETRAIN_COMPLETE (R622): A retrain completes, credits are restored and the replay buffer is resent. -/
  | retrainComplete (port : Nat)
  /-- TRAINING_START (R623): A port begins a training attempt. -/
  | trainingStart (port : Nat)
  /-- TRAINING_TIMEOUT (R623): A training attempt exceeds 500 ms, and the port goes DOWN. -/
  | trainingTimeout (port : Nat)
  /-- TRAINING_RETRY (R623): After 1 s a DOWN port with EN 1 tries training again. -/
  | trainingRetry (port : Nat)
  /-- TRAIN (R625): A TRAIN record is received and checked; the link comes UP or quarantines. -/
  | train (port : Nat)
  /-- TRAIN_RESEND (R624): Every 10 ms an UP or quarantined port sends its TRAIN record again. -/
  | trainResend (port : Nat)
  /-- FLG_CONFIG_WRITE (R627): A write to FLG_ID, FLG_BASIC, FLG_USERHASH or FLG_PORT_CFG retrains the ports concerned. -/
  | flgConfigWrite (off : Nat) (v : Nat)
  /-- LSA (R638): A received LSA that is newer is kept and forwarded. -/
  | lsa (msg : Nat) (info : LsaInfo)
  /-- SYNC_SEND (R641): Every 1 ms a member sends SYNC to its parent. -/
  | syncSend (frac : Nat)
  /-- SYNC (R641): A parent receives SYNC and answers with SYNC_RSP. -/
  | sync (port : Nat) (frac : Nat)
  /-- SYNC_RSP (R642): A SYNC_RSP updates the offset estimate, which steps or slews lattice time and judges time-suspect. -/
  | syncRsp (port : Nat)
  /-- RD (R634): A remote read request is performed at the target and answered. -/
  | rd (msg : Nat) (ecc : Ecc)
  /-- WR (R634): A remote write request is performed and acknowledged. -/
  | wr (msg : Nat)
  /-- AMO_REQUEST (R634): A remote AMO, CAS or SADD request is performed indivisibly and answered. -/
  | amoRequest (msg : Nat) (ecc : Ecc)
  /-- SH_FETCH (R636): A home performs a remote sheaf fetch with the carried epoch and KVDESC. -/
  | shFetch (msg : Nat) (ecc : Ecc)
  /-- SH_COMMIT (R636): A home performs a remote sheaf commit. -/
  | shCommit (msg : Nat)
  /-- SH_RESOLVE (R635): A home matches a RELEASE or COMPENSATE to a pending undo entry by SRC and PTAG. -/
  | shResolve (msg : Nat)
  /-- SH_RESOLVE_HOLD_TIMEOUT (R635): A resolution held before its request is discarded after RESOLVE_US. -/
  | shResolveHoldTimeout (src : Nat) (ptag : Nat)
  /-- SH_FETCH_RSP (R636): A sheaf fetch response from the home delivers the sheaf to the waiting packet. -/
  | shFetchRsp (msg : Nat)
  /-- SH_ACK (R636): A sheaf commit acknowledgement arrives from the home. -/
  | shAck (msg : Nat)
  /-- NACK (R631): A NACK ends a remote request as refused or unreachable. -/
  | nack (msg : Nat)
  /-- L_RESET (R649): A member receives L_RESET and schedules a warm reset, or resets at once if late. -/
  | lReset (msg : Nat)
  /-- LAT_TOPOLOGY (R648): The LAT_TOPOLOGY command writes the reachability and port states of every member. -/
  | latTopology (cmd : Nat)
  /-- LATTICE_RESET (R649): The LATTICE_RESET command sends L_RESET to every reachable member. -/
  | latticeReset (cmd : Nat)
  /-- LAT_LINK (R648): The LAT_LINK command disables, enables or retrains a Felgen port. -/
  | latLink (cmd : Nat)
  /-- LAT_RESYNC (R642): The LAT_RESYNC command allows one time step at the next SYNC. -/
  | latResync (cmd : Nat)
  /-- FLG_PROFILE_SELECT (R646): FLG_PROFILE is written and its expansion is written to the port set-up. -/
  | flgProfileSelect (v : Nat)
  /-- LSA_AGE_EXPIRY (R638): A member's newest LSA becomes 3 s old, so that member is no longer reachable; routes are recomputed and UNREACH is set. -/
  | lsaAgeExpiry (member : Nat)
  /-- SLOT_12V_APPLIED (R94): Slot 12 V appears, VSTBY comes up and the steward starts. -/
  | slot12vApplied
  /-- SLOT_12V_REMOVED (R99): Slot 12 V is removed: everything stops, the wake-fail hold and the eFuse state end, and the power enable setting returns to ON. -/
  | slot12vRemoved
  /-- POWER_ENABLE_QUALIFIED (R94): Slot 12 V and PWR have been in range with the 600 W class for 10 ms and the enable setting is ON, so power-up begins. -/
  | powerEnableQualified
  /-- RAIL_ENABLE (R95): 1 ms after the previous rail reports power-good, the steward enables the next rail. -/
  | railEnable
  /-- RAIL_POWER_GOOD (R95): An enabled rail reports power-good. -/
  | railPowerGood
  /-- RAIL_WAKE_TIMEOUT (R98): A rail has not reported power-good 20 ms after its enable, which is a wake failure. -/
  | railWakeTimeout
  /-- PLL_LOCK (R96): The engine PLL locks and the steward releases the engine with a cold reset. -/
  | pllLock
  /-- PLL_LOCK_TIMEOUT (R98): The PLL has not locked within 5 ms, which is a wake failure of part 0x10. -/
  | pllLockTimeout
  /-- WAKE_RETRY (R98): 100 ms after a wake failure, the steward restarts sequencing from rail 2. -/
  | wakeRetry
  /-- POWER_DOWN_START (R100): A power-down begins: the engine is held in reset and VFLD is disabled first. -/
  | powerDownStart
  /-- PWR_UNDERVOLTAGE (R57): PWR has stayed below 10.8 V for 1 ms, which starts a power-down. -/
  | pwrUndervoltage
  /-- EFUSE_OPEN (R102): A failed rail is still above its off threshold 100 ms after its disable, and the input eFuse opens. -/
  | efuseOpen
  /-- OFF_TIME_END (R103): The 500 ms off time ends, and power-up begins again if enable is present. -/
  | offTimeEnd
  /-- BOOT_OK (R154): The engine reports BOOT_OK to the steward after its boot ROM has checked the image. -/
  | bootOk
  /-- BOOT_TIMEOUT (R154): No BOOT_OK has arrived within 2 s of release, so the steward cold-resets with the other copy or leaves the engine in recovery. -/
  | bootTimeout
  /-- PLL_LOSS (R125): PLL lock is lost for more than 1 µs, causing a cold reset with cause PLL_LOSS. -/
  | pllLoss
  /-- WARM_RESET_COMPLETE (R116): The warm reset completes within 20 ms and BUSY clears. -/
  | warmResetComplete
  /-- LATTICE_RESET_TIME (R118): Lattice time reaches the named reset time and the member performs a warm reset. -/
  | latticeResetTime
  /-- HEARTBEAT (R134): The steward sends its 100 ms heartbeat, and the engine clears ABSENT. -/
  | heartbeat
  /-- STEWARD_ABSENT_TIMEOUT (R134): 5 s pass without a heartbeat, and the engine sets ABSENT. -/
  | stewardAbsentTimeout
  /-- WATCHDOG_KICK (R143): Steward firmware kicks the hardware watchdog. -/
  | watchdogKick
  /-- WATCHDOG_EXPIRY (R143): The watchdog expires 2 s after the last kick: fans go to 100 %, regulators latch and the steward restarts. -/
  | watchdogExpiry
  /-- STEWARD_RESUME (R144): The restarted steward resumes monitoring, adopts the rail states and logs the restart. -/
  | stewardResume
  /-- MAILBOX_TIMEOUT (R150): The steward has not answered within the request's limit plus 100 ms, and the engine ends the request with NOT_READY. -/
  | mailboxTimeout
  /-- LABEL_WRITE_START (R73): The steward starts the next queued page write: shadow page, then a PENDING journal record. -/
  | labelWriteStart
  /-- LABEL_WRITE_COMMIT (R73): A page write finishes with the target page, its CRC and the journal marked DONE, and any read waiting on that page is served. -/
  | labelWriteCommit
  /-- FW_SESSION_TIMEOUT (R156): A session with no FW_DATA for 60 s is aborted. -/
  | fwSessionTimeout
  /-- KOL_TRIGOUT_ARM (R81): KOL_TRIGOUT_CMD.ARM arms the trigger output at the captured KOL_TRIGOUT_TIME. -/
  | kolTrigoutArm
  /-- KOL_TRIGOUT_CANCEL (R81): KOL_TRIGOUT_CMD.CANCEL disarms any armed trigger. -/
  | kolTrigoutCancel
  /-- TRIGGER_FIRE (R68): Lattice time reaches the armed time, and the trigger pulse is driven on E1 or sent as TRIGGER_OUT. -/
  | triggerFire
  /-- KOL_LINK_LOST (R65): 30 ms pass without a valid Kolber frame, so LINK_UP clears and LINK_LOST is set. -/
  | kolLinkLost
  /-- VFLD_OVERCURRENT (R88): VFLD_OUT exceeds 150 mA, so the field end switches it off and reports VFLD_OC. -/
  | vfldOvercurrent
  /-- FIELD_ALARM_REPEAT (R88): While any alarm bit is set, the field end repeats FIELD_ALARM every 100 ms. -/
  | fieldAlarmRepeat
  /-- LABEL_READ_RETRY (R89): The field end retries an unanswered LABEL_READ after 10 ms, at most three times. -/
  | labelReadRetry
  /-- DESCRIPTOR_FETCH (R193): In a fetch turn, the module issues descriptor reads from rings with slots in transit, within burst, quota and held limits. -/
  | descriptorFetch
  /-- HOST_RECORD_WRITE (R199): The host scheduler writes the head record of the selected host-bound queue to its ring. -/
  | hostRecordWrite
  /-- HIF_PROFILE_EXPANSION (R206): Once every named ring reads DISABLED, the HIF expansion is written and its rings are enabled. -/
  | hifProfileExpansion
  /-- ORCHARD_ADMIT (R391): A backpressured ORCHARD step is admitted once the backlog allows it. -/
  | orchardAdmit
  /-- TABLE_SWITCH_EFFECT (R257): A pending switch takes effect at its tally boundary or time, and the shadow bank becomes live. -/
  | tableSwitchEffect
  /-- GENERATION_RETIRED (R258): No packet holds the retiring generation any more, so the bank becomes SHADOW. -/
  | generationRetired
  /-- SHEAF_MIGRATION_START (R323): A demotion or promotion reserves a destination way and starts copying a sheaf between tiers. -/
  | sheafMigrationStart
  /-- SLOW_PATH_PROCESS (R515): The garner processes a queued frame whose status is known, using the action for its reason. -/
  | slowPathProcess
  /-- SAMPLE_INSTANT (R569): A sampling instant writes depth and delay samples of the selected queues. -/
  | sampleInstant
  /-- GRAFT_TAKES_EFFECT (R585): At T the shadow model becomes LIVE and the former LIVE model becomes RETIRING. -/
  | graftTakesEffect
  /-- RETIRING_MODEL_RELEASED (R585): No packet, item or thread of the retiring epoch remains, so its model is released. -/
  | retiringModelReleased
  /-- VOTE_DEADLINE (R591): The vote deadline passes with a vote missing, and the coordinator decides ABORT. -/
  | voteDeadline
  /-- INDOUBT_TIMEOUT (R592): A LOCKED participant has no decision INDOUBT_US after Tc and returns to READY. -/
  | indoubtTimeout
  /-- LEARNING_STEP_START (R598): BATCH new rows are in the sample ring, so a learning step copies the batch and issues the gradient list. -/
  | learningStepStart
  /-- LEARNING_STEP_COMPLETE (R599): The gradient list completes and the optimiser updates every adaptive tensor. -/
  | learningStepComplete
  /-- LEARNED_PREPARATION (R601): The learning loop builds a learned image in the shadow and arms it with MODE TALLY. -/
  | learnedPreparation
  /-- LSA_FLOOD_TIMER (R638): The lattice manager floods its LSA every 1 s and on each port state change. -/
  | lsaFloodTimer
  /-- ROUTE_RECOMPUTE (R638): The lattice manager recomputes both route tables after the LSAs change. -/
  | routeRecompute
  /-- TIME_SUSPECT_TIMEOUT (R643): No SYNC_RSP has arrived for 10 ms, and the member becomes time-suspect. -/
  | timeSuspectTimeout
  /-- PPS_LOST (R640): A PPS root has had no PPS edge for 2 s and falls back to REF. -/
  | ppsLost
  /-- TALLY_BOUNDARY (R658): At a periodic or triggered boundary, tally counters and high-water marks latch and restart, and TALLY is written. -/
  | tallyBoundary
  /-- HANG_CHECK (R671): Every 10 µs the gleaner checks the wait registers and flags waits older than US. -/
  | hangCheck
  /-- PC_SAMPLE (R664): Every 2^PC_LOG2 cycles each busy rill core samples one context into a PC record. -/
  | pcSample
  /-- TRACE_DRAIN (R670): Staged trace records drain to the region, host buffer or collector, wrapping or stopping when full. -/
  | traceDrain
  /-- ERR_BYPASS_ACK (R693): Writing ACK while ENGINE_UE is active starts the self-test. -/
  | errBypassAck
  /-- RAIL_LOST (R688): The steward reports RAIL_LOST, and cause RAIL becomes active. -/
  | railLost
  /-- RAIL_OK_QUALIFIED (R688): RAIL_OK has held for 1 s, and cause RAIL ends. -/
  | railOkQualified
  /-- PART_APPLY_COMPLETE (R719): The apply makes the sizes live, zeroes the granary and completes. -/
  | partApplyComplete
  /-- MAILBOX_ANSWER (R149): The steward answers a mailbox request into STW_MB_DATA and sets DONE, STATUS, RSP_LEN and MB_DONE. -/
  | mailboxAnswer
  /-- PERST_N_DEASSERT (R97): PERST_N is deasserted, which releases the PCIe end point from reset so that link training can begin. -/
  | perstNDeassert
  /-- RAIL_OK (R688): The steward reports RAIL_OK; this starts the 1 s qualification that ends cause RAIL, and a STEWARD error record is written. -/
  | railOk
  /-- LPREPARE_INDOUBT_EXPIRY (R593): INDOUBT_US after Tc, the coordinator completes GFT_LPREPARE even though some participants have not sent G_DONE. -/
  | lprepareIndoubtExpiry
deriving DecidableEq, Repr

end Sys2Proof
end

