-- ==== Sys2Proof/Decode.lean ====
section
/-!
DEFINITION. Decode.lean: the command that a word spells. The operation table gives no row any bits: the block takes
commands, not instruction words.
-/
namespace Sys2Proof

/-- The command a word of the table's bits spells: none, as no row has bits. -/
def decodeTableWord (_nbits _w : Nat) : Option Instr := none

end Sys2Proof
end

