-- ==== Sys2Proof/Config.lean ====
section
/-!
DEFINITION. Config.lean: what one module fixes, and the values the specification leaves open.
A constant with a body is a reset value that a table gives as a word ("Fixed", "Label", "Image", "Calibration",
R704) or a dash; the assumption log names each. A constant without a body is a free value: nothing can be proved of it.
-/
namespace Sys2Proof.Config

/-- GLB_ID.VENDOR, "Fixed" (DESIGN CHOICE, log entry 5). -/
def pciVendor : Nat := 0
/-- GLB_ID.MODREV, "Label" (DESIGN CHOICE, log entry 5). -/
def modRev : Nat := 0
/-- GLB_CAP.BAR4, "Label": the window is present (DESIGN CHOICE, log entry 5). -/
def bar4Present : Nat := 1
/-- HIF_LINK.SPEED: 3 is 64 GT/s (DESIGN CHOICE, log entry 5). -/
def pcieSpeed : Nat := 3
/-- HIF_LINK.WIDTH: lanes trained (DESIGN CHOICE, log entry 5). -/
def pcieWidth : Nat := 16
/-- GAR_VER.FW, "Image" (DESIGN CHOICE, log entry 5). -/
def garnerVersion : Nat := 0x0100
/-- KOL_CAL delays, "Calibration" (DESIGN CHOICE, log entry 5). -/
def calDelay : Nat := 0

/-- A value the specification leaves open: `what` says which one, `n` which occurrence. It has no body (log entry 2). -/
opaque free (what n : Nat) : Nat

/-! Tags of the open values. -/

/-- Bytes of a steward event-log entry (log entry 9). -/
def fEventLog : Nat := 1
/-- Power state, boot state and boot copy codes of POWER_STATE (log entry 9). -/
def fPowerState : Nat := 2
/-- Bytes and lengths of the MFR fields of label page 0 (log entry 9). -/
def fMfr : Nat := 3
/-- Bytes of FW_STATUS (log entry 9). -/
def fFwStatus : Nat := 4
/-- Factory calibration records (log entry 9). -/
def fFactoryCal : Nat := 5
/-- Which user record holds the edge-line delays, and KOL_CAL computed from its bytes (log entry 9). -/
def fKolCal : Nat := 6
/-- The version found in a steward firmware image (log entry 9). -/
def fStewardVersion : Nat := 7
/-- What a limit that a point does not have reads as (log entry 9). -/
def fNoLimit : Nat := 8

/-- The syndrome of a memory error (log entry 10). -/
def fSyndrome : Nat := 10

/-- Tile slots a working mill holds and has in transit (log entry 16). -/
def fMilSlots : Nat := 11

/-- The square root of a negative second moment, as a binary32 code (log entry 18). -/
def fNegSqrt : Nat := 12

/-- Where in the intake partition a frame's cell lies (log entry 10). -/
def fCellAddr : Nat := 13

/-- The bytes that GAR_INFO writes (log entry 19). -/
def fGarInfo : Nat := 14

/-- Fields of a fragment header that the frame does not hold whole (log entry 20). -/
def fFrag : Nat := 15

/-- Within which sixteenth of a tick a DATA flit leaves (log entry 22). -/
def fTxFrac : Nat := 16

/-- The bytes of an LSA's data: their layout is not given (log entry 23). -/
def fLsa : Nat := 17

/-- Where the ring index and the opcode of a CMD_LOST record overlap (log entry 24). -/
def fLostRing : Nat := 18

/-- Whether a customer image passes its header and CRC check: the header's layout is not given (log entry 19). -/
opaque custImageOk (image : List (BitVec 8)) : Bool

end Sys2Proof.Config
end

