-- ==== Sys2Proof/Machine/Bits.lean ====
section
/-!
DEFINITION. Bits.lean: bit fields, byte order and sign, used by every family.
-/
namespace Sys2Proof.Machine

/-- Bits `hi:lo` of a number. -/
def bitsOf (n hi lo : Nat) : Nat := (n >>> lo) % 2 ^ (hi + 1 - lo)

/-- Bit `i` of a number. -/
def bitOf (n i : Nat) : Bool := (n >>> i) % 2 == 1

/-- The number with bits `hi:lo` replaced by the low bits of `v`. -/
def withBits (n hi lo v : Nat) : Nat :=
  n - (bitsOf n hi lo) * 2 ^ lo + (v % 2 ^ (hi + 1 - lo)) * 2 ^ lo

/-- A flag as a number. -/
def bit (b : Bool) : Nat := if b then 1 else 0

/-- The value of bytes whose first is the least significant (R13: multi-byte fields are little-endian). -/
def leNat : Bytes → Nat
  | [] => 0
  | b :: bs => b.toNat + 256 * leNat bs

/-- `k` bytes of a number, the least significant first. -/
def natLE (k n : Nat) : Bytes :=
  match k with
  | 0 => []
  | k + 1 => BitVec.ofNat 8 n :: natLE k (n / 256)

/-- The value of bytes in network order, the most significant first. -/
def beNat (bs : Bytes) : Nat := leNat bs.reverse

/-- `k` bytes of a number in network order. -/
def natBE (k n : Nat) : Bytes := (natLE k n).reverse

/-- `n` bytes from offset `off`; bytes past the end are left out. -/
def slice (bs : Bytes) (off n : Nat) : Bytes := (bs.drop off).take n

/-- The little-endian field of `n` bytes at `off`; bytes past the end read as zero. -/
def leAt (bs : Bytes) (off n : Nat) : Nat := leNat (slice bs off n)

/-- The network-order field of `n` bytes at `off`. -/
def beAt (bs : Bytes) (off n : Nat) : Nat := beNat (slice bs off n)

/-- The byte at `off` as a number; zero past the end. -/
def byteAt (bs : Bytes) (off : Nat) : Nat := (bs.getD off 0).toNat

/-- The bytes with those from `off` on replaced by `new`, the length kept. -/
def patch (bs : Bytes) (off : Nat) (new : Bytes) : Bytes :=
  (bs.take off ++ new ++ bs.drop (off + new.length)).take bs.length

/-- Exactly `n` bytes: cut, or padded with zero bytes. -/
def fitTo (n : Nat) (bs : Bytes) : Bytes := bs.take n ++ List.replicate (n - bs.length) 0

/-- The two's-complement value of the low `w` bits. -/
def sextOf (w n : Nat) : Int :=
  let v := n % 2 ^ w
  if v < 2 ^ (w - 1) then (v : Int) else (v : Int) - 2 ^ w

/-- The `w`-bit two's-complement code of an integer. -/
def wrapInt (w : Nat) (i : Int) : Nat := (i % (2 ^ w : Int)).toNat

/-- Sixty-four-bit value of a number, wrapping. -/
def wrap64 (n : Nat) : Nat := n % 2 ^ 64

/-- Text as ASCII bytes. -/
def ascii (s : String) : Bytes := s.toList.map fun c => BitVec.ofNat 8 c.toNat

/-- Element `i` of a list replaced; unchanged where `i` is past the end. -/
def setAt {α : Type} (l : List α) (i : Nat) (v : α) : List α := l.set i v

/-- Element `i` of a list changed by `f`. -/
def modAt {α : Type} (l : List α) (i : Nat) (f : α → α) : List α := l.modify i f

/-- `ceil (a / b)`. -/
def ceilDiv (a b : Nat) : Nat := (a + b - 1) / b

end Sys2Proof.Machine
end

