-- ==== Sys2Proof/Machine/RegMap.lean ====
section
/-!
DEFINITION. RegMap.lean: every register of BAR0, transcribed from the register tables of the chapters
(R90, R131, R172, R216, R254, R255, R292, R336, R368, R399, R434, R474, R531, R546, R578, R611, R651, R678, R699, R728):
where it lies, how wide it is, what each bit's access code is, and what it holds after reset.
-/
namespace Sys2Proof.Machine

/-- What kind of register a row holds (R652: the three kinds of counter). -/
inductive RegKind where
  | setup | event | tally | always
deriving DecidableEq, Repr

/-- One row of a register table: element (i, j) lies at `base + s1*i + s2*j`. -/
structure RegRow where
  blk : Nat
  base : Nat
  s1 : Nat
  n1 : Nat
  s2 : Nat
  n2 : Nat
  width : Nat
  rw : Nat
  w1c : Nat
  ro : Nat
  reset : Nat
  kind : RegKind
deriving DecidableEq, Repr

/-- A field of a register: the register's offset and its bits. -/
structure Fld where
  off : Nat
  hi : Nat
  lo : Nat
deriving DecidableEq, Repr

/-- Register rows of block GLB (21_registers.md R728). -/
def regRowsGlb : List RegRow := [
  ⟨0, 0x0, 0x8, 1, 0x8, 1, 64, 0x0, 0x0, 0xFFFFFFFFFFFF, 0x1041600000 + Config.pciVendor * 0x1 + Config.modRev * 0x10000000000, .setup⟩,
  ⟨0, 0x8, 0x8, 1, 0x8, 1, 32, 0x0, 0x0, 0xFF0FF1, 0x400880 + Config.bar4Present * 0x1, .setup⟩,
  ⟨0, 0xC, 0x8, 1, 0x8, 1, 32, 0x0, 0x0, 0x1F, 0x10, .setup⟩,
  ⟨0, 0x10, 0x8, 1, 0x8, 1, 64, 0x0, 0x0, 0xFFFFFFFFFFFFFFFF, 0x0, .setup⟩,
  ⟨0, 0x18, 0x8, 1, 0x8, 1, 64, 0x0, 0x0, 0x0, 0x0, .setup⟩,
  ⟨0, 0x20, 0x8, 1, 0x8, 1, 64, 0xFFFFFFFFFFFFFFFF, 0x0, 0x0, 0x0, .setup⟩,
  ⟨0, 0x28, 0x8, 1, 0x8, 1, 32, 0x0, 0x0, 0xFFFFF, 0x0, .setup⟩,
  ⟨0, 0x2C, 0x8, 1, 0x8, 1, 32, 0x0, 0x1F, 0x0, 0x0, .setup⟩,
  ⟨0, 0x30, 0x8, 1, 0x8, 1, 32, 0x0, 0x0, 0x81FFFFFF, 0x0, .setup⟩,
  ⟨0, 0x40, 0x8, 1, 0x8, 1, 32, 0x7, 0x0, 0x0, 0x0, .setup⟩,
  ⟨0, 0x44, 0x8, 1, 0x8, 1, 32, 0xFFFFFFFF, 0x0, 0x0, 0x28086020, .setup⟩,
  ⟨0, 0x48, 0x8, 1, 0x8, 1, 32, 0xFFFF, 0x0, 0x0, 0x808, .setup⟩,
  ⟨0, 0x4C, 0x8, 1, 0x8, 1, 32, 0x0, 0x0, 0x0, 0x0, .setup⟩,
  ⟨0, 0x50, 0x8, 1, 0x8, 1, 32, 0x0, 0x0, 0xF01, 0x0, .setup⟩,
  ⟨0, 0x58, 0x8, 1, 0x8, 1, 64, 0x0, 0x0, 0xFFFFFFFFFFFF, 0xB8B088802000, .setup⟩,
  ⟨0, 0x60, 0x8, 1, 0x8, 1, 64, 0x0, 0x0, 0xFFFFFFFFFFFF, 0x80828086020, .setup⟩,
  ⟨0, 0x100, 0x8, 4, 0x8, 1, 64, 0x0, 0x0, 0x8000FFFFFFFFFFFF, 0x0, .event⟩]

/-- Register rows of block CLK (03_clocks_power_reset.md R131). -/
def regRowsClk : List RegRow := [
  ⟨1, 0x10000, 0x8, 1, 0x8, 1, 32, 0x0, 0x0, 0x3, 0x3, .setup⟩,
  ⟨1, 0x10008, 0x8, 1, 0x8, 1, 32, 0x7, 0x0, 0x0, 0x0, .setup⟩,
  ⟨1, 0x10010, 0x8, 1, 0x8, 1, 32, 0x7FFFF, 0x0, 0x0, 0x7FFFF, .setup⟩,
  ⟨1, 0x10018, 0x8, 1, 0x8, 1, 64, 0x0, 0x0, 0x3FFFFFFFFF, 0x2AAAAAAAAA, .setup⟩,
  ⟨1, 0x10020, 0x8, 1, 0x8, 1, 32, 0x0, 0x8007FFFF, 0x0, 0x0, .setup⟩,
  ⟨1, 0x10028, 0x8, 1, 0x8, 1, 32, 0x0, 0x0, 0xFFFFFFFF, 0xE4FAC688, .setup⟩,
  ⟨1, 0x10030, 0x8, 1, 0x8, 1, 32, 0x0, 0x0, 0x0, 0x0, .setup⟩,
  ⟨1, 0x10034, 0x8, 1, 0x8, 1, 32, 0x0, 0x0, 0x0, 0x0, .setup⟩,
  ⟨1, 0x10038, 0x8, 1, 0x8, 1, 32, 0x0, 0x2, 0x1, 0x0, .setup⟩,
  ⟨1, 0x1003C, 0x8, 1, 0x8, 1, 32, 0x0, 0x0, 0xF, 0x0, .setup⟩,
  ⟨1, 0x10100, 0x8, 4, 0x8, 1, 64, 0x0, 0x0, 0x8000FFFFFFFFFFFF, 0x0, .event⟩]

/-- Register rows of block HIF (05_host_rings.md R216). -/
def regRowsHif : List RegRow := [
  ⟨2, 0x100000, 0x8, 1, 0x8, 1, 32, 0x7, 0x0, 0x0, 0x0, .setup⟩,
  ⟨2, 0x100008, 0x8, 1, 0x8, 1, 64, 0xFFFFFFFFFFE00000, 0x0, 0x0, 0x0, .setup⟩,
  ⟨2, 0x100010, 0x8, 1, 0x8, 1, 32, 0x1F, 0x0, 0x0, 0x10, .setup⟩,
  ⟨2, 0x100014, 0x8, 1, 0x8, 1, 32, 0x0, 0x0, 0x7F, Config.pcieSpeed * 0x1 + Config.pcieWidth * 0x4, .setup⟩,
  ⟨2, 0x100018, 0x8, 1, 0x8, 1, 32, 0x0, 0x0, 0x1FFFF, 0x0, .setup⟩,
  ⟨2, 0x10001C, 0x8, 1, 0x8, 1, 32, 0x1F, 0x0, 0x0, 0x8, .setup⟩,
  ⟨2, 0x100020, 0x8, 1, 0x8, 1, 32, 0x80000FFF, 0x0, 0x0, 0x0, .setup⟩,
  ⟨2, 0x100024, 0x8, 1, 0x8, 1, 32, 0x0, 0x1F, 0x0, 0x0, .setup⟩,
  ⟨2, 0x100028, 0x8, 1, 0x8, 1, 32, 0x7FF, 0x0, 0x0, 0x0, .setup⟩,
  ⟨2, 0x100030, 0x8, 1, 0x8, 1, 64, 0x3F000000001, 0x0, 0x0, 0x0, .setup⟩,
  ⟨2, 0x100100, 0x8, 6, 0x8, 1, 64, 0x0, 0x0, 0x8000FFFFFFFFFFFF, 0x0, .event⟩,
  ⟨2, 0x101000, 0x4, 256, 0x4, 1, 32, 0x80000FFF, 0x0, 0x0, 0x0, .setup⟩,
  ⟨2, 0x102000, 0x8, 64, 0x8, 1, 64, 0x7FFDFFFFFFFF, 0x0, 0x0, 0x100000001, .setup⟩,
  ⟨2, 0x110000, 0x100, 64, 0x10, 8, 64, 0xFFFFFFFFFFFFF000, 0x0, 0x0, 0x0, .setup⟩,
  ⟨2, 0x110008, 0x100, 64, 0x10, 8, 64, 0xFFFFFFFFFFFFF000, 0x0, 0x0, 0x0, .setup⟩,
  ⟨2, 0x180000, 0x40, 4096, 0x40, 1, 64, 0xFFFFFFFFFFFFF000, 0x0, 0x0, 0x0, .setup⟩,
  ⟨2, 0x180008, 0x40, 4096, 0x40, 1, 64, 0xFFFFFFFFFFFFFFF8, 0x0, 0x0, 0x0, .setup⟩,
  ⟨2, 0x180010, 0x40, 4096, 0x40, 1, 32, 0x1FFFFFF, 0x0, 0x0, 0x0, .setup⟩,
  ⟨2, 0x180014, 0x40, 4096, 0x40, 1, 32, 0x3FFFF, 0x0, 0x0, 0x0, .setup⟩,
  ⟨2, 0x180018, 0x40, 4096, 0x40, 1, 32, 0x1, 0x0, 0x0, 0x0, .setup⟩,
  ⟨2, 0x18001C, 0x40, 4096, 0x40, 1, 32, 0x0, 0xC, 0x3, 0x0, .setup⟩,
  ⟨2, 0x180020, 0x40, 4096, 0x40, 1, 32, 0x0, 0x0, 0xFFFFFFFF, 0x0, .setup⟩,
  ⟨2, 0x180024, 0x40, 4096, 0x40, 1, 32, 0x0, 0x0, 0xFFFFFFFF, 0x0, .setup⟩,
  ⟨2, 0x180028, 0x40, 4096, 0x40, 1, 32, 0x0, 0x0, 0xFFFFFF, 0x0, .setup⟩,
  ⟨2, 0x180030, 0x40, 4096, 0x40, 1, 64, 0x0, 0x0, 0x8000FFFFFFFFFFFF, 0x0, .event⟩,
  ⟨2, 0x180038, 0x40, 4096, 0x40, 1, 64, 0x0, 0x0, 0x8000FFFFFFFFFFFF, 0x0, .event⟩]

/-- Register rows of block ITK (06_intake_thresher.md R254). -/
def regRowsItk : List RegRow := [
  ⟨3, 0x200000, 0x8, 1, 0x8, 1, 32, 0x7, 0x0, 0x0, 0x0, .setup⟩,
  ⟨3, 0x200008, 0x8, 1, 0x8, 1, 64, 0x0, 0x0, 0xFFFFF000FFFFF, 0x20000, .setup⟩,
  ⟨3, 0x200010, 0x8, 1, 0x8, 1, 32, 0x0, 0xF, 0x0, 0x0, .setup⟩,
  ⟨3, 0x200080, 0x4, 8, 0x4, 1, 32, 0x3, 0x0, 0x0, 0x0, .setup⟩,
  ⟨3, 0x200100, 0x40, 32, 0x40, 1, 32, 0x1, 0x0, 0x0, 0x0, .setup⟩,
  ⟨3, 0x200104, 0x40, 32, 0x40, 1, 32, 0xFFFDFF, 0x0, 0x0, 0x960000, .setup⟩,
  ⟨3, 0x200108, 0x40, 32, 0x40, 1, 32, 0x0, 0x0, 0xF, 0x0, .setup⟩,
  ⟨3, 0x20010C, 0x40, 32, 0x40, 1, 32, 0xFFFFFFFF, 0x0, 0x0, 0x0, .setup⟩,
  ⟨3, 0x210000, 0x100, 32, 0x100, 1, 64, 0, 0, 0xFFFFFFFFFFFFFFFF, 0, .always⟩,
  ⟨3, 0x210008, 0x100, 32, 0x100, 1, 64, 0, 0, 0xFFFFFFFFFFFFFFFF, 0, .always⟩,
  ⟨3, 0x210010, 0x100, 32, 0x100, 1, 64, 0, 0, 0x8000FFFFFFFFFFFF, 0, .event⟩,
  ⟨3, 0x210018, 0x100, 32, 0x100, 1, 64, 0, 0, 0x8000FFFFFFFFFFFF, 0, .event⟩,
  ⟨3, 0x210020, 0x100, 32, 0x100, 1, 64, 0, 0, 0x8000FFFFFFFFFFFF, 0, .event⟩,
  ⟨3, 0x210028, 0x100, 32, 0x100, 1, 64, 0, 0, 0x8000FFFFFFFFFFFF, 0, .event⟩,
  ⟨3, 0x210030, 0x100, 32, 0x100, 1, 64, 0, 0, 0x8000FFFFFFFFFFFF, 0, .event⟩,
  ⟨3, 0x210038, 0x100, 32, 0x100, 1, 64, 0, 0, 0x8000FFFFFFFFFFFF, 0, .event⟩,
  ⟨3, 0x210040, 0x100, 32, 0x100, 1, 64, 0, 0, 0x8000FFFFFFFFFFFF, 0, .event⟩,
  ⟨3, 0x210048, 0x100, 32, 0x100, 1, 64, 0, 0, 0x8000FFFFFFFFFFFF, 0, .event⟩,
  ⟨3, 0x210050, 0x100, 32, 0x100, 1, 64, 0, 0, 0xFFFFFFFFFFFFFFFF, 0, .always⟩,
  ⟨3, 0x210058, 0x100, 32, 0x100, 1, 64, 0, 0, 0xFFFFFFFFFFFFFFFF, 0, .always⟩,
  ⟨3, 0x210060, 0x100, 32, 0x100, 1, 64, 0, 0, 0x8000FFFFFFFFFFFF, 0, .event⟩,
  ⟨3, 0x210068, 0x100, 32, 0x100, 1, 64, 0, 0, 0x8000FFFFFFFFFFFF, 0, .event⟩,
  ⟨3, 0x210070, 0x100, 32, 0x100, 1, 64, 0, 0, 0x8000FFFFFFFFFFFF, 0, .event⟩,
  ⟨3, 0x210078, 0x100, 32, 0x100, 1, 64, 0, 0, 0xFFFFFFFFFFFFFFFF, 0, .always⟩]

/-- Register rows of block THR (06_intake_thresher.md R255). -/
def regRowsThr : List RegRow := [
  ⟨4, 0x300000, 0x8, 1, 0x8, 1, 32, 0x7, 0x0, 0x0, 0x0, .setup⟩,
  ⟨4, 0x300004, 0x8, 1, 0x8, 1, 32, 0xFFFFFFFC, 0x0, 0x0, 0x96AA6A98, .setup⟩,
  ⟨4, 0x300008, 0x8, 1, 0x8, 1, 32, 0x0, 0x1, 0x0, 0x0, .setup⟩,
  ⟨4, 0x300108, 0x8, 15, 0x8, 1, 64, 0x0, 0x0, 0x8000FFFFFFFFFFFF, 0x0, .event⟩,
  ⟨4, 0x300208, 0x8, 12, 0x8, 1, 64, 0x0, 0x0, 0x8000FFFFFFFFFFFF, 0x0, .event⟩]

/-- Register rows of block WNW (07_winnow_cascade.md R292). -/
def regRowsWnw : List RegRow := [
  ⟨5, 0x400000, 0x8, 1, 0x8, 1, 32, 0x0, 0x0, 0xFFFFFFFF, 0x0, .setup⟩,
  ⟨5, 0x400004, 0x8, 1, 0x8, 1, 32, 0x0, 0x0, 0xF, 0x0, .setup⟩,
  ⟨5, 0x400008, 0x8, 1, 0x8, 1, 32, 0x0, 0x0, 0xFFFFF, 0x0, .setup⟩,
  ⟨5, 0x400010, 0x8, 1, 0x8, 1, 64, 0x0, 0x0, 0xFFFFFFFFFFFFFFFF, 0x0, .setup⟩,
  ⟨5, 0x400018, 0x8, 1, 0x8, 1, 64, 0x0, 0x0, 0xFFFFFFFFFFFFFFFF, 0x0, .setup⟩,
  ⟨5, 0x400020, 0x8, 1, 0x8, 1, 32, 0x0, 0x7, 0x0, 0x0, .setup⟩,
  ⟨5, 0x400100, 0x8, 3, 0x8, 1, 64, 0x0, 0x0, 0x8000FFFFFFFFFFFF, 0x0, .event⟩,
  ⟨5, 0x410000, 0x8, 16384, 0x8, 1, 64, 0x0, 0x0, 0x800000FFFFFFFFFF, 0x0, .tally⟩]

/-- Register rows of block CSC (07_winnow_cascade.md R292, 15_early_verdicts.md R546). -/
def regRowsCsc : List RegRow := [
  ⟨6, 0x500000, 0x8, 1, 0x8, 1, 32, 0x7, 0x0, 0x0, 0x0, .setup⟩,
  ⟨6, 0x500004, 0x8, 1, 0x8, 1, 32, 0xFFFFF3F, 0x0, 0x0, 0x280000, .setup⟩,
  ⟨6, 0x500008, 0x8, 1, 0x8, 1, 32, 0x3FFFF, 0x0, 0x0, 0x0, .setup⟩,
  ⟨6, 0x50000C, 0x8, 1, 0x8, 1, 32, 0x0, 0xF, 0x0, 0x0, .setup⟩,
  ⟨6, 0x500100, 0x8, 8, 0x8, 1, 64, 0x0, 0x0, 0x8000FFFFFFFFFFFF, 0x0, .event⟩,
  ⟨6, 0x500200, 0x8, 1, 0x8, 1, 32, 0x7, 0x0, 0x0, 0x0, .setup⟩,
  ⟨6, 0x500204, 0x8, 1, 0x8, 1, 32, 0xFFFF0001, 0x0, 0x0, 0x3E80000, .setup⟩,
  ⟨6, 0x500208, 0x8, 1, 0x8, 1, 32, 0x0, 0x3, 0x0, 0x0, .setup⟩,
  ⟨6, 0x500210, 0x8, 1, 0x8, 1, 32, 0x0, 0x0, 0xFFFFF, 0x0, .setup⟩,
  ⟨6, 0x500300, 0x8, 7, 0x8, 1, 64, 0x0, 0x0, 0x8000FFFFFFFFFFFF, 0x0, .event⟩,
  ⟨6, 0x510000, 0x8, 1024, 0x8, 1, 64, 0x0, 0x0, 0x800000FFFFFFFFFF, 0x0, .tally⟩]

/-- Register rows of block SHF (08_sheaves.md R336). -/
def regRowsShf : List RegRow := [
  ⟨7, 0x600000, 0x8, 1, 0x8, 1, 32, 0x7, 0x0, 0x0, 0x0, .setup⟩,
  ⟨7, 0x600004, 0x8, 1, 0x8, 1, 32, 0xFFFFFF, 0x0, 0x0, 0xEA60, .setup⟩,
  ⟨7, 0x600008, 0x8, 1, 0x8, 1, 32, 0x3FF3FFF, 0x0, 0x0, 0x1001000, .setup⟩,
  ⟨7, 0x60000C, 0x8, 1, 0x8, 1, 32, 0xFFFF, 0x0, 0x0, 0x64, .setup⟩,
  ⟨7, 0x600010, 0x8, 1, 0x8, 1, 32, 0x0, 0x0, 0x80007FFF, 0x1, .setup⟩,
  ⟨7, 0x600018, 0x8, 1, 0x8, 1, 64, 0x0, 0x0, 0xFFFFFFF0003FF01, 0x0, .setup⟩,
  ⟨7, 0x600020, 0x8, 1, 0x8, 1, 32, 0x0, 0x1F, 0x0, 0x0, .setup⟩,
  ⟨7, 0x600040, 0x8, 3, 0x8, 1, 64, 0x0, 0x0, 0xFFFFFFFFFFFF, 0x0, .setup⟩,
  ⟨7, 0x600060, 0x8, 3, 0x8, 1, 32, 0x0, 0x0, 0xFFFFFFFF, 0x0, .setup⟩,
  ⟨7, 0x600100, 0x8, 19, 0x8, 1, 64, 0x0, 0x0, 0x8000FFFFFFFFFFFF, 0x0, .event⟩,
  ⟨7, 0x610000, 0x4, 16384, 0x4, 1, 32, 0x0, 0x0, 0x3FFF, 0x0, .setup⟩]

/-- Register rows of block ORC (10_orchard.md R399). -/
def regRowsOrc : List RegRow := [
  ⟨8, 0x700000, 0x8, 1, 0x8, 1, 32, 0x7, 0x0, 0x0, 0x0, .setup⟩,
  ⟨8, 0x700004, 0x8, 1, 0x8, 1, 32, 0xFFFFF, 0x0, 0x0, 0x4000, .setup⟩,
  ⟨8, 0x700008, 0x8, 1, 0x8, 1, 32, 0x0, 0x0, 0x31FFFFF, 0x3000000, .setup⟩,
  ⟨8, 0x700010, 0x8, 1, 0x8, 1, 64, 0x0, 0x0, 0x7F001FFFFF, 0x0, .setup⟩,
  ⟨8, 0x700018, 0x8, 1, 0x8, 1, 32, 0x0, 0xF, 0x0, 0x0, .setup⟩,
  ⟨8, 0x700100, 0x8, 1, 0x8, 1, 64, 0x0, 0x0, 0xFFFFFFFFFFFFFFFF, 0x0, .always⟩,
  ⟨8, 0x700108, 0x8, 9, 0x8, 1, 64, 0x0, 0x0, 0x8000FFFFFFFFFFFF, 0x0, .event⟩,
  ⟨8, 0x710000, 0x4, 4096, 0x4, 1, 32, 0x80000FFF, 0x0, 0x0, 0x20, .setup⟩,
  ⟨8, 0x720000, 0x8, 4096, 0x8, 1, 64, 0x0, 0x0, 0x800000FFFFFFFFFF, 0x0, .tally⟩]

/-- Register rows of block MIL (11_mill.md R434). -/
def regRowsMil : List RegRow := [
  ⟨9, 0x800000, 0x8, 1, 0x8, 1, 32, 0x7, 0x0, 0x0, 0x0, .setup⟩,
  ⟨9, 0x800004, 0x8, 1, 0x8, 1, 32, 0x807F1FFF, 0x0, 0x0, 0x80400400, .setup⟩,
  ⟨9, 0x800008, 0x8, 1, 0x8, 1, 32, 0x0, 0x1F, 0x0, 0x0, .setup⟩,
  ⟨9, 0x800010, 0x8, 4, 0x8, 1, 32, 0x0, 0x0, 0x1FFF1FFF, 0x0, .setup⟩,
  ⟨9, 0x800100, 0x8, 8, 0x8, 1, 64, 0x0, 0x0, 0x8000FFFFFFFFFFFF, 0x0, .event⟩,
  ⟨9, 0x800180, 0x8, 1, 0x8, 1, 64, 0x0, 0x0, 0xFFFFFFFFFFFFFFFF, 0x0, .always⟩,
  ⟨9, 0x800200, 0x8, 32, 0x8, 1, 32, 0x0, 0x0, 0x31F1F, 0x0, .setup⟩]

/-- Register rows of block NUM (09_numerics.md R368). -/
def regRowsNum : List RegRow := [
  ⟨10, 0x900000, 0x8, 1, 0x8, 1, 32, 0x7, 0x0, 0x0, 0x0, .setup⟩,
  ⟨10, 0x900004, 0x8, 1, 0x8, 1, 32, 0x1, 0x0, 0x0, 0x0, .setup⟩,
  ⟨10, 0x900008, 0x8, 1, 0x8, 1, 32, 0x0, 0xF, 0x0, 0x0, .setup⟩,
  ⟨10, 0x900100, 0x8, 5, 0x8, 1, 64, 0x0, 0x0, 0x8000FFFFFFFFFFFF, 0x0, .event⟩,
  ⟨10, 0x910000, 0x40, 256, 0x40, 1, 32, 0x3, 0x0, 0xFFFF00F4, 0xFFFF0000, .setup⟩,
  ⟨10, 0x910004, 0x40, 256, 0x40, 1, 32, 0xFFFFFFFF, 0x0, 0x0, 0x3E000000, .setup⟩,
  ⟨10, 0x910008, 0x40, 256, 0x40, 1, 32, 0xFFFF, 0x0, 0x0, 0x42, .setup⟩,
  ⟨10, 0x91000C, 0x40, 256, 0x40, 1, 32, 0x0, 0x0, 0xFFFFFFFF, 0x3F800000, .setup⟩,
  ⟨10, 0x910010, 0x40, 256, 0x40, 1, 32, 0x0, 0x0, 0xFF, 0x0, .setup⟩,
  ⟨10, 0x910014, 0x40, 256, 0x40, 1, 32, 0x0, 0x0, 0xFFFFFFFF, 0x0, .setup⟩,
  ⟨10, 0x910018, 0x40, 256, 0x40, 1, 32, 0x0, 0x0, 0xFFFFFFFF, 0x0, .setup⟩,
  ⟨10, 0x91001C, 0x40, 256, 0x40, 1, 32, 0x0, 0x0, 0xFFFFFFFF, 0x0, .setup⟩,
  ⟨10, 0x910020, 0x40, 256, 0x40, 1, 64, 0x0, 0x0, 0xFFFFFFFFFFFF, 0x0, .setup⟩,
  ⟨10, 0x910028, 0x40, 256, 0x40, 1, 64, 0x0, 0x0, 0x8000FFFFFFFFFFFF, 0x0, .setup⟩,
  ⟨10, 0x910030, 0x40, 256, 0x40, 1, 64, 0x0, 0x0, 0x8000FFFFFFFFFFFF, 0x0, .setup⟩,
  ⟨10, 0x910038, 0x40, 256, 0x40, 1, 32, 0x0, 0xF, 0x300, 0x0, .setup⟩]

/-- Register rows of block RIL (12_rills.md R474). -/
def regRowsRil : List RegRow := [
  ⟨11, 0xA00000, 0x8, 1, 0x8, 1, 32, 0x7, 0x0, 0x0, 0x0, .setup⟩,
  ⟨11, 0xA00004, 0x8, 1, 0x8, 1, 32, 0x3FFFFF, 0x0, 0x0, 0x380064, .setup⟩,
  ⟨11, 0xA00008, 0x8, 1, 0x8, 1, 32, 0xFFFF, 0x0, 0x0, 0x0, .setup⟩,
  ⟨11, 0xA00010, 0x8, 1, 0x8, 1, 32, 0xFFFFFFFF, 0x0, 0x0, 0x0, .setup⟩,
  ⟨11, 0xA00018, 0x8, 1, 0x8, 1, 32, 0x0, 0x7, 0x0, 0x0, .setup⟩,
  ⟨11, 0xA00040, 0x8, 8, 0x8, 1, 32, 0x0, 0x0, 0x7FF07FF, 0x400, .setup⟩,
  ⟨11, 0xA00100, 0x20, 8, 0x20, 1, 64, 0x0, 0x0, 0xFFFFFFFF000000FF, 0x0, .setup⟩,
  ⟨11, 0xA00108, 0x20, 8, 0x20, 1, 64, 0x0, 0x0, 0xFFFFFFFFFFFFFFFF, 0x0, .setup⟩,
  ⟨11, 0xA00110, 0x20, 8, 0x20, 1, 64, 0x0, 0x0, 0xFFFFFFFFFFFFFFFF, 0x0, .setup⟩,
  ⟨11, 0xA00200, 0x8, 1, 0x8, 1, 64, 0x0, 0x0, 0xFFFFFFFFFFFFFFFF, 0x0, .always⟩,
  ⟨11, 0xA00208, 0x8, 11, 0x8, 1, 64, 0x0, 0x0, 0x8000FFFFFFFFFFFF, 0x0, .event⟩]

/-- Register rows of block GAR (14_garner.md R531). -/
def regRowsGar : List RegRow := [
  ⟨12, 0xB00000, 0x8, 1, 0x8, 1, 32, 0x7, 0x0, 0x0, 0x0, .setup⟩,
  ⟨12, 0xB00008, 0x8, 1, 0x8, 1, 64, 0xFFFFFFFFFFFFF000, 0x0, 0x0, 0x0, .setup⟩,
  ⟨12, 0xB00010, 0x8, 1, 0x8, 1, 32, 0x3FFFFFFF, 0x0, 0x0, 0x26009000, .setup⟩,
  ⟨12, 0xB00014, 0x8, 1, 0x8, 1, 32, 0x3FFFFFF, 0x0, 0x0, 0x0, .setup⟩,
  ⟨12, 0xB00018, 0x8, 1, 0x8, 1, 32, 0x0, 0x0, 0x1F, 0xF, .setup⟩,
  ⟨12, 0xB0001C, 0x8, 1, 0x8, 1, 32, 0x0, 0x0, 0xFFFF, Config.garnerVersion * 0x1, .setup⟩,
  ⟨12, 0xB00020, 0x8, 1, 0x8, 1, 32, 0x0, 0x7F, 0x0, 0x0, .setup⟩,
  ⟨12, 0xB00028, 0x8, 1, 0x8, 1, 32, 0x0, 0x0, 0x7FFF7FFF, 0x0, .setup⟩,
  ⟨12, 0xB00040, 0x8, 8, 0x8, 1, 64, 0xFFFFFFFFFFFFF00F, 0x0, 0x0, 0xE, .setup⟩,
  ⟨12, 0xB00100, 0x8, 10, 0x8, 1, 64, 0x0, 0x0, 0x8000FFFFFFFFFFFF, 0x0, .event⟩]

/-- Register rows of block SLC (16_sluice.md R578). -/
def regRowsSlc : List RegRow := [
  ⟨13, 0xC00000, 0x8, 1, 0x8, 1, 32, 0x0, 0x1F, 0x0, 0x0, .setup⟩,
  ⟨13, 0xC00004, 0x8, 1, 0x8, 1, 32, 0x7, 0x0, 0x0, 0x0, .setup⟩,
  ⟨13, 0xC00008, 0x8, 1, 0x8, 1, 32, 0x1FFFF, 0x0, 0x0, 0xF800, .setup⟩,
  ⟨13, 0xC00010, 0x8, 1, 0x8, 1, 64, 0x80000FFF000FFFFF, 0x0, 0x0, 0x4000003E8, .setup⟩,
  ⟨13, 0xC00100, 0x8, 8, 0x8, 1, 64, 0x0, 0x0, 0x8000FFFFFFFFFFFF, 0x0, .event⟩,
  ⟨13, 0xC01000, 0x4, 32, 0x4, 1, 32, 0x7, 0x0, 0x0, 0x0, .setup⟩,
  ⟨13, 0xC01100, 0x8, 32, 0x8, 1, 64, 0x7FFFFFF7FFFF, 0x0, 0x0, 0x32003E800000, .setup⟩,
  ⟨13, 0xC10000, 0x40, 512, 0x40, 1, 32, 0x7FFFF, 0x0, 0x0, 0x400, .setup⟩,
  ⟨13, 0xC10004, 0x40, 512, 0x40, 1, 32, 0xFFFFF, 0x0, 0x0, 0x1000, .setup⟩,
  ⟨13, 0xC10008, 0x40, 512, 0x40, 1, 32, 0xFFFFF, 0x0, 0x0, 0xC00, .setup⟩,
  ⟨13, 0xC1000C, 0x40, 512, 0x40, 1, 32, 0xFFFFF, 0x0, 0x0, 0x800, .setup⟩,
  ⟨13, 0xC10010, 0x40, 512, 0x40, 1, 32, 0xFFFFFFFF, 0x0, 0x0, 0x0, .setup⟩,
  ⟨13, 0xC10014, 0x40, 512, 0x40, 1, 32, 0xFFFFFF, 0x0, 0x0, 0x4000, .setup⟩,
  ⟨13, 0xC10018, 0x40, 512, 0x40, 1, 64, 0x0, 0x0, 0xFFFFFFFFFF, 0x0, .setup⟩,
  ⟨13, 0xC10020, 0x40, 512, 0x40, 1, 64, 0x0, 0x0, 0xFFFFFFFFFF0FFFFF, 0x0, .setup⟩,
  ⟨13, 0xC10028, 0x40, 512, 0x40, 1, 64, 0x0, 0x0, 0xFFFFFFFFFFFF, 0x0, .setup⟩,
  ⟨13, 0xC20000, 0x20, 256, 0x20, 1, 32, 0x1FFFF, 0x0, 0x0, 0x400, .setup⟩,
  ⟨13, 0xC20004, 0x20, 256, 0x20, 1, 32, 0x1FFFF, 0x0, 0x0, 0x1000, .setup⟩,
  ⟨13, 0xC20008, 0x20, 256, 0x20, 1, 32, 0x0, 0x0, 0x1FFFF, 0x0, .setup⟩,
  ⟨13, 0xC20010, 0x20, 256, 0x20, 1, 64, 0x0, 0x0, 0xFFFFFFFFFF01FFFF, 0x0, .setup⟩,
  ⟨13, 0xC30000, 0x40, 512, 0x8, 5, 64, 0x0, 0x0, 0x800000FFFFFFFFFF, 0x0, .tally⟩,
  ⟨13, 0xC40000, 0x20, 4096, 0x20, 1, 32, 0xFFFFFFFF, 0x0, 0x0, 0x0, .setup⟩,
  ⟨13, 0xC40004, 0x20, 4096, 0x20, 1, 32, 0xFFFFFFFF, 0x0, 0x0, 0x0, .setup⟩,
  ⟨13, 0xC40008, 0x20, 4096, 0x20, 1, 32, 0xFFFFFF, 0x0, 0x0, 0x1, .setup⟩,
  ⟨13, 0xC4000C, 0x20, 4096, 0x20, 1, 32, 0xFFFFFF, 0x0, 0x0, 0x1, .setup⟩,
  ⟨13, 0xC40010, 0x20, 4096, 0x20, 1, 32, 0x3, 0x0, 0x0, 0x0, .setup⟩,
  ⟨13, 0xC80000, 0x2000, 32, 0x2000, 1, 32, 0x1FF01, 0x0, 0x4, 0x100, .setup⟩,
  ⟨13, 0xC80008, 0x2000, 32, 0x2000, 1, 64, 0xFFFFFFFFFFFFFFFF, 0x0, 0x0, 0x0, .setup⟩,
  ⟨13, 0xC80010, 0x2000, 32, 0x2000, 1, 32, 0x7FFFFFFF, 0x0, 0x0, 0x1312D0, .setup⟩,
  ⟨13, 0xC80018, 0x2000, 32, 0x2000, 1, 64, 0x0, 0x0, 0xFFFFFFFFFFFFFFFF, 0x0, .setup⟩,
  ⟨13, 0xC80020, 0x2000, 32, 0x2000, 1, 32, 0x0, 0x0, 0xFF, 0x0, .setup⟩,
  ⟨13, 0xC81000, 0x2000, 32, 0x10, 256, 64, 0xFFFFFFFFFFFFFFFF, 0x0, 0x0, 0xFFFFFFFFFFFFFFFF, .setup⟩,
  ⟨13, 0xC81008, 0x2000, 32, 0x10, 256, 32, 0xFFFFFFFF, 0x0, 0x0, 0x0, .setup⟩]

/-- Register rows of block GFT (17_grafting_learning.md R611). -/
def regRowsGft : List RegRow := [
  ⟨14, 0xD00000, 0x8, 1, 0x8, 1, 32, 0x7, 0x0, 0x0, 0x0, .setup⟩,
  ⟨14, 0xD00004, 0x8, 1, 0x8, 1, 32, 0xFFFFF1, 0x0, 0x0, 0x100400, .setup⟩,
  ⟨14, 0xD00008, 0x8, 1, 0x8, 1, 32, 0xFFFFFFFF, 0x0, 0x0, 0x3E801F4, .setup⟩,
  ⟨14, 0xD0000C, 0x8, 1, 0x8, 1, 32, 0x0, 0x0, 0xFF, 0x0, .setup⟩,
  ⟨14, 0xD00010, 0x8, 1, 0x8, 1, 32, 0x0, 0x0, 0xFFFFFFFF, 0x0, .setup⟩,
  ⟨14, 0xD00014, 0x8, 1, 0x8, 1, 32, 0x0, 0x0, 0xFFFFFFFF, 0x0, .setup⟩,
  ⟨14, 0xD00018, 0x8, 1, 0x8, 1, 32, 0x0, 0x0, 0xFFFFFFFF, 0x0, .setup⟩,
  ⟨14, 0xD00020, 0x8, 1, 0x8, 1, 64, 0x0, 0x0, 0xFFFFFFFFFFFFFFFF, 0x0, .setup⟩,
  ⟨14, 0xD00028, 0x8, 1, 0x8, 1, 64, 0x0, 0x0, 0x7FFF7FFF7FFF, 0x0, .setup⟩,
  ⟨14, 0xD00030, 0x8, 1, 0x8, 1, 64, 0x0, 0x0, 0xFFFFF03FFFFFF, 0x0, .setup⟩,
  ⟨14, 0xD00038, 0x8, 1, 0x8, 1, 32, 0x0, 0x0, 0xFFFF, 0x0, .setup⟩,
  ⟨14, 0xD00040, 0x4, 8, 0x4, 1, 32, 0x0, 0x0, 0xFFFFFFFF, 0x0, .setup⟩,
  ⟨14, 0xD00060, 0x4, 8, 0x4, 1, 32, 0x0, 0x0, 0xFFFFFFFF, 0x0, .setup⟩,
  ⟨14, 0xD00080, 0x8, 1, 0x8, 1, 32, 0x0, 0x7F, 0x0, 0x0, .setup⟩,
  ⟨14, 0xD00100, 0x8, 11, 0x8, 1, 64, 0x0, 0x0, 0x8000FFFFFFFFFFFF, 0x0, .event⟩]

/-- Register rows of block FLG (18_lattice.md R651). -/
def regRowsFlg : List RegRow := [
  ⟨15, 0xE00000, 0x8, 1, 0x8, 1, 32, 0x7, 0x0, 0x0, 0x0, .setup⟩,
  ⟨15, 0xE00004, 0x8, 1, 0x8, 1, 32, 0x3FFF, 0x0, 0x0, 0x0, .setup⟩,
  ⟨15, 0xE00008, 0x8, 1, 0x8, 1, 64, 0x1F3F3FFFFFFFFF, 0x0, 0x0, 0x1010100000000, .setup⟩,
  ⟨15, 0xE00010, 0x8, 1, 0x8, 1, 32, 0xFFFFFFFF, 0x0, 0x0, 0x0, .setup⟩,
  ⟨15, 0xE00014, 0x8, 1, 0x8, 1, 32, 0x0, 0x0, 0xFFFFFFFF, 0x0, .setup⟩,
  ⟨15, 0xE00018, 0x8, 1, 0x8, 1, 32, 0x0, 0x0, 0xFFFF, 0x101, .setup⟩,
  ⟨15, 0xE0001C, 0x8, 1, 0x8, 1, 32, 0xFFFF, 0x0, 0x0, 0x0, .setup⟩,
  ⟨15, 0xE00020, 0x8, 1, 0x8, 1, 64, 0x7FFFFFFF00000007, 0x0, 0x0, 0x0, .setup⟩,
  ⟨15, 0xE00028, 0x8, 1, 0x8, 1, 64, 0x0, 0x0, 0xFFFFFFFF0000FF3F, 0x0, .setup⟩,
  ⟨15, 0xE00030, 0x8, 1, 0x8, 1, 32, 0x0, 0x0, 0x7FFF0003, 0x0, .setup⟩,
  ⟨15, 0xE00034, 0x8, 1, 0x8, 1, 32, 0x0, 0x1FF, 0x0, 0x0, .setup⟩,
  ⟨15, 0xE00100, 0x80, 8, 0x80, 1, 32, 0xF, 0x0, 0x0, 0x0, .setup⟩,
  ⟨15, 0xE00104, 0x80, 8, 0x80, 1, 32, 0x0, 0x0, 0xF73FFFF7, 0x0, .setup⟩,
  ⟨15, 0xE00140, 0x80, 8, 0x8, 8, 64, 0x0, 0x0, 0x1FF01FF01FF01FF, 0x0, .setup⟩,
  ⟨15, 0xE00800, 0x8, 8, 0x8, 1, 64, 0x0, 0x0, 0x8000FFFFFFFFFFFF, 0x0, .event⟩,
  ⟨15, 0xE10000, 0x100, 8, 0x100, 1, 64, 0, 0, 0xFFFFFFFFFFFFFFFF, 0, .always⟩,
  ⟨15, 0xE10008, 0x100, 8, 0x100, 1, 64, 0, 0, 0xFFFFFFFFFFFFFFFF, 0, .always⟩,
  ⟨15, 0xE10010, 0x100, 8, 0x100, 1, 64, 0, 0, 0x8000FFFFFFFFFFFF, 0, .event⟩,
  ⟨15, 0xE10018, 0x100, 8, 0x100, 1, 64, 0, 0, 0x8000FFFFFFFFFFFF, 0, .event⟩,
  ⟨15, 0xE10020, 0x100, 8, 0x100, 1, 64, 0, 0, 0x8000FFFFFFFFFFFF, 0, .event⟩,
  ⟨15, 0xE10028, 0x100, 8, 0x100, 1, 64, 0, 0, 0x8000FFFFFFFFFFFF, 0, .event⟩,
  ⟨15, 0xE10030, 0x100, 8, 0x100, 1, 64, 0, 0, 0x8000FFFFFFFFFFFF, 0, .event⟩,
  ⟨15, 0xE10038, 0x100, 8, 0x100, 1, 64, 0, 0, 0x8000FFFFFFFFFFFF, 0, .event⟩,
  ⟨15, 0xE10040, 0x100, 8, 0x100, 1, 64, 0, 0, 0x8000FFFFFFFFFFFF, 0, .event⟩,
  ⟨15, 0xE10048, 0x100, 8, 0x100, 1, 64, 0, 0, 0x8000FFFFFFFFFFFF, 0, .event⟩]

/-- Register rows of block GLN (19_gleaner.md R678). -/
def regRowsGln : List RegRow := [
  ⟨16, 0xF00000, 0x8, 1, 0x8, 1, 32, 0x7, 0x0, 0x0, 0x0, .setup⟩,
  ⟨16, 0xF00004, 0x8, 1, 0x8, 1, 32, 0xF1FFF, 0x0, 0x0, 0xA1000, .setup⟩,
  ⟨16, 0xF00008, 0x8, 1, 0x8, 1, 32, 0xFF, 0x0, 0x0, 0x1, .setup⟩,
  ⟨16, 0xF0000C, 0x8, 1, 0x8, 1, 32, 0x3FFF, 0x0, 0x0, 0x0, .setup⟩,
  ⟨16, 0xF00010, 0x8, 1, 0x8, 1, 64, 0xFFFFFFFFFFFFF000, 0x0, 0x0, 0x0, .setup⟩,
  ⟨16, 0xF00018, 0x8, 1, 0x8, 1, 32, 0x3F0FFFFF, 0x0, 0x0, 0x0, .setup⟩,
  ⟨16, 0xF00020, 0x8, 1, 0x8, 1, 64, 0xFFFFFFFFFFFFFFF8, 0x0, 0x0, 0x0, .setup⟩,
  ⟨16, 0xF00028, 0x8, 1, 0x8, 1, 32, 0xFFFFFF01, 0x0, 0x0, 0x3E800, .setup⟩,
  ⟨16, 0xF00030, 0x8, 1, 0x8, 1, 64, 0x0, 0x0, 0xFFFFFFFFFFFFFFFF, 0x0, .setup⟩,
  ⟨16, 0xF00038, 0x8, 1, 0x8, 1, 64, 0x0, 0x0, 0xFFFFFFFFFFFFFFFF, 0x0, .setup⟩,
  ⟨16, 0xF00040, 0x8, 1, 0x8, 1, 32, 0xFFFFFF, 0x0, 0x0, 0x0, .setup⟩,
  ⟨16, 0xF00044, 0x8, 1, 0x8, 1, 32, 0x0, 0x3F, 0x0, 0x0, .setup⟩,
  ⟨16, 0xF00048, 0x8, 1, 0x8, 1, 32, 0x0, 0x0, 0x3FFFF, 0x0, .setup⟩,
  ⟨16, 0xF00100, 0x8, 8, 0x8, 1, 64, 0x0, 0x0, 0x8000FFFFFFFFFFFF, 0x0, .event⟩,
  ⟨16, 0xF10000, 0x100, 384, 0x100, 1, 64, 0x0, 0x0, 0xFFFFFFFFFFFFFFFF, 0x0, .always⟩,
  ⟨16, 0xF10008, 0x100, 384, 0x100, 1, 64, 0x0, 0x0, 0xFFFFFFFFFFFFFFFF, 0x0, .always⟩,
  ⟨16, 0xF10010, 0x100, 384, 0x100, 1, 64, 0x0, 0x0, 0xFFFFFFFFFFFFFFFF, 0x0, .always⟩,
  ⟨16, 0xF10018, 0x100, 384, 0x100, 1, 32, 0x0, 0x0, 0xF, 0x0, .setup⟩,
  ⟨16, 0xF10088, 0x100, 384, 0x8, 15, 64, 0x0, 0x0, 0xFFFFFFFFFFFFFFFF, 0x0, .always⟩]

/-- Register rows of block KOL (02_module_and_barrier.md R90). -/
def regRowsKol : List RegRow := [
  ⟨17, 0x1000000, 0x8, 1, 0x8, 1, 32, 0xFF1F, 0x0, 0x0, 0xA00, .setup⟩,
  ⟨17, 0x1000004, 0x8, 1, 0x8, 1, 32, 0x7, 0x0, 0x0, 0x0, .setup⟩,
  ⟨17, 0x1000008, 0x8, 1, 0x8, 1, 32, 0x0, 0x0, 0xFF3F, 0x12, .setup⟩,
  ⟨17, 0x100000C, 0x8, 1, 0x8, 1, 32, 0x0, 0x1FF, 0x0, 0x0, .setup⟩,
  ⟨17, 0x1000010, 0x8, 1, 0x8, 1, 32, 0x0, 0x0, 0x1F, 0x0, .setup⟩,
  ⟨17, 0x1000014, 0x8, 1, 0x8, 1, 32, 0xFFFFFFFF, 0x0, 0x0, Config.calDelay * 0x1 + Config.calDelay * 0x10000, .setup⟩,
  ⟨17, 0x1000020, 0x8, 1, 0x8, 1, 64, 0x0, 0x0, 0xFFFFFFFFFFFFFFFF, 0x0, .setup⟩,
  ⟨17, 0x1000028, 0x8, 1, 0x8, 1, 32, 0x0, 0x0, 0x1FFFF, 0x0, .setup⟩,
  ⟨17, 0x1000030, 0x8, 1, 0x8, 1, 64, 0x0, 0x0, 0xFFFFFFFFFFFFFFFF, 0x0, .setup⟩,
  ⟨17, 0x1000038, 0x8, 1, 0x8, 1, 32, 0x0, 0x0, 0x1FFFF, 0x0, .setup⟩,
  ⟨17, 0x1000040, 0x8, 1, 0x8, 1, 64, 0xFFFFFFFFFFFFFFFF, 0x0, 0x0, 0x0, .setup⟩,
  ⟨17, 0x1000048, 0x8, 1, 0x8, 1, 32, 0x0, 0x0, 0x0, 0x0, .setup⟩,
  ⟨17, 0x1000050, 0x8, 1, 0x8, 1, 32, 0x0, 0x0, 0xFFFFFFFF, 0x0, .setup⟩,
  ⟨17, 0x1000060, 0x4, 4, 0x4, 1, 32, 0x0, 0x0, 0xFFFFFFFF, 0x0, .setup⟩,
  ⟨17, 0x1000100, 0x8, 7, 0x8, 1, 64, 0x0, 0x0, 0x8000FFFFFFFFFFFF, 0x0, .event⟩]

/-- Register rows of block ERR (20_errors_degraded.md R699). -/
def regRowsErr : List RegRow := [
  ⟨18, 0x1100000, 0x8, 1, 0x8, 1, 32, 0x7, 0x0, 0x0, 0x0, .setup⟩,
  ⟨18, 0x1100004, 0x8, 1, 0x8, 1, 32, 0xFFF3F7F, 0x0, 0x0, 0x3001D, .setup⟩,
  ⟨18, 0x1100008, 0x8, 1, 0x8, 1, 32, 0xFF, 0x0, 0x0, 0x18, .setup⟩,
  ⟨18, 0x110000C, 0x8, 1, 0x8, 1, 32, 0x1, 0x0, 0x0, 0x0, .setup⟩,
  ⟨18, 0x1100010, 0x8, 1, 0x8, 1, 32, 0x0, 0x0, 0x33F, 0x0, .setup⟩,
  ⟨18, 0x1100018, 0x8, 1, 0x8, 1, 64, 0x0, 0x0, 0xFFFFFFFFFFFFFFFF, 0x0, .setup⟩,
  ⟨18, 0x1100020, 0x8, 1, 0x8, 1, 32, 0x0, 0x0, 0xFFFF, 0x0, .setup⟩,
  ⟨18, 0x1100024, 0x8, 1, 0x8, 1, 32, 0x0, 0x3F, 0x0, 0x0, .setup⟩,
  ⟨18, 0x1100028, 0x8, 1, 0x8, 1, 32, 0x107, 0x0, 0x4000, 0x0, .setup⟩,
  ⟨18, 0x1100100, 0x10, 8, 0x10, 1, 64, 0x0, 0x0, 0xFFFFFFFFFFFFFFFF, 0x0, .always⟩,
  ⟨18, 0x1100108, 0x10, 8, 0x10, 1, 64, 0x0, 0x0, 0xFFFFFFFFFFFFFFFF, 0x0, .always⟩,
  ⟨18, 0x1100200, 0x8, 9, 0x8, 1, 64, 0x0, 0x0, 0x8000FFFFFFFFFFFF, 0x0, .event⟩]

/-- Register rows of block STW (04_steward.md R172). -/
def regRowsStw : List RegRow := [
  ⟨19, 0x1200000, 0x8, 1, 0x8, 1, 32, 0x0, 0x0, 0x3FFF07, 0x0, .setup⟩,
  ⟨19, 0x1200004, 0x8, 1, 0x8, 1, 32, 0x1FF00FF, 0x0, 0x0, 0x0, .setup⟩,
  ⟨19, 0x1200008, 0x8, 1, 0x8, 1, 32, 0x0, 0x2, 0x1FF00F1, 0x0, .setup⟩,
  ⟨19, 0x120000C, 0x8, 1, 0x8, 1, 32, 0x0, 0x3F, 0x0, 0x0, .setup⟩]

/-- The rows to search for an offset (Table GLB-1: each block's span). -/
def regRowsAt (off : Nat) : List RegRow :=
  if off < 0x10000 then regRowsGlb
  else if off < 0x20000 then regRowsClk
  else match off / 0x100000 with
  | 1 => regRowsHif
  | 2 => regRowsItk
  | 3 => regRowsThr
  | 4 => regRowsWnw
  | 5 => regRowsCsc
  | 6 => regRowsShf
  | 7 => regRowsOrc
  | 8 => regRowsMil
  | 9 => regRowsNum
  | 10 => regRowsRil
  | 11 => regRowsGar
  | 12 => regRowsSlc
  | 13 => regRowsGft
  | 14 => regRowsFlg
  | 15 => regRowsGln
  | 16 => regRowsKol
  | 17 => regRowsErr
  | 18 => regRowsStw
  | _ => []

/-- The element of a row that lies exactly at an offset. -/
def regIndexIn (r : RegRow) (off : Nat) : Option (Nat × Nat) :=
  if off < r.base then none
  else
    let i := (off - r.base) / r.s1
    let k := (off - r.base) % r.s1
    if i < r.n1 ∧ k % r.s2 = 0 ∧ k / r.s2 < r.n2 then some (i, k / r.s2) else none

/-- The row and element of the register that starts at an offset. -/
def regFind (off : Nat) : Option (RegRow × Nat × Nat) :=
  (regRowsAt off).findSome? fun r => (regIndexIn r off).map fun ij => (r, ij)

/-- What the register at an offset holds after a cold reset. Five arrays differ by element:
HIF_PD_CTRL0 permits the groups of 0x0FFF (Table HIF-13), ITK_PORT_CFG.PAIR is p XOR 4 and ITK_PORT_STAT.PRESENT is 1 for
ports c.0 only (Table ITK-5), SHF_CAP is that of its tier, and home-table entry i is i (Table SHF-9). -/
def regReset (off : Nat) : Word :=
  match regFind off with
  | none => 0
  | some (r, i, _) =>
    if r.base = 0x102000 ∧ i = 0 then BitVec.ofNat 64 (r.reset - 0x0001 + 0x0FFF)
    else if r.base = 0x200104 then BitVec.ofNat 64 (r.reset + (i ^^^ 4) * 4)
    else if r.base = 0x200108 then BitVec.ofNat 64 (r.reset + bit (i % 4 == 0))
    else if r.base = 0x600060 then BitVec.ofNat 64 ([786432, 67108864].getD i 0)
    else if r.base = 0x610000 then BitVec.ofNat 64 i
    else BitVec.ofNat 64 r.reset

/-! Offsets of the registers, by name. -/

def Reg.GLB_ID : Nat := 0x0
def Reg.GLB_CAP : Nat := 0x8
def Reg.GLB_STAT : Nat := 0xC
def Reg.GLB_TIME : Nat := 0x10
def Reg.GLB_TIME_SET : Nat := 0x18
def Reg.GLB_SCRATCH : Nat := 0x20
def Reg.GLB_PEND : Nat := 0x28
def Reg.GLB_EVT : Nat := 0x2C
def Reg.GLB_BAD_ADDR : Nat := 0x30
def Reg.GLB_PART_PROFILE : Nat := 0x40
def Reg.GLB_PART_A : Nat := 0x44
def Reg.GLB_PART_B : Nat := 0x48
def Reg.GLB_PART_CTRL : Nat := 0x4C
def Reg.GLB_PART_STAT : Nat := 0x50
def Reg.GLB_PART_BASE : Nat := 0x58
def Reg.GLB_PART_LIVE : Nat := 0x60
def Reg.GLB_CNT (i : Nat) : Nat := 0x100 + 0x8 * i
def Reg.CLK_STAT : Nat := 0x10000
def Reg.CLK_DOM_PROFILE : Nat := 0x10008
def Reg.CLK_DOM_CTRL : Nat := 0x10010
def Reg.CLK_DOM_STAT : Nat := 0x10018
def Reg.CLK_DOM_EVT : Nat := 0x10020
def Reg.CLK_REMAP : Nat := 0x10028
def Reg.CLK_RST_CTRL : Nat := 0x10030
def Reg.CLK_RST_BLOCK : Nat := 0x10034
def Reg.CLK_RST_STAT : Nat := 0x10038
def Reg.CLK_RST_CAUSE : Nat := 0x1003C
def Reg.CLK_CNT (i : Nat) : Nat := 0x10100 + 0x8 * i
def Reg.HIF_PROFILE : Nat := 0x100000
def Reg.HIF_BASIC_BASE : Nat := 0x100008
def Reg.HIF_BASIC_CFG : Nat := 0x100010
def Reg.HIF_LINK : Nat := 0x100014
def Reg.HIF_INFLIGHT : Nat := 0x100018
def Reg.HIF_FETCH : Nat := 0x10001C
def Reg.HIF_TALLY : Nat := 0x100020
def Reg.HIF_EVT : Nat := 0x100024
def Reg.HIF_EVT_VEC : Nat := 0x100028
def Reg.HIF_BAR4 : Nat := 0x100030
def Reg.HIF_CNT (i : Nat) : Nat := 0x100100 + 0x8 * i
def Reg.HIF_HBQ_MAP (i : Nat) : Nat := 0x101000 + 0x4 * i
def Reg.HIF_PD_CTRL (i : Nat) : Nat := 0x102000 + 0x8 * i
def Reg.HIF_PD_WIN_BASE (i j : Nat) : Nat := 0x110000 + 0x100 * i + 0x10 * j
def Reg.HIF_PD_WIN_SIZE (i j : Nat) : Nat := 0x110008 + 0x100 * i + 0x10 * j
def Reg.HIF_RING_BASE (i : Nat) : Nat := 0x180000 + 0x40 * i
def Reg.HIF_RING_WB (i : Nat) : Nat := 0x180008 + 0x40 * i
def Reg.HIF_RING_CFG (i : Nat) : Nat := 0x180010 + 0x40 * i
def Reg.HIF_RING_COAL (i : Nat) : Nat := 0x180014 + 0x40 * i
def Reg.HIF_RING_CTRL (i : Nat) : Nat := 0x180018 + 0x40 * i
def Reg.HIF_RING_STAT (i : Nat) : Nat := 0x18001C + 0x40 * i
def Reg.HIF_RING_PROD (i : Nat) : Nat := 0x180020 + 0x40 * i
def Reg.HIF_RING_CONS (i : Nat) : Nat := 0x180024 + 0x40 * i
def Reg.HIF_RING_OCC (i : Nat) : Nat := 0x180028 + 0x40 * i
def Reg.HIF_RING_CNT_WRITTEN (i : Nat) : Nat := 0x180030 + 0x40 * i
def Reg.HIF_RING_CNT_DISCARD (i : Nat) : Nat := 0x180038 + 0x40 * i
def Reg.ITK_PROFILE : Nat := 0x200000
def Reg.ITK_CELLS : Nat := 0x200008
def Reg.ITK_EVT : Nat := 0x200010
def Reg.ITK_CAGE_CFG (i : Nat) : Nat := 0x200080 + 0x4 * i
def Reg.ITK_PORT_CTRL (i : Nat) : Nat := 0x200100 + 0x40 * i
def Reg.ITK_PORT_CFG (i : Nat) : Nat := 0x200104 + 0x40 * i
def Reg.ITK_PORT_STAT (i : Nat) : Nat := 0x200108 + 0x40 * i
def Reg.ITK_PORT_TSOFF (i : Nat) : Nat := 0x20010C + 0x40 * i
def Reg.ITK_PCNT (i j : Nat) : Nat := 0x210000 + 0x100 * i + 0x8 * j
def Reg.THR_PROFILE : Nat := 0x300000
def Reg.THR_MAL_ACT : Nat := 0x300004
def Reg.THR_EVT : Nat := 0x300008
def Reg.THR_MALCNT (i : Nat) : Nat := 0x300108 + 0x8 * (i - 1)
def Reg.THR_SLOWCNT (i : Nat) : Nat := 0x300208 + 0x8 * (i - 1)
def Reg.WNW_GEN : Nat := 0x400000
def Reg.WNW_GEN_STAT : Nat := 0x400004
def Reg.WNW_RETIRING : Nat := 0x400008
def Reg.WNW_SWITCH_TIME : Nat := 0x400010
def Reg.WNW_PEND_TIME : Nat := 0x400018
def Reg.WNW_EVT : Nat := 0x400020
def Reg.WNW_CNT (i : Nat) : Nat := 0x400100 + 0x8 * i
def Reg.WNW_HIT (i : Nat) : Nat := 0x410000 + 0x8 * i
def Reg.CSC_PROFILE : Nat := 0x500000
def Reg.CSC_BASIC : Nat := 0x500004
def Reg.CSC_BASIC2 : Nat := 0x500008
def Reg.CSC_EVT : Nat := 0x50000C
def Reg.CSC_CNT (i : Nat) : Nat := 0x500100 + 0x8 * i
def Reg.CSC_ERV_PROFILE : Nat := 0x500200
def Reg.CSC_ERV_CFG : Nat := 0x500204
def Reg.CSC_ERV_EVT : Nat := 0x500208
def Reg.CSC_ERV_PEND : Nat := 0x500210
def Reg.CSC_ERV_CNT (i : Nat) : Nat := 0x500300 + 0x8 * i
def Reg.CSC_ENTCNT (i : Nat) : Nat := 0x510000 + 0x8 * i
def Reg.SHF_PROFILE : Nat := 0x600000
def Reg.SHF_CFG : Nat := 0x600004
def Reg.SHF_LIMIT : Nat := 0x600008
def Reg.SHF_REMOTE : Nat := 0x60000C
def Reg.SHF_HOME : Nat := 0x600010
def Reg.SHF_LOFT : Nat := 0x600018
def Reg.SHF_EVT : Nat := 0x600020
def Reg.SHF_OCC (i : Nat) : Nat := 0x600040 + 0x8 * i
def Reg.SHF_CAP (i : Nat) : Nat := 0x600060 + 0x8 * i
def Reg.SHF_CNT (i : Nat) : Nat := 0x600100 + 0x8 * i
def Reg.SHF_HOMETAB (i : Nat) : Nat := 0x610000 + 0x4 * i
def Reg.ORC_PROFILE : Nat := 0x700000
def Reg.ORC_CFG : Nat := 0x700004
def Reg.ORC_STAT : Nat := 0x700008
def Reg.ORC_RES : Nat := 0x700010
def Reg.ORC_EVT : Nat := 0x700018
def Reg.ORC_CNT0 : Nat := 0x700100
def Reg.ORC_CNT (i : Nat) : Nat := 0x700108 + 0x8 * (i - 1)
def Reg.ORC_POLICY (i : Nat) : Nat := 0x710000 + 0x4 * i
def Reg.ORC_TRUNC (i : Nat) : Nat := 0x720000 + 0x8 * i
def Reg.MIL_PROFILE : Nat := 0x800000
def Reg.MIL_CFG : Nat := 0x800004
def Reg.MIL_EVT : Nat := 0x800008
def Reg.MIL_QSTAT (i : Nat) : Nat := 0x800010 + 0x8 * i
def Reg.MIL_CNT (i : Nat) : Nat := 0x800100 + 0x8 * i
def Reg.MIL_MACS : Nat := 0x800180
def Reg.MIL_SLOT (i : Nat) : Nat := 0x800200 + 0x8 * i
def Reg.NUM_PROFILE : Nat := 0x900000
def Reg.NUM_CFG : Nat := 0x900004
def Reg.NUM_EVT : Nat := 0x900008
def Reg.NUM_CNT (i : Nat) : Nat := 0x900100 + 0x8 * i
def Reg.NUM_TCTRL (i : Nat) : Nat := 0x910000 + 0x40 * i
def Reg.NUM_TMSE_THR (i : Nat) : Nat := 0x910004 + 0x40 * i
def Reg.NUM_TCLIP_THR (i : Nat) : Nat := 0x910008 + 0x40 * i
def Reg.NUM_TSCALE (i : Nat) : Nat := 0x91000C + 0x40 * i
def Reg.NUM_TZP (i : Nat) : Nat := 0x910010 + 0x40 * i
def Reg.NUM_TMSE (i : Nat) : Nat := 0x910014 + 0x40 * i
def Reg.NUM_TLO (i : Nat) : Nat := 0x910018 + 0x40 * i
def Reg.NUM_THI (i : Nat) : Nat := 0x91001C + 0x40 * i
def Reg.NUM_TN (i : Nat) : Nat := 0x910020 + 0x40 * i
def Reg.NUM_TCLIPS (i : Nat) : Nat := 0x910028 + 0x40 * i
def Reg.NUM_TUNFS (i : Nat) : Nat := 0x910030 + 0x40 * i
def Reg.NUM_TFLAGS (i : Nat) : Nat := 0x910038 + 0x40 * i
def Reg.RIL_PROFILE : Nat := 0xA00000
def Reg.RIL_CFG : Nat := 0xA00004
def Reg.RIL_GWIN : Nat := 0xA00008
def Reg.RIL_SWIN : Nat := 0xA00010
def Reg.RIL_EVT : Nat := 0xA00018
def Reg.RIL_BANKSTAT (i : Nat) : Nat := 0xA00040 + 0x8 * i
def Reg.RIL_FAULT (i : Nat) : Nat := 0xA00100 + 0x20 * i
def Reg.RIL_FAULT_PC (i : Nat) : Nat := 0xA00108 + 0x20 * i
def Reg.RIL_FAULT_TVAL (i : Nat) : Nat := 0xA00110 + 0x20 * i
def Reg.RIL_INSNS : Nat := 0xA00200
def Reg.RIL_CNT (i : Nat) : Nat := 0xA00208 + 0x8 * i
def Reg.GAR_PROFILE : Nat := 0xB00000
def Reg.GAR_BASIC : Nat := 0xB00008
def Reg.GAR_SP_CFG : Nat := 0xB00010
def Reg.GAR_SP_ACT : Nat := 0xB00014
def Reg.GAR_STAT : Nat := 0xB00018
def Reg.GAR_VER : Nat := 0xB0001C
def Reg.GAR_EVT : Nat := 0xB00020
def Reg.GAR_SP_DEPTH : Nat := 0xB00028
def Reg.GAR_SPQ (i : Nat) : Nat := 0xB00040 + 0x8 * i
def Reg.GAR_CNT (i : Nat) : Nat := 0xB00100 + 0x8 * i
def Reg.SLC_EVT : Nat := 0xC00000
def Reg.SLC_HPROFILE : Nat := 0xC00004
def Reg.SLC_VSEL : Nat := 0xC00008
def Reg.SLC_SAMPLE : Nat := 0xC00010
def Reg.SLC_CNT (i : Nat) : Nat := 0xC00100 + 0x8 * i
def Reg.SLC_PPROFILE (i : Nat) : Nat := 0xC01000 + 0x4 * i
def Reg.SLC_PBASIC (i : Nat) : Nat := 0xC01100 + 0x8 * i
def Reg.SLC_TXQ_CFG (i : Nat) : Nat := 0xC10000 + 0x40 * i
def Reg.SLC_TXQ_LIMIT (i : Nat) : Nat := 0xC10004 + 0x40 * i
def Reg.SLC_TXQ_YLIM (i : Nat) : Nat := 0xC10008 + 0x40 * i
def Reg.SLC_TXQ_RLIM (i : Nat) : Nat := 0xC1000C + 0x40 * i
def Reg.SLC_TXQ_RATE (i : Nat) : Nat := 0xC10010 + 0x40 * i
def Reg.SLC_TXQ_BURST (i : Nat) : Nat := 0xC10014 + 0x40 * i
def Reg.SLC_TXQ_STAT (i : Nat) : Nat := 0xC10018 + 0x40 * i
def Reg.SLC_TXQ_HWM (i : Nat) : Nat := 0xC10020 + 0x40 * i
def Reg.SLC_TXQ_TAG (i : Nat) : Nat := 0xC10028 + 0x40 * i
def Reg.SLC_HBQ_CFG (i : Nat) : Nat := 0xC20000 + 0x20 * i
def Reg.SLC_HBQ_LIMIT (i : Nat) : Nat := 0xC20004 + 0x20 * i
def Reg.SLC_HBQ_STAT (i : Nat) : Nat := 0xC20008 + 0x20 * i
def Reg.SLC_HBQ_HWM (i : Nat) : Nat := 0xC20010 + 0x20 * i
def Reg.SLC_TXQ_TALLY (i j : Nat) : Nat := 0xC30000 + 0x40 * i + 0x8 * j
def Reg.SLC_POL_CIR (i : Nat) : Nat := 0xC40000 + 0x20 * i
def Reg.SLC_POL_PIR (i : Nat) : Nat := 0xC40004 + 0x20 * i
def Reg.SLC_POL_CBS (i : Nat) : Nat := 0xC40008 + 0x20 * i
def Reg.SLC_POL_PBS (i : Nat) : Nat := 0xC4000C + 0x20 * i
def Reg.SLC_POL_CFG (i : Nat) : Nat := 0xC40010 + 0x20 * i
def Reg.SLC_GCL_CTRL (i : Nat) : Nat := 0xC80000 + 0x2000 * i
def Reg.SLC_GCL_BASE (i : Nat) : Nat := 0xC80008 + 0x2000 * i
def Reg.SLC_GCL_CYCLE (i : Nat) : Nat := 0xC80010 + 0x2000 * i
def Reg.SLC_GCL_ACT (i : Nat) : Nat := 0xC80018 + 0x2000 * i
def Reg.SLC_GCL_OPER (i : Nat) : Nat := 0xC80020 + 0x2000 * i
def Reg.SLC_GCL_GATES (i j : Nat) : Nat := 0xC81000 + 0x2000 * i + 0x10 * j
def Reg.SLC_GCL_INT (i j : Nat) : Nat := 0xC81008 + 0x2000 * i + 0x10 * j
def Reg.GFT_PROFILE : Nat := 0xD00000
def Reg.GFT_CFG : Nat := 0xD00004
def Reg.GFT_LATT : Nat := 0xD00008
def Reg.GFT_STAT : Nat := 0xD0000C
def Reg.GFT_LIVE_EPOCH : Nat := 0xD00010
def Reg.GFT_SHADOW_EPOCH : Nat := 0xD00014
def Reg.GFT_RETIRING_EPOCH : Nat := 0xD00018
def Reg.GFT_ARM_TIME : Nat := 0xD00020
def Reg.GFT_TOKENS : Nat := 0xD00028
def Reg.GFT_SLOT : Nat := 0xD00030
def Reg.GFT_HIST : Nat := 0xD00038
def Reg.GFT_LIVE_HASH (i : Nat) : Nat := 0xD00040 + 0x4 * i
def Reg.GFT_SHADOW_HASH (i : Nat) : Nat := 0xD00060 + 0x4 * i
def Reg.GFT_EVT : Nat := 0xD00080
def Reg.GFT_CNT (i : Nat) : Nat := 0xD00100 + 0x8 * i
def Reg.FLG_PROFILE : Nat := 0xE00000
def Reg.FLG_ID : Nat := 0xE00004
def Reg.FLG_BASIC : Nat := 0xE00008
def Reg.FLG_USERHASH : Nat := 0xE00010
def Reg.FLG_CFGHASH : Nat := 0xE00014
def Reg.FLG_VER : Nat := 0xE00018
def Reg.FLG_FIELD : Nat := 0xE0001C
def Reg.FLG_TIME_CFG : Nat := 0xE00020
def Reg.FLG_TIME_STAT : Nat := 0xE00028
def Reg.FLG_STAT : Nat := 0xE00030
def Reg.FLG_EVT : Nat := 0xE00034
def Reg.FLG_PORT_CFG (i : Nat) : Nat := 0xE00100 + 0x80 * i
def Reg.FLG_PORT_STAT (i : Nat) : Nat := 0xE00104 + 0x80 * i
def Reg.FLG_PORT_CREDIT (i j : Nat) : Nat := 0xE00140 + 0x80 * i + 0x8 * j
def Reg.FLG_CNT (i : Nat) : Nat := 0xE00800 + 0x8 * i
def Reg.FLG_PCNT (i j : Nat) : Nat := 0xE10000 + 0x100 * i + 0x8 * j
def Reg.GLN_PROFILE : Nat := 0xF00000
def Reg.GLN_TRACE_CFG : Nat := 0xF00004
def Reg.GLN_REGION : Nat := 0xF00008
def Reg.GLN_COLLECT : Nat := 0xF0000C
def Reg.GLN_HBUF_BASE : Nat := 0xF00010
def Reg.GLN_HBUF : Nat := 0xF00018
def Reg.GLN_HBUF_WB : Nat := 0xF00020
def Reg.GLN_TALLY_CFG : Nat := 0xF00028
def Reg.GLN_TALLY_STAT : Nat := 0xF00030
def Reg.GLN_TALLY_TIME : Nat := 0xF00038
def Reg.GLN_HANG : Nat := 0xF00040
def Reg.GLN_EVT : Nat := 0xF00044
def Reg.GLN_STAGE : Nat := 0xF00048
def Reg.GLN_CNT (i : Nat) : Nat := 0xF00100 + 0x8 * i
def Reg.GLN_BUSY (i : Nat) : Nat := 0xF10000 + 0x100 * i
def Reg.GLN_STALL (i : Nat) : Nat := 0xF10008 + 0x100 * i
def Reg.GLN_IDLE (i : Nat) : Nat := 0xF10010 + 0x100 * i
def Reg.GLN_REASON (i : Nat) : Nat := 0xF10018 + 0x100 * i
def Reg.GLN_STALLR (i j : Nat) : Nat := 0xF10088 + 0x100 * i + 0x8 * (j - 1)
def Reg.KOL_CTRL : Nat := 0x1000000
def Reg.KOL_PROFILE : Nat := 0x1000004
def Reg.KOL_STAT : Nat := 0x1000008
def Reg.KOL_EVT : Nat := 0x100000C
def Reg.KOL_ALARM : Nat := 0x1000010
def Reg.KOL_CAL : Nat := 0x1000014
def Reg.KOL_PPS_TS : Nat := 0x1000020
def Reg.KOL_PPS_SEQ : Nat := 0x1000028
def Reg.KOL_TRIG_TS : Nat := 0x1000030
def Reg.KOL_TRIG_SEQ : Nat := 0x1000038
def Reg.KOL_TRIGOUT_TIME : Nat := 0x1000040
def Reg.KOL_TRIGOUT_CMD : Nat := 0x1000048
def Reg.KOL_REF : Nat := 0x1000050
def Reg.KOL_FIXTURE (i : Nat) : Nat := 0x1000060 + 0x4 * i
def Reg.KOL_CNT (i : Nat) : Nat := 0x1000100 + 0x8 * i
def Reg.ERR_PROFILE : Nat := 0x1100000
def Reg.ERR_CFG : Nat := 0x1100004
def Reg.ERR_SCRUB : Nat := 0x1100008
def Reg.ERR_BYPASS_CTRL : Nat := 0x110000C
def Reg.ERR_BYPASS_STAT : Nat := 0x1100010
def Reg.ERR_BYPASS_TIME : Nat := 0x1100018
def Reg.ERR_TEMP : Nat := 0x1100020
def Reg.ERR_EVT : Nat := 0x1100024
def Reg.ERR_INJECT : Nat := 0x1100028
def Reg.ERR_CE (i : Nat) : Nat := 0x1100100 + 0x10 * i
def Reg.ERR_UE (i : Nat) : Nat := 0x1100108 + 0x10 * i
def Reg.ERR_CNT (i : Nat) : Nat := 0x1100200 + 0x8 * i
def Reg.STW_STAT : Nat := 0x1200000
def Reg.STW_MB_CTRL : Nat := 0x1200004
def Reg.STW_MB_STAT : Nat := 0x1200008
def Reg.STW_EVT : Nat := 0x120000C

/-! Fields, by register and name. -/

def Fld.GLB_ID_VENDOR : Fld := ⟨Reg.GLB_ID, 15, 0⟩
def Fld.GLB_ID_DEVICE : Fld := ⟨Reg.GLB_ID, 31, 16⟩
def Fld.GLB_ID_STEP : Fld := ⟨Reg.GLB_ID, 39, 32⟩
def Fld.GLB_ID_MODREV : Fld := ⟨Reg.GLB_ID, 47, 40⟩
def Fld.GLB_CAP_BAR4 : Fld := ⟨Reg.GLB_CAP, 0, 0⟩
def Fld.GLB_CAP_CAGES : Fld := ⟨Reg.GLB_CAP, 7, 4⟩
def Fld.GLB_CAP_FELGEN : Fld := ⟨Reg.GLB_CAP, 11, 8⟩
def Fld.GLB_CAP_SILO_GIB : Fld := ⟨Reg.GLB_CAP, 23, 16⟩
def Fld.GLB_STAT_BOOT : Fld := ⟨Reg.GLB_STAT, 0, 0⟩
def Fld.GLB_STAT_TIME_VALID : Fld := ⟨Reg.GLB_STAT, 1, 1⟩
def Fld.GLB_STAT_BYPASS : Fld := ⟨Reg.GLB_STAT, 2, 2⟩
def Fld.GLB_STAT_MODEL_LIVE : Fld := ⟨Reg.GLB_STAT, 3, 3⟩
def Fld.GLB_STAT_TIME_ROOT : Fld := ⟨Reg.GLB_STAT, 4, 4⟩
def Fld.GLB_TIME_TIME : Fld := ⟨Reg.GLB_TIME, 63, 0⟩
def Fld.GLB_TIME_SET_TIME : Fld := ⟨Reg.GLB_TIME_SET, 63, 0⟩
def Fld.GLB_SCRATCH_VALUE : Fld := ⟨Reg.GLB_SCRATCH, 63, 0⟩
def Fld.GLB_PEND_BLOCKS : Fld := ⟨Reg.GLB_PEND, 19, 0⟩
def Fld.GLB_EVT_BAD_ACCESS : Fld := ⟨Reg.GLB_EVT, 0, 0⟩
def Fld.GLB_EVT_PEND_WRITE : Fld := ⟨Reg.GLB_EVT, 1, 1⟩
def Fld.GLB_EVT_PART_REFUSED : Fld := ⟨Reg.GLB_EVT, 2, 2⟩
def Fld.GLB_EVT_PART_DONE : Fld := ⟨Reg.GLB_EVT, 3, 3⟩
def Fld.GLB_EVT_EPOCH_SET : Fld := ⟨Reg.GLB_EVT, 4, 4⟩
def Fld.GLB_BAD_ADDR_OFFSET : Fld := ⟨Reg.GLB_BAD_ADDR, 24, 0⟩
def Fld.GLB_BAD_ADDR_WRITE : Fld := ⟨Reg.GLB_BAD_ADDR, 31, 31⟩
def Fld.GLB_PART_PROFILE_PROFILE : Fld := ⟨Reg.GLB_PART_PROFILE, 2, 0⟩
def Fld.GLB_PART_A_INTAKE : Fld := ⟨Reg.GLB_PART_A, 7, 0⟩
def Fld.GLB_PART_A_SHEAF : Fld := ⟨Reg.GLB_PART_A, 15, 8⟩
def Fld.GLB_PART_A_ORCHARD : Fld := ⟨Reg.GLB_PART_A, 23, 16⟩
def Fld.GLB_PART_A_MW : Fld := ⟨Reg.GLB_PART_A, 31, 24⟩
def Fld.GLB_PART_B_LEARN : Fld := ⟨Reg.GLB_PART_B, 7, 0⟩
def Fld.GLB_PART_B_TRACE : Fld := ⟨Reg.GLB_PART_B, 15, 8⟩
def Fld.GLB_PART_CTRL_APPLY : Fld := ⟨Reg.GLB_PART_CTRL, 0, 0⟩
def Fld.GLB_PART_CTRL_KEY : Fld := ⟨Reg.GLB_PART_CTRL, 31, 16⟩
def Fld.GLB_PART_STAT_BUSY : Fld := ⟨Reg.GLB_PART_STAT, 0, 0⟩
def Fld.GLB_PART_STAT_REASON : Fld := ⟨Reg.GLB_PART_STAT, 11, 8⟩
def Fld.GLB_PART_BASE_BASE0 : Fld := ⟨Reg.GLB_PART_BASE, 7, 0⟩
def Fld.GLB_PART_BASE_BASE1 : Fld := ⟨Reg.GLB_PART_BASE, 15, 8⟩
def Fld.GLB_PART_BASE_BASE2 : Fld := ⟨Reg.GLB_PART_BASE, 23, 16⟩
def Fld.GLB_PART_BASE_BASE3 : Fld := ⟨Reg.GLB_PART_BASE, 31, 24⟩
def Fld.GLB_PART_BASE_BASE4 : Fld := ⟨Reg.GLB_PART_BASE, 39, 32⟩
def Fld.GLB_PART_BASE_BASE5 : Fld := ⟨Reg.GLB_PART_BASE, 47, 40⟩
def Fld.GLB_PART_LIVE_SIZE0 : Fld := ⟨Reg.GLB_PART_LIVE, 7, 0⟩
def Fld.GLB_PART_LIVE_SIZE1 : Fld := ⟨Reg.GLB_PART_LIVE, 15, 8⟩
def Fld.GLB_PART_LIVE_SIZE2 : Fld := ⟨Reg.GLB_PART_LIVE, 23, 16⟩
def Fld.GLB_PART_LIVE_SIZE3 : Fld := ⟨Reg.GLB_PART_LIVE, 31, 24⟩
def Fld.GLB_PART_LIVE_SIZE4 : Fld := ⟨Reg.GLB_PART_LIVE, 39, 32⟩
def Fld.GLB_PART_LIVE_SIZE5 : Fld := ⟨Reg.GLB_PART_LIVE, 47, 40⟩
def Fld.CLK_STAT_PLL_LOCK : Fld := ⟨Reg.CLK_STAT, 0, 0⟩
def Fld.CLK_STAT_REF_OK : Fld := ⟨Reg.CLK_STAT, 1, 1⟩
def Fld.CLK_DOM_PROFILE_PROFILE : Fld := ⟨Reg.CLK_DOM_PROFILE, 2, 0⟩
def Fld.CLK_DOM_CTRL_REQ : Fld := ⟨Reg.CLK_DOM_CTRL, 18, 0⟩
def Fld.CLK_DOM_STAT_STATE : Fld := ⟨Reg.CLK_DOM_STAT, 37, 0⟩
def Fld.CLK_DOM_EVT_DRAIN_ABORT : Fld := ⟨Reg.CLK_DOM_EVT, 18, 0⟩
def Fld.CLK_DOM_EVT_REFUSED : Fld := ⟨Reg.CLK_DOM_EVT, 31, 31⟩
def Fld.CLK_REMAP_RILL : Fld := ⟨Reg.CLK_REMAP, 23, 0⟩
def Fld.CLK_REMAP_MILL : Fld := ⟨Reg.CLK_REMAP, 31, 24⟩
def Fld.CLK_RST_CTRL_COLD : Fld := ⟨Reg.CLK_RST_CTRL, 0, 0⟩
def Fld.CLK_RST_CTRL_WARM : Fld := ⟨Reg.CLK_RST_CTRL, 1, 1⟩
def Fld.CLK_RST_CTRL_KEY : Fld := ⟨Reg.CLK_RST_CTRL, 31, 16⟩
def Fld.CLK_RST_BLOCK_RB : Fld := ⟨Reg.CLK_RST_BLOCK, 7, 0⟩
def Fld.CLK_RST_BLOCK_MQ : Fld := ⟨Reg.CLK_RST_BLOCK, 11, 8⟩
def Fld.CLK_RST_BLOCK_THR : Fld := ⟨Reg.CLK_RST_BLOCK, 12, 12⟩
def Fld.CLK_RST_BLOCK_WNW : Fld := ⟨Reg.CLK_RST_BLOCK, 13, 13⟩
def Fld.CLK_RST_BLOCK_CSC : Fld := ⟨Reg.CLK_RST_BLOCK, 14, 14⟩
def Fld.CLK_RST_BLOCK_ORC : Fld := ⟨Reg.CLK_RST_BLOCK, 15, 15⟩
def Fld.CLK_RST_BLOCK_SLC : Fld := ⟨Reg.CLK_RST_BLOCK, 16, 16⟩
def Fld.CLK_RST_BLOCK_GLN : Fld := ⟨Reg.CLK_RST_BLOCK, 17, 17⟩
def Fld.CLK_RST_BLOCK_NUM : Fld := ⟨Reg.CLK_RST_BLOCK, 18, 18⟩
def Fld.CLK_RST_BLOCK_KOL : Fld := ⟨Reg.CLK_RST_BLOCK, 19, 19⟩
def Fld.CLK_RST_BLOCK_ITK : Fld := ⟨Reg.CLK_RST_BLOCK, 20, 20⟩
def Fld.CLK_RST_BLOCK_FLG : Fld := ⟨Reg.CLK_RST_BLOCK, 21, 21⟩
def Fld.CLK_RST_BLOCK_SHF : Fld := ⟨Reg.CLK_RST_BLOCK, 22, 22⟩
def Fld.CLK_RST_STAT_BUSY : Fld := ⟨Reg.CLK_RST_STAT, 0, 0⟩
def Fld.CLK_RST_STAT_REFUSED : Fld := ⟨Reg.CLK_RST_STAT, 1, 1⟩
def Fld.CLK_RST_CAUSE_CAUSE : Fld := ⟨Reg.CLK_RST_CAUSE, 3, 0⟩
def Fld.HIF_PROFILE_PROFILE : Fld := ⟨Reg.HIF_PROFILE, 2, 0⟩
def Fld.HIF_BASIC_BASE_BASE : Fld := ⟨Reg.HIF_BASIC_BASE, 63, 21⟩
def Fld.HIF_BASIC_CFG_VERDICT_LOG2 : Fld := ⟨Reg.HIF_BASIC_CFG, 4, 0⟩
def Fld.HIF_LINK_SPEED : Fld := ⟨Reg.HIF_LINK, 1, 0⟩
def Fld.HIF_LINK_WIDTH : Fld := ⟨Reg.HIF_LINK, 6, 2⟩
def Fld.HIF_INFLIGHT_COUNT : Fld := ⟨Reg.HIF_INFLIGHT, 16, 0⟩
def Fld.HIF_FETCH_BURST : Fld := ⟨Reg.HIF_FETCH, 4, 0⟩
def Fld.HIF_TALLY_RING : Fld := ⟨Reg.HIF_TALLY, 11, 0⟩
def Fld.HIF_TALLY_EN : Fld := ⟨Reg.HIF_TALLY, 31, 31⟩
def Fld.HIF_EVT_DB_ERR : Fld := ⟨Reg.HIF_EVT, 0, 0⟩
def Fld.HIF_EVT_CFG_ERR : Fld := ⟨Reg.HIF_EVT, 1, 1⟩
def Fld.HIF_EVT_TALLY_LOST : Fld := ⟨Reg.HIF_EVT, 2, 2⟩
def Fld.HIF_EVT_CMD_LOST : Fld := ⟨Reg.HIF_EVT, 3, 3⟩
def Fld.HIF_EVT_BAR4_MISS : Fld := ⟨Reg.HIF_EVT, 4, 4⟩
def Fld.HIF_EVT_VEC_VECTOR : Fld := ⟨Reg.HIF_EVT_VEC, 10, 0⟩
def Fld.HIF_BAR4_EN : Fld := ⟨Reg.HIF_BAR4, 0, 0⟩
def Fld.HIF_BAR4_BASE : Fld := ⟨Reg.HIF_BAR4, 41, 36⟩
def Fld.HIF_HBQ_MAP_RING (i : Nat) : Fld := ⟨Reg.HIF_HBQ_MAP i, 11, 0⟩
def Fld.HIF_HBQ_MAP_EN (i : Nat) : Fld := ⟨Reg.HIF_HBQ_MAP i, 31, 31⟩
def Fld.HIF_PD_CTRL_OPMASK (i : Nat) : Fld := ⟨Reg.HIF_PD_CTRL i, 15, 0⟩
def Fld.HIF_PD_CTRL_QUOTA (i : Nat) : Fld := ⟨Reg.HIF_PD_CTRL i, 32, 16⟩
def Fld.HIF_PD_CTRL_DEFRING (i : Nat) : Fld := ⟨Reg.HIF_PD_CTRL i, 45, 34⟩
def Fld.HIF_PD_CTRL_DEF_EN (i : Nat) : Fld := ⟨Reg.HIF_PD_CTRL i, 46, 46⟩
def Fld.HIF_PD_WIN_BASE_ADDR (i j : Nat) : Fld := ⟨Reg.HIF_PD_WIN_BASE i j, 63, 12⟩
def Fld.HIF_PD_WIN_SIZE_ADDR (i j : Nat) : Fld := ⟨Reg.HIF_PD_WIN_SIZE i j, 63, 12⟩
def Fld.HIF_RING_BASE_BASE (i : Nat) : Fld := ⟨Reg.HIF_RING_BASE i, 63, 12⟩
def Fld.HIF_RING_WB_WB (i : Nat) : Fld := ⟨Reg.HIF_RING_WB i, 63, 3⟩
def Fld.HIF_RING_CFG_KIND (i : Nat) : Fld := ⟨Reg.HIF_RING_CFG i, 2, 0⟩
def Fld.HIF_RING_CFG_LOG2 (i : Nat) : Fld := ⟨Reg.HIF_RING_CFG i, 7, 3⟩
def Fld.HIF_RING_CFG_PD (i : Nat) : Fld := ⟨Reg.HIF_RING_CFG i, 13, 8⟩
def Fld.HIF_RING_CFG_VECTOR (i : Nat) : Fld := ⟨Reg.HIF_RING_CFG i, 24, 14⟩
def Fld.HIF_RING_COAL_COAL_CNT (i : Nat) : Fld := ⟨Reg.HIF_RING_COAL i, 7, 0⟩
def Fld.HIF_RING_COAL_COAL_TIME (i : Nat) : Fld := ⟨Reg.HIF_RING_COAL i, 17, 8⟩
def Fld.HIF_RING_CTRL_EN (i : Nat) : Fld := ⟨Reg.HIF_RING_CTRL i, 0, 0⟩
def Fld.HIF_RING_STAT_STATE (i : Nat) : Fld := ⟨Reg.HIF_RING_STAT i, 1, 0⟩
def Fld.HIF_RING_STAT_CFG_ERR (i : Nat) : Fld := ⟨Reg.HIF_RING_STAT i, 2, 2⟩
def Fld.HIF_RING_STAT_DB_ERR (i : Nat) : Fld := ⟨Reg.HIF_RING_STAT i, 3, 3⟩
def Fld.HIF_RING_PROD_COUNT (i : Nat) : Fld := ⟨Reg.HIF_RING_PROD i, 31, 0⟩
def Fld.HIF_RING_CONS_COUNT (i : Nat) : Fld := ⟨Reg.HIF_RING_CONS i, 31, 0⟩
def Fld.HIF_RING_OCC_INTRANSIT (i : Nat) : Fld := ⟨Reg.HIF_RING_OCC i, 16, 0⟩
def Fld.HIF_RING_OCC_HELD (i : Nat) : Fld := ⟨Reg.HIF_RING_OCC i, 23, 17⟩
def Fld.ITK_PROFILE_PROFILE : Fld := ⟨Reg.ITK_PROFILE, 2, 0⟩
def Fld.ITK_CELLS_TOTAL : Fld := ⟨Reg.ITK_CELLS, 19, 0⟩
def Fld.ITK_CELLS_INTRANSIT : Fld := ⟨Reg.ITK_CELLS, 51, 32⟩
def Fld.ITK_EVT_UP_REFUSED : Fld := ⟨Reg.ITK_EVT, 0, 0⟩
def Fld.ITK_EVT_CFG_REFUSED : Fld := ⟨Reg.ITK_EVT, 1, 1⟩
def Fld.ITK_EVT_LINK_CHANGE : Fld := ⟨Reg.ITK_EVT, 2, 2⟩
def Fld.ITK_EVT_EXHAUST : Fld := ⟨Reg.ITK_EVT, 3, 3⟩
def Fld.ITK_CAGE_CFG_BREAKOUT (i : Nat) : Fld := ⟨Reg.ITK_CAGE_CFG i, 1, 0⟩
def Fld.ITK_PORT_CTRL_UP (i : Nat) : Fld := ⟨Reg.ITK_PORT_CTRL i, 0, 0⟩
def Fld.ITK_PORT_CFG_MODE (i : Nat) : Fld := ⟨Reg.ITK_PORT_CFG i, 1, 0⟩
def Fld.ITK_PORT_CFG_PAIR (i : Nat) : Fld := ⟨Reg.ITK_PORT_CFG i, 6, 2⟩
def Fld.ITK_PORT_CFG_CUT (i : Nat) : Fld := ⟨Reg.ITK_PORT_CFG i, 7, 7⟩
def Fld.ITK_PORT_CFG_MACCTL (i : Nat) : Fld := ⟨Reg.ITK_PORT_CFG i, 8, 8⟩
def Fld.ITK_PORT_CFG_MAXLEN (i : Nat) : Fld := ⟨Reg.ITK_PORT_CFG i, 23, 10⟩
def Fld.ITK_PORT_STAT_PRESENT (i : Nat) : Fld := ⟨Reg.ITK_PORT_STAT i, 0, 0⟩
def Fld.ITK_PORT_STAT_LINK (i : Nat) : Fld := ⟨Reg.ITK_PORT_STAT i, 1, 1⟩
def Fld.ITK_PORT_STAT_SPEED (i : Nat) : Fld := ⟨Reg.ITK_PORT_STAT i, 3, 2⟩
def Fld.ITK_PORT_TSOFF_RX (i : Nat) : Fld := ⟨Reg.ITK_PORT_TSOFF i, 15, 0⟩
def Fld.ITK_PORT_TSOFF_TX (i : Nat) : Fld := ⟨Reg.ITK_PORT_TSOFF i, 31, 16⟩
def Fld.THR_PROFILE_PROFILE : Fld := ⟨Reg.THR_PROFILE, 2, 0⟩
def Fld.THR_MAL_ACT_ACT : Fld := ⟨Reg.THR_MAL_ACT, 31, 2⟩
def Fld.THR_EVT_CFG_ERR : Fld := ⟨Reg.THR_EVT, 0, 0⟩
def Fld.WNW_GEN_LIVE_GEN : Fld := ⟨Reg.WNW_GEN, 31, 0⟩
def Fld.WNW_GEN_STAT_STATE : Fld := ⟨Reg.WNW_GEN_STAT, 1, 0⟩
def Fld.WNW_GEN_STAT_PEND_MODE : Fld := ⟨Reg.WNW_GEN_STAT, 3, 2⟩
def Fld.WNW_RETIRING_PKTS : Fld := ⟨Reg.WNW_RETIRING, 19, 0⟩
def Fld.WNW_SWITCH_TIME_TIME : Fld := ⟨Reg.WNW_SWITCH_TIME, 63, 0⟩
def Fld.WNW_PEND_TIME_TIME : Fld := ⟨Reg.WNW_PEND_TIME, 63, 0⟩
def Fld.WNW_EVT_SWITCHED : Fld := ⟨Reg.WNW_EVT, 0, 0⟩
def Fld.WNW_EVT_CHECK_FAIL : Fld := ⟨Reg.WNW_EVT, 1, 1⟩
def Fld.WNW_EVT_SWITCH_LATE : Fld := ⟨Reg.WNW_EVT, 2, 2⟩
def Fld.CSC_PROFILE_PROFILE : Fld := ⟨Reg.CSC_PROFILE, 2, 0⟩
def Fld.CSC_BASIC_ENSEMBLE : Fld := ⟨Reg.CSC_BASIC, 5, 0⟩
def Fld.CSC_BASIC_MILLCMD : Fld := ⟨Reg.CSC_BASIC, 15, 8⟩
def Fld.CSC_BASIC_JOIN_BUDGET : Fld := ⟨Reg.CSC_BASIC, 27, 16⟩
def Fld.CSC_BASIC2_DEFAULT_CLASS : Fld := ⟨Reg.CSC_BASIC2, 11, 0⟩
def Fld.CSC_BASIC2_DEFAULT_QUEUE : Fld := ⟨Reg.CSC_BASIC2, 17, 12⟩
def Fld.CSC_EVT_PROFILE_REFUSED : Fld := ⟨Reg.CSC_EVT, 0, 0⟩
def Fld.CSC_EVT_PATH_LIMIT : Fld := ⟨Reg.CSC_EVT, 1, 1⟩
def Fld.CSC_EVT_INVALID_ENTRY : Fld := ⟨Reg.CSC_EVT, 2, 2⟩
def Fld.CSC_EVT_NO_TABLE : Fld := ⟨Reg.CSC_EVT, 3, 3⟩
def Fld.CSC_ERV_PROFILE_PROFILE : Fld := ⟨Reg.CSC_ERV_PROFILE, 2, 0⟩
def Fld.CSC_ERV_CFG_MODE : Fld := ⟨Reg.CSC_ERV_CFG, 0, 0⟩
def Fld.CSC_ERV_CFG_RESOLVE_US : Fld := ⟨Reg.CSC_ERV_CFG, 31, 16⟩
def Fld.CSC_ERV_EVT_ABORT : Fld := ⟨Reg.CSC_ERV_EVT, 0, 0⟩
def Fld.CSC_ERV_EVT_UNRESOLVED : Fld := ⟨Reg.CSC_ERV_EVT, 1, 1⟩
def Fld.CSC_ERV_PEND_PKTS : Fld := ⟨Reg.CSC_ERV_PEND, 19, 0⟩
def Fld.SHF_PROFILE_PROFILE : Fld := ⟨Reg.SHF_PROFILE, 2, 0⟩
def Fld.SHF_CFG_AGE_MS : Fld := ⟨Reg.SHF_CFG, 23, 0⟩
def Fld.SHF_LIMIT_HIST_MAX : Fld := ⟨Reg.SHF_LIMIT, 13, 0⟩
def Fld.SHF_LIMIT_MIG_MAX : Fld := ⟨Reg.SHF_LIMIT, 25, 16⟩
def Fld.SHF_REMOTE_TIMEOUT_US : Fld := ⟨Reg.SHF_REMOTE, 15, 0⟩
def Fld.SHF_HOME_N : Fld := ⟨Reg.SHF_HOME, 14, 0⟩
def Fld.SHF_HOME_PEND : Fld := ⟨Reg.SHF_HOME, 31, 31⟩
def Fld.SHF_LOFT_EN : Fld := ⟨Reg.SHF_LOFT, 0, 0⟩
def Fld.SHF_LOFT_WINDOWS : Fld := ⟨Reg.SHF_LOFT, 17, 8⟩
def Fld.SHF_LOFT_SETS : Fld := ⟨Reg.SHF_LOFT, 59, 32⟩
def Fld.SHF_EVT_EVICT : Fld := ⟨Reg.SHF_EVT, 0, 0⟩
def Fld.SHF_EVT_FALLBACK : Fld := ⟨Reg.SHF_EVT, 1, 1⟩
def Fld.SHF_EVT_HOME_APPLIED : Fld := ⟨Reg.SHF_EVT, 2, 2⟩
def Fld.SHF_EVT_REMOTE_TIMEOUT : Fld := ⟨Reg.SHF_EVT, 3, 3⟩
def Fld.SHF_EVT_CFG_ERR : Fld := ⟨Reg.SHF_EVT, 4, 4⟩
def Fld.SHF_OCC_HELD (i : Nat) : Fld := ⟨Reg.SHF_OCC i, 31, 0⟩
def Fld.SHF_OCC_INTRANSIT (i : Nat) : Fld := ⟨Reg.SHF_OCC i, 47, 32⟩
def Fld.SHF_CAP_CAP (i : Nat) : Fld := ⟨Reg.SHF_CAP i, 31, 0⟩
def Fld.SHF_HOMETAB_ID (i : Nat) : Fld := ⟨Reg.SHF_HOMETAB i, 13, 0⟩
def Fld.ORC_PROFILE_PROFILE : Fld := ⟨Reg.ORC_PROFILE, 2, 0⟩
def Fld.ORC_CFG_BACKLOG_THR : Fld := ⟨Reg.ORC_CFG, 19, 0⟩
def Fld.ORC_STAT_BACKLOG : Fld := ⟨Reg.ORC_STAT, 20, 0⟩
def Fld.ORC_STAT_HALVES_ON : Fld := ⟨Reg.ORC_STAT, 25, 24⟩
def Fld.ORC_RES_NODES : Fld := ⟨Reg.ORC_RES, 20, 0⟩
def Fld.ORC_RES_ENSEMBLES : Fld := ⟨Reg.ORC_RES, 38, 32⟩
def Fld.ORC_EVT_TRUNC : Fld := ⟨Reg.ORC_EVT, 0, 0⟩
def Fld.ORC_EVT_WAIT : Fld := ⟨Reg.ORC_EVT, 1, 1⟩
def Fld.ORC_EVT_CFG_ERR : Fld := ⟨Reg.ORC_EVT, 2, 2⟩
def Fld.ORC_EVT_NO_VECTOR : Fld := ⟨Reg.ORC_EVT, 3, 3⟩
def Fld.ORC_POLICY_TRUNC_N (i : Nat) : Fld := ⟨Reg.ORC_POLICY i, 11, 0⟩
def Fld.ORC_POLICY_MODE (i : Nat) : Fld := ⟨Reg.ORC_POLICY i, 31, 31⟩
def Fld.MIL_PROFILE_PROFILE : Fld := ⟨Reg.MIL_PROFILE, 2, 0⟩
def Fld.MIL_CFG_QDEPTH : Fld := ⟨Reg.MIL_CFG, 12, 0⟩
def Fld.MIL_CFG_BATCH_MAX : Fld := ⟨Reg.MIL_CFG, 22, 16⟩
def Fld.MIL_CFG_HARVEST_EN : Fld := ⟨Reg.MIL_CFG, 31, 31⟩
def Fld.MIL_EVT_QFULL : Fld := ⟨Reg.MIL_EVT, 0, 0⟩
def Fld.MIL_EVT_UNDEF_TEMPLATE : Fld := ⟨Reg.MIL_EVT, 1, 1⟩
def Fld.MIL_EVT_YIELD : Fld := ⟨Reg.MIL_EVT, 2, 2⟩
def Fld.MIL_EVT_CFG_ERR : Fld := ⟨Reg.MIL_EVT, 3, 3⟩
def Fld.MIL_EVT_ABANDON : Fld := ⟨Reg.MIL_EVT, 4, 4⟩
def Fld.MIL_QSTAT_DEPTH (i : Nat) : Fld := ⟨Reg.MIL_QSTAT i, 12, 0⟩
def Fld.MIL_QSTAT_HWM (i : Nat) : Fld := ⟨Reg.MIL_QSTAT i, 28, 16⟩
def Fld.MIL_SLOT_HELD (i : Nat) : Fld := ⟨Reg.MIL_SLOT i, 4, 0⟩
def Fld.MIL_SLOT_INTRANSIT (i : Nat) : Fld := ⟨Reg.MIL_SLOT i, 12, 8⟩
def Fld.MIL_SLOT_CLASS (i : Nat) : Fld := ⟨Reg.MIL_SLOT i, 17, 16⟩
def Fld.NUM_PROFILE_PROFILE : Fld := ⟨Reg.NUM_PROFILE, 2, 0⟩
def Fld.NUM_CFG_MODEL_ADAPT : Fld := ⟨Reg.NUM_CFG, 0, 0⟩
def Fld.NUM_EVT_ADAPTED : Fld := ⟨Reg.NUM_EVT, 0, 0⟩
def Fld.NUM_EVT_STAGED : Fld := ⟨Reg.NUM_EVT, 1, 1⟩
def Fld.NUM_EVT_CROSSED : Fld := ⟨Reg.NUM_EVT, 2, 2⟩
def Fld.NUM_EVT_MERGED : Fld := ⟨Reg.NUM_EVT, 3, 3⟩
def Fld.NUM_TCTRL_TRACK (i : Nat) : Fld := ⟨Reg.NUM_TCTRL i, 0, 0⟩
def Fld.NUM_TCTRL_ADAPT (i : Nat) : Fld := ⟨Reg.NUM_TCTRL i, 1, 1⟩
def Fld.NUM_TCTRL_CLASS (i : Nat) : Fld := ⟨Reg.NUM_TCTRL i, 2, 2⟩
def Fld.NUM_TCTRL_FMT (i : Nat) : Fld := ⟨Reg.NUM_TCTRL i, 7, 4⟩
def Fld.NUM_TCTRL_TENSOR_ID (i : Nat) : Fld := ⟨Reg.NUM_TCTRL i, 31, 16⟩
def Fld.NUM_TMSE_THR_MSE_THR (i : Nat) : Fld := ⟨Reg.NUM_TMSE_THR i, 31, 0⟩
def Fld.NUM_TCLIP_THR_CLIP_THR (i : Nat) : Fld := ⟨Reg.NUM_TCLIP_THR i, 15, 0⟩
def Fld.NUM_TSCALE_SCALE (i : Nat) : Fld := ⟨Reg.NUM_TSCALE i, 31, 0⟩
def Fld.NUM_TZP_ZP (i : Nat) : Fld := ⟨Reg.NUM_TZP i, 7, 0⟩
def Fld.NUM_TMSE_MSE (i : Nat) : Fld := ⟨Reg.NUM_TMSE i, 31, 0⟩
def Fld.NUM_TLO_LO (i : Nat) : Fld := ⟨Reg.NUM_TLO i, 31, 0⟩
def Fld.NUM_THI_HI (i : Nat) : Fld := ⟨Reg.NUM_THI i, 31, 0⟩
def Fld.NUM_TN_N (i : Nat) : Fld := ⟨Reg.NUM_TN i, 47, 0⟩
def Fld.NUM_TCLIPS_COUNT (i : Nat) : Fld := ⟨Reg.NUM_TCLIPS i, 47, 0⟩
def Fld.NUM_TCLIPS_SAT (i : Nat) : Fld := ⟨Reg.NUM_TCLIPS i, 63, 63⟩
def Fld.NUM_TUNFS_COUNT (i : Nat) : Fld := ⟨Reg.NUM_TUNFS i, 47, 0⟩
def Fld.NUM_TUNFS_SAT (i : Nat) : Fld := ⟨Reg.NUM_TUNFS i, 63, 63⟩
def Fld.NUM_TFLAGS_INX_UNF_SAT_NAN (i : Nat) : Fld := ⟨Reg.NUM_TFLAGS i, 3, 0⟩
def Fld.NUM_TFLAGS_OPEN (i : Nat) : Fld := ⟨Reg.NUM_TFLAGS i, 8, 8⟩
def Fld.NUM_TFLAGS_MERGED (i : Nat) : Fld := ⟨Reg.NUM_TFLAGS i, 9, 9⟩
def Fld.RIL_PROFILE_PROFILE : Fld := ⟨Reg.RIL_PROFILE, 2, 0⟩
def Fld.RIL_CFG_REMOTE_TIMEOUT_US : Fld := ⟨Reg.RIL_CFG, 15, 0⟩
def Fld.RIL_CFG_MAX_REMOTE : Fld := ⟨Reg.RIL_CFG, 19, 16⟩
def Fld.RIL_CFG_SPREAD : Fld := ⟨Reg.RIL_CFG, 20, 20⟩
def Fld.RIL_CFG_FAULT_REC : Fld := ⟨Reg.RIL_CFG, 21, 21⟩
def Fld.RIL_GWIN_BASE_MB : Fld := ⟨Reg.RIL_GWIN, 7, 0⟩
def Fld.RIL_GWIN_SIZE_MB : Fld := ⟨Reg.RIL_GWIN, 15, 8⟩
def Fld.RIL_SWIN_BASE_MB : Fld := ⟨Reg.RIL_SWIN, 15, 0⟩
def Fld.RIL_SWIN_SIZE_MB : Fld := ⟨Reg.RIL_SWIN, 31, 16⟩
def Fld.RIL_EVT_FAULT : Fld := ⟨Reg.RIL_EVT, 0, 0⟩
def Fld.RIL_EVT_SPROUT_SKIP : Fld := ⟨Reg.RIL_EVT, 1, 1⟩
def Fld.RIL_EVT_CFG_ERR : Fld := ⟨Reg.RIL_EVT, 2, 2⟩
def Fld.RIL_BANKSTAT_FREE (i : Nat) : Fld := ⟨Reg.RIL_BANKSTAT i, 10, 0⟩
def Fld.RIL_BANKSTAT_WAITING (i : Nat) : Fld := ⟨Reg.RIL_BANKSTAT i, 26, 16⟩
def Fld.RIL_FAULT_CAUSE (i : Nat) : Fld := ⟨Reg.RIL_FAULT i, 7, 0⟩
def Fld.RIL_FAULT_THREAD (i : Nat) : Fld := ⟨Reg.RIL_FAULT i, 63, 32⟩
def Fld.RIL_FAULT_PC_PC (i : Nat) : Fld := ⟨Reg.RIL_FAULT_PC i, 63, 0⟩
def Fld.RIL_FAULT_TVAL_TVAL (i : Nat) : Fld := ⟨Reg.RIL_FAULT_TVAL i, 63, 0⟩
def Fld.GAR_PROFILE_PROFILE : Fld := ⟨Reg.GAR_PROFILE, 2, 0⟩
def Fld.GAR_BASIC_DATA_BASE : Fld := ⟨Reg.GAR_BASIC, 63, 12⟩
def Fld.GAR_SP_CFG_QDEPTH : Fld := ⟨Reg.GAR_SP_CFG, 14, 0⟩
def Fld.GAR_SP_CFG_FULL_ACT : Fld := ⟨Reg.GAR_SP_CFG, 15, 15⟩
def Fld.GAR_SP_CFG_SNAPLEN : Fld := ⟨Reg.GAR_SP_CFG, 29, 16⟩
def Fld.GAR_SP_ACT_ACT : Fld := ⟨Reg.GAR_SP_ACT, 25, 0⟩
def Fld.GAR_STAT_PAIR_UP : Fld := ⟨Reg.GAR_STAT, 3, 0⟩
def Fld.GAR_STAT_CUST_RUN : Fld := ⟨Reg.GAR_STAT, 4, 4⟩
def Fld.GAR_VER_FW : Fld := ⟨Reg.GAR_VER, 15, 0⟩
def Fld.GAR_EVT_WDT : Fld := ⟨Reg.GAR_EVT, 0, 0⟩
def Fld.GAR_EVT_CUST_FAULT : Fld := ⟨Reg.GAR_EVT, 1, 1⟩
def Fld.GAR_EVT_SP_FULL : Fld := ⟨Reg.GAR_EVT, 2, 2⟩
def Fld.GAR_EVT_DATA_FAULT : Fld := ⟨Reg.GAR_EVT, 3, 3⟩
def Fld.GAR_EVT_MAP_ERR : Fld := ⟨Reg.GAR_EVT, 4, 4⟩
def Fld.GAR_EVT_CFG_ERR : Fld := ⟨Reg.GAR_EVT, 5, 5⟩
def Fld.GAR_EVT_CUST_STOP : Fld := ⟨Reg.GAR_EVT, 6, 6⟩
def Fld.GAR_SP_DEPTH_DEPTH : Fld := ⟨Reg.GAR_SP_DEPTH, 14, 0⟩
def Fld.GAR_SP_DEPTH_HWM : Fld := ⟨Reg.GAR_SP_DEPTH, 30, 16⟩
def Fld.GAR_SPQ_SLOT_LOG2 (i : Nat) : Fld := ⟨Reg.GAR_SPQ i, 3, 0⟩
def Fld.GAR_SPQ_DATA_BASE (i : Nat) : Fld := ⟨Reg.GAR_SPQ i, 63, 12⟩
def Fld.SLC_EVT_CFG_ERR : Fld := ⟨Reg.SLC_EVT, 0, 0⟩
def Fld.SLC_EVT_WIN_DROP : Fld := ⟨Reg.SLC_EVT, 1, 1⟩
def Fld.SLC_EVT_LAG_CLAMP : Fld := ⟨Reg.SLC_EVT, 2, 2⟩
def Fld.SLC_EVT_GCL_ACTIVE : Fld := ⟨Reg.SLC_EVT, 3, 3⟩
def Fld.SLC_EVT_LATE_LAUNCH : Fld := ⟨Reg.SLC_EVT, 4, 4⟩
def Fld.SLC_HPROFILE_PROFILE : Fld := ⟨Reg.SLC_HPROFILE, 2, 0⟩
def Fld.SLC_VSEL_BASE : Fld := ⟨Reg.SLC_VSEL, 7, 0⟩
def Fld.SLC_VSEL_COUNT : Fld := ⟨Reg.SLC_VSEL, 16, 8⟩
def Fld.SLC_SAMPLE_INTERVAL_US : Fld := ⟨Reg.SLC_SAMPLE, 19, 0⟩
def Fld.SLC_SAMPLE_RING : Fld := ⟨Reg.SLC_SAMPLE, 43, 32⟩
def Fld.SLC_SAMPLE_EN : Fld := ⟨Reg.SLC_SAMPLE, 63, 63⟩
def Fld.SLC_PPROFILE_PROFILE (i : Nat) : Fld := ⟨Reg.SLC_PPROFILE i, 2, 0⟩
def Fld.SLC_PBASIC_RATE_MBPS (i : Nat) : Fld := ⟨Reg.SLC_PBASIC i, 18, 0⟩
def Fld.SLC_PBASIC_CYCLE_US (i : Nat) : Fld := ⟨Reg.SLC_PBASIC i, 39, 20⟩
def Fld.SLC_PBASIC_SPLIT (i : Nat) : Fld := ⟨Reg.SLC_PBASIC i, 46, 40⟩
def Fld.SLC_TXQ_CFG_WEIGHT (i : Nat) : Fld := ⟨Reg.SLC_TXQ_CFG i, 15, 0⟩
def Fld.SLC_TXQ_CFG_SHAPE_EN (i : Nat) : Fld := ⟨Reg.SLC_TXQ_CFG i, 16, 16⟩
def Fld.SLC_TXQ_CFG_DEI_MARK (i : Nat) : Fld := ⟨Reg.SLC_TXQ_CFG i, 17, 17⟩
def Fld.SLC_TXQ_CFG_SAMP_EN (i : Nat) : Fld := ⟨Reg.SLC_TXQ_CFG i, 18, 18⟩
def Fld.SLC_TXQ_LIMIT_CELLS (i : Nat) : Fld := ⟨Reg.SLC_TXQ_LIMIT i, 19, 0⟩
def Fld.SLC_TXQ_YLIM_CELLS (i : Nat) : Fld := ⟨Reg.SLC_TXQ_YLIM i, 19, 0⟩
def Fld.SLC_TXQ_RLIM_CELLS (i : Nat) : Fld := ⟨Reg.SLC_TXQ_RLIM i, 19, 0⟩
def Fld.SLC_TXQ_RATE_RATE (i : Nat) : Fld := ⟨Reg.SLC_TXQ_RATE i, 31, 0⟩
def Fld.SLC_TXQ_BURST_BURST (i : Nat) : Fld := ⟨Reg.SLC_TXQ_BURST i, 23, 0⟩
def Fld.SLC_TXQ_STAT_DEPTH (i : Nat) : Fld := ⟨Reg.SLC_TXQ_STAT i, 19, 0⟩
def Fld.SLC_TXQ_STAT_FRAMES (i : Nat) : Fld := ⟨Reg.SLC_TXQ_STAT i, 39, 20⟩
def Fld.SLC_TXQ_HWM_DEPTH_HWM (i : Nat) : Fld := ⟨Reg.SLC_TXQ_HWM i, 19, 0⟩
def Fld.SLC_TXQ_HWM_DELAY_HWM (i : Nat) : Fld := ⟨Reg.SLC_TXQ_HWM i, 63, 24⟩
def Fld.SLC_TXQ_TAG_F (i : Nat) : Fld := ⟨Reg.SLC_TXQ_TAG i, 47, 0⟩
def Fld.SLC_HBQ_CFG_WEIGHT (i : Nat) : Fld := ⟨Reg.SLC_HBQ_CFG i, 15, 0⟩
def Fld.SLC_HBQ_CFG_SAMP_EN (i : Nat) : Fld := ⟨Reg.SLC_HBQ_CFG i, 16, 16⟩
def Fld.SLC_HBQ_LIMIT_HLIMIT (i : Nat) : Fld := ⟨Reg.SLC_HBQ_LIMIT i, 16, 0⟩
def Fld.SLC_HBQ_STAT_DEPTH (i : Nat) : Fld := ⟨Reg.SLC_HBQ_STAT i, 16, 0⟩
def Fld.SLC_HBQ_HWM_DEPTH_HWM (i : Nat) : Fld := ⟨Reg.SLC_HBQ_HWM i, 16, 0⟩
def Fld.SLC_HBQ_HWM_DELAY_HWM (i : Nat) : Fld := ⟨Reg.SLC_HBQ_HWM i, 63, 24⟩
def Fld.SLC_POL_CIR_RATE (i : Nat) : Fld := ⟨Reg.SLC_POL_CIR i, 31, 0⟩
def Fld.SLC_POL_PIR_RATE (i : Nat) : Fld := ⟨Reg.SLC_POL_PIR i, 31, 0⟩
def Fld.SLC_POL_CBS_BYTES (i : Nat) : Fld := ⟨Reg.SLC_POL_CBS i, 23, 0⟩
def Fld.SLC_POL_PBS_BYTES (i : Nat) : Fld := ⟨Reg.SLC_POL_PBS i, 23, 0⟩
def Fld.SLC_POL_CFG_EN (i : Nat) : Fld := ⟨Reg.SLC_POL_CFG i, 0, 0⟩
def Fld.SLC_POL_CFG_RED_ACT (i : Nat) : Fld := ⟨Reg.SLC_POL_CFG i, 1, 1⟩
def Fld.SLC_GCL_CTRL_EN (i : Nat) : Fld := ⟨Reg.SLC_GCL_CTRL i, 0, 0⟩
def Fld.SLC_GCL_CTRL_COMMIT (i : Nat) : Fld := ⟨Reg.SLC_GCL_CTRL i, 1, 1⟩
def Fld.SLC_GCL_CTRL_PEND (i : Nat) : Fld := ⟨Reg.SLC_GCL_CTRL i, 2, 2⟩
def Fld.SLC_GCL_CTRL_NENT (i : Nat) : Fld := ⟨Reg.SLC_GCL_CTRL i, 16, 8⟩
def Fld.SLC_GCL_BASE_TIME (i : Nat) : Fld := ⟨Reg.SLC_GCL_BASE i, 63, 0⟩
def Fld.SLC_GCL_CYCLE_TICKS (i : Nat) : Fld := ⟨Reg.SLC_GCL_CYCLE i, 30, 0⟩
def Fld.SLC_GCL_ACT_TIME (i : Nat) : Fld := ⟨Reg.SLC_GCL_ACT i, 63, 0⟩
def Fld.SLC_GCL_OPER_ENTRY (i : Nat) : Fld := ⟨Reg.SLC_GCL_OPER i, 7, 0⟩
def Fld.SLC_GCL_GATES_GATES (i j : Nat) : Fld := ⟨Reg.SLC_GCL_GATES i j, 63, 0⟩
def Fld.SLC_GCL_INT_INTERVAL (i j : Nat) : Fld := ⟨Reg.SLC_GCL_INT i j, 31, 0⟩
def Fld.GFT_PROFILE_PROFILE : Fld := ⟨Reg.GFT_PROFILE, 2, 0⟩
def Fld.GFT_CFG_LEARN_EN : Fld := ⟨Reg.GFT_CFG, 0, 0⟩
def Fld.GFT_CFG_STEPS_PER_GRAFT : Fld := ⟨Reg.GFT_CFG, 15, 4⟩
def Fld.GFT_CFG_SAMPLE_EVERY : Fld := ⟨Reg.GFT_CFG, 23, 16⟩
def Fld.GFT_LATT_MARGIN_US : Fld := ⟨Reg.GFT_LATT, 15, 0⟩
def Fld.GFT_LATT_INDOUBT_US : Fld := ⟨Reg.GFT_LATT, 31, 16⟩
def Fld.GFT_STAT_LIVE : Fld := ⟨Reg.GFT_STAT, 0, 0⟩
def Fld.GFT_STAT_SHADOW : Fld := ⟨Reg.GFT_STAT, 3, 1⟩
def Fld.GFT_STAT_SHADOW_LEARNED : Fld := ⟨Reg.GFT_STAT, 4, 4⟩
def Fld.GFT_STAT_RETIRING : Fld := ⟨Reg.GFT_STAT, 5, 5⟩
def Fld.GFT_STAT_LEARNING : Fld := ⟨Reg.GFT_STAT, 6, 6⟩
def Fld.GFT_STAT_COORD : Fld := ⟨Reg.GFT_STAT, 7, 7⟩
def Fld.GFT_LIVE_EPOCH_EPOCH : Fld := ⟨Reg.GFT_LIVE_EPOCH, 31, 0⟩
def Fld.GFT_SHADOW_EPOCH_EPOCH : Fld := ⟨Reg.GFT_SHADOW_EPOCH, 31, 0⟩
def Fld.GFT_RETIRING_EPOCH_EPOCH : Fld := ⟨Reg.GFT_RETIRING_EPOCH, 31, 0⟩
def Fld.GFT_ARM_TIME_T : Fld := ⟨Reg.GFT_ARM_TIME, 63, 0⟩
def Fld.GFT_TOKENS_HELD : Fld := ⟨Reg.GFT_TOKENS, 14, 0⟩
def Fld.GFT_TOKENS_INTRANSIT : Fld := ⟨Reg.GFT_TOKENS, 30, 16⟩
def Fld.GFT_TOKENS_TOTAL : Fld := ⟨Reg.GFT_TOKENS, 46, 32⟩
def Fld.GFT_SLOT_MW_BASE : Fld := ⟨Reg.GFT_SLOT, 25, 0⟩
def Fld.GFT_SLOT_NODE_BASE : Fld := ⟨Reg.GFT_SLOT, 51, 32⟩
def Fld.GFT_HIST_HIST_GEN : Fld := ⟨Reg.GFT_HIST, 15, 0⟩
def Fld.GFT_LIVE_HASH_HASH (i : Nat) : Fld := ⟨Reg.GFT_LIVE_HASH i, 31, 0⟩
def Fld.GFT_SHADOW_HASH_HASH (i : Nat) : Fld := ⟨Reg.GFT_SHADOW_HASH i, 31, 0⟩
def Fld.GFT_EVT_GRAFTED : Fld := ⟨Reg.GFT_EVT, 0, 0⟩
def Fld.GFT_EVT_LOAD_FAIL : Fld := ⟨Reg.GFT_EVT, 1, 1⟩
def Fld.GFT_EVT_LATT_ABORT : Fld := ⟨Reg.GFT_EVT, 2, 2⟩
def Fld.GFT_EVT_LATE : Fld := ⟨Reg.GFT_EVT, 3, 3⟩
def Fld.GFT_EVT_ORPHAN : Fld := ⟨Reg.GFT_EVT, 4, 4⟩
def Fld.GFT_EVT_LEARN_DISCARD : Fld := ⟨Reg.GFT_EVT, 5, 5⟩
def Fld.GFT_EVT_CFG_ERR : Fld := ⟨Reg.GFT_EVT, 6, 6⟩
def Fld.FLG_PROFILE_PROFILE : Fld := ⟨Reg.FLG_PROFILE, 2, 0⟩
def Fld.FLG_ID_ID : Fld := ⟨Reg.FLG_ID, 13, 0⟩
def Fld.FLG_BASIC_LATTICE_NAME : Fld := ⟨Reg.FLG_BASIC, 31, 0⟩
def Fld.FLG_BASIC_DX : Fld := ⟨Reg.FLG_BASIC, 37, 32⟩
def Fld.FLG_BASIC_DY : Fld := ⟨Reg.FLG_BASIC, 45, 40⟩
def Fld.FLG_BASIC_DZ : Fld := ⟨Reg.FLG_BASIC, 52, 48⟩
def Fld.FLG_USERHASH_HASH : Fld := ⟨Reg.FLG_USERHASH, 31, 0⟩
def Fld.FLG_CFGHASH_HASH : Fld := ⟨Reg.FLG_CFGHASH, 31, 0⟩
def Fld.FLG_VER_VMIN : Fld := ⟨Reg.FLG_VER, 7, 0⟩
def Fld.FLG_VER_VMAX : Fld := ⟨Reg.FLG_VER, 15, 8⟩
def Fld.FLG_FIELD_FIELD_ID : Fld := ⟨Reg.FLG_FIELD, 15, 0⟩
def Fld.FLG_TIME_CFG_ROOT : Fld := ⟨Reg.FLG_TIME_CFG, 0, 0⟩
def Fld.FLG_TIME_CFG_SRC : Fld := ⟨Reg.FLG_TIME_CFG, 2, 1⟩
def Fld.FLG_TIME_CFG_PPS_PHASE : Fld := ⟨Reg.FLG_TIME_CFG, 62, 32⟩
def Fld.FLG_TIME_STAT_SYNCED : Fld := ⟨Reg.FLG_TIME_STAT, 0, 0⟩
def Fld.FLG_TIME_STAT_SUSPECT : Fld := ⟨Reg.FLG_TIME_STAT, 1, 1⟩
def Fld.FLG_TIME_STAT_PARENT : Fld := ⟨Reg.FLG_TIME_STAT, 4, 2⟩
def Fld.FLG_TIME_STAT_PARENT_VALID : Fld := ⟨Reg.FLG_TIME_STAT, 5, 5⟩
def Fld.FLG_TIME_STAT_HOPS : Fld := ⟨Reg.FLG_TIME_STAT, 15, 8⟩
def Fld.FLG_TIME_STAT_OFFSET : Fld := ⟨Reg.FLG_TIME_STAT, 63, 32⟩
def Fld.FLG_STAT_LATE_RESET : Fld := ⟨Reg.FLG_STAT, 0, 0⟩
def Fld.FLG_STAT_ROUTES_VALID : Fld := ⟨Reg.FLG_STAT, 1, 1⟩
def Fld.FLG_STAT_REACHABLE : Fld := ⟨Reg.FLG_STAT, 30, 16⟩
def Fld.FLG_EVT_PORT_CHANGE : Fld := ⟨Reg.FLG_EVT, 0, 0⟩
def Fld.FLG_EVT_QUARANTINE : Fld := ⟨Reg.FLG_EVT, 1, 1⟩
def Fld.FLG_EVT_RETRAIN : Fld := ⟨Reg.FLG_EVT, 2, 2⟩
def Fld.FLG_EVT_SUSPECT_SET : Fld := ⟨Reg.FLG_EVT, 3, 3⟩
def Fld.FLG_EVT_SUSPECT_CLR : Fld := ⟨Reg.FLG_EVT, 4, 4⟩
def Fld.FLG_EVT_UNREACH : Fld := ⟨Reg.FLG_EVT, 5, 5⟩
def Fld.FLG_EVT_CFG_ERR : Fld := ⟨Reg.FLG_EVT, 6, 6⟩
def Fld.FLG_EVT_EPOCH_IGNORED : Fld := ⟨Reg.FLG_EVT, 7, 7⟩
def Fld.FLG_EVT_PPS_LOST : Fld := ⟨Reg.FLG_EVT, 8, 8⟩
def Fld.FLG_PORT_CFG_EN (i : Nat) : Fld := ⟨Reg.FLG_PORT_CFG i, 0, 0⟩
def Fld.FLG_PORT_CFG_ROLE (i : Nat) : Fld := ⟨Reg.FLG_PORT_CFG i, 3, 1⟩
def Fld.FLG_PORT_STAT_STATE (i : Nat) : Fld := ⟨Reg.FLG_PORT_STAT i, 2, 0⟩
def Fld.FLG_PORT_STAT_REASON (i : Nat) : Fld := ⟨Reg.FLG_PORT_STAT i, 7, 4⟩
def Fld.FLG_PORT_STAT_NEIGH_ID (i : Nat) : Fld := ⟨Reg.FLG_PORT_STAT i, 21, 8⟩
def Fld.FLG_PORT_STAT_NEIGH_PORT (i : Nat) : Fld := ⟨Reg.FLG_PORT_STAT i, 26, 24⟩
def Fld.FLG_PORT_STAT_VER (i : Nat) : Fld := ⟨Reg.FLG_PORT_STAT i, 31, 28⟩
def Fld.FLG_PORT_CREDIT_FREE (i j : Nat) : Fld := ⟨Reg.FLG_PORT_CREDIT i j, 8, 0⟩
def Fld.FLG_PORT_CREDIT_HELD (i j : Nat) : Fld := ⟨Reg.FLG_PORT_CREDIT i j, 24, 16⟩
def Fld.FLG_PORT_CREDIT_INTRANSIT (i j : Nat) : Fld := ⟨Reg.FLG_PORT_CREDIT i j, 40, 32⟩
def Fld.FLG_PORT_CREDIT_ADV (i j : Nat) : Fld := ⟨Reg.FLG_PORT_CREDIT i j, 56, 48⟩
def Fld.GLN_PROFILE_PROFILE : Fld := ⟨Reg.GLN_PROFILE, 2, 0⟩
def Fld.GLN_TRACE_CFG_EN : Fld := ⟨Reg.GLN_TRACE_CFG, 0, 0⟩
def Fld.GLN_TRACE_CFG_PC_EN : Fld := ⟨Reg.GLN_TRACE_CFG, 1, 1⟩
def Fld.GLN_TRACE_CFG_CMD_EN : Fld := ⟨Reg.GLN_TRACE_CFG, 2, 2⟩
def Fld.GLN_TRACE_CFG_MARK_EN : Fld := ⟨Reg.GLN_TRACE_CFG, 3, 3⟩
def Fld.GLN_TRACE_CFG_LINK_EN : Fld := ⟨Reg.GLN_TRACE_CFG, 4, 4⟩
def Fld.GLN_TRACE_CFG_DEST : Fld := ⟨Reg.GLN_TRACE_CFG, 6, 5⟩
def Fld.GLN_TRACE_CFG_FULL_MODE : Fld := ⟨Reg.GLN_TRACE_CFG, 7, 7⟩
def Fld.GLN_TRACE_CFG_PC_LOG2 : Fld := ⟨Reg.GLN_TRACE_CFG, 12, 8⟩
def Fld.GLN_TRACE_CFG_LINK_LOG2 : Fld := ⟨Reg.GLN_TRACE_CFG, 19, 16⟩
def Fld.GLN_REGION_SIZE_64M : Fld := ⟨Reg.GLN_REGION, 7, 0⟩
def Fld.GLN_COLLECT_ID : Fld := ⟨Reg.GLN_COLLECT, 13, 0⟩
def Fld.GLN_HBUF_BASE_BASE : Fld := ⟨Reg.GLN_HBUF_BASE, 63, 12⟩
def Fld.GLN_HBUF_SIZE : Fld := ⟨Reg.GLN_HBUF, 19, 0⟩
def Fld.GLN_HBUF_PD : Fld := ⟨Reg.GLN_HBUF, 29, 24⟩
def Fld.GLN_HBUF_WB_WB : Fld := ⟨Reg.GLN_HBUF_WB, 63, 3⟩
def Fld.GLN_TALLY_CFG_MODE : Fld := ⟨Reg.GLN_TALLY_CFG, 0, 0⟩
def Fld.GLN_TALLY_CFG_PERIOD_MS : Fld := ⟨Reg.GLN_TALLY_CFG, 31, 8⟩
def Fld.GLN_TALLY_STAT_COUNT : Fld := ⟨Reg.GLN_TALLY_STAT, 63, 0⟩
def Fld.GLN_TALLY_TIME_T : Fld := ⟨Reg.GLN_TALLY_TIME, 63, 0⟩
def Fld.GLN_HANG_US : Fld := ⟨Reg.GLN_HANG, 23, 0⟩
def Fld.GLN_EVT_CFG_ERR : Fld := ⟨Reg.GLN_EVT, 0, 0⟩
def Fld.GLN_EVT_STAGE_FULL : Fld := ⟨Reg.GLN_EVT, 1, 1⟩
def Fld.GLN_EVT_REGION_FULL : Fld := ⟨Reg.GLN_EVT, 2, 2⟩
def Fld.GLN_EVT_HANG_SUSPECT : Fld := ⟨Reg.GLN_EVT, 3, 3⟩
def Fld.GLN_EVT_HANG_DONE : Fld := ⟨Reg.GLN_EVT, 4, 4⟩
def Fld.GLN_EVT_TRACE_RX_DROP : Fld := ⟨Reg.GLN_EVT, 5, 5⟩
def Fld.GLN_STAGE_RECORDS : Fld := ⟨Reg.GLN_STAGE, 17, 0⟩
def Fld.GLN_REASON_REASON (i : Nat) : Fld := ⟨Reg.GLN_REASON i, 3, 0⟩
def Fld.KOL_CTRL_EN : Fld := ⟨Reg.KOL_CTRL, 0, 0⟩
def Fld.KOL_CTRL_TRIGDIR : Fld := ⟨Reg.KOL_CTRL, 1, 1⟩
def Fld.KOL_CTRL_TRIGIN_POL : Fld := ⟨Reg.KOL_CTRL, 2, 2⟩
def Fld.KOL_CTRL_TRIGOUT_POL : Fld := ⟨Reg.KOL_CTRL, 3, 3⟩
def Fld.KOL_CTRL_PPS_POL : Fld := ⟨Reg.KOL_CTRL, 4, 4⟩
def Fld.KOL_CTRL_TRIGOUT_WIDTH : Fld := ⟨Reg.KOL_CTRL, 15, 8⟩
def Fld.KOL_PROFILE_PROFILE : Fld := ⟨Reg.KOL_PROFILE, 2, 0⟩
def Fld.KOL_STAT_LINK_UP : Fld := ⟨Reg.KOL_STAT, 0, 0⟩
def Fld.KOL_STAT_FIELD_PWR : Fld := ⟨Reg.KOL_STAT, 1, 1⟩
def Fld.KOL_STAT_FIXTURE_PRES : Fld := ⟨Reg.KOL_STAT, 2, 2⟩
def Fld.KOL_STAT_REF_PRES : Fld := ⟨Reg.KOL_STAT, 3, 3⟩
def Fld.KOL_STAT_CAL_VALID : Fld := ⟨Reg.KOL_STAT, 4, 4⟩
def Fld.KOL_STAT_ALARM_ACTIVE : Fld := ⟨Reg.KOL_STAT, 5, 5⟩
def Fld.KOL_STAT_FIELD_VER : Fld := ⟨Reg.KOL_STAT, 15, 8⟩
def Fld.KOL_EVT_PPS_BADWIDTH : Fld := ⟨Reg.KOL_EVT, 0, 0⟩
def Fld.KOL_EVT_EDGE_TOOFAST : Fld := ⟨Reg.KOL_EVT, 1, 1⟩
def Fld.KOL_EVT_TRIG_SEQ_MISMATCH : Fld := ⟨Reg.KOL_EVT, 2, 2⟩
def Fld.KOL_EVT_TRIG_LATE : Fld := ⟨Reg.KOL_EVT, 3, 3⟩
def Fld.KOL_EVT_ZERO_WIDTH : Fld := ⟨Reg.KOL_EVT, 4, 4⟩
def Fld.KOL_EVT_LINK_LOST : Fld := ⟨Reg.KOL_EVT, 5, 5⟩
def Fld.KOL_EVT_FIXTURE_CHANGE : Fld := ⟨Reg.KOL_EVT, 6, 6⟩
def Fld.KOL_EVT_REF_CHANGE : Fld := ⟨Reg.KOL_EVT, 7, 7⟩
def Fld.KOL_EVT_ALARM_CHANGE : Fld := ⟨Reg.KOL_EVT, 8, 8⟩
def Fld.KOL_ALARM_VFLD_OC : Fld := ⟨Reg.KOL_ALARM, 0, 0⟩
def Fld.KOL_ALARM_VFLD_UV : Fld := ⟨Reg.KOL_ALARM, 1, 1⟩
def Fld.KOL_ALARM_FALM_IN : Fld := ⟨Reg.KOL_ALARM, 2, 2⟩
def Fld.KOL_ALARM_EDGE_FAULT : Fld := ⟨Reg.KOL_ALARM, 3, 3⟩
def Fld.KOL_ALARM_FIELD_RESET : Fld := ⟨Reg.KOL_ALARM, 4, 4⟩
def Fld.KOL_CAL_PPS_DELAY : Fld := ⟨Reg.KOL_CAL, 15, 0⟩
def Fld.KOL_CAL_TRIG_DELAY : Fld := ⟨Reg.KOL_CAL, 31, 16⟩
def Fld.KOL_PPS_TS_TIME : Fld := ⟨Reg.KOL_PPS_TS, 63, 0⟩
def Fld.KOL_PPS_SEQ_SEQ : Fld := ⟨Reg.KOL_PPS_SEQ, 15, 0⟩
def Fld.KOL_PPS_SEQ_VALID : Fld := ⟨Reg.KOL_PPS_SEQ, 16, 16⟩
def Fld.KOL_TRIG_TS_TIME : Fld := ⟨Reg.KOL_TRIG_TS, 63, 0⟩
def Fld.KOL_TRIG_SEQ_SEQ : Fld := ⟨Reg.KOL_TRIG_SEQ, 15, 0⟩
def Fld.KOL_TRIG_SEQ_COARSE : Fld := ⟨Reg.KOL_TRIG_SEQ, 16, 16⟩
def Fld.KOL_TRIGOUT_TIME_TIME : Fld := ⟨Reg.KOL_TRIGOUT_TIME, 63, 0⟩
def Fld.KOL_TRIGOUT_CMD_ARM : Fld := ⟨Reg.KOL_TRIGOUT_CMD, 0, 0⟩
def Fld.KOL_TRIGOUT_CMD_CANCEL : Fld := ⟨Reg.KOL_TRIGOUT_CMD, 1, 1⟩
def Fld.KOL_REF_PPB : Fld := ⟨Reg.KOL_REF, 31, 0⟩
def Fld.KOL_FIXTURE_ID (i : Nat) : Fld := ⟨Reg.KOL_FIXTURE i, 31, 0⟩
def Fld.ERR_PROFILE_PROFILE : Fld := ⟨Reg.ERR_PROFILE, 2, 0⟩
def Fld.ERR_CFG_CE_REC : Fld := ⟨Reg.ERR_CFG, 1, 0⟩
def Fld.ERR_CFG_SCRUB_EN : Fld := ⟨Reg.ERR_CFG, 2, 2⟩
def Fld.ERR_CFG_VREC : Fld := ⟨Reg.ERR_CFG, 3, 3⟩
def Fld.ERR_CFG_BYP_FORM : Fld := ⟨Reg.ERR_CFG, 6, 4⟩
def Fld.ERR_CFG_BYP_QUEUE : Fld := ⟨Reg.ERR_CFG, 13, 8⟩
def Fld.ERR_CFG_RING : Fld := ⟨Reg.ERR_CFG, 27, 16⟩
def Fld.ERR_SCRUB_SCRUB_PERIOD_H : Fld := ⟨Reg.ERR_SCRUB, 7, 0⟩
def Fld.ERR_BYPASS_CTRL_CMD : Fld := ⟨Reg.ERR_BYPASS_CTRL, 0, 0⟩
def Fld.ERR_BYPASS_CTRL_ACK : Fld := ⟨Reg.ERR_BYPASS_CTRL, 1, 1⟩
def Fld.ERR_BYPASS_STAT_ACTIVE : Fld := ⟨Reg.ERR_BYPASS_STAT, 0, 0⟩
def Fld.ERR_BYPASS_STAT_CAUSES : Fld := ⟨Reg.ERR_BYPASS_STAT, 5, 1⟩
def Fld.ERR_BYPASS_STAT_THROTTLE : Fld := ⟨Reg.ERR_BYPASS_STAT, 8, 8⟩
def Fld.ERR_BYPASS_STAT_SELFTEST : Fld := ⟨Reg.ERR_BYPASS_STAT, 9, 9⟩
def Fld.ERR_BYPASS_TIME_E : Fld := ⟨Reg.ERR_BYPASS_TIME, 63, 0⟩
def Fld.ERR_TEMP_HOTSPOT : Fld := ⟨Reg.ERR_TEMP, 15, 0⟩
def Fld.ERR_EVT_CE : Fld := ⟨Reg.ERR_EVT, 0, 0⟩
def Fld.ERR_EVT_UE : Fld := ⟨Reg.ERR_EVT, 1, 1⟩
def Fld.ERR_EVT_POISON : Fld := ⟨Reg.ERR_EVT, 2, 2⟩
def Fld.ERR_EVT_BYPASS_ENTER : Fld := ⟨Reg.ERR_EVT, 3, 3⟩
def Fld.ERR_EVT_BYPASS_EXIT : Fld := ⟨Reg.ERR_EVT, 4, 4⟩
def Fld.ERR_EVT_CFG_ERR : Fld := ⟨Reg.ERR_EVT, 5, 5⟩
def Fld.ERR_INJECT_MEM : Fld := ⟨Reg.ERR_INJECT, 2, 0⟩
def Fld.ERR_INJECT_KIND : Fld := ⟨Reg.ERR_INJECT, 8, 8⟩
def Fld.ERR_INJECT_ARMED : Fld := ⟨Reg.ERR_INJECT, 14, 14⟩
def Fld.ERR_INJECT_ARM : Fld := ⟨Reg.ERR_INJECT, 15, 15⟩
def Fld.ERR_INJECT_KEY : Fld := ⟨Reg.ERR_INJECT, 31, 16⟩
def Fld.STW_STAT_ABSENT : Fld := ⟨Reg.STW_STAT, 0, 0⟩
def Fld.STW_STAT_RESTARTING : Fld := ⟨Reg.STW_STAT, 1, 1⟩
def Fld.STW_STAT_HALT_SEEN : Fld := ⟨Reg.STW_STAT, 2, 2⟩
def Fld.STW_STAT_HB : Fld := ⟨Reg.STW_STAT, 15, 8⟩
def Fld.STW_STAT_PROTO : Fld := ⟨Reg.STW_STAT, 19, 16⟩
def Fld.STW_STAT_STEWARD_COPY : Fld := ⟨Reg.STW_STAT, 20, 20⟩
def Fld.STW_STAT_ENGINE_COPY : Fld := ⟨Reg.STW_STAT, 21, 21⟩
def Fld.STW_MB_CTRL_CMD : Fld := ⟨Reg.STW_MB_CTRL, 7, 0⟩
def Fld.STW_MB_CTRL_LEN : Fld := ⟨Reg.STW_MB_CTRL, 24, 16⟩
def Fld.STW_MB_CTRL_GO : Fld := ⟨Reg.STW_MB_CTRL, 31, 31⟩
def Fld.STW_MB_STAT_BUSY : Fld := ⟨Reg.STW_MB_STAT, 0, 0⟩
def Fld.STW_MB_STAT_DONE : Fld := ⟨Reg.STW_MB_STAT, 1, 1⟩
def Fld.STW_MB_STAT_STATUS : Fld := ⟨Reg.STW_MB_STAT, 7, 4⟩
def Fld.STW_MB_STAT_RSP_LEN : Fld := ⟨Reg.STW_MB_STAT, 24, 16⟩
def Fld.STW_EVT_ALARM_WARN : Fld := ⟨Reg.STW_EVT, 0, 0⟩
def Fld.STW_EVT_ALARM_FAULT : Fld := ⟨Reg.STW_EVT, 1, 1⟩
def Fld.STW_EVT_WDT_RESTART : Fld := ⟨Reg.STW_EVT, 2, 2⟩
def Fld.STW_EVT_ABSENT_SET : Fld := ⟨Reg.STW_EVT, 3, 3⟩
def Fld.STW_EVT_MB_DONE : Fld := ⟨Reg.STW_EVT, 4, 4⟩
def Fld.STW_EVT_BOOT_SUBST : Fld := ⟨Reg.STW_EVT, 5, 5⟩

end Sys2Proof.Machine
end

