-- ==== Sys2Proof/Machine/Tbl.lean ====
section
/-!
DEFINITION. Tbl.lean: sparse tables keyed by number, in one canonical form: keys strictly rising, and no
entry equal to what an unlisted key reads as. Registers, memories and large arrays are held so.
-/
namespace Sys2Proof.Machine

/-- A sparse table: its entries in rising order of key. -/
abbrev Tbl (α : Type) := List (Nat × α)

/-- The entry listed at a key. -/
def Tbl.find {α : Type} (t : Tbl α) (k : Nat) : Option α :=
  match t with
  | [] => none
  | (k', v) :: r => if k = k' then some v else Tbl.find r k

/-- The table with the entry at a key replaced or inserted in order. -/
def Tbl.put {α : Type} (t : Tbl α) (k : Nat) (v : α) : Tbl α :=
  match t with
  | [] => [(k, v)]
  | (k', v') :: r =>
    if k < k' then (k, v) :: (k', v') :: r
    else if k = k' then (k, v) :: r
    else (k', v') :: Tbl.put r k v

/-- The table without an entry at a key. -/
def Tbl.del {α : Type} (t : Tbl α) (k : Nat) : Tbl α :=
  match t with
  | [] => []
  | (k', v') :: r => if k = k' then Tbl.del r k else (k', v') :: Tbl.del r k

/-- What a key reads as: its entry, else the default. -/
def Tbl.get {α : Type} (d : α) (t : Tbl α) (k : Nat) : α := (Tbl.find t k).getD d

/-- The table after writing `v` at `k`: writing the default removes the entry. -/
def Tbl.set {α : Type} [DecidableEq α] (d : α) (t : Tbl α) (k : Nat) (v : α) : Tbl α :=
  if v = d then Tbl.del t k else Tbl.put t k v

/-- Every listed key is above `b`, and the keys rise strictly. -/
def Tbl.rising {α : Type} (b : Nat) (t : Tbl α) : Bool :=
  match t with
  | [] => true
  | (k, _) :: r => decide (b ≤ k) && Tbl.rising (k + 1) r

/-- The canonical form: keys strictly rising, and no entry equal to its default. -/
def Tbl.wf {α : Type} [DecidableEq α] (d : Nat → α) (t : Tbl α) : Bool :=
  Tbl.rising 0 t && t.all fun e => decide (e.2 ≠ d e.1)

/-- Reads `n` bytes of a byte memory from address `a`. -/
def Tbl.readBytes (t : Tbl Byte) (a n : Nat) : Bytes :=
  (List.range n).map fun i => Tbl.get 0 t (a + i)

/-- Writes bytes into a byte memory from address `a`. -/
def Tbl.writeBytes (t : Tbl Byte) (a : Nat) (bs : Bytes) : Tbl Byte :=
  match bs with
  | [] => t
  | b :: r => Tbl.writeBytes (Tbl.set 0 t a b) (a + 1) r

/-- The table without the keys from `lo` up to `hi`. -/
def Tbl.clearRange {α : Type} (t : Tbl α) (lo hi : Nat) : Tbl α :=
  t.filter fun e => !(decide (lo ≤ e.1) && decide (e.1 < hi))

end Sys2Proof.Machine
end

