-- ==== Sys2Proof/Machine/State.lean ====
section
/-!
DEFINITION. State.lean: everything the specification gives the block, as plain data, and its state after reset.
-/
namespace Sys2Proof.Machine

/-- Why the block would stop. No rule of the specification stops the machine as a whole: every error it describes
is an effect on the state. -/
inductive Fault where
  /-- Raised by no meaning of this model; kept so that a later meaning can name a stop the specification gives (safe). -/
  | halted
deriving DecidableEq, Repr

/-- Why a command would have no meaning. -/
inductive Refusal where
  /-- An arm of `exec` whose command has no meaning yet (safe: the model stops where the hardware goes on). -/
  | notModelled (mnemonic : String)
deriving DecidableEq, Repr

/-! ### Power (R94 to R103) -/

/-- What follows when the last rail is off. -/
inductive AfterDrop where
  | offTime      -- R103
  | retry        -- R98: a wake failure with a retry left
  | hold         -- R99: the third wake failure
deriving DecidableEq, Repr

/-- Where the steward's rail sequencing stands. `k` is a rail's order number in Table CLK-2. -/
inductive PwrPhase where
  | noSlot
  | standby
  | ready (k : Nat)                          -- rail k is the next to enable
  | raising (k : Nat)                        -- rail k enabled, not yet good
  | pllWait                                  -- PLL started, not locked
  | running
  | dropping (k : Nat) (after : AfterDrop)   -- rail k disabled, awaiting its fall
  | offTime
  | retryWait
  | hold
deriving DecidableEq, Repr

/-- One rail as the steward sees it. -/
structure Rail where
  enabled : Bool := false
  good : Bool := false
  aboveOff : Bool := false
deriving DecidableEq, Repr

/-- Power sequencing, and what it holds over the engine. -/
structure Pwr where
  slot12V : Bool
  psuOk : Bool
  enableOn : Bool
  phase : PwrPhase
  /-- Rails in order; element i is the rail of order number i + 1. -/
  rails : List Rail
  retries : Nat
  wakeFail : Option Nat
  failedRails : List Nat
  efuseOpen : Bool
  /-- The engine is out of reset. -/
  released : Bool
  /-- The engine has stopped itself at 115 °C (R146). -/
  halted : Bool
  /-- PERST_N as last seen: true while asserted. -/
  perst : Bool
  /-- The cause of the cold reset the next release completes. -/
  cause : Nat
deriving DecidableEq, Repr

/-! ### The steward (R133 to R172) -/

/-- The state of a monitored point (R137). -/
inductive PtState where
  | ok | warnLow | warnHigh | faultLow | faultHigh | invalid
deriving DecidableEq, Repr

/-- One limit of a point: whether it is exceeded, and the consecutive samples beyond and within it. -/
structure LimTrack where
  flag : Bool := false
  beyond : Nat := 0
  within : Nat := 0
deriving DecidableEq, Repr

/-- A monitored point. Limits are warn low, warn high, fault low, fault high, in thousandths of the reading's unit. -/
structure Point where
  reading : Option Nat := none
  noAnswer : Nat := 0
  tracks : List LimTrack := [{}, {}, {}, {}]
  user : Option (List (Option Int)) := none
deriving DecidableEq, Repr

/-- What the steward's event log records (R102, R139, R142, R144, R151). -/
inductive LogEv where
  | pointState (point : Nat) (st : PtState)
  | shutdown (point : Nat)
  | fanFailed (fan : Nat)
  | restart
  | railFailed (rail : Nat)
  | wakeFail (code : Nat)
  | powerDown
  | boot (copyB ok : Bool)
  | copyInvalid (copyB : Bool)
deriving DecidableEq, Repr

/-- A firmware copy: whether it is marked valid, its version, and its bytes when they were written in the field. -/
structure FwCopy where
  valid : Bool
  major : Nat
  minor : Nat
  image : Option Bytes
deriving DecidableEq, Repr

/-- One firmware-bearing part with two copies (R155). -/
structure FwPart where
  copyA : FwCopy
  copyB : FwCopy
  preferB : Bool
  runningB : Bool
deriving DecidableEq, Repr

/-- A firmware session (R156). -/
structure FwSession where
  target : Nat
  len : Nat
  data : Tbl Byte
  received : Nat
deriving DecidableEq, Repr

/-- Fan law parameters and outputs (R140 to R142, R161, R163). Duty is in hundredths of a percent. -/
structure Fan where
  duty : Nat
  profile : Nat
  minDuty : Nat
  startShift : Int
  fallRate : Nat
  trayMon : Nat
  speeds : List Nat
  failed : Nat
deriving DecidableEq, Repr

/-- What one management interface keeps (R151, R152). -/
structure MgmtIf where
  page : Nat
  labelPage : Nat
  labelHalf : Nat
  stage0 : Option (Nat × Bytes)
  stage1 : Option (Nat × Bytes)
  lastStatus : Nat
  calSel : Option Nat
  logSel : Nat
deriving DecidableEq, Repr

/-- A label page write that waits or runs (R73, R76). -/
structure LabelWrite where
  page : Nat
  half0 : Option Bytes
  half1 : Option Bytes
  fromMailbox : Bool
deriving DecidableEq, Repr

/-- A read that waits for the page being written (R76). -/
inductive LabelReader where
  | smb (half : Nat)
  | mailbox (half : Nat)
  | field
deriving DecidableEq, Repr

/-- The label memory (R72 to R77): pages, visibility bitmap, pages whose checksum fails, shadow page and journal. -/
structure Label where
  mem : Tbl Byte
  vis : Nat
  crcBad : List Nat
  shadow : Bytes
  /-- The journal record marked PENDING, if any. -/
  pending : Option Nat
  queue : List LabelWrite
  active : Option LabelWrite
  waiting : List LabelReader
deriving DecidableEq, Repr

/-- The outstanding mailbox request and, once served, its answer (R149). -/
structure MbReq where
  code : Nat
  payload : Bytes
  answer : Option (Nat × Bytes)
  discard : Bool
deriving DecidableEq, Repr

/-- Whether steward firmware is running. -/
inductive StwRun where
  | off | running | restarting
deriving DecidableEq, Repr

/-- How far the engine's boot has come (R154). -/
inductive BootState where
  | booting | ok | secondTry | recovery
deriving DecidableEq, Repr

/-- The steward. -/
structure Stw where
  run : StwRun
  points : List Point
  fan : Fan
  /-- Latched summary bits of STATUS_WORD. -/
  summary : Nat
  restarts : Nat
  log : List LogEv
  engineFw : FwPart
  stewardFw : FwPart
  boot : BootState
  session : Option FwSession
  failsToMonitor : Nat
  calUser : List (Nat × Bytes)
  smb : MgmtIf
  mb : MgmtIf
  label : Label
  req : Option MbReq
  /-- A power-down found due while the steward was restarting (R166). -/
  duePowerDown : Bool
  /-- SMBus answers sent, oldest first. -/
  out : List Bytes
deriving DecidableEq, Repr

/-! ### The field end of the Kolber channel (R60 to R89) -/

/-- The field end and the lines it watches. -/
structure Field where
  powered : Bool
  txSeq : Nat
  rxSeq : Option Nat
  crcFail : Nat
  badFrame : Nat
  lost : Nat
  refPresent : Bool
  fixture : Bool
  fixtureId : Bytes
  vfldOn : Bool
  /-- Alarm bits as KOL_ALARM. -/
  alarm : Nat
  /-- An unanswered LABEL_READ: its page, retries made, chunks received. -/
  labelReq : Option (Nat × Nat × Nat)
  /-- Label bytes received from the host end, by chunk. -/
  labelBuf : Tbl Byte
  /-- Pulses emitted on receipt of TRIGGER_OUT mode 1 (edge sequences). -/
  pulses : List Nat
  /-- Frames sent to the host end, oldest first. -/
  out : List KolFrame
deriving DecidableEq, Repr

/-! ### Power domains (R104 to R112) -/

/-- The state of a power domain, coded as CLK_DOM_STAT codes it. -/
inductive DomSt where
  | gated | waking | on | draining
deriving DecidableEq, Repr

/-- A power domain: a gate asked for while waking (R126), a reset waiting for its drain (R128), and
whether a failed self-test holds it gated (R693). -/
structure Dom where
  st : DomSt := .on
  gatePend : Bool := false
  resetPend : Bool := false
  held : Bool := false
  /-- The core cycle in which it entered DRAINING (R106). -/
  since : Nat := 0
deriving DecidableEq, Repr

/-! ### The host end of the Kolber channel -/

/-- What the host end keeps beside its registers. Times of edges are in sixteenths of a core cycle. -/
structure KolHost where
  txSeq : Nat := 0
  rxSeq : Option Nat := none
  helloRun : Nat := 0
  ppsCtr : Nat := 0
  trigCtr : Nat := 0
  outCtr : Nat := 0
  lastE0 : Option Nat := none
  lastE1 : Option Nat := none
  armed : Option Nat := none
deriving DecidableEq, Repr

/-- A cage's optical module and its management state (R50 to R52, R139). -/
structure Cage where
  present : Bool := false
  highPower : Bool := false
  /-- Held in low-power mode by the steward's OPTICS_LP action. -/
  lowPower : Bool := false
deriving DecidableEq, Repr

/-! ### Host rings (R176 to R215) -/

/-- What a ring's discards leave to report (R199, R685): first and last time, count, and whether the count was exceeded. -/
structure Gap where
  first : Nat
  last : Nat
  count : Nat
  more : Bool
deriving DecidableEq, Repr

/-- A descriptor read issued and not yet returned (R185): its first count, how many slots, and whether its data is
discarded on return (R180, R209). -/
structure FetchReq where
  start : Nat
  n : Nat
  discard : Bool
deriving DecidableEq, Repr

/-- A completion that waits for its record (R201). -/
structure Cpl where
  cmd : Nat
  ring : Nat
  cnt : Nat
  at_ : Nat
  status : Nat
  result : Nat
  flags : Nat
  /-- EMIT's transmit timestamp in place of the writing time. -/
  stamp : Option Nat
  /-- The engine of Table GLN-3 that performed the command (R665). -/
  engine : Nat := 328
  /-- The core cycle in which the command completed (R201). -/
  cy : Nat := 0
  /-- The words of a TALLY record, which waits among the completions (R195). -/
  tally : Option (List Nat) := none
deriving DecidableEq, Repr

/-- What a ring keeps beside its registers. -/
structure RingAux where
  fetches : List FetchReq := []
  /-- Records written since the ring's last message (R204). -/
  unsignalled : Nat := 0
  /-- The count has moved since the last write-back (R183). -/
  stale : Bool := false
  gap : Option Gap := none
  queue : List Cpl := []
  /-- When the ring was first passed over for want of a slot or of quota (R671). -/
  quotaAt : Option Nat := none
deriving DecidableEq, Repr

/-- Where an accepted command stands. -/
inductive CmdPh where
  | accepted | running | done
deriving DecidableEq, Repr

/-- An accepted command that holds an in-flight slot (R192). -/
structure Cmd where
  id : Nat
  ring : Nat
  cnt : Nat
  pd : Nat
  comp : Nat
  desc : Bytes
  ph : CmdPh
  /-- The lattice time of acceptance. -/
  at_ : Nat
  /-- When the command's present wait began (R671). -/
  since : Nat := 0
  /-- Records ever staged, and records in staging, at acceptance (TRACE_FLUSH). -/
  staged : Nat := 0
  inStage : Nat := 0
deriving DecidableEq, Repr

/-- The host interface beside its registers. -/
structure Hif where
  rings : Tbl RingAux := []
  cmds : List Cmd := []
  nextId : Nat := 0
  /-- MSI-X table bytes, as written over the reset table (R204). -/
  msix : Tbl Byte := []
  /-- MSI-X pending bits that are set. -/
  pba : List Nat := []
  /-- A profile selection that waits for its rings to read DISABLED (R206). -/
  expanding : Option Nat := none
deriving DecidableEq, Repr

/-! ### Errors and bypass beside their registers -/

/-- What the error unit keeps. -/
structure Err where
  /-- Corrected errors of each memory in this tally (Table ERR-3). -/
  ceTally : Tbl Nat := []
  /-- Units that raised ENGINE_UE: mill m, or 32 + orchard half (R693). -/
  ueUnits : List Nat := []
  /-- ENGINE_UE was raised again during its self-test (Table ERR-8). -/
  ueAgain : Bool := false
  /-- Bypass intervals that have ended, entry and exit instant (R689, R690). -/
  past : List (Nat × Nat) := []
  /-- Units under self-test (R693). -/
  testing : List Nat := []
  /-- PCIe AER status: Corrected Internal Error and Uncorrectable Internal Error (R682). -/
  aerCe : Bool := false
  aerUe : Bool := false
  /-- The core cycle in which RAIL_OK was first reported (R688). -/
  railOkAt : Option Nat := none
deriving DecidableEq, Repr
/-! ### Model images and the graft controller (R579 to R611) -/

/-- A resident model: its image and where its sections lie. Offsets in the image count from `mwBase` in the
model/weights partition and node indices from `nodeBase` in the orchard partition (R580). -/
structure Model where
  epoch : Nat
  image : Bytes
  hash : List Nat
  learned : Bool
  mwBase : Nat
  nodeBase : Nat
  /-- Address of the resident copy of each section placed in granary memory, by section table index. -/
  place : Tbl Nat
deriving DecidableEq, Repr

/-- The state of the shadow slot, in the order GFT_STAT.SHADOW codes it (R584). -/
inductive ShadowSt where
  | empty | loading | ready | armed | locked | preparing
deriving DecidableEq, Repr

/-- How a graft is armed (R588, R591, R601). -/
inductive ArmMode where
  | tally | time | learned | lattice
deriving DecidableEq, Repr

/-- An armed graft: its mode, its T (of no meaning for a tally graft), and the command that waits for it. -/
structure Armed where
  mode : ArmMode
  t : Nat
  cmd : Option Nat
  /-- The tally boundary it waits for has come. -/
  due : Bool := false
deriving DecidableEq, Repr

/-- A lattice graft this member takes part in (R591): the coordinator and Tc. -/
structure Lock where
  coord : Nat
  tc : Nat
deriving DecidableEq, Repr

/-- The coordinator's book of a lattice graft (R591 to R594). -/
structure Coord where
  cmd : Nat
  epoch : Nat
  hash : List Nat
  tc : Nat
  parts : List Nat
  ok : List Nat
  /-- `none` before the decision; then COMMIT, or ABORT with its reason and the member that caused it. -/
  decision : Option (Option (Nat × Nat))
  onTime : List Nat
  late : List Nat
  notDone : List Nat
deriving DecidableEq, Repr

/-- The learning loop (R595 to R603). -/
structure Learn where
  paused : Bool := false
  /-- Items of the source template that have completed. -/
  items : Nat := 0
  /-- Rows ever written to the sample ring, and those of them that the last step had seen. -/
  rows : Nat := 0
  seenRows : Nat := 0
  /-- A step's gradient list has been issued. -/
  running : Bool := false
  /-- Steps since the last preparation (R601). -/
  steps : Nat := 0
  /-- Values staged for MODEL tensors (R357): context, scale, zero point. -/
  staged : List (Nat × Nat × Nat) := []
deriving DecidableEq, Repr

/-- The graft controller. -/
structure Gft where
  live : Option Model := none
  shadow : Option Model := none
  retiring : Option Model := none
  sst : ShadowSt := .empty
  arm : Option Armed := none
  lock : Option Lock := none
  coord : Option Coord := none
  /-- The GFT_LOAD command that is loading (LOADING). -/
  loading : Option Nat := none
  seq : Nat := 0
  learn : Learn := {}
deriving DecidableEq, Repr

/-! ### Tables (R256 to R292) -/

/-- One bank of a table generation: bytes of its rules, range units, layouts, entries and start entries, in five
byte spaces, each read with its empty form where nothing is listed. -/
structure Bank where
  rules : Tbl Byte := []
  ranges : Tbl Byte := []
  layouts : Tbl Byte := []
  entries : Tbl Byte := []
  starts : Tbl Byte := []
  /-- Items that hold the poison code: space (0 to 4, in the order above) and item index (R684). -/
  bad : List (Nat × Nat) := []
deriving DecidableEq, Repr

/-- A switch that pends: mode (1 TALLY, 2 TIME), T and the command that waits. -/
structure PendSwitch where
  mode : Nat
  t : Nat
  cmd : Nat
  /-- The boundary has come; the switch takes effect at T. -/
  due : Bool := false
deriving DecidableEq, Repr

/-- Winnow and cascade tables. -/
structure Tables where
  live : Bank := {}
  shadow : Bank := {}
  pend : Option PendSwitch := none
  /-- The shadow bank was written by a profile selection: CSC_PROFILE's value while the shadow stays so (R282). -/
  fromProfile : Option Nat := none
  /-- Generations ever made live, so that LIVE_GEN goes on counting after a WNW or CSC reset empties the banks. -/
  switches : Nat := 0
  /-- The retiring generation's number (R258). -/
  retGen : Nat := 0
deriving DecidableEq, Repr

/-! ### Packets -/

/-- What a packet holds of its sheaf (R303 to R312). -/
structure PShf where
  key : Bytes
  remote : Bool := false
  /-- The fetch is complete; a remote one waits for its answer. -/
  done : Bool := false
  present : Bool := false
  isNew : Bool := false
  interval : Nat := 0
  histLen : Nat := 0
  /-- The hot part as its SHEAF_FETCH found it, the same as this packet holds it now, and the history (R308, R372). -/
  hot : Bytes := []
  cur : Bytes := []
  hist : Bytes := []
  /-- A remote home did not send the history (NOHIST, R636). -/
  nohist : Bool := false
  /-- HIST_GEN differed from the packet's epoch's (R310). -/
  genReset : Bool := false
  holding : Bool := false
  committed : Bool := false
  /-- Ways reserved or waited for are tracked by the sheaf block; a remote request's tag, if one is outstanding. -/
  tag : Option Nat := none
  /-- Requests sent to a remote home with the pending mark, not resolved (R538). -/
  marked : Bool := false
deriving DecidableEq, Repr

/-- A mill item's result for its packet (R418): the item's number, y, and the key and value summaries. -/
structure MilRes where
  item : Nat
  at_ : Nat
  y : Option Nat
  kv : Option (List Nat × List Nat)
  flags : Nat
deriving DecidableEq, Repr

/-- A verdict record written for a packet (R25). -/
structure Ver where
  words : List Nat
  queue : Nat
  ring : Option Nat
  early : Bool
  discarded : Bool
deriving DecidableEq, Repr

/-- A frame, from its first byte to the release of its cells, and its path. -/
structure Pkt where
  id : Nat
  port : Nat
  ts : Nat
  maxlen : Nat
  /-- Cells earmarked at the first byte (R230). -/
  need : Nat
  /-- Reception has not ended. -/
  rx : Bool := true
  /-- Stored bytes, the FCS included, once reception has ended; header bytes at handoff before that. -/
  data : Bytes := []
  len : Nat := 0
  /-- The end-of-frame status (Table ITK-2), once known. -/
  status : Option Nat := none
  handed : Bool := false
  /-- Counted as a MAC control frame at byte 13 (R226). -/
  macc : Bool := false
  /-- Handled in bypass (R691). -/
  byp : Bool := false
  /-- ERR_CFG as it stood at the handoff of a frame in bypass (R695). -/
  bypCfg : Nat := 0
  /-- Its failure has been dealt with (R534, R535). -/
  failDone : Bool := false
  pv : Bytes := []
  gen : Nat := 0
  epoch : Option Nat := none
  /-- ENGINE_UE or NO_MODEL became active while the packet was on its path (R689). -/
  noEval : Bool := false
  entry : Nat := 0
  steps : Nat := 0
  /-- The step at `entry` has been dispatched and waits, since when. -/
  begun : Option Nat := none
  ended : Bool := false
  /-- Why the step waits, as a stall reason of Table GLN-5 (0 none). -/
  why : Nat := 0
  /-- Set by the steps (Table CSC-2). -/
  parsed : Bool := false
  classified : Bool := false
  cls : Nat := 0
  col : Nat := 0
  que : Nat := 0
  shfField : Nat := 0
  fhash : Nat := 0
  bucket : Nat := 0
  seq : Bool := false
  vec : Option (Option Nat × List Nat) := none
  sum : Nat := 0
  /-- Ensemble of the last ORCHARD step. -/
  ens : Option Nat := none
  /-- Set at the first ORCHARD step: the limit, and whether the policy is BACKPRESSURE (R388). -/
  limit : Option (Option Nat × Bool) := none
  truncN : Option Nat := none
  flags : Nat := 0
  shf : Option PShf := none
  /-- Mill results that have arrived, and the dispatch time of the first MILL_ENQUEUE (R276). -/
  results : List MilRes := []
  firstEnq : Option Nat := none
  /-- A MILL_ENQUEUE queued nothing (R109, R309, Table MIL-5, Table MIL-9). -/
  seqLost : Bool := false
  /-- The joined y and the number of the item whose result it is (R419, R430). -/
  y : Option Nat := none
  yItem : Option Nat := none
  /-- Numbers of the items queued, in order; `results` holds what has arrived (R276, R430). -/
  items : List Nat := []
  kv : Option (List Nat × List Nat) := none
  /-- Items of results joined or discarded: a later arrival is late (R276). -/
  joinClosed : Bool := false
  ver : Option Ver := none
  /-- An ENQUEUE_TX step has enqueued the frame or counted it as transmitted (R275). -/
  txStep : Bool := false
  /-- The frame is in a transmit queue or in transmission. -/
  inTx : Bool := false
  /-- The garner holds the frame. -/
  inSlow : Bool := false
  /-- Cells of the frame that hold the poison code (R684). -/
  bad : List Nat := []
deriving DecidableEq, Repr

/-! ### Sheaves (R293 to R336) -/

/-- Who holds a flow or an undo entry: a packet, a packet of another member by SRC and PTAG, a command, a thread. -/
inductive Holder where
  | pkt (id : Nat)
  | remote (src ptag : Nat)
  | cmd (id : Nat)
  | thread (id : Nat)
deriving DecidableEq, Repr

/-- A migration of a sheaf (R323): the destination tier, the ways reserved there, and whether a commit overlapped the copy. -/
structure Mig where
  dst : Nat
  gWay : Option Nat
  sWay : Option Nat
  lWay : Option Nat
  dirty : Bool
deriving DecidableEq, Repr

/-- A sheaf: its key, its tier (0 granary, 1 silo, 2 loft) and the ways it holds; its bytes lie in memory (Table SHF-4). -/
structure Sheaf where
  key : Bytes
  tier : Nat
  gWay : Option Nat
  sWay : Option Nat
  lWay : Option Nat
  /-- Owners of UNDO0 and UNDO1, when they are not EMPTY, and when each was pushed. -/
  undo0 : Option (Holder × Nat) := none
  undo1 : Option (Holder × Nat) := none
  mig : Option Mig := none
deriving DecidableEq, Repr

/-- A loft window: loft offset, size, host address (R330). -/
structure LoftWin where
  off : Nat
  size : Nat
  host : Nat
deriving DecidableEq, Repr

/-- A resolution that arrived before its request (R635). -/
structure HeldRes where
  src : Nat
  ptag : Nat
  release : Bool
  at_ : Nat
deriving DecidableEq, Repr

/-- A flow that waits for room: who asks, its key, whether for a promotion, and the sheaf whose move makes the room. -/
structure ShfNeed where
  who : Holder
  key : Bytes
  promote : Bool
  mover : Option Bytes := none
deriving DecidableEq, Repr

/-- The sheaf block beside its registers. -/
structure Shf where
  sheaves : List Sheaf := []
  /-- Flows given to one holder, and those who wait for a flow with the timestamp that orders them (R305). -/
  holds : List (Bytes × Holder) := []
  waits : List (Bytes × Holder × Nat) := []
  needs : List ShfNeed := []
  /-- Recency orders, most recent way first, of the granary, silo and loft sets that have been touched. -/
  rec0 : Tbl (List Nat) := []
  rec1 : Tbl (List Nat) := []
  rec2 : Tbl (List Nat) := []
  /-- Loft census of each silo set (R318). -/
  census : Tbl Nat := []
  windows : List LoftWin := []
  /-- Staged home-table entries and N, and the commands that wait for them (R332). -/
  stagedHome : List (Nat × Nat) := []
  stagedN : Option Nat := none
  stagedCmds : List Nat := []
  /-- History reads outstanding (R309): the packets or items they belong to. -/
  histReads : List Nat := []
  /-- The home table as it stood before the last boundary that changed it, and that boundary (R298). -/
  oldHome : List (Nat × Nat) := []
  oldN : Nat := 1
  homeT : Nat := 0
  heldRes : List HeldRes := []
deriving DecidableEq, Repr

/-! ### Orchard and mills -/

/-- An ORCHARD step, command or thread's evaluation that waits for admission (R387, R493). -/
inductive OrcWait where
  | pkt (id : Nat)
  | cmd (id : Nat)
  | thr (tid : Nat)
deriving DecidableEq, Repr

/-- The orchard beside its registers. -/
structure Orc where
  /-- Trees admitted and not yet accepted by a pipeline, and those in the pipelines with the time they leave. -/
  queued : Nat := 0
  pipe : List (Nat × Nat) := []
  waiting : List OrcWait := []
  /-- The core cycle by which a draining half has finished its admitted trees (R396). -/
  drain : Tbl Nat := []
deriving DecidableEq, Repr

/-- A packet item on a quad's queue (R416). -/
structure MilItem where
  no : Nat
  pkt : Nat
  epoch : Nat
  tmpl : Nat
  row : List Nat
  /-- The history in the form of Table MIL-8, its entries in logical order. -/
  hist : Bytes
  histLen : Nat
  kScale : Nat
  vScale : Nat
  kZp : Nat
  vZp : Nat
  /-- Its packet's JOIN has closed without it (R276). -/
  late : Bool := false
deriving DecidableEq, Repr

/-- Who a run of stages belongs to. -/
inductive MilOwner where
  | cmd (id : Nat)
  | thread (tid ticket : Nat)
  | learn
deriving DecidableEq, Repr

/-- Work that is no packet's (R420): a stage list, or a template run on supplied inputs; its bytes, the template and
its bank, the output's address, the class (2 FOREGROUND, 3 HARVEST) and the quad. -/
structure MilJob where
  owner : MilOwner
  template : Bool
  data : Bytes
  tmpl : Nat
  bank : Nat
  dst : Nat
  cls : Nat
  quad : Nat
deriving DecidableEq, Repr

/-- What a mill runs (R420). -/
inductive MilWork where
  | batch (items : List MilItem)
  | job (j : MilJob)
deriving DecidableEq, Repr

/-- Mill state beside its registers: the quads' queues, what each mill runs, what it has suspended, and the work that
waits for a mill, oldest first. -/
structure Mil where
  queues : Tbl (List MilItem) := []
  running : Tbl (Option MilWork) := []
  suspended : Tbl (List MilJob) := []
  waiting : List MilJob := []
  nextItem : Nat := 0
deriving DecidableEq, Repr

/-! ### Rill threads (R435 to R508) -/

/-- Why a context waits, beside an instruction that issues again when it can (`retry`, with its stall reason): a
response by tag, a sleep, a watched word with its compare value, deadline and destination, or a ticket. -/
inductive ThrWait where
  | retry (why : Nat)
  | remote (tag : Nat)
  | sleep (t : Nat)
  | waitne (addr cmp t rd : Nat)
  | ticket (k rd : Nat)
deriving DecidableEq, Repr

/-- The state of a context that holds a thread (R436); a context with no thread is FREE. -/
inductive ThrSt where
  | ready
  | waiting (w : ThrWait)
  | ending
deriving DecidableEq, Repr

/-- How a thread ended (R446, R468). -/
inductive ThrEnd where
  | exit (v : Nat)
  | cause (c : Nat)
  | killed
deriving DecidableEq, Repr

/-- What an outstanding remote request of a thread is: a load, a posted store, an atomic, or a sheaf instruction with its
buffer and the bytes it takes. -/
inductive ThrReqKind where
  | load (size rd : Nat) (signed : Bool)
  | store
  | amo (size rd : Nat)
  | sheaf (rd buf len : Nat)
deriving DecidableEq, Repr

/-- A remote request of a thread: its tag, address and kind. -/
structure ThrReq where
  tag : Nat
  addr : Nat
  kind : ThrReqKind
deriving DecidableEq, Repr

/-- How a mill submission ended (R496): status, offending stage, cycles, flags. -/
structure MilDone where
  status : Nat
  stage : Nat
  cycles : Nat
  flags : Nat
deriving DecidableEq, Repr

/-- A thread in its context. -/
structure Thread where
  id : Nat
  kind : Nat
  epoch : Nat
  limit : Nat
  pc : Nat
  /-- x1 to x31; x0 reads zero and is never listed. -/
  regs : Tbl Nat := []
  instret : Nat := 0
  /-- When its wait began (R671). -/
  waitAt : Nat := 0
  /-- The core cycle of its start. -/
  startAt : Nat := 0
  st : ThrSt := .ready
  ended : Option ThrEnd := none
  /-- A THR_START with WAIT_END, and THR_KILL commands, that wait for the end. -/
  waitEnd : Option Nat := none
  killers : List Nat := []
  resv : Option Nat := none
  reqs : List ThrReq := []
  /-- The first remote store that failed and is not reported yet: its cause and address (R455). -/
  fault : Option (Nat × Nat) := none
  /-- Tickets held; the result once the submission has completed. -/
  tickets : Tbl (Option MilDone) := []
  /-- The home that a sheaf instruction found when it issued (Table XMR-4). -/
  home : Option Nat := none
deriving DecidableEq, Repr

/-- The rill cores beside their registers: threads by context index, and the starts made on each context. -/
structure Ril where
  threads : Tbl Thread := []
  serial : Tbl Nat := []
deriving DecidableEq, Repr

/-- An open window of a tracking context (R355). -/
structure NumWin where
  n : Nat
  lo : Rat
  hi : Rat
  clips : Nat
  unfs : Nat
  flags : Nat
  acc : Nat
  scale : Nat
  merged : Bool
  open_ : Nat
deriving DecidableEq, Repr

/-! ### The sluice (R547 to R578) -/

/-- What a transmit queue holds: a packet's frame or an EMIT command's. -/
inductive TxSrc where
  | pkt (id : Nat)
  | emit (cmd : Nat)
deriving DecidableEq, Repr

/-- A frame on a transmit queue. -/
structure TxFrame where
  src : TxSrc
  cells : Nat
  colour : Nat
  at_ : Nat
  headAt : Nat
  launch : Nat
  dei : Bool
deriving DecidableEq, Repr

/-- A transmit queue beside its registers; tokens are in 2^-20 byte (R560). -/
structure TxQ where
  frames : List TxFrame := []
  lastSojourn : Nat := 0
  tokens : Int := 16384 * 1048576
deriving DecidableEq, Repr

/-- A gate list made operative or pending: entries, cycle and base. -/
structure Gcl where
  entries : List (Nat × Nat)
  cycle : Nat
  base : Nat
  act : Nat
deriving DecidableEq, Repr

/-- A frame in transmission. -/
structure TxCur where
  q : Nat
  fr : TxFrame
  startAt : Nat
  /-- Its transmit timestamp (R227). -/
  stamp : Nat
  /-- It started before its length was known; a stomp finishes it (R539). -/
  cut : Bool
  stomp : Bool
deriving DecidableEq, Repr

/-- A port's transmit scheduler. -/
structure TxPort where
  v : Nat := 0
  cur : Option TxCur := none
  oper : Option Gcl := none
  pendGcl : Option Gcl := none
deriving DecidableEq, Repr

/-- A record on a host-bound queue. -/
structure HRec where
  words : List Nat
  at_ : Nat
  /-- The verdict record's packet, for a VERDICT record of one; the ring a RETRACT record must go to. -/
  pkt : Option Nat := none
  ring : Option Nat := none
  /-- A slow-path record: its frame, released once the record is written (R517). -/
  slow : Option Nat := none
deriving DecidableEq, Repr

/-- A host-bound queue beside its registers. -/
structure HQ where
  recs : List HRec := []
  f : Nat := 0
  lastSojourn : Nat := 0
deriving DecidableEq, Repr

/-- A policer's buckets, in 2^-20 byte, and the core cycle of its last decision. -/
structure Pol where
  tc : Nat := 0
  tp : Nat := 0
  last : Nat := 0
deriving DecidableEq, Repr

/-- An EMIT command's frame: its data once fetched (R563). -/
structure Emit where
  cmd : Nat
  data : Bytes
  port : Nat
  queue : Nat
  launch : Nat
  stamp : Bool
  cells : Nat
deriving DecidableEq, Repr

/-- The sluice beside its registers. -/
structure Slc where
  txq : Tbl TxQ := []
  ports : Tbl TxPort := []
  hq : Tbl HQ := []
  hv : Nat := 0
  pol : Tbl Pol := []
  emits : List Emit := []
  /-- The last sampling instant that has been taken (R569). -/
  sampledAt : Option Nat := none
deriving DecidableEq, Repr

/-! ### The garner (R510 to R531) -/

/-- A frame of the slow path (R512 to R519), with the set-up it entered under (R527): its action, snap length, slot size and
data base. It waits (0), is with the customer partition (1), or has its record on its host-bound queue (2). FLAGS are those
of Table GAR-2 from bit 32. -/
structure SlowFr where
  pkt : Nat
  reason : Nat
  act : Nat
  snap : Nat
  slotLog : Nat
  base : Nat
  ph : Nat := 0
  user : Nat := 0
  flags : Nat := 0
deriving DecidableEq, Repr

/-- The garner beside its registers. -/
structure Gar where
  queue : List SlowFr := []
  /-- A valid customer image is loaded (R520), and GAR_CUST_CTRL has started it. -/
  custOk : Bool := false
  custStarted : Bool := false
  /-- Pairs that restart: their duties run on the fallback cores (R523). -/
  restarting : List Nat := []
deriving DecidableEq, Repr

/-- A port's receiver: its PCS alignment as the line shows it. -/
structure Rx where
  aligned : Bool := false
  /-- The packet in reception. -/
  cur : Option Nat := none
  /-- RX offset and timestamp of the last frame (R228). -/
  last : Option (Nat × Nat) := none
deriving DecidableEq, Repr


/-! ### Felgen links and the lattice (R612 to R651) -/

/-- A DATA flit that waits or stands in a replay buffer: virtual channel, class, FIRST, LAST, and its 240-byte body. -/
structure Flit where
  vc : Nat
  cls : Nat
  first : Bool
  last : Bool
  body : Bytes
deriving DecidableEq, Repr

/-- One Felgen port beside its registers. -/
structure FlgPort where
  /-- Next DATA SEQ to send; next expected; later flits are discarded until it arrives (R620). -/
  txSeq : Nat := 0
  rxExp : Nat := 0
  discarding : Bool := false
  /-- Sent and not acknowledged, oldest first, with their SEQ. -/
  replay : List (Nat × Flit) := []
  /-- Flits that wait for a credit or for room in the replay buffer, oldest first. -/
  wait : List Flit := []
  /-- Credits to return, by channel-class k = 2 × VC + CLASS. -/
  owed : Tbl Nat := []
  /-- A NAK received and not yet acted on: its ACK. -/
  nak : Option Nat := none
  /-- NAKs without progress, and the times of NAKs in the last 1 ms (R621). -/
  nakRun : Nat := 0
  nakTimes : List Nat := []
  /-- Bodies of a message in reception, by channel-class. -/
  part : Tbl (List Bytes) := []
  /-- Of these, the flits whose credits a retrain has reinitialised (R622). -/
  partOld : Tbl Nat := []
  /-- CTRL flit bodies received and not yet acted on, with the arrival time in 1/16 tick. -/
  ctrl : List (Nat × Bytes) := []
  /-- A retrain runs since this time (R621). -/
  retrain : Option Nat := none
  /-- The training attempt's start, or when the port went DOWN. -/
  since : Nat := 0
  /-- QREASON of the records this end sends (R625). -/
  qreason : Nat := 0
  /-- When the last TRAIN record was sent. -/
  trainAt : Nat := 0
deriving DecidableEq, Repr

/-- A message addressed to this member (R633), received whole and not yet acted on. -/
structure FlgMsg where
  id : Nat
  port : Nat
  vc : Nat
  cls : Nat
  flits : Nat
  src : Nat
  op : Nat
  tag : Nat
  arg : Bytes
  data : Bytes
  /-- It has been taken up and waits. -/
  begun : Bool := false
  /-- Its flits stand in the receive buffers, so a credit is owed for each (R616, R622). -/
  buffered : Bool := true
  at_ : Nat
deriving DecidableEq, Repr

/-- What a member's newest LSA says (R638), and when it was accepted. -/
structure Lsa where
  seq : Nat
  epoch : Nat
  suspect : Bool
  root : Bool
  /-- State, role and neighbour of each of the eight ports. -/
  ports : List (Nat × Nat × Nat)
  at_ : Nat
deriving DecidableEq, Repr

/-- A route: its direction bits (x, y, z; set for the − direction) and its hops (R630). -/
structure Route where
  dirs : Nat
  hops : Nat
deriving DecidableEq, Repr

/-- Who waits for the response of a request. -/
inductive ReqOwner where
  | fetch (pkt : Nat)
  | commit (pkt : Nat)
  | thread (tid : Nat)
deriving DecidableEq, Repr

/-- A request sent and not answered (R633). -/
structure FlgReq where
  tag : Nat
  dst : Nat
  op : Nat
  owner : ReqOwner
  at_ : Nat
deriving DecidableEq, Repr

/-- The lattice manager and the links beside their registers. -/
structure Flg where
  ports : Tbl FlgPort := []
  inbox : List FlgMsg := []
  nextMsg : Nat := 0
  reqs : List FlgReq := []
  nextTag : Nat := 0
  lsas : Tbl Lsa := []
  lsaSeq : Nat := 0
  lsaAt : Nat := 0
  /-- A port state has changed since the last flood (R638). -/
  lsaDue : Bool := false
  /-- The LSAs have changed since the last recomputation: when (R638). -/
  routesDue : Option Nat := some 0
  /-- Route tables for REQ, RSP and TRACE, and for MGMT. -/
  routes : Tbl Route := []
  mgmt : Tbl Route := []
  /-- Members reachable when that was last looked at (R638, R639). -/
  reach : List Nat := []
  /-- The next SYNC may step lattice time (R642). -/
  stepOk : Bool := true
  /-- A SYNC has completed since the last cold reset, or since every port was disabled (R643). -/
  synced : Bool := false
  outRun : Nat := 0
  inRun : Nat := 0
  /-- When a port was last first enabled, or the last SYNC_RSP arrived (R643). -/
  rspAt : Nat := 0
  syncAt : Nat := 0
  /-- Ticks still to insert, or to withhold when negative, and the cycle of the last slew (R642). -/
  slew : Int := 0
  slewAt : Nat := 0
  /-- When the last PPS edge was accepted, and whether the root has fallen back to REF (R640). -/
  ppsAt : Nat := 0
  ppsLost : Bool := false
  /-- The lattice time of a lattice-coordinated reset (R649). -/
  resetAt : Option Nat := none
deriving DecidableEq, Repr

/-! ### The gleaner -/

/-- What the gleaner keeps beside its registers. -/
structure Gln where
  /-- A trigger edge has asked for a tally boundary (R71, R657). -/
  trigDue : Bool := false
  /-- The next periodic boundary's lattice time (R657, R660). -/
  nextT : Nat := 1250000000
  /-- Staged trace records, oldest first (R663). -/
  staging : List Bytes := []
  /-- Records dropped at staging and the time of the first (R669). -/
  dropped : Nat := 0
  droppedAt : Nat := 0
  /-- Records ever staged and ever drained, for TRACE_FLUSH. -/
  staged : Nat := 0
  drained : Nat := 0
  /-- The host buffer's next offset. -/
  hbufOff : Nat := 0
  /-- Writing has stopped at a full region or host buffer (R670). -/
  stopped : Bool := false
  /-- Contexts last sampled, by rill core (R664). -/
  pcLast : Tbl Nat := []
  /-- The core cycle of the last samples. -/
  pcAt : Option Nat := none
  /-- Engines that acted since the last core cycle (R655). -/
  busy : List Nat := []
  /-- Waits already counted as suspects (R671). -/
  suspects : List Nat := []
deriving DecidableEq, Repr

/-- What outlives a warm reset: the tally shadow bank, its tally's number and instant, and the gleaning region's header
(R658, Table GLN-14). -/
structure GlnKeep where
  shadow : Tbl Word := []
  shadowTally : Nat := 0
  shadowT : Nat := 0
  satAny : Bool := false
  write : Nat := 4096
  wraps : Nat := 0
  lost : Nat := 0
  lastWrite : Nat := 0
deriving DecidableEq, Repr

/-! ### The engine -/

/-- What the engine has sent outside, in order. Host memory, the network and other modules are the environment. -/
inductive Out where
  | hostWrite (addr : Nat) (data : Bytes)
  /-- A write in a TLP with EP set (Table ERR-2). -/
  | hostWriteEp (addr : Nat) (data : Bytes)
  /-- The completion of a BAR0 or BAR4 read; `ep` where the data is poisoned. -/
  | readData (data : Bytes) (ep : Bool)
  | msix (vector addr data : Nat)
  | kolber (fr : KolFrame)
  | e1Pulse (time width : Nat) (low : Bool)
  | felgen (port : Nat) (group : Bytes)
  /-- A frame transmitted on a field port. -/
  | frame (port : Nat) (data : Bytes)
deriving DecidableEq, Repr

/-- Things outside the engine's reset: what is plugged in, and what the lines show. -/
structure Phys where
  cages : List Cage := List.replicate 8 {}
  /-- CBL_PRES_N low, per Felgen connector; V3P3_CBL is on exactly then (R54). -/
  cable : List Bool := List.replicate 8 false
  /-- Modules kept in low-power mode for their power class, counted (R51). -/
  highPowerEvents : Nat := 0
  /-- The engine hotspot as its thermal monitor reads it, in 0.1 °C. -/
  hotspot : Int := 0
deriving DecidableEq, Repr

/-- The engine: everything its resets act on. -/
structure Engine where
  /-- Set-up, status and counter registers by BAR0 offset; an unlisted register holds its reset value. -/
  regs : Tbl Word := []
  /-- The lattice time counter (R93). -/
  time : Nat := 0
  /-- Core cycles since the cold reset. -/
  cyc : Nat := 0
  /-- Module-local memory by address; an unlisted byte reads zero. -/
  mem : Tbl Byte := []
  /-- Word addresses that hold the poison code (R680). -/
  poison : List Nat := []
  /-- Makes each free value fresh (the model's own field). -/
  freeCtr : Nat := 0
  out : List Out := []
  phys : Phys := {}
  /-- The power domains (Table CLK-5); one not listed is ON with nothing pending. -/
  doms : Tbl Dom := []
  kol : KolHost := {}
  mbData : Tbl Byte := []
  hif : Hif := {}
  err : Err := {}
  gln : Gln := {}
  pkts : List Pkt := []
  nextPkt : Nat := 0
  rx : Tbl Rx := []
  tab : Tables := {}
  gft : Gft := {}
  shf : Shf := {}
  orc : Orc := {}
  mil : Mil := {}
  ril : Ril := {}
  num : Tbl (Option NumWin) := []
  slc : Slc := {}
  gar : Gar := {}
  flg : Flg := {}
  /-- Operations done in this core cycle, and the cycle of the last one, by rate-limited unit (R266, R377, R692). -/
  used : Tbl Nat := []
  lastOp : Tbl Nat := []
  glnKeep : GlnKeep := {}
deriving DecidableEq, Repr

/-- The block: its waiting commands, the module around the engine, and the engine. -/
structure State where
  /-- Commands that wait, first in first out. -/
  pending : List Instr
  pwr : Pwr
  stw : Stw
  fld : Field
  eng : Engine
deriving DecidableEq, Repr

/-- Power as it stands at State.reset: every rail up and the engine just released (DESIGN CHOICE, log entry 4). -/
def Pwr.init : Pwr where
  slot12V := true
  psuOk := true
  enableOn := true
  phase := .running
  rails := List.replicate 11 ⟨true, true, true⟩
  retries := 0
  wakeFail := none
  failedRails := []
  efuseOpen := false
  released := true
  halted := false
  perst := false
  cause := 0

/-- The steward as it stands at State.reset: running, no sample taken, reset fan profile STANDARD (R161). -/
def Stw.init : Stw where
  run := .running
  points := List.replicate 52 {}
  fan := ⟨3000, 0, 30, 0, 2, 0, [0, 0, 0, 0], 0⟩
  summary := 0
  restarts := 0
  log := []
  engineFw := ⟨⟨true, 1, 1, none⟩, ⟨true, 1, 1, none⟩, false, false⟩
  stewardFw := ⟨⟨true, 1, 1, none⟩, ⟨true, 1, 1, none⟩, false, false⟩
  boot := .booting
  session := none
  failsToMonitor := 0
  calUser := []
  smb := ⟨0, 0, 0, none, none, 0, none, 0⟩
  mb := ⟨0, 0, 0, none, none, 0, none, 0⟩
  label := ⟨[], 0, [], [], none, [], none, []⟩
  req := none
  duePowerDown := false
  out := []

/-- The field end as it stands when its power comes up: it reports its restart in its next FIELD_ALARM (Table KOL-5). -/
def Field.init : Field where
  powered := true
  txSeq := 0
  rxSeq := none
  crcFail := 0
  badFrame := 0
  lost := 0
  refPresent := false
  fixture := false
  fixtureId := List.replicate 16 0
  vfldOn := true
  alarm := 16
  labelReq := none
  labelBuf := []
  pulses := []
  out := []

/-- The machine right after reset: the engine just released from its power-up cold reset, every register at its
Reset value (R13, R96, R114, R115), nothing queued. -/
def State.reset : State where
  pending := []
  pwr := Pwr.init
  stw := Stw.init
  fld := Field.init
  eng := {}

end Sys2Proof.Machine
end

