-- ==== Sys2Proof/Machine/Ops.lean ====
section
/-!
DEFINITION. Ops.lean: the named operations over registers, counters, memory and outputs that every family uses,
and the gates that say when a command can act at all.
-/
namespace Sys2Proof.Machine

/-- The outcome of a command. -/
abbrev Res := Host.Outcome State Fault Refusal

/-! ### Registers -/

/-- What the register at an offset holds. -/
def Engine.rd (e : Engine) (off : Nat) : Nat := (Tbl.get (regReset off) e.regs off).toNat

/-- The engine after the register at an offset takes a value. -/
def Engine.wr (e : Engine) (off v : Nat) : Engine :=
  { e with regs := Tbl.set (regReset off) e.regs off (BitVec.ofNat 64 v) }

/-- A field of a register. -/
def Engine.get (e : Engine) (f : Fld) : Nat := bitsOf (e.rd f.off) f.hi f.lo

/-- The engine after a field takes a value. -/
def Engine.put (e : Engine) (f : Fld) (v : Nat) : Engine := e.wr f.off (withBits (e.rd f.off) f.hi f.lo v)

/-- Whether a one-bit field is set. -/
def Engine.is (e : Engine) (f : Fld) : Bool := e.get f == 1

/-- The engine with a one-bit field set (an event bit, R11 W1C). -/
def Engine.evt (e : Engine) (f : Fld) : Engine := e.put f 1

/-- The engine with a one-bit field set when `c` holds. -/
def Engine.evtIf (e : Engine) (c : Bool) (f : Fld) : Engine := if c then e.evt f else e

/-! ### Counters (R652) -/

/-- A saturating count of `w` bits with its SAT flag in bit 63, after `n` more events. -/
def satCount (w c n : Nat) : Nat :=
  let v := bitsOf c (w - 1) 0 + n
  if v < 2 ^ w then withBits c (w - 1) 0 v else 2 ^ 63 + (2 ^ w - 1)

/-- `n` events on an event counter (48 bits). -/
def Engine.countN (e : Engine) (off n : Nat) : Engine := e.wr off (satCount 48 (e.rd off) n)

/-- One event on an event counter. -/
def Engine.count (e : Engine) (off : Nat) : Engine := e.countN off 1

/-- `n` events on a tally counter (40 bits). -/
def Engine.tallyN (e : Engine) (off n : Nat) : Engine := e.wr off (satCount 40 (e.rd off) n)

/-- One event on a tally counter. -/
def Engine.tally (e : Engine) (off : Nat) : Engine := e.tallyN off 1

/-- `n` on an always-on counter, which wraps. -/
def Engine.alwaysN (e : Engine) (off n : Nat) : Engine := e.wr off ((e.rd off + n) % 2 ^ 64)

/-- A high-water mark raised to `v` where `v` is larger. -/
def Engine.highWater (e : Engine) (f : Fld) (v : Nat) : Engine := if e.get f < v then e.put f v else e

/-! ### Memory and outputs -/

/-- Bytes of module-local memory. -/
def Engine.readMem (e : Engine) (a n : Nat) : Bytes := Tbl.readBytes e.mem a n

/-- The engine after it sends something outside. -/
def Engine.emit (e : Engine) (o : Out) : Engine := { e with out := e.out ++ [o] }

/-- The next free value of a kind, and the engine with its counter moved on (log entry 2). -/
def Engine.fresh (e : Engine) (what : Nat) : Nat × Engine :=
  (Config.free what e.freeCtr, { e with freeCtr := e.freeCtr + 1 })

/-- `k` bytes of a free value. -/
def freeBytes (what n k : Nat) : Bytes := (List.range k).map fun i => BitVec.ofNat 8 (Config.free what (256 * n + i))

/-- Core cycles in a microsecond (R14). -/
def usTicks : Nat := 1250

/-! ### When a command can act -/

/-- The engine is out of reset, not halted at 115 °C (R146), not in a warm reset (R116) and past its boot (R154). -/
def State.engineUp (s : State) : Bool :=
  s.pwr.released && !s.pwr.halted && !s.eng.is Fld.CLK_RST_STAT_BUSY && s.stw.boot != .recovery

/-- The host can reach the module over PCIe: the end point is present and out of reset (R99, R113, R146). -/
def State.pcieUp (s : State) : Bool := s.pwr.released && !s.pwr.halted && !s.pwr.perst

/-- The state with the engine changed. -/
def State.onEng (s : State) (f : Engine → Engine) : State := { s with eng := f s.eng }

/-- The state with the steward changed. -/
def State.onStw (s : State) (f : Stw → Stw) : State := { s with stw := f s.stw }

/-- A step of the engine: it acts only while the engine is up (log entry 8). -/
def engineStep (s : State) (f : Engine → Engine) : Res := .next (if s.engineUp then s.onEng f else s)

/-- A step the host causes: it also needs the PCIe end point. -/
def hostStep (s : State) (f : Engine → Engine) : Res :=
  .next (if s.engineUp && s.pcieUp then s.onEng f else s)

/-- A step of the steward's firmware: it acts only while the steward runs (R145, R168). -/
def stewardStep (s : State) (f : State → State) : Res := .next (if s.stw.run = .running then f s else s)

/-! ### Cold reset (Table CLK-7) -/

/-- The user record that holds the edge-line delays, if a valid one exists (R82, R159). -/
def kolUserCal (w : Stw) : Option Bytes :=
  (w.calUser.find? fun r => r.1 == Config.free Config.fKolCal 0).map (·.2)

/-- KOL_CAL as loaded at a cold or warm reset: the user delays where a valid user record exists, else the
factory delays; with no valid record of either kind it reads 0 (R82). -/
def kolCalLoaded (w : Stw) : Nat :=
  match kolUserCal w with
  | some b => Config.free Config.fKolCal (1 + leNat b) % 2 ^ 32
  | none => regReset Reg.KOL_CAL |>.toNat

/-- CAL_VALID after a reset: a factory or user record is valid (R82); the factory pages are 16 to 63 (R681). -/
def kolCalValid (w : Stw) : Bool :=
  (kolUserCal w).isSome || !(w.label.crcBad.any fun p => decide (16 ≤ p) && decide (p ≤ 63))

/-- The engine after a cold reset: everything at its reset value, lattice time at zero (R93, R113, R114). What lies
outside the engine (what is plugged in, what was sent) stays. -/
def Engine.cold (e : Engine) : Engine := { out := e.out, freeCtr := e.freeCtr, phys := e.phys }

/-- Loads KOL_CAL and CAL_VALID (R82). -/
def Engine.loadCal (e : Engine) (w : Stw) : Engine :=
  (e.wr Reg.KOL_CAL (if kolCalValid w then kolCalLoaded w else 0)).put Fld.KOL_STAT_CAL_VALID (bit (kolCalValid w))

/-- The CRC-32 of IEEE 802.3, bit by bit over a byte. -/
def crc32Byte (c : Nat) (b : Byte) : Nat :=
  (List.range 8).foldl (fun c _ => if c % 2 = 1 then (c / 2) ^^^ 0xEDB88320 else c / 2) (c ^^^ b.toNat)

/-- The CRC-32 of a byte string. -/
def crc32 (bs : Bytes) : Nat := (bs.foldl crc32Byte 0xFFFFFFFF) ^^^ 0xFFFFFFFF

/-- An engine boot copy passes its header and CRC check (R153, R154). A copy as shipped is known by its mark. -/
def bootCopyOk (c : FwCopy) : Bool :=
  match c.image with
  | none => c.valid
  | some b =>
    leAt b 0 4 == 0x4D4C4245 && leAt b 6 2 == 0 && decide (16 + leAt b 8 4 ≤ 2 ^ 26) &&
      decide (16 + leAt b 8 4 ≤ b.length) && crc32 (slice b 16 (leAt b 8 4)) == leAt b 12 4

/-- The copy of a part. -/
def FwPart.copy (p : FwPart) (b : Bool) : FwCopy := if b then p.copyB else p.copyA

/-- The engine boots the preferred copy, or the other when its check fails (R154): the copy booted and whether it
is a substitute. With both bad it stays with the preferred one, whose boot never reports BOOT_OK. -/
def bootChoice (p : FwPart) : Bool × Bool :=
  if bootCopyOk (p.copy p.preferB) then (p.preferB, false)
  else if bootCopyOk (p.copy (!p.preferB)) then (!p.preferB, true)
  else (p.preferB, false)

/-- Cause THERMAL is entered again at once after a reset while the hotspot still reads 105 °C or more (Table ERR-8). The
error ring is DISABLED then, so its record is discarded and counted (R685). -/
def Engine.hotAgain (e : Engine) : Engine :=
  if e.phys.hotspot < 1050 then e
  else
    let e := ((e.put Fld.ERR_BYPASS_STAT_ACTIVE 1).put Fld.ERR_BYPASS_STAT_CAUSES 1).put Fld.ERR_BYPASS_STAT_THROTTLE 1
    let e := (e.wr Reg.ERR_BYPASS_TIME e.time).count (Reg.ERR_CNT 2)
    (e.evt Fld.ERR_EVT_BYPASS_ENTER).count (Reg.ERR_CNT 1)

/-- The module after a cold reset of the engine with a cause (R113, R146, R154). HALT_SEEN lasts until a power-up. -/
def State.coldReset (s : State) (cause : Nat) (copyB subst : Bool) : State :=
  let seen := s.eng.is Fld.STW_STAT_HALT_SEEN && decide (cause ≠ 0)
  let e := ((s.eng.cold.put Fld.CLK_RST_CAUSE_CAUSE cause).loadCal s.stw).put Fld.STW_STAT_HALT_SEEN (bit seen)
  let e := (e.put Fld.STW_STAT_STEWARD_COPY (bit s.stw.stewardFw.runningB)).put Fld.STW_STAT_ENGINE_COPY (bit copyB)
  let e := (e.put Fld.STW_STAT_RESTARTING (bit (s.stw.run == .restarting))).evtIf subst Fld.STW_EVT_BOOT_SUBST
  let e := e.hotAgain
  { s with
    eng := e
    pwr := { s.pwr with released := true, halted := s.pwr.halted && decide (950 ≤ s.eng.phys.hotspot), cause := cause }
    stw := { s.stw with
      boot := .booting
      engineFw := { s.stw.engineFw with runningB := copyB }
      req := s.stw.req.map fun r => { r with discard := true }
      log := if subst then s.stw.log ++ [.boot copyB true] else s.stw.log } }

/-- A cold reset that boots as R154 says. -/
def State.coldBoot (s : State) (cause : Nat) : State :=
  let c := bootChoice s.stw.engineFw
  s.coldReset cause c.1 c.2

end Sys2Proof.Machine
end

