-- ==== Sys2Proof/Machine/Trace.lean ====
section
/-!
DEFINITION. Trace.lean: staging of trace records, and the engines' cycle classes (R655, R663 to R669).
-/
namespace Sys2Proof.Machine

/-- The module's lattice ID. -/
def Engine.selfId (e : Engine) : Nat := e.get Fld.FLG_ID_ID

/-- The module is time-suspect (R643). -/
def Engine.suspect (e : Engine) : Bool := e.is Fld.FLG_TIME_STAT_SUSPECT

/-- Records the staging partition holds (R722). -/
def Engine.stagingMax (e : Engine) : Nat := e.get Fld.GLB_PART_LIVE_SIZE5 * 2 ^ 20 / 32 - 1

/-- A trace record (Table GLN-6): its time, kind, words 1 and 2, and AUX. -/
def Engine.traceRec (e : Engine) (time kind w1 w2 aux : Nat) : Bytes :=
  natLE 8 time ++ natLE 8 w1 ++ natLE 8 w2 ++
    natLE 8 (e.selfId % 2 ^ 14 + 2 ^ 15 * bit e.suspect + 2 ^ 16 * (aux % 256) +
      2 ^ 32 * (e.get Fld.FLG_FIELD_FIELD_ID) + 2 ^ 56 * kind)

/-- The engine with the gleaner's own state changed. -/
def Engine.setGln (e : Engine) (f : Gln → Gln) : Engine := { e with gln := f e.gln }

/-- Stages one record, a full partition dropping it; once there is space, a GAP record covers the drops first (R669). -/
def Engine.stage (e : Engine) (r : Bytes) (time : Nat) : Engine :=
  let g := e.gln
  let need := if g.dropped = 0 then 1 else 2
  if e.stagingMax < g.staging.length + need then
    ((e.count (Reg.GLN_CNT 1)).evt Fld.GLN_EVT_STAGE_FULL).setGln fun g =>
      { g with dropped := g.dropped + 1, droppedAt := if g.dropped = 0 then time else g.droppedAt }
  else
    let gap := if g.dropped = 0 then [] else [e.traceRec time 7 (min g.dropped (2 ^ 32 - 1)) g.droppedAt 0]
    e.setGln fun g =>
      { g with staging := g.staging ++ gap ++ [r], staged := g.staged + gap.length + 1, dropped := 0, droppedAt := 0 }

/-- A trace record from a source that is enabled while tracing runs (R663). -/
def Engine.trace (e : Engine) (src : Fld) (kind w1 w2 aux : Nat) : Engine :=
  if e.is Fld.GLN_TRACE_CFG_EN && e.is src then e.stage (e.traceRec e.time kind w1 w2 aux) e.time else e

/-- Marks an engine of Table GLN-3 as busy in this core cycle (R655). -/
def Engine.busy (e : Engine) (i : Nat) : Engine :=
  if i ∈ e.gln.busy then e else e.setGln fun g => { g with busy := g.busy ++ [i] }

end Sys2Proof.Machine
end

