-- ==== Sys2Proof/Machine/HostRings.lean ====
section
/-!
DEFINITION. HostRings.lean: rings, doorbells, records, interrupts and completions (R176 to R215), and the error
records of Table ERR-4.
-/
namespace Sys2Proof.Machine

/-! ### Ring contexts -/

/-- A ring's kind (Table HIF-3). -/
def Engine.ringKind (e : Engine) (k : Nat) : Nat := e.get (Fld.HIF_RING_CFG_KIND k)
/-- A ring's state: 0 DISABLED, 1 ACTIVE, 2 ERROR, 3 DRAINING. -/
def Engine.ringState (e : Engine) (k : Nat) : Nat := e.get (Fld.HIF_RING_STAT_STATE k)
/-- A ring's number of entries (R176). -/
def Engine.ringSize (e : Engine) (k : Nat) : Nat := 2 ^ e.get (Fld.HIF_RING_CFG_LOG2 k)
/-- A ring's protection domain. -/
def Engine.ringPd (e : Engine) (k : Nat) : Nat := e.get (Fld.HIF_RING_CFG_PD k)
/-- PROD, or TAIL of a host-produced ring (R177). -/
def Engine.prod (e : Engine) (k : Nat) : Nat := e.rd (Reg.HIF_RING_PROD k)
/-- CONS, or HEAD of a host-produced ring (R177). -/
def Engine.cons (e : Engine) (k : Nat) : Nat := e.rd (Reg.HIF_RING_CONS k)
/-- A difference of counts, modulo 2^32 (R177). -/
def cntSub (a b : Nat) : Nat := (a + 2 ^ 32 - b % 2 ^ 32) % 2 ^ 32
/-- A host-produced ring: command or emit. -/
def Engine.hostRing (e : Engine) (k : Nat) : Bool := e.ringKind k == 1 || e.ringKind k == 2
/-- The size of a ring's entries (Table HIF-3). -/
def entrySize (kind : Nat) : Nat := if kind = 3 ∨ kind = 4 ∨ kind = 5 then 32 else 64
/-- What a ring keeps beside its registers. -/
def Engine.ring (e : Engine) (k : Nat) : RingAux := Tbl.get {} e.hif.rings k
/-- The engine with a ring's book changed. -/
def Engine.setRing (e : Engine) (k : Nat) (f : RingAux → RingAux) : Engine :=
  { e with hif := { e.hif with rings := Tbl.set {} e.hif.rings k (f (e.ring k)) } }
/-- Slots held: fetch issued, data not returned (R185). -/
def Engine.held (e : Engine) (k : Nat) : Nat := ((e.ring k).fetches.map (·.n)).sum
/-- Slots that a live fetch covers (fetches to be discarded no longer stand between HEAD and TAIL). -/
def Engine.heldLive (e : Engine) (k : Nat) : Nat := (((e.ring k).fetches.filter fun f => !f.discard).map (·.n)).sum
/-- Slots in transit: posted, with no fetch issued (R185). -/
def Engine.inTransit (e : Engine) (k : Nat) : Nat := cntSub (e.prod k) (e.cons k) - e.heldLive k
/-- A module-produced ring has a free slot (R178). -/
def Engine.ringRoom (e : Engine) (k : Nat) : Bool := decide (cntSub (e.prod k) (e.cons k) < e.ringSize k)

/-! ### MSI-X (R204) -/

/-- A byte of the MSI-X table: reset is address and data zero, mask bit 1. -/
def Engine.msixByte (e : Engine) (a : Nat) : Byte := Tbl.get (if a % 16 = 12 then 1 else 0) e.hif.msix a
/-- A field of an MSI-X table entry. -/
def Engine.msixField (e : Engine) (v off n : Nat) : Nat := leNat ((List.range n).map fun i => e.msixByte (16 * v + off + i))
/-- A vector is masked. -/
def Engine.msixMasked (e : Engine) (v : Nat) : Bool := e.msixField v 12 4 % 2 == 1

/-- A message on a vector: sent, or its pending bit set when it is masked. -/
def Engine.message (e : Engine) (v : Nat) : Engine :=
  if e.msixMasked v then { e with hif := { e.hif with pba := if v ∈ e.hif.pba then e.hif.pba else e.hif.pba ++ [v] } }
  else e.emit (.msix v (e.msixField v 0 8) (e.msixField v 8 4))

/-- Writes bytes into the MSI-X table; a vector that becomes unmasked with its pending bit set is sent. -/
def Engine.msixWrite (e : Engine) (a : Nat) (bs : Bytes) : Engine :=
  let e := { e with hif := { e.hif with msix := (List.range bs.length).foldl (fun t i =>
    let x := a + i
    Tbl.set (if x % 16 = 12 then 1 else 0) t x (bs.getD i 0)) e.hif.msix } }
  let v := a / 16
  if v ∈ e.hif.pba && !e.msixMasked v then
    Engine.message { e with hif := { e.hif with pba := e.hif.pba.filter (· != v) } } v
  else e

/-- An HIF_EVT bit; going from 0 to 1 it sends a message on HIF_EVT_VEC (R204). -/
def Engine.hifEvt (e : Engine) (f : Fld) : Engine :=
  if e.is f then e else (e.evt f).message (e.get Fld.HIF_EVT_VEC_VECTOR)

/-! ### Records on module-produced rings -/

/-- The write-back of a ring's count (R183): HEAD of a host-produced ring, PROD of a module-produced one. -/
def Engine.writeBack (e : Engine) (k : Nat) : Engine :=
  let v := if e.hostRing k then e.cons k else e.prod k
  (e.emit (.hostWrite (e.rd (Reg.HIF_RING_WB k)) (natLE 4 v))).setRing k fun r => { r with stale := false }

/-- The ring's message, after the write-back that covers its records (R201, R204). -/
def Engine.signal (e : Engine) (k : Nat) : Engine :=
  let e := if (e.ring k).stale then e.writeBack k else e
  (e.message (e.get (Fld.HIF_RING_CFG_VECTOR k))).setRing k fun r => { r with unsignalled := 0 }

/-- Writes a 64-bit word's PHASE bit (R184). -/
def phased (w n size : Nat) : Nat := withBits w 63 63 (if n / size % 2 = 0 then 1 else 0)

/-- The slot's bytes for a record given as words: PHASE in the last word; a 32-byte record in a 64-byte slot repeats
its KIND and PHASE in word 7 (R184, R198). -/
def slotBytes (kind n size : Nat) (ws : List Nat) : Bytes :=
  let k := ws.length
  let ws := modAt ws (k - 1) fun w => phased w n size
  if k = 4 ∧ entrySize kind = 64 then
    (ws ++ [0, 0, 0, phased (2 ^ 56 * bitsOf (ws.getD 3 0) 58 56) n size]).flatMap (natLE 8)
  else ws.flatMap (natLE 8)

/-- Writes one record into a ring's next slot; the caller has seen that there is room. `irq` asks for the message at once. -/
def Engine.putRecord (e : Engine) (k : Nat) (ws : List Nat) (irq : Bool) : Engine :=
  let n := e.prod k
  let sz := e.ringSize k
  let kind := e.ringKind k
  let e := (e.emit (.hostWrite (e.rd (Reg.HIF_RING_BASE k) + n % sz * entrySize kind) (slotBytes kind n sz ws))).busy 329
  let e := (e.wr (Reg.HIF_RING_PROD k) ((n + 1) % 2 ^ 32)).count (Reg.HIF_RING_CNT_WRITTEN k)
  let e := e.setRing k fun r => { r with stale := true, unsignalled := r.unsignalled + 1 }
  if irq || decide (max (e.get (Fld.HIF_RING_COAL_COAL_CNT k)) 1 ≤ (e.ring k).unsignalled) then e.signal k else e

/-- A discard joins the ring's GAP book; the count saturates at 2^32 − 1 (R199). -/
def Engine.gapAdd (e : Engine) (k time : Nat) : Engine :=
  e.setRing k fun r => { r with gap := some <| match r.gap with
    | none => ⟨time, time, 1, false⟩
    | some g => if g.count < 2 ^ 32 - 1 then { g with last := time, count := g.count + 1 } else { g with last := time, more := true } }

/-- The GAP record's words: KIND 3; on an error ring the 64-byte form of Table ERR-3. -/
def Engine.gapWords (e : Engine) (k : Nat) (g : Gap) : List Nat :=
  if e.ringKind k = 6 then [g.first, 0, 0, 0, 0, 0, 0, g.count + 3 * 2 ^ 56]
  else [g.first, g.last, g.count + 2 ^ 32 * bit g.more, 3 * 2 ^ 56]

/-- Writes the ring's GAP record if one is due and there is room. -/
def Engine.flushGap (e : Engine) (k : Nat) : Engine :=
  match (e.ring k).gap with
  | none => e
  | some g =>
    if e.ringRoom k then (e.putRecord k (e.gapWords k g) false).setRing k fun r => { r with gap := none } else e

/-- A record for a ring whose full state discards the newest (sample and error rings, R199): any GAP record first. -/
def Engine.recordOrGap (e : Engine) (k time : Nat) (ws : List Nat) : Engine :=
  let e := e.flushGap k
  if e.ringRoom k then e.putRecord k ws false
  else (e.gapAdd k time).count (Reg.HIF_RING_CNT_DISCARD k)

/-! ### Error records (R685, Tables ERR-3 and ERR-4) -/

/-- An error record for the error ring: discarded and counted when that ring is not an ACTIVE error ring. -/
def Engine.errRecord (e : Engine) (code sev blk mem count addr obj d4 d5 d6 : Nat) : Engine :=
  let k := e.get Fld.ERR_CFG_RING
  if e.ringState k = 1 ∧ e.ringKind k = 6 then
    let e := e.flushGap k
    if e.ringRoom k then
      (e.putRecord k [e.time, code + 2 ^ 16 * sev + 2 ^ 24 * blk + 2 ^ 29 * mem + 2 ^ 32 * (count % 2 ^ 32), addr, obj, d4, d5, d6,
        e.prod k % 2 ^ 32 + 2 ^ 56] false).count (Reg.ERR_CNT 0)
    else ((e.gapAdd k e.time).count (Reg.HIF_RING_CNT_DISCARD k)).count (Reg.ERR_CNT 1)
  else e.count (Reg.ERR_CNT 1)

/-- An INFO record. -/
def Engine.errInfo (e : Engine) (code blk obj d4 d5 d6 : Nat) : Engine := e.errRecord code 0 blk 0 0 0 obj d4 d5 d6

/-! ### Command descriptors and completions -/

/-- Word `i` of a descriptor. -/
def descWord (d : Bytes) (i : Nat) : Nat := leAt d (8 * i) 8
/-- OPCODE. -/
def Cmd.op (c : Cmd) : Nat := bitsOf (descWord c.desc 0) 7 0
/-- ORDER. -/
def Cmd.order (c : Cmd) : Bool := bitOf (descWord c.desc 0) 8
/-- IRQ. -/
def Cmd.irq (c : Cmd) : Bool := bitOf (descWord c.desc 0) 9
/-- NOCOMP. -/
def Cmd.nocomp (c : Cmd) : Bool := bitOf (descWord c.desc 0) 10
/-- SRC_LOC: SRC is a lattice address. -/
def Cmd.srcLoc (c : Cmd) : Bool := bitOf (descWord c.desc 0) 11
/-- DST_LOC. -/
def Cmd.dstLoc (c : Cmd) : Bool := bitOf (descWord c.desc 0) 12
/-- LENGTH. -/
def Cmd.len (c : Cmd) : Nat := bitsOf (descWord c.desc 0) 63 32
/-- TAG. -/
def Cmd.tag (c : Cmd) : Nat := descWord c.desc 1
/-- SRC. -/
def Cmd.src (c : Cmd) : Nat := descWord c.desc 2
/-- DST. -/
def Cmd.dst (c : Cmd) : Nat := descWord c.desc 3
/-- `n` bytes of the descriptor from byte `off`, as a number (ARGS are bytes 32 to 63). -/
def Cmd.arg (c : Cmd) (off n : Nat) : Nat := leAt c.desc off n

/-- An accepted command by its identity. -/
def Engine.cmd (e : Engine) (id : Nat) : Option Cmd := e.hif.cmds.find? fun c => c.id == id

/-- The engine with one command changed. -/
def Engine.setCmd (e : Engine) (id : Nat) (f : Cmd → Cmd) : Engine :=
  { e with hif := { e.hif with cmds := e.hif.cmds.map fun c => if c.id = id then f c else c } }

/-- The data opcodes (Tables HIF-5, WNW-4, SHF-7, ORC-7, MIL-7, RIL-11, GFT-10, FLG-10, GLN-12, NUM-5, GAR-5). -/
def dataOps : List Nat :=
  [0x01, 0x10, 0x20, 0x21, 0x22, 0x23, 0x24, 0x27, 0x30, 0x31, 0x35, 0x40, 0x41, 0x50, 0x51, 0x60, 0x62, 0x70, 0x73, 0x80,
    0x90, 0x93, 0xA0, 0xA1, 0xB0, 0xB1, 0xB3]

/-- A data command with LENGTH zero: it does nothing but complete with OK_EMPTY (R190). -/
def Cmd.empty (c : Cmd) : Bool := dataOps.contains c.op && c.len == 0

/-- No earlier command of the ring is outstanding (R201). -/
def Engine.orderMet (e : Engine) (c : Cmd) : Bool :=
  !c.order || !(e.hif.cmds.any fun d => d.ring == c.ring && decide (d.id < c.id))

/-- A CMD_BEGIN or CMD_END trace record of a host command (R665). -/
def Engine.traceCmd (e : Engine) (c : Cmd) (kind engine aux : Nat) : Engine :=
  e.trace Fld.GLN_TRACE_CFG_CMD_EN kind (engine + 2 ^ 12 * c.ring + 2 ^ 24 * c.op + 2 ^ 32 * (c.cnt % 2 ^ 32)) c.tag aux

/-- Places a completion on its ring's queue: after those that completed earlier, and among those of the same core
cycle in ascending source ring and count (R201). -/
def cplInsert (q : List Cpl) (x : Cpl) : List Cpl :=
  match q with
  | [] => [x]
  | y :: r => if y.cy = x.cy ∧ y.tally.isNone ∧ (x.ring < y.ring ∨ (x.ring = y.ring ∧ x.cnt < y.cnt)) then x :: y :: r else y :: cplInsert r x

/-- The engine of Table GLN-3 that a command's opcode group runs on, for its CMD_END record. -/
def opEngine (op : Nat) : Nat :=
  match op / 16 with
  | 0x2 => 292
  | 0x3 => 294
  | 0x4 => 290
  | 0x5 => 256
  | 0x7 => 330
  | 0x8 => 331
  | 0x9 => 335
  | 0xB => 330
  | _ => 328

/-- A command ends: its completion waits to be written on its completion ring. -/
def Engine.ends (e : Engine) (c : Cmd) (status result flags : Nat) (stamp : Option Nat) (engine : Nat) : Engine :=
  (e.setCmd c.id fun c => { c with ph := .done }).setRing c.comp fun r =>
    { r with queue := cplInsert r.queue ⟨c.id, c.ring, c.cnt, e.time, status, result, flags, stamp, engine, e.cyc, none⟩ }

/-- A command that no engine performs ends at or after its acceptance (R665). -/
def Engine.endsUnstarted (e : Engine) (c : Cmd) (status : Nat) : Engine := e.ends c status 0 0 none 328

/-- The engine without a command: its in-flight slot is released (R192), and the ring's commands of LENGTH zero whose ORDER
that meets complete (R190). -/
def Engine.dropCmd (e : Engine) (id : Nat) : Engine :=
  match e.cmd id with
  | none => e
  | some c =>
    let e := { e with hif := { e.hif with cmds := e.hif.cmds.filter fun c => c.id != id } }
    (e.hif.cmds.filter fun d => d.ring == c.ring && d.ph == .accepted && d.empty && e.orderMet d).foldl
      (fun e d => e.endsUnstarted d 0x01) e

/-- A command ends with a status: with NOCOMP and OK it finishes without a record, else its completion waits to be
written (R192, R194). `engine` is the engine that performed it (R665); 328 stands for the one of its opcode group. -/
def Engine.complete (e : Engine) (id status result flags : Nat) (stamp : Option Nat) (engine : Nat) : Engine :=
  match e.cmd id with
  | none => e
  | some c =>
    let engine := if engine = 328 then opEngine c.op else engine
    if c.nocomp ∧ status = 0 then (e.traceCmd c 3 engine status).dropCmd id
    else e.ends c status result flags stamp engine

/-- A command ends with a status alone. -/
def Engine.finish (e : Engine) (id status : Nat) : Engine := e.complete id status 0 0 none 328
/-- A command ends OK with a result. -/
def Engine.finishOk (e : Engine) (id result : Nat) : Engine := e.complete id 0 result 0 none 328

/-- A command of a group that only garner pair 0 performs waits while that pair restarts (R510, R523). -/
def Engine.opHeld (e : Engine) (op : Nat) : Bool := decide (op / 16 ∈ [0x7, 0x8, 0xB]) && e.gar.restarting.contains 0

/-- A command that can start now: accepted, of this opcode, its ORDER met, its garner pair up, and no partition apply in
progress (R720). -/
def Engine.startable (e : Engine) (id op : Nat) : Option Cmd :=
  match e.cmd id with
  | none => none
  | some c =>
    if c.ph = .accepted ∧ c.op = op ∧ c.empty = false ∧ e.orderMet c ∧ e.opHeld op = false ∧ bitOf (e.rd Reg.GLB_PEND) 0 = false then some c else none

/-- Starts a command of an opcode and does its work; a command that cannot start stays as it is. -/
def withCmd (id op engine : Nat) (f : Cmd → Engine → Engine) (e : Engine) : Engine :=
  match e.startable id op with
  | none => e
  | some c => f c ((e.setCmd id fun c => { c with ph := .running, since := e.time }).traceCmd c 2 engine 0)

/-- The completion record's words (Table HIF-7). -/
def Engine.cplWords (e : Engine) (c : Cmd) (x : Cpl) : List Nat :=
  [c.tag, x.stamp.getD e.time,
   x.status + 2 ^ 8 * c.op + 2 ^ 16 * c.ring + 2 ^ 32 * (x.result % 2 ^ 32),
   x.result / 2 ^ 32 % 2 ^ 24 + 4 * 2 ^ 56 + 2 ^ 59 * (x.flags % 16)]

/-- COMPLETION_WRITE: the oldest waiting completion of a ring is written when the ring has a free slot, and its
in-flight slot is released (R192, R201, R212). -/
def completionWrite (k : Nat) (e : Engine) : Engine :=
  if e.ringKind k ≠ 3 ∨ (e.ringState k ≠ 1 ∧ e.ringState k ≠ 3) then e
  else match (e.ring k).queue with
    | [] => e
    | x :: r =>
      match x.tally, e.cmd x.cmd with
      | some ws, _ => if !e.ringRoom k then e else (e.setRing k fun a => { a with queue := r }).putRecord k ws false
      | none, none => e.setRing k fun a => { a with queue := r }
      | none, some c =>
        if !e.ringRoom k then e
        else
          let e := e.setRing k fun a => { a with queue := r }
          let e := e.putRecord k (e.cplWords c x) c.irq
          (e.traceCmd c 3 x.engine x.status).dropCmd x.cmd

/-- COMPLETION_WRITE. -/
def execCompletionWrite (ring : Nat) (s : State) : Res := hostStep s (completionWrite ring)

/-- WRITE_BACK_REFRESH: a stale write-back is refreshed (R183). -/
def execWriteBackRefresh (ring : Nat) (s : State) : Res :=
  hostStep s fun e => if (e.ring ring).stale then e.writeBack ring else e

/-- MSIX_COALESCE_TIMEOUT: COAL_TIME has passed since the first pending record (R204). -/
def execMsixCoalesceTimeout (ring : Nat) (s : State) : Res :=
  hostStep s fun e =>
    if (e.ring ring).unsignalled ≠ 0 ∧ e.get (Fld.HIF_RING_COAL_COAL_TIME ring) ≠ 0 then e.signal ring else e

/-! ### Doorbells (R179 to R181) -/

/-- A doorbell that has no effect, counted. -/
def Engine.doorbellIgnored (e : Engine) : Engine := e.count (Reg.HIF_CNT 0)

/-- A doorbell value on ring `k`. -/
def doorbell (k v : Nat) (e : Engine) : Engine :=
  if e.hostRing k then
    let head := e.cons k
    let tail := e.prod k
    if cntSub v head ≤ e.ringSize k ∧ cntSub tail head ≤ cntSub v head then e.wr (Reg.HIF_RING_PROD k) (v % 2 ^ 32)
    else
      let e := (e.put (Fld.HIF_RING_STAT_STATE k) 2).doorbellIgnored
      let e := e.setRing k fun r => { r with fetches := r.fetches.map fun f => { f with discard := true } }
      let e := (e.evt (Fld.HIF_RING_STAT_DB_ERR k)).hifEvt Fld.HIF_EVT_DB_ERR
      e.errInfo 0x01 2 0 k v 0
  else if cntSub v (e.cons k) ≤ cntSub (e.prod k) (e.cons k) then e.wr (Reg.HIF_RING_CONS k) (v % 2 ^ 32)
  else e.doorbellIgnored

/-- DOORBELL: a 32-bit write to offset 0 of a ring's page, on an ACTIVE ring or a draining completion ring (R179). -/
def execDoorbell (off width v : Nat) (s : State) : Res :=
  hostStep s fun e =>
    let k := off / 0x1000
    if width ≠ 4 ∨ off % 0x1000 ≠ 0 ∨ 4096 ≤ k then e.doorbellIgnored
    else if e.ringState k = 1 ∨ (e.ringState k = 3 ∧ e.ringKind k = 3) then doorbell k (v % 2 ^ 32) e
    else e.doorbellIgnored

/-! ### Fetch (R185, R192, R193, R213) -/

/-- In-flight slots held, and those of one domain; descriptors being fetched will take one each. -/
def Engine.inflight (e : Engine) : Nat := e.hif.cmds.length
/-- Slots held by one domain. -/
def Engine.inflightPd (e : Engine) (pd : Nat) : Nat := (e.hif.cmds.filter fun c => c.pd == pd).length
/-- Descriptors of fetches under way, whose slots must stay free for them. -/
def Engine.fetching (e : Engine) : Nat := (e.hif.rings.map fun r => ((r.2.fetches.filter fun f => !f.discard).map (·.n)).sum).sum
/-- The same, of one domain's rings. -/
def Engine.fetchingPd (e : Engine) (pd : Nat) : Nat :=
  ((e.hif.rings.filter fun r => e.ringPd r.1 == pd).map fun r => ((r.2.fetches.filter fun f => !f.discard).map (·.n)).sum).sum
/-- A domain's quota; above 65,536 it acts as 65,536 (R213). -/
def Engine.quota (e : Engine) (pd : Nat) : Nat := min (e.get (Fld.HIF_PD_CTRL_QUOTA pd)) 65536

/-- One ring's share of a turn: up to BURST descriptors, at most 127 held, within the domain's quota and the module's slots;
with no slot the ring is passed over and the pass counted. -/
def Engine.fetchRing (e : Engine) (k : Nat) : Engine :=
  if e.ringState k ≠ 1 ∨ !e.hostRing k ∨ e.inTransit k = 0 then e
  else
    let pd := e.ringPd k
    let free := min (65536 - (e.inflight + e.fetching)) (e.quota pd - (e.inflightPd pd + e.fetchingPd pd))
    if free = 0 then (e.count (Reg.HIF_CNT 5)).setRing k fun r => { r with quotaAt := some (r.quotaAt.getD e.time) }
    else
      let n := min (min (e.get Fld.HIF_FETCH_BURST) (e.inTransit k)) (min free (127 - e.held k))
      if n = 0 then e
      else (e.setRing k fun r => { r with quotaAt := none, fetches := r.fetches ++ [⟨(e.cons k + e.heldLive k) % 2 ^ 32, n, false⟩] }).busy 328

/-- Rings of the map that are not in their reset state, below a bound: only these can need disabling. -/
def Engine.ringsTouched (e : Engine) (n : Nat) : List Nat :=
  ((e.regs.filter fun r => decide (0x180000 ≤ r.1) && decide (r.1 < 0x180000 + 64 * n) && r.1 % 64 == 28).map fun r => (r.1 - 0x180000) / 64)

/-- DESCRIPTOR_FETCH: one turn over the rings with slots in transit, in ascending ring index (R193). -/
def execDescriptorFetch (s : State) : Res :=
  hostStep s fun e => (e.ringsTouched 4096).foldl Engine.fetchRing e

/-! ### Enabling and disabling (R202, R208, R209) -/

/-- A host range lies wholly inside one window of a domain (R202). -/
def Engine.inWindow (e : Engine) (pd a n : Nat) : Bool :=
  (List.range 8).any fun w => inOne w
where
  /-- The range lies in window `w`. -/
  inOne (w : Nat) : Bool :=
    let base := e.rd (Reg.HIF_PD_WIN_BASE pd w)
    let size := e.rd (Reg.HIF_PD_WIN_SIZE pd w)
    decide (base ≤ a) && decide (a + n ≤ base + size)

/-- The set-up of a ring is sound (R176, R202, R208). -/
def Engine.ringOk (e : Engine) (k : Nat) : Bool :=
  let kind := e.ringKind k
  let lg := e.get (Fld.HIF_RING_CFG_LOG2 k)
  decide (1 ≤ kind) && decide (kind ≤ 7) && decide (4 ≤ lg) && decide (lg ≤ 16) &&
    e.inWindow (e.ringPd k) (e.rd (Reg.HIF_RING_BASE k)) (e.ringSize k * entrySize kind) &&
    e.inWindow (e.ringPd k) (e.rd (Reg.HIF_RING_WB k)) 4

/-- EN = 1: a DISABLED ring whose set-up is sound becomes ACTIVE with its counts at zero; else CFG_ERR; a ring that is
not DISABLED stays as it is (R208). -/
def ringEnable (k : Nat) (e : Engine) : Engine :=
  if e.ringState k ≠ 0 then e
  else if e.ringOk k then
    let e := (e.wr (Reg.HIF_RING_PROD k) 0).wr (Reg.HIF_RING_CONS k) 0
    let e := (e.put (Fld.HIF_RING_STAT_STATE k) 1).put (Fld.HIF_RING_CTRL_EN k) 1
    e.setRing k fun r => { fetches := r.fetches.map fun f => { f with discard := true } }
  else (e.evt (Fld.HIF_RING_STAT_CFG_ERR k)).hifEvt Fld.HIF_EVT_CFG_ERR

/-- No accepted command names this completion ring any more. -/
def Engine.cplIdle (e : Engine) (k : Nat) : Bool := !(e.hif.cmds.any fun c => c.comp == k)

/-- EN = 0 (R209): an ACTIVE completion ring drains; any other ring, and one in ERROR, becomes DISABLED at once. -/
def ringDisable (k : Nat) (e : Engine) : Engine :=
  let e := e.put (Fld.HIF_RING_CTRL_EN k) 0
  if e.ringState k = 1 ∧ e.ringKind k = 3 then e.put (Fld.HIF_RING_STAT_STATE k) 3
  else if e.ringState k = 1 ∨ e.ringState k = 2 then
    (e.put (Fld.HIF_RING_STAT_STATE k) 0).setRing k fun r =>
      { r with fetches := r.fetches.map fun f => { f with discard := true }, gap := none, stale := false, unsignalled := 0 }
  else e

/-- A write of a HIF field of a profile's expansion: the profile reads CUSTOM (R207). -/
def Engine.hifCustom (e : Engine) : Engine := e.put Fld.HIF_PROFILE_PROFILE 7

/-- A HIF block write that is ignored while the block's expansion pends (R708). -/
def hifWrite (f : Engine → Engine) (e : Engine) : Engine :=
  if bitOf (e.rd Reg.GLB_PEND) 2 then (e.evt Fld.GLB_EVT_PEND_WRITE).count (Reg.GLB_CNT 1) else f e

/-- RING_ENABLE (R208). -/
def execRingEnable (ring : Nat) (s : State) : Res :=
  hostStep s fun e => if 4096 ≤ ring then e else hifWrite (fun e => (ringEnable ring e).hifCustom) e

/-- RING_DISABLE (R209). -/
def execRingDisable (ring : Nat) (s : State) : Res :=
  hostStep s fun e => if 4096 ≤ ring then e else hifWrite (fun e => (ringDisable ring e).hifCustom) e

/-- A draining completion ring that no accepted command names becomes DISABLED (R209). -/
def ringDrained (k : Nat) (e : Engine) : Engine :=
  if e.ringState k = 3 ∧ e.cplIdle k then
    (e.put (Fld.HIF_RING_STAT_STATE k) 0).setRing k fun r => { r with gap := none, stale := false, unsignalled := 0 }
  else e

/-- RING_DRAIN_COMPLETE (R209). -/
def execRingDrainComplete (ring : Nat) (s : State) : Res := engineStep s (ringDrained ring)

/-! ### The basic profiles (R206, Table HIF-11) -/

/-- The rings a profile's expansion names: 0 to 15 for OFF, every ring for SINGLE. -/
def hifNamed (v : Nat) : Nat := if v = 0 then 16 else 4096

/-- HIF_PROFILE_SELECT: a named value reads back at once and its rings are disabled first; GLB_PEND shows the wait (R206). -/
def execHifProfileSelect (v : Nat) (s : State) : Res :=
  hostStep s <| hifWrite fun e =>
    if v ≤ 1 then
      let e := (e.ringsTouched (hifNamed v)).foldl (fun e k => ringDisable k e) e
      let e := (e.put Fld.HIF_PROFILE_PROFILE v).wr Reg.GLB_PEND (e.rd Reg.GLB_PEND ||| 4)
      { e with hif := { e.hif with expanding := some v } }
    else e

/-- One ring of SINGLE: kind, LOG2, offset in the block, vector, coalescing. -/
def singleRing (base : Nat) (k kind lg off vec cnt time : Nat) (e : Engine) : Engine :=
  let e := (e.wr (Reg.HIF_RING_BASE k) (base + off)).wr (Reg.HIF_RING_WB k) (base + 0x4D0000 + 8 * k)
  let e := e.wr (Reg.HIF_RING_CFG k) (kind + 2 ^ 3 * lg + 2 ^ 14 * vec)
  e.wr (Reg.HIF_RING_COAL k) (cnt + 2 ^ 8 * time)

/-- The expansion of SINGLE (Table HIF-11 and the list after it). -/
def hifSingle (e : Engine) : Engine :=
  let base := e.get Fld.HIF_BASIC_BASE_BASE * 2 ^ 21
  let vlog := e.get Fld.HIF_BASIC_CFG_VERDICT_LOG2
  let e := (e.wr (Reg.HIF_PD_WIN_BASE 0 0) base).wr (Reg.HIF_PD_WIN_SIZE 0 0) 0x4D1000
  let e := e.wr (Reg.HIF_PD_CTRL 0) (0x0FFF + 2 ^ 16 * 65536 + 2 ^ 34 * 1 + 2 ^ 46)
  let e := singleRing base 0 1 12 0x400000 0 0 0 e
  let e := singleRing base 1 3 12 0x480000 0 16 5 e
  let e := singleRing base 2 4 vlog 0x000000 1 64 10 e
  let e := singleRing base 3 6 10 0x4C0000 2 1 0 e
  let e := singleRing base 4 5 12 0x4A0000 3 64 10 e
  let e := singleRing base 5 7 12 0x440000 4 16 10 e
  let e := (List.range 8).foldl (fun e i => singleRing base (8 + i) 2 12 (0x200000 + i * 0x40000) 0 0 0 e) e
  let e := (e.wr Reg.HIF_EVT_VEC 5).wr Reg.HIF_TALLY (1 + 2 ^ 31)
  let e := (List.range 256).foldl (fun e q => e.wr (Reg.HIF_HBQ_MAP q) ((if q < 248 then 2 else 5) + 2 ^ 31)) e
  ([0, 1, 2, 3, 4, 5, 8, 9, 10, 11, 12, 13, 14, 15]).foldl (fun e k => ringEnable k e) e

/-- The expansion of OFF: every queue mapping and the TALLY records off. -/
def hifOff (e : Engine) : Engine :=
  let e := (List.range 256).foldl (fun e q => e.put (Fld.HIF_HBQ_MAP_EN q) 0) e
  e.put Fld.HIF_TALLY_EN 0

/-- HIF_PROFILE_EXPANSION: once every named ring reads DISABLED, the expansion is written and GLB_PEND bit 2 clears (R206). -/
def execHifProfileExpansion (s : State) : Res :=
  engineStep s fun e =>
    match e.hif.expanding with
    | none => e
    | some v =>
      if (e.ringsTouched (hifNamed v)).all fun k => e.ringState k == 0 then
        let e := { e with hif := { e.hif with expanding := none } }
        let e := if v = 0 then hifOff e else hifSingle e
        let e := e.put Fld.HIF_PROFILE_PROFILE v
        e.wr Reg.GLB_PEND (withBits (e.rd Reg.GLB_PEND) 2 2 0)
      else e

end Sys2Proof.Machine
end

