-- ==== Sys2Proof/Machine/Bypass.lean ====
section
/-!
DEFINITION. Bypass.lean: bypass causes, poison and the protection of memories (R679 to R693), as every block uses them.
-/
namespace Sys2Proof.Machine

/-! ### Object references (Table GLN-8) -/

/-- A reference: KIND, MEMBER, ID. -/
def objRef (kind member id : Nat) : Nat := kind % 256 + 2 ^ 8 * (member % 2 ^ 14) + 2 ^ 22 * (id % 2 ^ 42)
/-- A reference to a packet by its intake timestamp. -/
def Engine.pktRef (e : Engine) (ts : Nat) : Nat := objRef 3 e.selfId ts
/-- A reference to a host command. -/
def Engine.cmdRef (e : Engine) (c : Cmd) : Nat := objRef 2 e.selfId (c.ring + 2 ^ 12 * (c.cnt % 2 ^ 30))

/-! ### Causes (R688 to R690) -/

/-- Cause `c` (Table ERR-6) is active. -/
def Engine.causeOn (e : Engine) (c : Nat) : Bool := bitOf (e.get Fld.ERR_BYPASS_STAT_CAUSES) (c - 1)
/-- Bypass is active. -/
def Engine.inBypass (e : Engine) : Bool := e.is Fld.ERR_BYPASS_STAT_ACTIVE

/-- A cause becomes active: a BYPASS_ENTER record each time, the entry instant only when no cause was active (R688, R689). -/
def Engine.enterCause (e : Engine) (c : Nat) : Engine :=
  if e.causeOn c then e
  else
    let first := !e.inBypass
    let e := e.put Fld.ERR_BYPASS_STAT_CAUSES (e.get Fld.ERR_BYPASS_STAT_CAUSES ||| 2 ^ (c - 1))
    let e := if first then ((e.put Fld.ERR_BYPASS_STAT_ACTIVE 1).wr Reg.ERR_BYPASS_TIME e.time).count (Reg.ERR_CNT 2) else e
    let e := if c = 1 then e.put Fld.ERR_BYPASS_STAT_THROTTLE 1 else e
    let e := if c = 2 ∨ c = 3 then
      { e with pkts := e.pkts.map fun p => if p.handed ∧ !p.byp ∧ !p.ended then { p with noEval := true } else p } else e
    (e.evt Fld.ERR_EVT_BYPASS_ENTER).errInfo 0x40 18 0 (c + 2 ^ 8 * e.get Fld.ERR_BYPASS_STAT_CAUSES) 0 0

/-- A cause ends; the last one to end sets the exit instant (R690). -/
def Engine.endCauseOnly (e : Engine) (c : Nat) : Engine :=
  if !e.causeOn c then e
  else
    let e := e.put Fld.ERR_BYPASS_STAT_CAUSES (withBits (e.get Fld.ERR_BYPASS_STAT_CAUSES) (c - 1) (c - 1) 0)
    let e := if c = 1 then e.put Fld.ERR_BYPASS_STAT_THROTTLE 0 else e
    let last := e.get Fld.ERR_BYPASS_STAT_CAUSES == 0
    let e := if last then
      { e.put Fld.ERR_BYPASS_STAT_ACTIVE 0 with err := { e.err with past := e.err.past ++ [(e.rd Reg.ERR_BYPASS_TIME, e.time)] } } else e
    (e.evt Fld.ERR_EVT_BYPASS_EXIT).errInfo 0x41 18 0 (c + 2 ^ 8 * e.get Fld.ERR_BYPASS_STAT_CAUSES) 0 0

/-- A cause ends. When COMMAND ends while no model is live, NO_MODEL becomes active at that instant and bypass goes on. -/
def Engine.endCause (e : Engine) (c : Nat) : Engine :=
  if c = 5 ∧ e.causeOn 5 = true ∧ e.gft.live = none then (e.enterCause 3).endCauseOnly 5 else e.endCauseOnly c

/-- A frame with this timestamp takes no cascade path (R689, R690). -/
def Engine.tsBypass (e : Engine) (ts : Nat) : Bool :=
  (e.inBypass && decide (e.rd Reg.ERR_BYPASS_TIME ≤ ts)) ||
    e.err.past.any fun x => decide (x.1 ≤ ts) && decide (ts < x.2)

/-- The live model is lost: its space is released at once and bypass cause NO_MODEL becomes active (Table ERR-2, R698). -/
def Engine.loseModel (e : Engine) : Engine :=
  Engine.enterCause { e with gft := { e.gft with live := none } } 3

/-- A mill (m) or orchard half (32 + h) error: ENGINE_UE, with the unit remembered for its self-test (R693). -/
def Engine.engineUe (e : Engine) (unit : Nat) : Engine :=
  let e := { e with err := { e.err with
    ueUnits := if unit ∈ e.err.ueUnits then e.err.ueUnits else e.err.ueUnits ++ [unit]
    ueAgain := e.err.ueAgain || e.is Fld.ERR_BYPASS_STAT_SELFTEST } }
  e.enterCause 2

/-! ### Memory errors (R679, R682 to R686, R696) -/

/-- The words of 8 bytes, or of the silo's 32-byte access, that a range touches. -/
def protWords (m a n : Nat) : List Nat :=
  let w := if m = 3 then 32 else 8
  if n = 0 then [] else (List.range ((a + n - 1) / w - a / w + 1)).map fun i => (a / w + i) * w

/-- A corrected error of memory `m` at `a`: repaired; counted; recorded as CE_REC says (R679, R682, R686). -/
def Engine.memCe (e : Engine) (m a : Nat) : Engine :=
  let e := (e.alwaysN (Reg.ERR_CE m) 1).evt Fld.ERR_EVT_CE
  let n := Tbl.get 0 e.err.ceTally m + 1
  let e := { e with err := { e.err with ceTally := Tbl.set 0 e.err.ceTally m n, aerCe := true } }
  let r := e.get Fld.ERR_CFG_CE_REC
  if r = 2 ∨ (r = 1 ∧ n = 1) then
    let (syn, e) := e.fresh Config.fSyndrome
    e.errRecord 0x10 1 18 m n a 0 syn 0 0
  else e

/-- An uncorrectable error of memory `m` at `a`: the word keeps the poison code; counted and recorded (R679, R684). -/
def Engine.memUe (e : Engine) (m a : Nat) (patrol : Bool) : Engine :=
  let e := (e.alwaysN (Reg.ERR_UE m) 1).evt Fld.ERR_EVT_UE
  let w := (protWords m a 1).headD a
  let e := { e with
    poison := if (m ≠ 0 ∧ m ≠ 1 ∧ m ≠ 3) ∨ w ∈ e.poison then e.poison else e.poison ++ [w]
    err := { e.err with aerUe := true } }
  let (syn, e) := e.fresh Config.fSyndrome
  e.errRecord 0x11 2 18 m 0 a 0 syn (bit patrol) 0

/-- A consumer (row of Table ERR-2, from 1) meets poisoned data (R683). -/
def Engine.poisoned (e : Engine) (row a obj : Nat) : Engine :=
  ((e.count (Reg.ERR_CNT 4)).evt Fld.ERR_EVT_POISON).errRecord 0x12 2 18 0 0 a obj row 0 0

/-- Takes an armed injection for memory `m`, if one is armed: the error it makes, and the engine with it applied (R696). -/
def Engine.takeInject (e : Engine) (m : Nat) (ecc : Ecc) : Ecc × Engine :=
  if e.is Fld.ERR_INJECT_ARMED && e.get Fld.ERR_INJECT_MEM == m then
    let k := e.get Fld.ERR_INJECT_KIND
    let e := (e.put Fld.ERR_INJECT_ARMED 0).count (Reg.ERR_CNT 7)
    (if m = 7 then .residue else if k = 0 then .ce else .ue, e)
  else (ecc, e)

/-- A read of `n` bytes of memory `m` at `a`, not a patrol read: whether it delivers poisoned data (R679, R696). `ecc`
is what the protection finds in the word, for the commands that say so. -/
def Engine.checkRead (e : Engine) (m a n : Nat) (ecc : Ecc) : Bool × Engine :=
  if n = 0 then (false, e)
  else
    let (x, e) := e.takeInject m ecc
    match (protWords m a n).find? fun w => decide (w ∈ e.poison) with
    | some w => (true, e.memUe m w false)
    | none =>
      match x with
      | .ce => (false, e.memCe m a)
      | .ue => (true, e.memUe m a false)
      | _ => (false, e)

/-- Reservations on bytes that are written are lost (R462). -/
def Ril.written (r : Ril) (a n : Nat) : Ril :=
  { r with threads := r.threads.map fun (x : Nat × Thread) =>
      (x.1, match x.2.resv with
        | some v => if decide (a < v + 8) && decide (v < a + n) then { x.2 with resv := none } else x.2
        | none => x.2) }

/-- Memory after a write: a word written whole loses its poison (R684), and reservations on it are lost. A word is 8
bytes, 32 in the silo. -/
def Engine.store (e : Engine) (a : Nat) (bs : Bytes) : Engine :=
  let m := if 0x04000000000 ≤ a ∧ a < 0x05000000000 then 3 else 0
  let w := if m = 3 then 32 else 8
  { e with
    mem := Tbl.writeBytes e.mem a bs
    ril := e.ril.written a bs.length
    poison := e.poison.filter fun p => !(decide (a ≤ p) && decide (p + w ≤ a + bs.length)) }

/-- Marks words as holding the poison code. -/
def Engine.poisonWords (e : Engine) (ws : List Nat) : Engine :=
  { e with poison := e.poison ++ ws.filter fun w => decide (w ∉ e.poison) }

/-- Host data as an engine block reads it: an armed injection of memory 6 marks it as arrived with EP set (R682, R683, R696). -/
def Engine.hostData (e : Engine) (h : HostRead) : HostRead × Engine :=
  let (x, e) := e.takeInject 6 .clean
  match h, x with
  | .ok _, .ue => (.ep, e.memUe 6 0 false)
  | .ok d, .ce => (.ok d, e.memCe 6 0)
  | .ep, _ => (.ep, e.memUe 6 0 false)
  | h, _ => (h, e)

/-- The memory of a module-local address (Tables ERR-1 and RIL-4). -/
def localMem (a : Nat) : Nat := if a < 0x10000000 then 0 else if a < 0x11000000 then 1 else 3

/-- The first `n` bytes of a host command's data: `none` ends the command with DMA_ERROR or POISON (R682, R683). A lattice SRC is read from
the module's own memory (R186, R187). -/
def Engine.cmdDataN (e : Engine) (c : Cmd) (n : Nat) (h : HostRead) (ecc : Ecc) : Option Bytes × Engine :=
  if c.srcLoc then
    let a := c.src % 2 ^ 42
    match e.checkRead (localMem a) a n ecc with
    | (true, e) => (none, (e.poisoned 1 c.src (e.cmdRef c)).finish c.id 0x31)
    | (false, e) => (some (e.readMem a n), e)
  else
    match e.hostData h with
    | (.ok d, e) => (some (fitTo n d), e)
    | (.ep, e) => (none, (e.poisoned 1 c.src (e.cmdRef c)).finish c.id 0x31)
    | (.err, e) => (none, (e.errRecord 0x20 2 18 6 0 0 (e.cmdRef c) c.ring c.tag 0).finish c.id 0x30)

/-- The LENGTH bytes at SRC. -/
def Engine.cmdData (e : Engine) (c : Cmd) (h : HostRead) : Option Bytes × Engine := e.cmdDataN c c.len h .clean

/-- A host command's result data goes to DST, in host memory or in the module's own (R186). -/
def Engine.cmdWrite (e : Engine) (c : Cmd) (d : Bytes) : Engine :=
  if c.dstLoc then e.store (c.dst % 2 ^ 42) d else e.emit (.hostWrite c.dst d)

end Sys2Proof.Machine
end

