-- ==== Sys2Proof/Machine/HostQ.lean ====
section
/-!
DEFINITION. HostQ.lean: weighted fair queueing tags, and the host-bound queues (R199, R200, R549, R550, R557, R558, R568, R570).
-/
namespace Sys2Proof.Machine

/-- The finish tag of a head of `n` bytes under virtual time `v` and weight `w` (R557). -/
def finishTag (v n w : Nat) : Nat := (v + ceilDiv (n * 65536) (max w 1)) % 2 ^ 48

/-- The distance of a tag from V, `d(F)` (R558). -/
def tagDist (f v : Nat) : Int := (((f + 2 ^ 48 + 2 ^ 47 - v % 2 ^ 48) % 2 ^ 48 : Nat) : Int) - 2 ^ 47

/-- Host-bound queue `h`. -/
def Engine.hq (e : Engine) (h : Nat) : HQ := Tbl.get {} e.slc.hq h
/-- The engine with a host-bound queue changed. -/
def Engine.setHq (e : Engine) (h : Nat) (f : HQ → HQ) : Engine :=
  { e with slc := { e.slc with hq := Tbl.set {} e.slc.hq h (f (e.hq h)) } }

/-- The length a record counts for in its tag. -/
def HRec.bytes (r : HRec) : Nat := 8 * r.words.length

/-- The head of a host-bound queue takes its tag (R557). -/
def Engine.hqRetag (e : Engine) (h : Nat) : Engine :=
  match (e.hq h).recs with
  | [] => e
  | r :: _ => e.setHq h fun q => { q with f := finishTag e.slc.hv r.bytes (e.get (Fld.SLC_HBQ_CFG_WEIGHT h)) }

/-- A record enters a host-bound queue. -/
def Engine.hqPush (e : Engine) (h : Nat) (r : HRec) : Engine :=
  let empty := (e.hq h).recs.isEmpty
  let e := e.setHq h fun q => { q with recs := q.recs ++ [r] }
  let e := if empty then e.hqRetag h else e
  e.highWater (Fld.SLC_HBQ_HWM_DEPTH_HWM h) (e.hq h).recs.length

/-- The head of a host-bound queue leaves it: V moves on, the sojourn is noted, the next head takes its tag (R558, R570). -/
def Engine.hqPop (e : Engine) (h : Nat) : Engine :=
  match (e.hq h).recs with
  | [] => e
  | r :: rest =>
    let f := (e.hq h).f
    let v := if 0 < tagDist f e.slc.hv then f else e.slc.hv
    let soj := e.time - r.at_
    let e := { e with slc := { e.slc with hv := v } }
    let e := e.setHq h fun q => { q with recs := rest, lastSojourn := soj }
    (e.highWater (Fld.SLC_HBQ_HWM_DELAY_HWM h) (min soj (2 ^ 40 - 1))).hqRetag h

/-- The queue of a VERDICT or RETRACT record with this FLOW (R549). -/
def Engine.verdictQueue (e : Engine) (flow : Nat) : Nat :=
  (e.get Fld.SLC_VSEL_BASE + flow % 2 ^ 32 % max (e.get Fld.SLC_VSEL_COUNT) 1) % 256

/-- The ring a host-bound queue is mapped to now. -/
def Engine.hqRing (e : Engine) (h : Nat) : Option Nat :=
  if e.is (Fld.HIF_HBQ_MAP_EN h) then some (e.get (Fld.HIF_HBQ_MAP_RING h)) else none

/-- A VERDICT record enters its queue, or, at the queue's limit, is discarded and counted for the ring the queue is
mapped to (R199). `true` when it was admitted. -/
def Engine.pushVerdict (e : Engine) (h : Nat) (r : HRec) (ts : Nat) : Bool × Engine :=
  if (e.hq h).recs.length < e.get (Fld.SLC_HBQ_LIMIT_HLIMIT h) then (true, e.hqPush h r)
  else match e.hqRing h with
    | some k => (false, (e.gapAdd k ts).count (Reg.HIF_RING_CNT_DISCARD k))
    | none => (false, e.count (Reg.HIF_CNT 2))

end Sys2Proof.Machine
end

