-- ==== Sys2Proof/Machine/Felgen.lean ====
section
/-!
DEFINITION. Felgen.lean: Felgen groups, flits, credits, retry, and messages over one hop (R612 to R622, R633).
-/
namespace Sys2Proof.Machine

/-! ### Checks -/

/-- One bit of a reflected CRC-32C step. -/
def crc32cByte (c : Nat) (b : Byte) : Nat :=
  (List.range 8).foldl (fun c _ => if c % 2 = 1 then (c / 2) ^^^ 0x82F63B78 else c / 2) (c ^^^ b.toNat)

/-- The CRC-32C of a byte string (R295). -/
def crc32c (bs : Bytes) : Nat := (bs.foldl crc32cByte 0xFFFFFFFF) ^^^ 0xFFFFFFFF

/-- One byte of CRC-64, ECMA-182, not reflected. -/
def crc64Byte (c : Nat) (b : Byte) : Nat :=
  (List.range 8).foldl (fun c _ =>
    if c / 2 ^ 63 = 1 then (2 * c % 2 ^ 64) ^^^ 0x42F0E1EBA9EA3693 else 2 * c) (c ^^^ (b.toNat * 2 ^ 56))

/-- The CRC-64 of R614: initial value zero, no final XOR. -/
def crc64 (bs : Bytes) : Nat := bs.foldl crc64Byte 0

/-! ### The Reed–Solomon code of R613 -/

/-- Times x in GF(2^8) with x^8 + x^4 + x^3 + x^2 + 1. -/
def gfX (a : Nat) : Nat := if 128 ≤ a then (2 * a - 256) ^^^ 0x1D else 2 * a

/-- The product in GF(2^8). -/
def gfMul (a b : Nat) : Nat :=
  ((List.range 8).foldl (fun (r : Nat × Nat) i => (if bitOf b i then r.1 ^^^ r.2 else r.1, gfX r.2)) (0, a)).1

/-- α^n. -/
def gfExp (n : Nat) : Nat := (List.range (n % 255)).foldl (fun a _ => gfX a) 1

/-- The inverse, a^254. -/
def gfInv (a : Nat) : Nat := (List.range 253).foldl (fun r _ => gfMul r a) a

/-- A polynomial, lowest power first, at a point. -/
def gfEval (p : List Nat) (x : Nat) : Nat := p.foldr (fun c r => gfMul r x ^^^ c) 0

/-- The product of two polynomials. -/
def gfPoly (p q : List Nat) : List Nat :=
  (List.range (p.length + q.length - 1)).map fun n =>
    (List.range (n + 1)).foldl (fun s i => s ^^^ gfMul (p.getD i 0) (q.getD (n - i) 0)) 0

/-- The generator with roots α^0 to α^15, lowest power first. -/
def rsGen : List Nat := (List.range 16).foldl (fun g i => gfPoly g [gfExp i, 1]) [1]

/-- The sixteen check bytes of 128 data bytes; the first byte of a codeword has the highest power (log entry 11). -/
def rsParity (d : List Nat) : List Nat :=
  let g := (rsGen.take 16).reverse
  d.foldl (fun r b =>
    let f := b ^^^ r.headD 0
    (List.range 16).map fun i => gfMul f (g.getD i 0) ^^^ r.getD (i + 1) 0) (List.replicate 16 0)

/-- The syndromes of a codeword of 144 bytes. -/
def rsSyndromes (c : List Nat) : List Nat :=
  (List.range 16).map fun j => let a := gfExp j; c.foldl (fun s b => gfMul s a ^^^ b) 0

/-- The state of the Berlekamp–Massey iteration. -/
structure Bm where
  c : List Nat
  b : List Nat
  l : Nat
  m : Nat
  d : Nat
deriving DecidableEq, Repr

/-- One step of the iteration, for syndrome `n`. -/
def bmStep (s : List Nat) (x : Bm) (n : Nat) : Bm :=
  let d := (List.range (x.l + 1)).foldl (fun a i => a ^^^ gfMul (x.c.getD i 0) (if i ≤ n then s.getD (n - i) 0 else 0)) 0
  if d = 0 then { x with m := x.m + 1 }
  else
    let k := gfMul d (gfInv x.d)
    let sh := List.replicate x.m 0 ++ x.b
    let c := (List.range (max x.c.length sh.length)).map fun i => x.c.getD i 0 ^^^ gfMul k (sh.getD i 0)
    if 2 * x.l ≤ n then ⟨c, x.c, n + 1 - x.l, 1, d⟩ else { x with c := c, m := x.m + 1 }

/-- A codeword with up to 8 byte errors corrected, and how many there were; `none` where it cannot be corrected. -/
def rsDecode (c : List Nat) : Option (List Nat × Nat) :=
  let s := rsSyndromes c
  if s.all (· == 0) then some (c, 0)
  else
    let x := (List.range 16).foldl (bmStep s) ⟨[1], [1], 0, 1, 1⟩
    let omega := (gfPoly s x.c).take 16
    let deriv := (List.range (x.c.length - 1)).map fun i => if i % 2 = 0 then x.c.getD (i + 1) 0 else 0
    let at_ := (List.range 144).filter fun p => gfEval x.c (gfExp (255 - (143 - p) % 255)) == 0
    if x.l ≤ 8 ∧ at_.length = x.l then
      some (at_.foldl (fun c p =>
        let inv := gfExp (255 - (143 - p) % 255)
        let e := gfMul (gfExp (143 - p)) (gfMul (gfEval omega inv) (gfInv (gfEval deriv inv)))
        modAt c p fun b => b ^^^ e) c, x.l)
    else none

/-- The eight flits of a group followed by their parity slot (R613). -/
def groupOf (flits : Bytes) : Bytes :=
  let ps := (List.range 16).map fun i => rsParity ((List.range 128).map fun j => byteAt flits (i + 16 * j))
  flits ++ (List.range 256).map fun k => BitVec.ofNat 8 ((ps.getD (k % 16) []).getD (k / 16) 0)

/-- The flits of a received group, how many bytes were corrected, and whether a codeword could not be. -/
def groupFlits (g : Bytes) : List Bytes × Nat × Bool :=
  let rs := (List.range 16).map fun i =>
    let c := (List.range 144).map fun j => byteAt g (i + 16 * j)
    match rsDecode c with
    | some (c', n) => (c', n, false)
    | none => (c, 0, true)
  let bytes := (List.range 2048).map fun k => BitVec.ofNat 8 ((rs.getD (k % 16) ([], 0, false)).1.getD (k / 16) 0)
  ((List.range 8).map fun i => slice bytes (256 * i) 256, (rs.map fun r => r.2.1).sum, rs.any fun r => r.2.2)

/-! ### Ports -/

/-- A Felgen port's book. -/
def Engine.fport (e : Engine) (p : Nat) : FlgPort := Tbl.get {} e.flg.ports p
/-- The engine with a port's book changed. -/
def Engine.setFport (e : Engine) (p : Nat) (f : FlgPort → FlgPort) : Engine :=
  { e with flg := { e.flg with ports := Tbl.set {} e.flg.ports p (f (e.fport p)) } }
/-- STATE of a port (Table FLG-2): 0 DISABLED, 1 DETECT, 2 TRAINING, 3 UP, 4 QUARANTINE, 5 DOWN. -/
def Engine.fstate (e : Engine) (p : Nat) : Nat := e.get (Fld.FLG_PORT_STAT_STATE p)
/-- The link carries flits of a channel: all when UP, MGMT alone in QUARANTINE, none during a retrain (R622, R627). -/
def Engine.fcarries (e : Engine) (p vc : Nat) : Bool :=
  (e.fport p).retrain.isNone && (e.fstate p == 3 || (e.fstate p == 4 && vc == 2))

/-- A flit's 256 bytes (R614). -/
def flitBytes (head : Nat) (body : Bytes) : Bytes :=
  let b := natLE 8 head ++ fitTo 240 body
  b ++ natLE 8 (crc64 b)

/-- The header of a flit of a port (Table FLG-1), with the next credit return, which it takes off the port's list. -/
def Engine.flitHead (e : Engine) (p vc cls kind first last nak seq : Nat) : Nat × Engine :=
  let q := e.fport p
  let ack := (q.rxExp + 4095) % 4096
  let base := vc + 4 * cls + 8 * kind + 32 * first + 64 * last + 128 * nak + 2 ^ 8 * seq + 2 ^ 20 * ack
  match q.owed.find? fun x => decide (0 < x.2) with
  | none => (base, e)
  | some (k, n) =>
    let c := min n 255
    (base + 2 ^ 32 * (k / 2) + 2 ^ 34 * (k % 2) + 2 ^ 35 * c,
      e.setFport p fun q => { q with owed := Tbl.set 0 q.owed k (n - c) })

/-- One flit to send: FKIND, SEQ, NAK and the flit. -/
structure TxFlit where
  kind : Nat
  seq : Nat
  nak : Bool
  flit : Flit
deriving DecidableEq, Repr

/-- An IDLE flit (R615). -/
def idleFlit : TxFlit := ⟨0, 0, false, ⟨0, 0, false, false, []⟩⟩

/-- Sends flits on a port, eight to a group, the last group filled with IDLE flits (R613, R615). -/
def Engine.sendFlits (e : Engine) (p : Nat) (fs : List TxFlit) : Engine :=
  let fs := fs ++ List.replicate ((8 - fs.length % 8) % 8) idleFlit
  let (bytes, e) := fs.foldl (fun (r : Bytes × Engine) f =>
    let (h, e) := r.2.flitHead p f.flit.vc f.flit.cls f.kind (bit f.flit.first) (bit f.flit.last) (bit f.nak) f.seq
    (r.1 ++ flitBytes h f.flit.body, e)) ([], e)
  (List.range (fs.length / 8)).foldl (fun e i => e.emit (.felgen p (groupOf (slice bytes (2048 * i) 2048)))) e

/-- Channel-class k of a flit. -/
def Flit.k (f : Flit) : Nat := 2 * f.vc + f.cls

/-- The next flit a port may send: the first waiting flit of the highest-priority channel whose channel-class holds a
credit (R618), with its position. -/
def Engine.nextFlit (e : Engine) (p : Nat) : Option (Nat × Flit) :=
  let q := e.fport p
  if 1024 ≤ q.replay.length then none
  else [2, 1, 0, 3].findSome? fun vc =>
    if !e.fcarries p vc then none
    else match q.wait.findIdx? fun f => f.vc == vc with
      | none => none
      | some i => (q.wait[i]?).bind fun f => if e.get (Fld.FLG_PORT_CREDIT_FREE p f.k) = 0 then none else some (i, f)

/-- A LINK_TX (5) or LINK_RX (6) record of a DATA flit, at a time in 1/16 tick: on an UP port, for each SEQ that is a multiple of
2^LINK_LOG2 (R667). -/
def Engine.traceLink (e : Engine) (p kind stamp seq vc : Nat) : Engine :=
  if e.is Fld.GLN_TRACE_CFG_EN && e.is Fld.GLN_TRACE_CFG_LINK_EN && e.fstate p == 3 &&
      seq % 2 ^ e.get Fld.GLN_TRACE_CFG_LINK_LOG2 == 0 then
    let w1 := e.get (Fld.FLG_PORT_STAT_NEIGH_ID p) + 2 ^ 16 * p + 2 ^ 20 * e.get (Fld.FLG_PORT_STAT_NEIGH_PORT p) +
      2 ^ 24 * seq + 2 ^ 36 * vc
    e.stage (e.traceRec (stamp / 16) kind w1 (stamp % 16) 0) (stamp / 16)
  else e

/-- Takes the flits a port can send now, at most `fuel`: each takes a credit, the next SEQ and a place in the replay buffer. -/
def Engine.takeFlits (e : Engine) (p fuel : Nat) : List TxFlit × Engine :=
  match fuel with
  | 0 => ([], e)
  | fuel + 1 =>
    match e.nextFlit p with
    | none => ([], e)
    | some (i, f) =>
      let q := e.fport p
      let seq := q.txSeq
      let e := e.setFport p fun q =>
        { q with wait := q.wait.eraseIdx i, txSeq := (seq + 1) % 4096, replay := q.replay ++ [(seq, f)] }
      let e := (e.put (Fld.FLG_PORT_CREDIT_FREE p f.k) (e.get (Fld.FLG_PORT_CREDIT_FREE p f.k) - 1)).put
        (Fld.FLG_PORT_CREDIT_HELD p f.k) (e.get (Fld.FLG_PORT_CREDIT_HELD p f.k) + 1)
      let e := (e.alwaysN (Reg.FLG_PCNT p 0) 1).busy (338 + p)
      let (frac, e) := e.fresh Config.fTxFrac
      let e := e.traceLink p 5 (16 * e.time + frac % 16) seq f.vc
      let r := e.takeFlits p fuel
      (⟨1, seq, false, f⟩ :: r.1, r.2)

/-- Sends what a port can send; with nothing to send, credits or an acknowledgement that are due go in IDLE flits
(R615, log entry 12). -/
def Engine.pump (e : Engine) (p : Nat) (ack : Bool) : Engine :=
  let (fs, e) := e.takeFlits p (e.fport p).wait.length
  let due := ack || ((e.fport p).owed.any fun x => decide (0 < x.2))
  if fs.isEmpty && !(due && (e.fstate p == 3 || e.fstate p == 4) && (e.fport p).retrain.isNone) then e
  else e.sendFlits p fs

/-! ### Routing (R619, R628 to R631) -/

/-- Coordinate `d` (0 x, 1 y, 2 z) of a lattice ID. -/
def latCoord (id d : Nat) : Nat := if d = 0 then bitsOf id 4 0 else if d = 1 then bitsOf id 9 5 else bitsOf id 13 10
/-- The size of a dimension. -/
def Engine.latSize (e : Engine) (d : Nat) : Nat :=
  e.get (if d = 0 then Fld.FLG_BASIC_DX else if d = 1 then Fld.FLG_BASIC_DY else Fld.FLG_BASIC_DZ)
/-- The role of the + or − direction of a dimension (Table FLG-4). -/
def roleOf (d neg : Nat) : Nat := 2 * d + 1 + neg
/-- The dimension in which the next hop from `at_` to `dst` goes. -/
def nextDim (at_ dst : Nat) : Option Nat := [0, 1, 2].find? fun d => latCoord at_ d != latCoord dst d
/-- Ports of a role that carry a channel. -/
def Engine.bundle (e : Engine) (role vc : Nat) : List Nat :=
  (List.range 8).filter fun p =>
    e.get (Fld.FLG_PORT_CFG_ROLE p) == role && (e.fstate p == 3 || (e.fstate p == 4 && vc == 2))
/-- The port a message leaves on, and whether the hop crosses the dimension's wrap link. -/
def Engine.nextHop (e : Engine) (src dst dirs vc : Nat) : Option (Nat × Nat × Bool) :=
  match nextDim e.selfId dst with
  | none => none
  | some d =>
    let neg := bit (bitOf dirs d)
    let ps := e.bundle (roleOf d neg) vc
    let x := latCoord e.selfId d
    let wrap := if neg = 1 then x == 0 else x + 1 == e.latSize d
    (ps[crc32c (natLE 2 src ++ natLE 2 dst) % max ps.length 1]?).map fun p => (p, d, wrap)

/-! ### Messages (R633) -/

/-- A message's flits: the header of Table FLG-6, then the data. -/
def msgFlits (vc cls dst src op dirs tag : Nat) (arg data : Bytes) : List Flit :=
  let n := ceilDiv (16 + data.length) 240
  let bytes := natLE 2 dst ++ natLE 2 src ++ natLE 1 op ++ natLE 1 (dirs % 8 + 16 * (n - 1)) ++ natLE 2 tag ++ fitTo 8 arg ++ data
  (List.range n).map fun i => ⟨vc, cls, i == 0, i + 1 == n, fitTo 240 (slice bytes (240 * i) 240)⟩

/-- The virtual channel of an OP (Table FLG-7); `none` for any other OP. -/
def opVc (op : Nat) : Option Nat :=
  if op ∈ [0x01, 0x02, 0x03, 0x10, 0x11, 0x12, 0x13] then some 0
  else if op ∈ [0x81, 0x82, 0x83, 0x90, 0x91, 0x93, 0xFE] then some 1
  else if op ∈ [0xC0, 0xC1, 0xC2, 0xC3, 0xC4, 0xC5] then some 2
  else if op = 0xE0 then some 3
  else none

/-- Queues flits on the next hop's port and sends what it can; `none` where there is no usable link. -/
def Engine.sendHop (e : Engine) (src dst dirs vc cls0 : Nat) (dim0 : Option Nat) (mk : Nat → List Flit) : Option Engine :=
  match e.nextHop src dst dirs vc with
  | none => none
  | some (p, d, wrap) =>
    let cls := if wrap then 1 else if dim0 = some d then cls0 else 0
    some ((e.setFport p fun q => { q with wait := q.wait ++ mk cls }).pump p false)

/-- The route to a member on a channel. -/
def Engine.route (e : Engine) (vc dst : Nat) : Option Route := Tbl.find (if vc = 2 then e.flg.mgmt else e.flg.routes) dst

/-- Sends a message from this member; with no route it is discarded and counted in FLG_CNT1 (R631). `true` when it was sent. -/
def Engine.flgSend (e : Engine) (op dst tag : Nat) (arg data : Bytes) : Bool × Engine :=
  let vc := (opVc op).getD 0
  match e.route vc dst with
  | none => (false, e.count (Reg.FLG_CNT 1))
  | some r =>
    match e.sendHop e.selfId dst r.dirs vc 0 none fun cls => msgFlits vc cls dst e.selfId op r.dirs tag arg data with
    | none => (false, e.count (Reg.FLG_CNT 1))
    | some e => (true, e)

/-- Sends a request, with its tag kept until the response (R633); `none` where there is no route. -/
def Engine.flgRequest (e : Engine) (op dst : Nat) (owner : ReqOwner) (arg data : Bytes) : Option Nat × Engine :=
  let tag := e.flg.nextTag
  let (ok, e) := e.flgSend op dst tag arg data
  if ok then
    (some tag, { e with flg := { e.flg with
      nextTag := (tag + 1) % 65536
      reqs := e.flg.reqs ++ [⟨tag, dst, op, owner, e.cyc⟩] } })
  else (none, e)

/-- Takes a message that has been received: its credits are due back to the sender (R616). Messages of one source on
one channel are taken up in the order in which they arrived (R632). -/
def Engine.flgMsg (e : Engine) (id op : Nat) : Option FlgMsg :=
  match e.flg.inbox.find? fun m => m.id == id with
  | none => none
  | some m =>
    if m.op ≠ op then none
    else if m.begun ∨ !(e.flg.inbox.any fun n => n.src == m.src && n.vc == m.vc && !n.begun && decide (n.id < m.id)) then some m
    else none

/-- The receive buffers of a message are free: credits are owed on the port it came by. -/
def Engine.freeMsg (e : Engine) (m : FlgMsg) : Engine :=
  let e := { e with flg := { e.flg with inbox := e.flg.inbox.filter fun n => n.id != m.id } }
  if m.buffered then
    let k := 2 * m.vc + m.cls
    (e.setFport m.port fun q => { q with owed := Tbl.set 0 q.owed k (Tbl.get 0 q.owed k + m.flits) }).pump m.port false
  else e

/-- A message that waits at this member keeps its place. -/
def Engine.holdMsg (e : Engine) (m : FlgMsg) : Engine :=
  { e with flg := { e.flg with inbox := e.flg.inbox.map fun n => if n.id = m.id then { n with begun := true } else n } }

/-- Answers a request: TAG copied, SRC and DST exchanged (R633). -/
def Engine.respond (e : Engine) (m : FlgMsg) (op : Nat) (arg data : Bytes) : Engine := (e.flgSend op m.src m.tag arg data).2

/-! ### Receiving a group (R620) -/

/-- A message received whole: delivered here, forwarded, or, with an OP not in Table FLG-7, discarded (R630, R634). -/
def Engine.acceptMsg (e : Engine) (p vc cls : Nat) (bodies : List Bytes) : Engine :=
  let b := bodies.flatten
  let dst := leAt b 0 2 % 2 ^ 14
  let src := leAt b 2 2 % 2 ^ 14
  let op := leAt b 4 1
  let dirs := leAt b 5 1 % 8
  let k := 2 * vc + cls
  let n := bodies.length - Tbl.get 0 (e.fport p).partOld k
  let e := e.setFport p fun q => { q with partOld := Tbl.set 0 q.partOld k 0 }
  let owe (e : Engine) : Engine := e.setFport p fun q => { q with owed := Tbl.set 0 q.owed k (Tbl.get 0 q.owed k + n) }
  if opVc op ≠ some vc then (owe e).count (Reg.FLG_CNT 1)
  else if dst = e.selfId then
    let m : FlgMsg := { id := e.flg.nextMsg, port := p, vc := vc, cls := cls, flits := n, src := src,
                        op := op, tag := leAt b 6 2, arg := slice b 8 8, data := b.drop 16, at_ := e.time }
    { e with flg := { e.flg with nextMsg := e.flg.nextMsg + 1, inbox := e.flg.inbox ++ [m] } }
  else
    let e := owe e
    let role := e.get (Fld.FLG_PORT_CFG_ROLE p)
    let n := bodies.length
    match e.sendHop src dst dirs vc cls (some ((role - 1) / 2)) fun c =>
      (List.range n).map fun i => ⟨vc, c, i == 0, i + 1 == n, bodies.getD i []⟩ with
    | none => e.count (Reg.FLG_CNT 1)
    | some e => e.count (Reg.FLG_CNT 0)

/-- A DATA flit in order joins its message. -/
def Engine.acceptFlit (e : Engine) (p vc cls : Nat) (first last : Bool) (body : Bytes) : Engine :=
  let k := 2 * vc + cls
  let part := (if first then [] else Tbl.get [] (e.fport p).part k) ++ [body]
  let e := e.setFport p fun q => { q with part := Tbl.set [] q.part k (if last then [] else part) }
  if last then e.acceptMsg p vc cls part else e

/-- A flit that fails its check, or a DATA flit out of order: a NAK goes back with the last good SEQ (R620). -/
def Engine.sendNak (e : Engine) (p : Nat) : Engine :=
  let e := (e.setFport p fun q => { q with discarding := true }).count (Reg.FLG_PCNT p 5)
  e.sendFlits p [{ idleFlit with nak := true }]

/-- The ACK, credits and NAK of a good flit's header (R614, R616, R617). -/
def Engine.flitNotices (e : Engine) (p h : Nat) : Engine :=
  let live := (e.fport p).retrain.isNone
  let ack := bitsOf h 31 20
  let q := e.fport p
  let keep := q.replay.filter fun x => decide (2048 ≤ (ack + 4096 - x.1) % 4096)
  let e := e.setFport p fun q =>
    { q with replay := keep, nakRun := if keep.length < q.replay.length then 0 else q.nakRun,
             nak := if live && bitOf h 7 then some ack else q.nak }
  let k := 2 * bitsOf h 33 32 + bitsOf h 34 34
  let c := min (bitsOf h 42 35) (e.get (Fld.FLG_PORT_CREDIT_HELD p k))
  if c = 0 ∨ !live then e
  else (e.put (Fld.FLG_PORT_CREDIT_HELD p k) (e.get (Fld.FLG_PORT_CREDIT_HELD p k) - c)).put
    (Fld.FLG_PORT_CREDIT_FREE p k) (e.get (Fld.FLG_PORT_CREDIT_FREE p k) + c)

/-- One flit of a received group. -/
def Engine.flitIn (e : Engine) (p stamp : Nat) (f : Bytes) : Engine :=
  let h := leAt f 0 8
  let live := (e.fstate p == 3 || e.fstate p == 4) && (e.fport p).retrain.isNone
  if crc64 (slice f 0 248) ≠ leAt f 248 8 ∨ bitsOf h 4 3 = 3 ∨ h / 2 ^ 43 ≠ 0 then
    let e := e.count (Reg.FLG_PCNT p 4)
    if live then e.sendNak p else e
  else
    let e := if e.fstate p == 3 || e.fstate p == 4 then e.flitNotices p h else e
    if bitsOf h 4 3 = 2 then
      if byteAt f 8 = 0 ∨ 3 < byteAt f 8 then e
      else e.setFport p fun q => { q with ctrl := q.ctrl ++ [(stamp, slice f 8 240)] }
    else if bitsOf h 4 3 = 0 ∨ !e.fcarries p (bitsOf h 1 0) then e
    else
      let q := e.fport p
      let seq := bitsOf h 19 8
      if seq = q.rxExp then
        let e := e.setFport p fun q => { q with rxExp := (seq + 1) % 4096, discarding := false }
        let e := e.traceLink p 6 stamp seq (bitsOf h 1 0)
        (e.alwaysN (Reg.FLG_PCNT p 1) 1).acceptFlit p (bitsOf h 1 0) (bitsOf h 2 2) (bitOf h 5) (bitOf h 6) (slice f 8 240)
      else if (q.rxExp + 4096 - seq) % 4096 ≤ 2048 ∨ q.discarding then e
      else e.sendNak p

/-- A group received on a port, whose end arrives `frac` sixteenths into this tick, and whose slots of 256 bytes last 2048/45
sixteenths each, so that each flit is stamped at its start (R613, R641): corrected, each flit checked, then what became
possible is sent, with an acknowledgement of new DATA flits (R613, R620). -/
def flitReceive (p frac : Nat) (g : Bytes) (e : Engine) : Engine :=
  if 8 ≤ p ∨ g.length ≠ 2304 ∨ !(e.fstate p = 2 ∨ e.fstate p = 3 ∨ e.fstate p = 4) then e
  else
    let (fs, n, bad) := groupFlits g
    let e := if n = 0 then e else e.countN (Reg.FLG_PCNT p 2) n
    let e := if bad then e.count (Reg.FLG_PCNT p 3) else e
    let was := (e.fport p).rxExp
    let t := 16 * e.time + frac % 16
    let e := fs.zipIdx.foldl (fun e (x : Bytes × Nat) => e.flitIn p (t - ceilDiv ((9 - x.2) * 2048) 45) x.1) e
    e.pump p ((e.fport p).rxExp != was)

/-- FLIT_RECEIVE (R620). -/
def execFlitReceive (port frac : Nat) (group : Bytes) (s : State) : Res := engineStep s (flitReceive port frac group)

end Sys2Proof.Machine
end

