-- ==== Sys2Proof/Machine/Num.lean ====
section
/-!
DEFINITION. Num.lean: the nine number formats, the rounding rule and the conversions (R337 to R350), over exact rationals.
-/
namespace Sys2Proof.Machine

/-- The formats of Table NUM-1. -/
inductive Fmt where
  | int4 | int8 | uint8 | e4m3 | e5m2 | f16 | bf16 | f32 | k20
deriving DecidableEq, Repr

/-- The format of a format code. -/
def Fmt.ofCode (c : Nat) : Option Fmt :=
  match c with
  | 0 => some .int4
  | 1 => some .int8
  | 2 => some .uint8
  | 3 => some .e4m3
  | 4 => some .e5m2
  | 5 => some .f16
  | 6 => some .bf16
  | 7 => some .f32
  | 8 => some .k20
  | _ => none

/-- The code of a format. -/
def Fmt.code (f : Fmt) : Nat :=
  match f with
  | .int4 => 0
  | .int8 => 1
  | .uint8 => 2
  | .e4m3 => 3
  | .e5m2 => 4
  | .f16 => 5
  | .bf16 => 6
  | .f32 => 7
  | .k20 => 8

/-- An integer format. -/
def Fmt.isInt (f : Fmt) : Bool := f == .int4 || f == .int8 || f == .uint8

/-- The lowest and highest code of an integer format. -/
def Fmt.lo (f : Fmt) : Int := match f with | .int4 => -8 | .int8 => -128 | _ => 0
def Fmt.hi (f : Fmt) : Int := match f with | .int4 => 7 | .int8 => 127 | _ => 255

/-- Bits an element takes in memory (R338). -/
def Fmt.bits (f : Fmt) : Nat :=
  match f with
  | .int4 => 4
  | .int8 | .uint8 | .e4m3 | .e5m2 => 8
  | .f16 | .bf16 => 16
  | .f32 | .k20 => 32

/-- Exponent bits. -/
def Fmt.eb (f : Fmt) : Nat := match f with | .e4m3 => 4 | .e5m2 | .f16 => 5 | _ => 8
/-- Fraction bits. -/
def Fmt.fb (f : Fmt) : Nat :=
  match f with | .e4m3 => 3 | .e5m2 => 2 | .f16 => 10 | .bf16 => 7 | .f32 => 23 | _ => 11
/-- Exponent bias. -/
def Fmt.bias (f : Fmt) : Int := match f with | .e4m3 => 7 | .e5m2 | .f16 => 15 | _ => 127

/-- A power of two with an integer exponent. -/
def pow2 (e : Int) : Rat := if 0 ≤ e then ((2 ^ e.toNat : Nat) : Rat) else 1 / ((2 ^ (-e).toNat : Nat) : Rat)

/-- The largest finite value of a format. -/
def Fmt.maxFin (f : Fmt) : Rat :=
  if f.isInt then (f.hi : Rat)
  else if f = .e4m3 then 448
  else (2 - pow2 (-(f.fb : Int))) * pow2 f.bias

/-- A value: a NaN, or a sign and a magnitude, so that zero keeps its sign. -/
inductive NVal where
  | nan
  | num (neg : Bool) (mag : Rat)
deriving DecidableEq, Repr

/-- The value of a rational; zero is +0. -/
def NVal.ofRat (q : Rat) : NVal := if q < 0 then .num true (-q) else .num false q
/-- The value of an integer. -/
def NVal.ofInt (i : Int) : NVal := NVal.ofRat (i : Rat)
/-- The rational of a value that is no NaN; 0 for a NaN. -/
def NVal.rat (v : NVal) : Rat := match v with | .nan => 0 | .num n m => if n then -m else m
/-- A value is a NaN. -/
def NVal.isNan (v : NVal) : Bool := match v with | .nan => true | .num _ _ => false

/-- The value with its sign inverted, zeros included (R343). -/
def NVal.neg (v : NVal) : NVal := match v with | .nan => .nan | .num n m => .num (!n) m

/-- An exact sum: an exact zero is +0, except that of two −0 operands (R343). -/
def NVal.add (a b : NVal) : NVal :=
  match a, b with
  | .num n m, .num n' m' =>
    let r := a.rat + b.rat
    if r = 0 then .num (n && n' && m == 0 && m' == 0) 0 else NVal.ofRat r
  | _, _ => .nan

/-- A difference is the sum with the second operand's sign inverted (R343). -/
def NVal.sub (a b : NVal) : NVal := a.add b.neg

/-- An exact product: the sign is the exclusive OR of the signs (R343). -/
def NVal.mul (a b : NVal) : NVal :=
  match a, b with
  | .num n m, .num n' m' => .num (n != n') (m * m')
  | _, _ => .nan

/-- An exact quotient by a positive rational. -/
def NVal.divBy (a : NVal) (s : Rat) : NVal := match a with | .nan => .nan | .num n m => .num n (m / s)

/-! Flags, in the bit order of NUM_TFLAGS; CLIP is no flag but marks a clip. -/

def fINX : Nat := 1
def fUNF : Nat := 2
def fSAT : Nat := 4
def fNAN : Nat := 8
def fCLIP : Nat := 16

/-- `floor (log2 q)` of a positive rational. -/
def ratLog2 (q : Rat) : Int :=
  let k : Int := (Nat.log2 q.num.toNat : Int) - (Nat.log2 q.den : Int)
  if pow2 k ≤ q then (if pow2 (k + 1) ≤ q then k + 1 else k) else k - 1

/-- `floor (q + 1/2)` of a magnitude: to nearest, ties away from zero (R341). -/
def roundMag (q : Rat) : Nat := (q + 1 / 2).floor.toNat

/-- To nearest, ties away from zero. -/
def roundAway (q : Rat) : Int := if q < 0 then -(roundMag (-q) : Int) else (roundMag q : Int)

/-- The code of a representable magnitude with a sign. -/
def Fmt.encode (f : Fmt) (neg : Bool) (a : Rat) : Nat :=
  let s := bit neg * 2 ^ (f.eb + f.fb)
  if a = 0 then s
  else
    let e := max (ratLog2 a) (1 - f.bias)
    let m := (a / pow2 (e - (f.fb : Int))).floor.toNat
    if m < 2 ^ f.fb then s + m else s + (e + f.bias).toNat * 2 ^ f.fb + (m - 2 ^ f.fb)

/-- The canonical NaN (Table NUM-1). -/
def Fmt.canonNan (f : Fmt) : Nat :=
  match f with
  | .e4m3 => 0x7F
  | .e5m2 => 0x7E
  | .f16 => 0x7E00
  | .bf16 => 0x7FC0
  | .f32 => 0x7FC00000
  | _ => 0x7FC00

/-- `decode` of R342: the value of a code and the flags. -/
def decode (f : Fmt) (c : Nat) : NVal × Nat :=
  if f.isInt then (NVal.ofInt (if f = .uint8 then (c % 256 : Nat) else sextOf f.bits c), 0)
  else
    let neg := bitOf c (f.eb + f.fb)
    let e := bitsOf c (f.eb + f.fb - 1) f.fb
    let fr := c % 2 ^ f.fb
    let top := 2 ^ f.eb - 1
    if f = .e4m3 ∧ e = 15 ∧ fr = 7 then (.nan, fNAN)
    else if f ≠ .e4m3 ∧ e = top ∧ fr ≠ 0 then (.nan, fNAN)
    else if f ≠ .e4m3 ∧ e = top then (.num neg f.maxFin, fSAT)
    else if e = 0 then (.num neg (((fr : Nat) : Rat) * pow2 (1 - f.bias - f.fb)), 0)
    else (.num neg (((2 ^ f.fb + fr : Nat) : Rat) * pow2 ((e : Int) - f.bias - f.fb)), 0)

/-- `narrow` of R342: the code and the flags. -/
def narrow (f : Fmt) (x : NVal) : Nat × Nat :=
  match x with
  | .nan => (f.canonNan, fNAN)
  | .num neg a =>
    if a = 0 then (f.encode neg 0, 0)
    else
      let e := max (ratLog2 a) (1 - f.bias)
      let ulp := pow2 (e - (f.fb : Int))
      let r := ((roundMag (a / ulp) : Nat) : Rat) * ulp
      let fl := if r = a then 0 else fINX
      if f.maxFin < r then (f.encode neg f.maxFin, fl ||| fSAT ||| fCLIP ||| fINX)
      else (f.encode neg r, if r = 0 then fl ||| fUNF else fl)

/-- The code of an integer format for a code value. -/
def intCode (f : Fmt) (i : Int) : Nat := wrapInt f.bits i

/-- `quantise` of R342, with scale `s` and the zero point's code `z`. -/
def quantise (f : Fmt) (x : NVal) (s : Rat) (z : Nat) : Nat × Nat :=
  match x with
  | .nan => if f.isInt then (z % 2 ^ f.bits, fNAN) else (f.canonNan, fNAN)
  | .num _ _ =>
    if f.isInt then
      let q := x.rat / s
      let r := roundAway q
      let fl := (if (r : Rat) = q then 0 else fINX) ||| (if r = 0 ∧ q ≠ 0 then fUNF else 0)
      let c := r + (roundAway (decode f z).1.rat)
      if c < f.lo ∨ f.hi < c then (intCode f (min (max c f.lo) f.hi), fl ||| fINX ||| fCLIP)
      else (intCode f c, fl)
    else narrow f ((x.divBy s).add (decode f z).1)

/-- `dequantise` of R342: a code of `f` to format `g`. -/
def dequantise (f : Fmt) (c z : Nat) (s : Rat) (g : Fmt) : Nat × Nat :=
  let v := decode f c
  let w := decode f z
  if v.1.isNan || w.1.isNan then (g.canonNan, v.2 ||| w.2 ||| fNAN)
  else
    let o := narrow g ((v.1.sub w.1).mul (.num false s))
    (o.1, v.2 ||| w.2 ||| o.2)

/-- The exact value a code represents (R340), with the flags of decoding it. -/
def codeValue (f : Fmt) (c z : Nat) (s : Rat) : NVal × Nat :=
  let v := decode f c
  let w := decode f z
  if v.1.isNan || w.1.isNan then (.nan, v.2 ||| w.2 ||| fNAN) else ((v.1.sub w.1).mul (.num false s), v.2 ||| w.2)

/-- A binary32 code as a value; an infinity decodes to the largest finite value. -/
def f32v (c : Nat) : NVal := (decode .f32 c).1
/-- A binary32 scale as a rational. -/
def f32q (c : Nat) : Rat := (f32v c).rat
/-- Whether a binary32 code is a legal scale: positive and finite (R340). -/
def scaleOk (c : Nat) : Bool :=
  let d := decode .f32 c
  d.2 == 0 && !d.1.isNan && decide (0 < d.1.rat) && decide (c < 2 ^ 32)
/-- Whether a zero point is legal for a format: it decodes to a finite value (R340). -/
def zpOk (f : Fmt) (z : Nat) : Bool := (decode f z).2 == 0
/-- A binary32 result. -/
def toF32 (v : NVal) : Nat × Nat := narrow .f32 v
/-- A binary32 sum of binary32 codes, narrowed once. -/
def f32add (a b : Nat) : Nat × Nat := toF32 ((f32v a).add (f32v b))
/-- A binary32 product. -/
def f32mul (a b : Nat) : Nat × Nat := toF32 ((f32v a).mul (f32v b))

/-- `params_from_range` of R348: a scale as a binary32 code, and a zero-point code. -/
def paramsFromRange (f : Fmt) (lo hi : Rat) : Nat × Nat :=
  let lo := min lo 0
  let hi := max hi 0
  let tiny := pow2 (-149)
  if f.isInt then
    let s := max (f32q (toF32 (NVal.ofRat ((hi - lo) / ((f.hi - f.lo : Int) : Rat)))).1) tiny
    let z := min (max (roundAway ((f.lo : Rat) - lo / s)) f.lo) f.hi
    (f32Code s, intCode f z)
  else
    let s := max (f32q (toF32 (NVal.ofRat (max (-lo) hi / f.maxFin))).1) tiny
    (f32Code s, 0)
where
  /-- The binary32 code of a rational. -/
  f32Code (q : Rat) : Nat := (toF32 (NVal.ofRat q)).1

/-- Element `i` of packed codes (R338). -/
def elemAt (f : Fmt) (bs : Bytes) (i : Nat) : Nat :=
  if f = .int4 then (byteAt bs (i / 2) >>> (4 * (i % 2))) % 16
  else leAt bs (i * (f.bits / 8)) (f.bits / 8) % 2 ^ (if f = .k20 then 20 else f.bits)

/-- Codes packed into bytes (R338). -/
def packElems (f : Fmt) (cs : List Nat) : Bytes :=
  if f = .int4 then
    (List.range ((cs.length + 1) / 2)).map fun i =>
      BitVec.ofNat 8 (cs.getD (2 * i) 0 % 16 + 16 * (cs.getD (2 * i + 1) 0 % 16))
  else cs.flatMap fun c => natLE (f.bits / 8) c

/-- Bytes that `n` elements take. -/
def Fmt.bytesOf (f : Fmt) (n : Nat) : Nat := ceilDiv (n * f.bits) 8

end Sys2Proof.Machine
end

