-- ==== Sys2Proof/Machine/Track.lean ====
section
/-!
DEFINITION. Track.lean: the tracking contexts of the NUM block, their windows and what a crossing does (R354 to R358).
-/
namespace Sys2Proof.Machine

/-- The open window of a context. -/
def Engine.numWin (e : Engine) (t : Nat) : Option NumWin := Tbl.get none e.num t
/-- The engine with a context's window replaced; NUM_TFLAGS.OPEN shows it. -/
def Engine.setWin (e : Engine) (t : Nat) (w : Option NumWin) : Engine :=
  Engine.put { e with num := Tbl.set none e.num t w } (Fld.NUM_TFLAGS_OPEN t) (bit w.isSome)
/-- A context is bound (R354). -/
def Engine.numBound (e : Engine) (t : Nat) : Bool := decide (t < 256) && e.get (Fld.NUM_TCTRL_TENSOR_ID t) != 0xFFFF
/-- A context's format. -/
def Engine.numFmt (e : Engine) (t : Nat) : Fmt := (Fmt.ofCode (e.get (Fld.NUM_TCTRL_FMT t))).getD .int8
/-- A context's live scale and zero point. -/
def Engine.numScale (e : Engine) (t : Nat) : Nat × Nat := (e.get (Fld.NUM_TSCALE_SCALE t), e.get (Fld.NUM_TZP_ZP t))
/-- The bound context of a tensor. -/
def Engine.ctxOf (e : Engine) (tensor : Nat) : Option Nat :=
  if tensor = 0xFFFF then none else (List.range 256).find? fun t => e.get (Fld.NUM_TCTRL_TENSOR_ID t) == tensor

/-- A step of a context begins: it opens a window with the scale it uses, or joins the one that is open (R358). -/
def Engine.winOpen (e : Engine) (t scale : Nat) : Engine :=
  match e.numWin t with
  | some w => e.setWin t (some { w with open_ := w.open_ + 1, merged := true })
  | none =>
    if e.numBound t && e.is (Fld.NUM_TCTRL_TRACK t) then e.setWin t (some ⟨0, 0, 0, 0, 0, 0, 0, scale, false, 1⟩) else e

/-- A window after one element: the scale and zero point it was stored with, its exact value, the stored code and the
flags of quantising it (R355). -/
def NumWin.add (w : NumWin) (f : Fmt) (s z : Nat) (x : NVal) (code fl : Nat) : NumWin :=
  let w := { w with
    clips := w.clips + bit (bitOf fl 4), unfs := w.unfs + bit (bitOf fl 1), flags := w.flags ||| (fl % 16) }
  match x with
  | .nan => w
  | .num _ _ =>
    let d := toF32 (x.sub (codeValue f code z (f32q s)).1)
    let acc := f32add w.acc (f32mul d.1 d.1).1
    { w with
      n := w.n + 1
      lo := if w.n = 0 then x.rat else min w.lo x.rat
      hi := if w.n = 0 then x.rat else max w.hi x.rat
      acc := acc.1 }

/-- A context gathers one element, when its window is open. -/
def Engine.winAdd (e : Engine) (t s z : Nat) (x : NVal) (code fl : Nat) : Engine :=
  match e.numWin t with
  | none => e
  | some w => { e with num := Tbl.set none e.num t (some (w.add (e.numFmt t) s z x code fl)) }

/-- What a crossing does (R357). -/
def Engine.winCross (e : Engine) (t : Nat) (w : NumWin) : Engine :=
  let p := paramsFromRange (e.numFmt t) w.lo w.hi
  let adapt := e.is (Fld.NUM_TCTRL_ADAPT t)
  if adapt && e.get (Fld.NUM_TCTRL_CLASS t) == 0 then
    (((e.put (Fld.NUM_TSCALE_SCALE t) p.1).put (Fld.NUM_TZP_ZP t) p.2).count (Reg.NUM_CNT 0)).evt Fld.NUM_EVT_ADAPTED
  else if adapt && e.is Fld.NUM_CFG_MODEL_ADAPT then
    let st := e.gft.learn.staged.filter fun x => x.1 != t
    let e := { e with gft := { e.gft with learn := { e.gft.learn with staged := st ++ [(t, p.1, p.2)] } } }
    (e.count (Reg.NUM_CNT 1)).evt Fld.NUM_EVT_STAGED
  else (e.count (Reg.NUM_CNT 2)).evt Fld.NUM_EVT_CROSSED

/-- The window crosses its threshold: both comparisons exact (R356). -/
def Engine.winCrosses (e : Engine) (t : Nat) (w : NumWin) (mse : Nat) : Bool :=
  let s := f32q w.scale
  let thr := f32v (e.get (Fld.NUM_TMSE_THR_MSE_THR t))
  (!thr.isNan && decide (thr.rat * s * s < (f32v mse).rat)) ||
    decide (e.get (Fld.NUM_TCLIP_THR_CLIP_THR t) * w.n < w.clips * 65536)

/-- A step of a context ends; with the last one the window closes (R355 to R358). -/
def Engine.winClose (e : Engine) (t : Nat) : Engine :=
  match e.numWin t with
  | none => e
  | some w =>
    if 1 < w.open_ then { e with num := Tbl.set none e.num t (some { w with open_ := w.open_ - 1 }) }
    else
      let e := (e.setWin t none).count (Reg.NUM_CNT 4)
      if w.n = 0 then e
      else
        let mse := (toF32 ((f32v w.acc).divBy (w.n : Rat))).1
        let e := ((e.put (Fld.NUM_TMSE_MSE t) mse).put (Fld.NUM_TLO_LO t) (toF32 (NVal.ofRat w.lo)).1).put
          (Fld.NUM_THI_HI t) (toF32 (NVal.ofRat w.hi)).1
        let e := ((e.wr (Reg.NUM_TN t) w.n).wr (Reg.NUM_TCLIPS t) (satCount 48 0 w.clips)).wr (Reg.NUM_TUNFS t) (satCount 48 0 w.unfs)
        let fl := Fld.NUM_TFLAGS_INX_UNF_SAT_NAN t
        let e := (e.put fl (e.get fl ||| w.flags)).put (Fld.NUM_TFLAGS_MERGED t) (bit w.merged)
        if w.merged then (e.count (Reg.NUM_CNT 3)).evt Fld.NUM_EVT_MERGED
        else if e.winCrosses t w mse then e.winCross t w
        else e

/-- A MODEL tensor written on the packet path: its window runs from one tally boundary to the next (R355). -/
def Engine.winPath (e : Engine) (t scale z : Nat) (x : NVal) (code fl : Nat) : Engine :=
  let e := if (e.numWin t).isSome then e else e.winOpen t scale
  e.winAdd t scale z x code fl

end Sys2Proof.Machine
end

