-- ==== Sys2Proof/Machine/Model.lean ====
section
/-!
DEFINITION. Model.lean: the sections of a model image and where a resident model's bytes lie (R579 to R581, R585).
-/
namespace Sys2Proof.Machine

/-- A section entry (Table GFT-2): its place in the section table, type, index, offset and length. -/
structure Sect where
  i : Nat
  typ : Nat
  idx : Nat
  off : Nat
  len : Nat
deriving DecidableEq, Repr

/-- The section table of an image. -/
def imageSects (im : Bytes) : List Sect :=
  (List.range (leAt im 6 2)).map fun i =>
    let o := 64 + 16 * i
    ⟨i, byteAt im o, byteAt im (o + 1), leAt im (o + 4) 4, leAt im (o + 8) 4⟩

/-- The section of a type and index. -/
def imageSect (im : Bytes) (typ idx : Nat) : Option Sect := (imageSects im).find? fun s => s.typ == typ && s.idx == idx

/-- A section's bytes in the image. -/
def sectBytes (im : Bytes) (s : Sect) : Bytes := slice im s.off s.len

/-- A model's section. -/
def Model.sect (m : Model) (typ idx : Nat) : Option Sect := imageSect m.image typ idx

/-- The resident model of an epoch: the live one or the one that retires (R585). -/
def Engine.modelOf (e : Engine) (epoch : Nat) : Option Model :=
  [e.gft.live, e.gft.retiring].findSome? fun m => m.bind fun m => if m.epoch = epoch then some m else none

/-- The model a packet is evaluated under (R31). -/
def Engine.modelFor (e : Engine) (p : Pkt) : Option Model := p.epoch.bind e.modelOf

/-- The first byte of the model/weights, orchard, sheaf and learning partitions (R716). -/
def Engine.partBase (e : Engine) (i : Nat) : Nat := bitsOf (e.rd Reg.GLB_PART_BASE) (8 * i + 7) (8 * i) * 2 ^ 20
/-- A partition's live size in bytes. -/
def Engine.partSize (e : Engine) (i : Nat) : Nat := bitsOf (e.rd Reg.GLB_PART_LIVE) (8 * i + 7) (8 * i) * 2 ^ 20

/-- The address of byte 0 of a model's MWBLOCK (R580). -/
def Engine.mwAddr (e : Engine) (m : Model) : Nat := e.partBase 3 + m.mwBase
/-- The address of a model's node 0. -/
def Engine.nodeAddr (e : Engine) (m : Model) : Nat := e.partBase 2 + 8 * m.nodeBase

/-- The KVDESC of an image without one: HIST_GEN 0, scales 1.0, zero points 0 (Table GFT-4). -/
def kvDefault : Bytes := natLE 4 0 ++ natLE 4 0x3F800000 ++ natLE 4 0x3F800000 ++ natLE 4 0

/-- A model's key–value descriptor. -/
def Model.kvdesc (m : Model) : Bytes := match m.sect 7 0 with | some s => sectBytes m.image s | none => kvDefault

/-- The tensor whose refs name a place of a section: the tracked entry's TENSOR_ID (R581, R353). -/
def Model.tensorAt (m : Model) (sect off : Nat) : Option Nat :=
  (m.sect 8 0).bind fun t =>
    let b := sectBytes m.image t
    ((List.range (leAt b 0 2)).find? fun i =>
      let o := 16 + 16 * i
      (List.range (byteAt b (o + 9))).any fun k =>
        let r := leAt b (o + 12) 4 + 12 * k
        leAt b r 2 == sect && leAt b (r + 4) 4 == off).map fun i => leAt b (16 + 16 * i) 2

/-- The tracking contexts bound to a model's history keys and values: those whose refs name KVDESC's scales (R353,
log entry 13). -/
def Engine.histCtx (e : Engine) (m : Model) : Option Nat × Option Nat :=
  match m.sect 7 0 with
  | none => (none, none)
  | some s => ((m.tensorAt s.i 4).bind e.ctxOf, (m.tensorAt s.i 8).bind e.ctxOf)

end Sys2Proof.Machine
end

