-- ==== Sys2Proof/Machine/Thresher.lean ====
section
/-!
DEFINITION. Thresher.lean: the fixed-logic header parser and the parse vector (R234 to R244, R249).
-/
namespace Sys2Proof.Machine

/-! Bits of PFLAGS (Table THR-6). -/

def pfLLC : Nat := 0
def pfVTAG : Nat := 1
def pfEXP_FOREIGN : Nat := 2
def pfMPLS : Nat := 3
def pfIPV4 : Nat := 4
def pfIPV6 : Nat := 5
def pfIPV4_OPT : Nat := 6
def pfIPV6_EXT : Nat := 7
def pfTCP : Nat := 8
def pfUDP : Nat := 9
def pfICMP : Nat := 10
def pfTCP_OPT : Nat := 11
def pfVXLAN : Nat := 12
def pfGENEVE : Nat := 13
def pfGENEVE_OPT : Nat := 14
def pfINNER_IPV4 : Nat := 15
def pfINNER_IPV6 : Nat := 16
def pfINNER_TCP : Nat := 17
def pfINNER_UDP : Nat := 18
def pfROCE : Nat := 19
def pfROCE_CNP : Nat := 20
def pfROCE_OPAQUE : Nat := 21
def pfPTP : Nat := 22
def pfPTP_EVENT : Nat := 23
def pfNESTED : Nat := 24
def pfWINDOW_END : Nat := 25
def pfL4_NONE : Nat := 26
def pfTTL_ZERO : Nat := 27
def pfDMAC_GROUP : Nat := 28
def pfMALFORMED : Nat := 29
def pfSLOW : Nat := 30

/-- A parse as it stands: the bytes seen, what the vector holds so far, what was found. -/
structure Parse where
  /-- The frame's data bytes that have been received, without the FCS. -/
  d : Bytes
  /-- The frame has ended. -/
  ended : Bool
  pv : Bytes
  pflags : Nat
  tags : Nat
  labels : Nat
  exts : Nat
  /-- Malformations in parse order (Table THR-8). -/
  mals : List Nat
  /-- The slow-path reason found, or 0 (Table THR-7). -/
  slow : Nat
  offEnd : Nat
  /-- The end of the outermost IP datagram by its length field (L3_SHORT of Table ITK-2). -/
  l3End : Option Nat
  /-- The parse needs bytes that have not been received yet. -/
  more : Bool
deriving DecidableEq, Repr

/-- A step of the parse: it goes on, or it has ended. -/
abbrev PRes := Except Parse Parse

/-- The parse before its first header: absent offsets read 0xFFFF (R240). -/
def Parse.start (d : Bytes) (ended : Bool) : Parse :=
  ⟨d, ended, patch (List.replicate 224 0) 8 (List.replicate 16 255), 0, 0, 0, 0, [], 0, 0, none, false⟩

/-- Bytes in network order at an offset of the frame. -/
def Parse.u (p : Parse) (o n : Nat) : Nat := beAt p.d o n
/-- The vector with a little-endian field. -/
def Parse.put (p : Parse) (o n v : Nat) : Parse := { p with pv := patch p.pv o (natLE n v) }
/-- The vector with a byte string of the frame. -/
def Parse.putB (p : Parse) (o src n : Nat) : Parse := { p with pv := patch p.pv o (slice p.d src n) }
/-- A flag of PFLAGS set. -/
def Parse.flag (p : Parse) (b : Nat) : Parse := { p with pflags := p.pflags ||| 2 ^ b }
/-- A flag set when a condition holds. -/
def Parse.flagIf (p : Parse) (c : Bool) (b : Nat) : Parse := if c then p.flag b else p
/-- Offset field `i` of the vector (Table THR-5). -/
def Parse.off (p : Parse) (i v : Nat) : Parse := p.put (8 + 2 * i) 2 v
/-- A malformation found while parsing continues (R242). -/
def Parse.note (p : Parse) (m : Nat) : Parse := { p with mals := p.mals ++ [m] }
/-- The parse ends at an offset. -/
def Parse.done (p : Parse) (o : Nat) : PRes := .error { p with offEnd := o }
/-- A malformation ends the parse at its header (R242). -/
def Parse.mal (p : Parse) (m o : Nat) : PRes := (p.note m).done o
/-- A slow-path reason ends the parse at the header it refuses (R242). -/
def Parse.refuse (p : Parse) (r o : Nat) : PRes := Parse.done { p with slow := r } o

/-- How a header of `n` bytes at `o` fits, in the order of R235. -/
inductive Fit where
  | ok | trunc | window | more
deriving DecidableEq, Repr

/-- R235: past an enclosing length TRUNC_HDR; past the data of a frame that ends within 256 bytes TRUNC_HDR; past byte
255 WINDOW_END; else, in a frame still being received, more bytes may be needed. -/
def Parse.fit (p : Parse) (o n lim : Nat) : Fit :=
  if lim < o + n then .trunc
  else if p.ended ∧ p.d.length ≤ 256 ∧ p.d.length < o + n then .trunc
  else if 256 < o + n then .window
  else if p.d.length < o + n then .more
  else .ok

/-- A header, or a part of one whose header starts at `at_`, must fit. -/
def Parse.needAt (p : Parse) (o n lim at_ : Nat) : PRes :=
  match p.fit o n lim with
  | .ok => .ok p
  | .trunc => p.mal 1 at_
  | .window => (p.flag pfWINDOW_END).done at_
  | .more => .error { p with more := true }

/-- A header must fit. -/
def Parse.need (p : Parse) (o n lim : Nat) : PRes := p.needAt o n lim o

/-- Where the fields of an IP header go in the vector: SRC, DST, PROTO, TCLASS, TTL and the offset's index. -/
def ipAt (inner : Bool) : Nat × Nat × Nat × Nat × Nat × Nat :=
  if inner then (136, 152, 168, 169, 170, 4) else (60, 76, 92, 93, 94, 0)

/-- PTP: the 34-byte header of IEEE 1588 (Table THR-5). -/
def Parse.ptp (p : Parse) (o lim : Nat) : PRes := do
  let p ← p.need o 34 lim
  if p.u (o + 1) 1 % 16 ≠ 2 then p.mal 12 o
  else
    let t := p.u o 1
    let p := ((p.put 176 1 t).put 177 1 (p.u (o + 1) 1 % 16)).put 178 1 (p.u (o + 4) 1)
    let p := ((p.put 180 2 (p.u (o + 6) 2)).put 184 8 (p.u (o + 8) 8)).putB 192 (o + 20) 10
    let p := ((p.put 202 2 (p.u (o + 30) 2)).off 6 o).flag pfPTP
    (p.flagIf (decide (t % 16 ≤ 3)) pfPTP_EVENT).done (o + 34)

/-- The extended headers after a BTH opcode (Table THR-3): 1 ImmDt, 2 IETH, 3 RETH, 4 AETH, 5 AtomicETH,
6 AtomicAckETH, 7 DETH, 8 reserved bytes; `none` for any other opcode. -/
def roceHeaders (op : Nat) : Option (List Nat) :=
  if op ∈ [0x00, 0x01, 0x02, 0x04, 0x07, 0x08, 0x0E] then some []
  else if op ∈ [0x03, 0x05, 0x09] then some [1]
  else if op ∈ [0x06, 0x0A, 0x0C] then some [3]
  else if op = 0x0B then some [3, 1]
  else if op ∈ [0x0D, 0x0F, 0x10, 0x11] then some [4]
  else if op = 0x12 then some [4, 6]
  else if op ∈ [0x13, 0x14] then some [5]
  else if op ∈ [0x16, 0x17] then some [2]
  else if op = 0x64 then some [7]
  else if op = 0x65 then some [7, 1]
  else if op = 0x81 then some [8]
  else none

/-- The length of an extended header (R238). -/
def roceLen (h : Nat) : Nat := [0, 4, 4, 16, 4, 28, 8, 8, 16].getD h 0

/-- One extended header after the BTH. -/
def Parse.roceExt (p : Parse) (o lim h : Nat) : PRes := do
  let p ← p.need o (roceLen h) lim
  if h = 3 then .ok (((p.put 188 8 (p.u o 8)).put 196 4 (p.u (o + 8) 4)).put 200 4 (p.u (o + 12) 4))
  else if h = 4 then .ok (p.put 204 4 (p.u o 4))
  else if h = 8 then .ok (p.flag pfROCE_CNP)
  else .ok p

/-- The extended headers in turn. -/
def Parse.roceExts (p : Parse) (o lim : Nat) (hs : List Nat) : PRes :=
  match hs with
  | [] => p.done o
  | h :: r =>
    match p.roceExt o lim h with
    | .ok q => q.roceExts (o + roceLen h) lim r
    | .error q => .error q

/-- RoCEv2: the 12-byte BTH and its extended headers (R238). -/
def Parse.roce (p : Parse) (o lim : Nat) : PRes := do
  let p ← p.need o 12 lim
  let op := p.u o 1
  let q := p.u (o + 4) 4
  let s := p.u (o + 8) 4
  let p := ((p.put 176 1 op).put 177 1 (p.u (o + 1) 1)).put 178 2 (p.u (o + 2) 2)
  let p := (p.put 180 4 (q % 2 ^ 24 + 2 ^ 30 * (q >>> 30))).put 184 4 (s % 2 ^ 24 + 2 ^ 31 * (s >>> 31))
  let p := (p.off 6 o).flag pfROCE
  match roceHeaders op with
  | none => (p.flag pfROCE_OPAQUE).done (o + 12)
  | some hs => p.roceExts (o + 12) lim hs

/-- What UDP's destination port selects next (R236): the caller gives the tunnels' parser. -/
def Parse.afterUdp (p : Parse) (inner : Bool) (dp o lim : Nat) (tunnel : Parse → Nat → PRes) : PRes :=
  if dp = 4789 ∨ dp = 6081 then (if inner then (p.flag pfNESTED).done o else tunnel p dp)
  else if dp = 4791 then p.roce o lim
  else if dp = 319 ∨ dp = 320 then p.ptp o lim
  else p.done o

/-- TCP (Table THR-1). -/
def Parse.tcp (p : Parse) (inner : Bool) (o lim : Nat) : PRes := do
  let p0 ← p.need o 20 lim
  let doff := p0.u (o + 12) 1 / 16
  if doff < 5 then p0.mal 8 o
  else
    let p := if inner then ((p0.put 172 2 (p0.u o 2)).put 174 2 (p0.u (o + 2) 2)).flag pfINNER_TCP
      else (((p0.put 100 2 (p0.u o 2)).put 102 2 (p0.u (o + 2) 2)).put 104 2 (p0.u (o + 12) 2 % 512)).flag pfTCP
    let p := if inner then p.off 5 o else ((p.put 108 4 (p0.u (o + 4) 4)).put 112 4 (p0.u (o + 8) 4)).off 1 o
    if doff = 5 then p.done (o + 20)
    else
      match p.fit (o + 20) (4 * doff - 20) lim with
      | .ok => (p.flag pfTCP_OPT).done (o + 4 * doff)
      | .trunc => p0.mal 1 o
      | .window => ((p.flag pfTCP_OPT).flag pfWINDOW_END).done (o + 20)
      | .more => .error { p0 with more := true }

/-- Layer 4 after an IP header: `lim` is the innermost enclosing end, `ipEnd` that of this IP datagram. -/
def Parse.l4 (p : Parse) (inner : Bool) (proto o lim ipEnd : Nat) (tunnel : Parse → Nat → Nat → PRes) : PRes :=
  if proto = 6 then p.tcp inner o lim
  else if proto = 17 then do
    let p ← p.need o 8 lim
    let dp := p.u (o + 2) 2
    let len := p.u (o + 4) 2
    if len < 8 ∨ ipEnd < o + len then p.mal 9 o
    else
      let q := if inner then (((p.put 172 2 (p.u o 2)).put 174 2 dp).off 5 o).flag pfINNER_UDP
        else ((((p.put 100 2 (p.u o 2)).put 102 2 dp).put 106 2 len).off 1 o).flag pfUDP
      let ulim := min lim (o + len)
      q.afterUdp inner dp (o + 8) ulim fun q dp => tunnel q dp ulim
  else do
    let p ← p.need o 4 lim
    ((p.off (if inner then 5 else 1) o).put 104 2 (p.u o 2)).flag pfICMP |>.done (o + 4)

/-- The ones' complement sum of `n` 16-bit words, folded. -/
def onesSum (bs : Bytes) (n : Nat) : Nat :=
  let s := ((List.range n).map fun i => beAt bs (2 * i) 2).sum
  let s := s % 65536 + s / 65536
  s % 65536 + s / 65536

/-- IPv4 (Table THR-1). -/
def Parse.ipv4 (p : Parse) (inner : Bool) (o lim : Nat) (tunnel : Parse → Nat → Nat → Nat → PRes) : PRes := do
  let p ← p.need o 1 lim
  let b := p.u o 1
  if b / 16 ≠ 4 then p.mal 3 o
  else if b % 16 < 5 then p.mal 4 o
  else do
    let hl := 4 * (b % 16)
    let p ← p.need o hl lim
    let tot := p.u (o + 2) 2
    let p := if inner ∨ p.l3End.isSome then p else { p with l3End := some (o + tot) }
    if tot < hl then p.mal 5 o
    else
      let p := if onesSum (slice p.d o hl) (hl / 2) = 65535 then p else p.note 6
      let (src, dst, pr, tc, tl, oi) := ipAt inner
      let proto := p.u (o + 9) 1
      let ttl := p.u (o + 8) 1
      let p := ((p.putB src (o + 12) 4).putB dst (o + 16) 4).put pr 1 proto
      let p := ((p.put tc 1 (p.u (o + 1) 1)).put tl 1 ttl).off oi o
      let p := if inner then p.flag pfINNER_IPV4
        else ((p.put 96 4 (p.u (o + 4) 2)).flagIf (ttl == 0) pfTTL_ZERO).flag pfIPV4
      let p := p.flagIf (decide (20 < hl)) pfIPV4_OPT
      if p.u (o + 6) 2 % 0x4000 ≠ 0 then p.refuse 1 (o + hl)
      else if ¬ (proto = 1 ∨ proto = 6 ∨ proto = 17) then p.refuse 4 (o + hl)
      else p.l4 inner proto (o + hl) (min lim (o + tot)) (o + tot) fun q dp ulim => tunnel q dp (o + hl + 8) ulim

/-- The IPv6 extension headers (R235, Table THR-1): one that lies whole in the data but beyond the payload length is BAD_IP_LEN, and
one that does not lie whole in the data is judged by R235. `p0` is the parse before the IPv6 header, `n` how many were taken. -/
def Parse.exts6 (p p0 : Parse) (inner : Bool) (hdr o lim payEnd nh n fuel : Nat) : Except Parse (Parse × Nat × Nat) :=
  match fuel with
  | 0 => .ok (p, nh, o)
  | fuel + 1 =>
    let pr := (ipAt inner).2.2.1
    let named (q : Parse) : Parse := q.put pr 1 nh
    if ¬ (nh = 0 ∨ nh = 43 ∨ nh = 60) then .ok (p, nh, o)
    else
      let bad := nh = 0 ∧ n ≠ 0
      if n = 2 then .error { (if bad then (named p).note 7 else named p) with slow := 8, offEnd := o }
      else if bad then .error { (named p).note 7 with offEnd := o }
      else
        let h := named p
        let hl := if h.fit o 2 lim = .ok then 8 * (p.u (o + 1) 1 + 1) else 2
        match h.fit o hl lim with
          | .trunc => .error { h.note 1 with offEnd := o }
          | .window => .error (if payEnd < o + hl then { h.note 1 with offEnd := o } else { h.flag pfWINDOW_END with offEnd := o })
          | .more => .error { h with more := true, offEnd := o }
          | .ok =>
            if payEnd < o + hl then .error { p0.note 5 with offEnd := hdr }
            else
              let q := if inner then p else { p with exts := p.exts + 1 }
              (q.flag pfIPV6_EXT).exts6 p0 inner hdr (o + hl) lim payEnd (p.u o 1) (n + 1) fuel

/-- IPv6 (Table THR-1). -/
def Parse.ipv6 (p : Parse) (inner : Bool) (o lim : Nat) (tunnel : Parse → Nat → Nat → Nat → PRes) : PRes := do
  let p ← p.need o 1 lim
  if p.u o 1 / 16 ≠ 6 then p.mal 3 o
  else do
    let p0 ← p.need o 40 lim
    let payEnd := o + 40 + p0.u (o + 4) 2
    let p0 := if inner ∨ p0.l3End.isSome then p0 else { p0 with l3End := some payEnd }
    let w := p0.u o 4
    let hop := p0.u (o + 7) 1
    let (src, dst, pr, tc, tl, oi) := ipAt inner
    let p := ((p0.putB src (o + 8) 16).putB dst (o + 24) 16).put tc 1 (bitsOf w 27 20)
    let p := (p.put tl 1 hop).off oi o
    let p := if inner then p.flag pfINNER_IPV6
      else ((p.put 96 4 (w % 2 ^ 20)).flagIf (hop == 0) pfTTL_ZERO).flag pfIPV6
    let (p, nh, x) ← p.exts6 p0 inner o (o + 40) lim payEnd (p0.u (o + 6) 1) 0 3
    let p := p.put pr 1 nh
    if nh = 44 then p.refuse 2 x
    else if nh = 59 then (p.flag pfL4_NONE).done x
    else if ¬ (nh = 6 ∨ nh = 17 ∨ nh = 58) then p.refuse 4 x
    else p.l4 inner nh x (min lim payEnd) payEnd fun q dp ulim => tunnel q dp (x + 8) ulim

/-- MPLS labels and the header that the first nibble after the stack selects. -/
def Parse.mpls (p : Parse) (o lim i fuel : Nat) (ip : Parse → Bool → Nat → PRes) : PRes :=
  match fuel with
  | 0 => p.refuse 7 o
  | fuel + 1 => do
    let p ← p.need o 4 lim
    let v := p.u o 4
    let p := ({ p.put (44 + 4 * i) 4 v with labels := p.labels + 1 }).flag pfMPLS
    if bitOf v 8 then do
      let p ← p.need (o + 4) 1 lim
      let nib := p.u (o + 4) 1 / 16
      if nib = 4 then ip p true (o + 4)
      else if nib = 6 then ip p false (o + 4)
      else p.refuse 9 (o + 4)
    else p.mpls (o + 4) lim (i + 1) fuel ip

/-- The verdict tag's fields into the vector (Table THR-4); `none` is BAD_VTAG. -/
def Parse.vtag (p : Parse) (b : Nat) : Option Parse :=
  let v := p.u (b + 2) 4
  let m := p.u (b + 12) 2
  if p.u (b + 1) 1 ≠ 1 ∨ v % 512 ≠ 0 ∨ m % 4 ≠ 0 then none
  else
    let p := ((p.put 208 2 (v >>> 20)).put 210 1 (bitsOf v 19 18 + 4 * bitsOf v 17 15)).put 211 1 (bitsOf v 14 9)
    some ((((p.put 212 4 (p.u (b + 6) 4)).put 216 2 (p.u (b + 10) 2)).put 218 2 (m / 4)).flag pfVTAG)

/-- The EtherType at `pos` and what it introduces: `p0` is the parse before the layer's Ethernet header at `eth`,
`tags` the tags taken, `q` whether an 802.1Q tag was, `vt` whether a verdict tag was. -/
def Parse.l2 (p p0 : Parse) (inner : Bool) (eth pos lim tags : Nat) (q vt : Bool) (fuel : Nat)
    (ip : Parse → Bool → Nat → PRes) : PRes :=
  match fuel with
  | 0 => p.done pos
  | fuel + 1 =>
    let et := p.u pos 2
    let o := pos + 2
    let e := p.put (if inner then 132 else 36) 2 et
    if et = 0x8100 ∨ et = 0x88A8 then
      let bad := (et = 0x88A8 ∧ q = true) ∨ vt = true
      if tags = 2 then (if bad then e.note 14 else e).refuse 6 o
      else if bad then e.mal 14 o
      else do
        let e ← e.need o 4 lim
        let tci := e.u o 2
        let e := if inner then (if tags = 0 then e.put 134 2 tci else e)
          else { e.put (38 + 2 * tags) 2 tci with tags := e.tags + 1 }
        e.l2 p0 inner eth (pos + 4) lim (tags + 1) (et == 0x8100) vt fuel ip
    else if et = 0x88B5 ∧ inner = false then do
      let e ← e.need o 1 lim
      if e.u o 1 ≠ 0x4D then (e.flag pfEXP_FOREIGN).done o
      else if vt then e.refuse 11 o
      else do
        let e ← e.need o 16 lim
        match e.vtag o with
        | none => e.mal 13 o
        | some e => e.l2 p0 inner eth (o + 14) lim tags q true fuel ip
    else if (et = 0x8847 ∨ et = 0x8848) ∧ inner = false then e.mpls o lim 0 4 ip
    else if et = 0x0800 then ip e true o
    else if et = 0x86DD then ip e false o
    else if et = 0x88F7 then e.ptp o lim
    else if et ≤ 0x05DC then (e.flag pfLLC).done o
    else if et ≤ 0x05FF then { p0 with mals := p.mals }.mal 2 eth
    else e.refuse 3 o

/-- An Ethernet header and what follows it. -/
def Parse.ether (p0 : Parse) (inner : Bool) (o lim : Nat) (ip : Parse → Bool → Nat → PRes) : PRes := do
  let p ← p0.need o 14 lim
  let p := (p.putB (if inner then 120 else 24) o 6).putB (if inner then 126 else 30) (o + 6) 6
  let p := if inner then p.off 3 o else p.flagIf (p.u o 1 % 2 == 1) pfDMAC_GROUP
  let p := if p.u (o + 6) 1 % 2 = 1 then p.note 15 else p
  p.l2 p0 inner o (o + 12) lim 0 false false 5 ip

/-- No tunnel is parsed inside a tunnel (R237). -/
def noTunnel (p : Parse) (_dp o _lim : Nat) : PRes := p.done o

/-- The inner IP headers. -/
def innerIp (lim : Nat) (p : Parse) (v4 : Bool) (o : Nat) : PRes :=
  if v4 then p.ipv4 true o lim noTunnel else p.ipv6 true o lim noTunnel

/-- VXLAN and GENEVE on the outer layer (R237). -/
def tunnel (p0 : Parse) (dp o lim : Nat) : PRes := do
  let p0 ← p0.need o 8 lim
  if dp = 4789 then
    if ¬ bitOf (p0.u o 1) 3 then p0.mal 10 o
    else (((p0.put 116 4 (p0.u (o + 4) 3)).off 2 o).flag pfVXLAN).ether true (o + 8) lim (innerIp lim)
  else if p0.u o 1 / 64 ≠ 0 then p0.mal 11 o
  else
    let ol := 4 * (p0.u o 1 % 64)
    let pt := p0.u (o + 2) 2
    let p := ((p0.put 116 4 (p0.u (o + 4) 3)).off 2 o).flag pfGENEVE
    let p := p.flagIf (decide (ol ≠ 0)) pfGENEVE_OPT
    let x := o + 8 + ol
    match if ol = 0 then Fit.ok else p.fit (o + 8) ol lim with
    | .trunc => p0.mal 1 o
    | .window => (p.flag pfWINDOW_END).done (o + 8)
    | .more => .error { p0 with more := true }
    | .ok =>
      if pt = 0x6558 then p.ether true x lim (innerIp lim)
      else if pt = 0x0800 then innerIp lim (p.put 132 2 pt) true x
      else if pt = 0x86DD then innerIp lim (p.put 132 2 pt) false x
      else p.refuse 10 x

/-- The outer IP headers. -/
def outerIp (p : Parse) (v4 : Bool) (o : Nat) : PRes :=
  if v4 then p.ipv4 false o (2 ^ 32) tunnel else p.ipv6 false o (2 ^ 32) tunnel

/-- The whole parse of a frame's data bytes (R234). -/
def parseFrame (d : Bytes) (ended : Bool) : Parse :=
  match (Parse.start d ended).ether false 0 (2 ^ 32) outerIp with
  | .ok p => p
  | .error p => p

/-- Severity of an outcome: DROP above SLOW above MARK above OK (R241), as OUTCOME codes them. -/
def malOutcome (act kind : Nat) : Nat :=
  match bitsOf act (2 * kind + 1) (2 * kind) with
  | 0 => 3
  | 1 => 2
  | _ => 1

/-- OUTCOME, MAL_KIND and SLOW_REASON of a parse under the actions of THR_MAL_ACT (R241). -/
def Parse.outcome (p : Parse) (act : Nat) : Nat × Nat × Nat :=
  let m := p.mals.foldl (fun m k => max m (malOutcome act k)) 0
  let s := if p.slow = 0 then 0 else 2
  let o := max m s
  let kind := if m = o ∧ m ≠ 0 then (p.mals.find? fun k => malOutcome act k == o).getD 0 else p.mals.headD 0
  (o, kind, if p.slow ≠ 0 then p.slow else if o = 2 then 12 else 0)

/-- The parse vector (Table THR-5). -/
def Parse.vector (p : Parse) (act : Nat) : Bytes :=
  let (o, kind, slow) := p.outcome act
  let fl := p.pflags ||| (2 ^ pfMALFORMED * bit (!p.mals.isEmpty)) ||| (2 ^ pfSLOW * bit (o == 2))
  let v := patch p.pv 0 (natLE 4 fl ++ natLE 1 o ++ natLE 1 kind ++ natLE 1 slow ++
    natLE 1 (p.tags + 4 * p.labels + 32 * p.exts))
  patch v 22 (natLE 2 p.offEnd)

end Sys2Proof.Machine
end

