-- ==== Sys2Proof/Machine/Path.lean ====
section
/-!
DEFINITION. Path.lean: frames in cells, paths through the cascade table, causes and grades, verdict records
(R22 to R32, R228 to R233, R267 to R279, R532 to R540).
-/
namespace Sys2Proof.Machine

/-! ### Frames and their cells (R24, R230, R231, R536) -/

/-- A frame by its identity. -/
def Engine.pkt (e : Engine) (id : Nat) : Option Pkt := e.pkts.find? fun p => p.id == id
/-- The engine with one frame changed. -/
def Engine.setPkt (e : Engine) (id : Nat) (f : Pkt → Pkt) : Engine :=
  { e with pkts := e.pkts.map fun p => if p.id = id then f p else p }
/-- The engine without a frame: its cells are free. -/
def Engine.dropPkt (e : Engine) (id : Nat) : Engine := { e with pkts := e.pkts.filter fun p => p.id != id }
/-- Cells a frame holds: its earmark during reception, then those it is stored in (R230). -/
def Pkt.cells (p : Pkt) : Nat := if p.rx then p.need else ceilDiv p.data.length 256
/-- Earmarked and stored cells, those of EMIT frames among them (R231, R563). -/
def Engine.cellsUsed (e : Engine) : Nat := (e.pkts.map (·.cells)).sum + (e.slc.emits.map (·.cells)).sum
/-- Free cells. -/
def Engine.cellsFree (e : Engine) : Nat := e.get Fld.ITK_CELLS_TOTAL - e.cellsUsed

/-- A frame has failed (R225). -/
def Pkt.failed (p : Pkt) : Bool := match p.status with | some s => s != 0 | none => false
/-- A frame's status is known and GOOD. -/
def Pkt.good (p : Pkt) : Bool := p.status == some 0
/-- A frame is on a path. -/
def Pkt.onPath (p : Pkt) : Bool := p.handed && !p.byp && !p.ended

/-- Cells are released once the path has ended, reception has ended, a failure has been dealt with, and neither the
sluice nor the garner holds the frame (R24, R536). -/
def Engine.settle (e : Engine) (id : Nat) : Engine :=
  match e.pkt id with
  | none => e
  | some p => if p.ended && !p.rx && !p.inTx && !p.inSlow && (!p.failed || p.failDone) then e.dropPkt id else e

/-- Arrival order: by intake timestamp, then port, then order of reception (R228). -/
def Pkt.before (p q : Pkt) : Bool :=
  decide (p.ts < q.ts) || (p.ts == q.ts && (decide (p.port < q.port) || (p.port == q.port && decide (p.id < q.id))))

/-! ### Rates (R266, R278, R377, R692) -/

/-- A unit does one operation: at most `limit` in a core cycle, or, while THERMAL throttles, one in `every` cycles. -/
def Engine.takeRate (e : Engine) (unit limit every : Nat) : Option Engine :=
  if e.is Fld.ERR_BYPASS_STAT_THROTTLE then
    let l := Tbl.get 0 e.lastOp unit
    if l = 0 ∨ l + every ≤ e.cyc + 1 then some { e with lastOp := Tbl.set 0 e.lastOp unit (e.cyc + 1) } else none
  else
    let n := Tbl.get 0 e.used unit
    if n < limit then some { e with used := Tbl.set 0 e.used unit (n + 1), lastOp := Tbl.set 0 e.lastOp unit (e.cyc + 1) } else none

/-! ### Tables (R256 to R269) -/

/-- The empty form of byte `i` of a layout image: selectors 127, zero default (R285). -/
def layoutEmpty (i : Nat) : Byte := if i % 64 < 40 then 127 else 0
/-- The empty form of byte `i` of a cascade entry: kind INVALID (R285). -/
def entryEmpty (i : Nat) : Byte := if i % 8 = 0 then 15 else 0

/-- The byte spaces of a bank: 0 rules, 1 ranges, 2 layouts, 3 cascade, 4 starts (Table WNW-4). -/
def Bank.space (b : Bank) (t : Nat) : Tbl Byte :=
  match t with
  | 0 => b.rules
  | 1 => b.ranges
  | 2 => b.layouts
  | 3 => b.entries
  | _ => b.starts
/-- The empty form of a byte of a space. -/
def spaceEmpty (t i : Nat) : Byte := if t = 2 then layoutEmpty i else if t = 3 then entryEmpty i else 0
/-- Item size of a table. -/
def itemSize (t : Nat) : Nat := [192, 8, 64, 8, 2].getD t 8
/-- Items of a table. -/
def tableItems (t : Nat) : Nat := [16384, 32768, 8, 1024, 32].getD t 0
/-- An item's bytes. -/
def Bank.item (b : Bank) (t i : Nat) : Bytes :=
  (List.range (itemSize t)).map fun j =>
    let a := i * itemSize t + j
    Tbl.get (spaceEmpty t a) (b.space t) a
/-- A bank with a space replaced. -/
def Bank.setSpace (b : Bank) (t : Nat) (s : Tbl Byte) : Bank :=
  match t with
  | 0 => { b with rules := s }
  | 1 => { b with ranges := s }
  | 2 => { b with layouts := s }
  | 3 => { b with entries := s }
  | _ => { b with starts := s }
/-- A bank with an item written; the whole write cures a poisoned item (R684). -/
def Bank.writeItem (b : Bank) (t i : Nat) (bs : Bytes) : Bank :=
  let s := (List.range (itemSize t)).foldl (fun s j =>
    let a := i * itemSize t + j
    Tbl.set (spaceEmpty t a) s a (bs.getD j 0)) (b.space t)
  { b.setSpace t s with bad := b.bad.filter fun x => x != (t, i) }
/-- A cascade entry as a number. -/
def Bank.entry (b : Bank) (i : Nat) : Nat := leNat (b.item 3 i)
/-- A start entry's index. -/
def Bank.start (b : Bank) (port : Nat) : Nat := leNat (b.item 4 port) % 1024

/-- KIND, NEXT_MODE, SEL, SHIFT, WIDTH, NEXT and ARG of a cascade entry (Table CSC-1). -/
def entKind (x : Nat) : Nat := bitsOf x 3 0
def entMode (x : Nat) : Nat := bitsOf x 5 4
def entSel (x : Nat) : Nat := bitsOf x 9 6
def entShift (x : Nat) : Nat := bitsOf x 14 10
def entWidth (x : Nat) : Nat := bitsOf x 18 15
def entNext (x : Nat) : Nat := bitsOf x 31 22
def entArg (x : Nat) : Nat := bitsOf x 63 32

/-- The bank a packet's generation is in (R257, R258). -/
def Engine.bankOf (e : Engine) (p : Pkt) : Bank :=
  if p.gen ≠ 0 ∧ p.gen = e.rd Reg.WNW_GEN then e.tab.live else e.tab.shadow

/-- A read of a table item by the data path: whether it is poisoned (Table ERR-1, m = 5). -/
def Engine.tableRead (e : Engine) (p : Pkt) (t i : Nat) : Bool × Engine :=
  let (x, e) := e.takeInject 5 .clean
  if (t, i) ∈ (e.bankOf p).bad then (true, e.memUe 5 0 false)
  else match x with
    | .ce => (false, e.memCe 5 0)
    | .ue =>
      let mark (b : Bank) : Bank := { b with bad := b.bad ++ [(t, i)] }
      let tab := if p.gen ≠ 0 ∧ p.gen = e.rd Reg.WNW_GEN then { e.tab with live := mark e.tab.live }
        else { e.tab with shadow := mark e.tab.shadow }
      (true, Engine.memUe { e with tab := tab } 5 0 false)
    | _ => (false, e)

/-! ### Grades (R27, R28, Table HIF-10) -/

def flTRUNC : Nat := 0
def flSEQ_FALLBACK : Nat := 1
def flJOIN_BUDGET : Nat := 2
def flBYPASS : Nat := 3
def flDOMAIN : Nat := 4
def flMIXED_EPOCH : Nat := 5
def flTIME_SUSPECT : Nat := 6
def flNEW_FLOW : Nat := 7
def flREMOTE_HOME : Nat := 8
def flMALFORMED_MARK : Nat := 9
def flPATH_LIMIT : Nat := 10
def flNUM_SAT : Nat := 11
def flNUM_NAN : Nat := 12
def flFRAME_FAIL : Nat := 13

/-- A flag set on a packet. -/
def Pkt.flag (p : Pkt) (b : Nat) : Pkt := { p with flags := p.flags ||| 2 ^ b }
/-- A flag set when a condition holds. -/
def Pkt.flagIf (p : Pkt) (c : Bool) (b : Nat) : Pkt := if c then p.flag b else p
/-- SAT and NAN of narrowings reach the verdict's flags (R345). -/
def Pkt.numFlags (p : Pkt) (fl : Nat) : Pkt := (p.flagIf (bitOf fl 2) flNUM_SAT).flagIf (bitOf fl 3) flNUM_NAN

/-- The most degraded grade that the causes imply, as coded in Table HIF-9 (R28). -/
def gradeOf (fl : Nat) : Nat :=
  if bitOf fl flBYPASS || bitOf fl flDOMAIN then 5
  else if bitOf fl flSEQ_FALLBACK || bitOf fl flJOIN_BUDGET then 2
  else if bitOf fl flTRUNC then 1
  else 0

/-! ### Steps -/

/-- A result field (Table CSC-2); one that no step has set reads zero (R269). -/
def Pkt.result (p : Pkt) (sel : Nat) : Nat :=
  let pv (off n : Nat) := if p.parsed then leAt p.pv off n else 0
  match sel with
  | 1 => pv 4 1 % 4
  | 2 => p.cls
  | 3 => p.col
  | 4 => p.que
  | 5 => pv 0 4
  | 6 => pv 5 1
  | 7 => pv 6 1
  | 8 => p.port
  | 9 => p.shfField
  | 10 => p.bucket
  | 11 => bit p.seq
  | 12 => gradeOf p.flags
  | 13 => p.fhash
  | 14 => p.steps
  | 15 => pv 208 2 % 2 ^ 12
  | _ => 0

/-- The packet's entry under its generation. -/
def Engine.entryOf (e : Engine) (p : Pkt) : Nat := (e.bankOf p).entry p.entry

/-- A holder stops holding its flow, and stops waiting for one or for room: the flow goes to the next (R305). A promotion that its
fetch asked for goes on without it (R320). -/
def Engine.releaseFlow (e : Engine) (h : Holder) : Engine :=
  { e with shf := { e.shf with
    holds := e.shf.holds.filter fun x => x.2 != h
    waits := e.shf.waits.filter fun x => x.2.1 != h
    needs := e.shf.needs.filter fun n => n.promote || n.who != h } }

/-- The path of a packet ends: it holds no flow and no generation any more, and its cells go as R24 says. -/
def Engine.endPath (e : Engine) (id : Nat) : Engine :=
  ((e.setPkt id fun p => { p with ended := true, begun := none, why := 0 }).releaseFlow (.pkt id)).settle id

/-- After a step that does not end the path, the next entry (R268); END ends the path (R272). -/
def Engine.advance (e : Engine) (id : Nat) : Engine :=
  match e.pkt id with
  | none => e
  | some p =>
    let x := e.entryOf p
    let next :=
      if entMode x = 1 then
        (entNext x + (p.result (entSel x) >>> entShift x) % 2 ^ entWidth x) % 1024
      else entNext x
    if entMode x = 2 then e.endPath id
    else e.setPkt id fun p => { p with entry := next, begun := none, why := 0 }

/-- The step waits, with its reason (Table GLN-4). -/
def Engine.wait (e : Engine) (id why : Nat) : Engine := e.setPkt id fun p => { p with why := why }

/-- The path ends at a poisoned table entry as DROP, with no verdict (Table ERR-2 row 13). -/
def Engine.tableError (e : Engine) (p : Pkt) : Engine :=
  ((e.poisoned 13 0 (e.pktRef p.ts)).count (Reg.ERR_CNT 8)).endPath p.id

/-- Dispatches the packet's step when it is of kind `kind`: its first arrival counts the step (R278, R279); a step that
waits is taken up again. A frame known to have failed runs no further step (R534). -/
def Engine.dispatch (e : Engine) (id kind : Nat) (f : Pkt → Nat → Engine → Engine) : Engine :=
  match e.pkt id with
  | none => e
  | some p =>
    if !p.onPath ∨ p.failed then e
    else
      let x := e.entryOf p
      if entKind x ≠ kind then e
      else if p.begun.isSome then f p (entArg x) e
      else if 16 ≤ p.steps then e
      else match e.takeRate 2 64 8 with
        | none => e
        | some e =>
          let (bad, e) := e.tableRead p 3 p.entry
          if bad then e.tableError p
          else
            let e := (e.tally (Reg.CSC_ENTCNT p.entry)).busy 293
            let p := { p with steps := p.steps + 1, begun := some e.time }
            f p (entArg x) (e.setPkt id fun _ => p)

/-! ### Verdict records (R25, R196, R274, R384, R549) -/

/-- The verdict record's words of a packet with a grade code and KIND 1 (Table HIF-9). -/
def Engine.verdictWords (e : Engine) (p : Pkt) (grade flow score : Nat) : List Nat :=
  [p.ts, flow % 2 ^ 48 + 2 ^ 48 * (e.selfId % 2 ^ 14),
   p.cls + 2 ^ 12 * p.col + 2 ^ 14 * p.que + 2 ^ 20 * grade + 2 ^ 24 * (p.truncN.getD 0 % 2 ^ 12) + 2 ^ 48 * (score % 2 ^ 16),
   (p.epoch.getD 0) % 2 ^ 32 + 2 ^ 32 * (p.flags % 2 ^ 24) + 2 ^ 56]

/-- Queues the packet's one verdict record (R25): SCORE is narrowed now (R384). An early record carries grade EARLY. -/
def Engine.writeVerdict (e : Engine) (id : Nat) (flow : Nat) (early : Bool) : Engine :=
  match e.pkt id with
  | none => e
  | some p =>
    let (sc, fl) := narrow .f16 (f32v p.sum)
    let p := (p.numFlags fl).flagIf e.suspect flTIME_SUSPECT
    let ws := e.verdictWords p (if early then 3 else gradeOf p.flags) flow sc
    let h := e.verdictQueue flow
    let (okv, e) := e.pushVerdict h { words := ws, at_ := e.time, pkt := some id } p.ts
    e.setPkt id fun _ => { p with ver := some ⟨ws, h, none, early, !okv⟩ }

/-- A record KIND 2 for a verdict's words: GRADE 4, its FLAGS with FRAME_FAIL (R197). -/
def retractWords (ws : List Nat) : List Nat :=
  let w2 := withBits (ws.getD 2 0) 22 20 4
  let w3 := withBits (ws.getD 3 0 ||| 2 ^ (32 + flFRAME_FAIL)) 58 56 2
  [ws.getD 0 0, ws.getD 1 0, w2, w3]

/-- Queues the RETRACT record of a packet's early record, on the queue that carried it (R200, R537). -/
def Engine.retract (e : Engine) (id : Nat) : Engine :=
  match (e.pkt id).bind (·.ver) with
  | none => e
  | some v =>
    if !v.early then e
    else
      let e := e.count (Reg.CSC_ERV_CNT 1)
      if v.discarded then e.count (Reg.HIF_CNT 3)
      else e.hqPush v.queue { words := retractWords v.words, at_ := e.time, pkt := some id, ring := v.ring }

end Sys2Proof.Machine
end

