-- ==== Sys2Proof/Machine/Sheaf.lean ====
section
/-!
DEFINITION. Sheaf.lean: flow keys, the tiers, holding a flow, fetch, commit, the undo log and migrations at a home
(R293 to R325).
-/
namespace Sys2Proof.Machine

/-! ### Keys (R293 to R297) -/

/-- The lower endpoint first (R294). -/
def symEndpoints (a b : Bytes × Nat) : (Bytes × Nat) × (Bytes × Nat) :=
  let s (x : Bytes × Nat) := beNat (x.1 ++ natBE 2 x.2)
  if s b < s a then (b, a) else (a, b)

/-- A 48-byte key (R293). -/
def packKey (a b : Bytes) (ap bp extra proto form : Nat) : Bytes :=
  fitTo 16 a ++ fitTo 16 b ++ natLE 2 ap ++ natLE 2 bp ++ natLE 4 extra ++ natLE 1 proto ++ natLE 1 form ++ natLE 6 0

/-- The flow key of a parse vector in a form (Table SHF-1). -/
def flowKey (pv : Bytes) (form : Nat) : Bytes :=
  let src := (slice pv 60 16, leAt pv 100 2)
  let dst := (slice pv 76 16, leAt pv 102 2)
  let fl := leAt pv 0 4
  match form with
  | 0 => packKey src.1 dst.1 src.2 dst.2 0 (byteAt pv 92) 0
  | 1 =>
    let (a, b) := symEndpoints src dst
    packKey a.1 b.1 a.2 b.2 0 (byteAt pv 92) 1
  | 2 => packKey (slice pv 136 16) (slice pv 152 16) (leAt pv 172 2) (leAt pv 174 2) (leAt pv 116 3) (byteAt pv 168) 2
  | 3 =>
    let inner := bitOf fl pfINNER_IPV4 || bitOf fl pfINNER_IPV6
    let qp := if bitOf fl pfROCE then leAt pv 180 3 else 0
    packKey (slice pv (if inner then 136 else 60) 16) (slice pv (if inner then 152 else 76) 16) 0 0 qp 17 3
  | _ => packKey (slice pv 24 6) (slice pv 30 6) (leAt pv 38 2 % 2 ^ 12) 0 0 0 form

/-- The flow hash (R295). -/
def flowHash (key : Bytes) : Nat := crc32c key
/-- The set hash (R295). -/
def setHash (key : Bytes) : Nat := crc32c key.reverse
/-- The flow handle of a verdict record (R296). -/
def flowHandle (key : Bytes) : Nat := flowHash key + 2 ^ 32 * (setHash key / 2 ^ 16)

/-- The module takes part in a lattice: some Felgen port is enabled (R715). -/
def Engine.inLattice (e : Engine) : Bool := (List.range 8).any fun p => e.is (Fld.FLG_PORT_CFG_EN p)

/-- A flow's home member, under the home table that was live at a timestamp (R297, R298). -/
def Engine.homeOf (e : Engine) (key : Bytes) (ts : Nat) : Nat :=
  if !e.inLattice then e.selfId
  else
    let old := decide (ts < e.shf.homeT)
    let i := flowHash key / 2 ^ 16 % max (if old then e.shf.oldN else e.get Fld.SHF_HOME_N) 1
    match if old then e.shf.oldHome.find? fun x => x.1 == i else none with
    | some x => x.2
    | none => e.get (Fld.SHF_HOMETAB_ID i)

/-! ### Hot parts (Table SHF-2) -/

def hotLastTs (h : Bytes) : Nat := leAt h 48 8
def hotPkts (h : Bytes) : Nat := leAt h 56 4
def hotBytes (h : Bytes) : Nat := leAt h 60 6
def hotGen (h : Bytes) : Nat := leAt h 66 2
def hotValid (h : Bytes) : Nat := leAt h 68 2
def hotHead (h : Bytes) : Nat := byteAt h 70 % 16
/-- HIST_LEN (R302). -/
def histLen (h : Bytes) : Nat := ((List.range 16).filter fun j => bitOf (hotValid h) j).length
/-- KIND of an undo entry at a byte of the hot part: 0 EMPTY, 1 CREATE, 2 COMMIT, 3 CREATE_COMMIT. -/
def undoKind (h : Bytes) (o : Nat) : Nat := leAt h (o + 12) 2 / 2 ^ 14

/-! ### Tiers (R317 to R319) -/

/-- The set a key selects in a tier. -/
def Engine.shfSet (e : Engine) (t : Nat) (key : Bytes) : Nat :=
  match t with
  | 0 => setHash key % max (e.partSize 1 / 1024) 1
  | 1 => setHash key % 2 ^ 23
  | _ => setHash key % max (e.get Fld.SHF_LOFT_SETS) 1

/-- The address of a way in a tier (Table SHF-4). -/
def Engine.wayAddr (e : Engine) (t set w : Nat) : Nat :=
  match t with
  | 0 => e.partBase 1 + 1024 * set + 128 * w
  | 1 => 0x04000000000 + 640 * (8 * set + w)
  | _ => 0x10000000000 + 8192 * set + 1024 * w

/-- The memory index of a tier's bytes (Table ERR-1); the loft lies in host memory. -/
def tierMem (t : Nat) : Nat := if t = 0 then 0 else if t = 1 then 3 else 6

/-- Ways of a tier a sheaf holds, and those a migration has reserved for it (R323). -/
def Sheaf.held (s : Sheaf) (t : Nat) : List Nat :=
  ((if t = 0 then s.gWay else if t = 1 then s.sWay else s.lWay)).toList
def Sheaf.reserved (s : Sheaf) (t : Nat) : List Nat :=
  match s.mig with
  | none => []
  | some m => (if t = 0 then m.gWay else if t = 1 then m.sWay else m.lWay).toList

/-- A sheaf by its key. -/
def Engine.sheaf (e : Engine) (key : Bytes) : Option Sheaf := e.shf.sheaves.find? fun s => s.key == key
/-- The engine with a sheaf changed. -/
def Engine.setSheaf (e : Engine) (key : Bytes) (f : Sheaf → Sheaf) : Engine :=
  { e with shf := { e.shf with sheaves := e.shf.sheaves.map fun s => if s.key = key then f s else s } }

/-- Sheaves with a way in a set of a tier. -/
def Engine.inSet (e : Engine) (t set : Nat) : List Sheaf :=
  e.shf.sheaves.filter fun s => !((s.held t ++ s.reserved t).isEmpty) && e.shfSet t s.key == set

/-- The lowest free way of a set (R319). -/
def Engine.freeWay (e : Engine) (t set : Nat) : Option Nat :=
  let used := (e.inSet t set).flatMap fun s => s.held t ++ s.reserved t
  (List.range 8).find? fun w => !used.contains w

/-- The recency order of a set, most recent way first. -/
def Engine.recency (e : Engine) (t set : Nat) : List Nat :=
  Tbl.get [] (if t = 0 then e.shf.rec0 else if t = 1 then e.shf.rec1 else e.shf.rec2) set

/-- A way becomes the most recent in its set (R320). -/
def Engine.touchWay (e : Engine) (t set w : Nat) : Engine :=
  let r := w :: (e.recency t set).filter (· != w)
  match t with
  | 0 => { e with shf := { e.shf with rec0 := Tbl.set [] e.shf.rec0 set r } }
  | 1 => { e with shf := { e.shf with rec1 := Tbl.set [] e.shf.rec1 set r } }
  | _ => { e with shf := { e.shf with rec2 := Tbl.set [] e.shf.rec2 set r } }

/-- A fetch or a commit touches its sheaf in every set it has a way in. -/
def Engine.touchSheaf (e : Engine) (s : Sheaf) : Engine :=
  [0, 1, 2].foldl (fun e t => (s.held t).foldl (fun e w => e.touchWay t (e.shfSet t s.key) w) e) e

/-- The address of a sheaf's hot part, and of its history. -/
def Engine.hotAddr (e : Engine) (s : Sheaf) : Nat :=
  let t := s.tier
  e.wayAddr t (e.shfSet t s.key) ((s.held t).headD 0)
def Engine.histAddr (e : Engine) (s : Sheaf) : Nat :=
  let t := if s.tier = 2 then 2 else 1
  e.wayAddr t (e.shfSet t s.key) ((s.held t).headD 0) + 128
/-- A sheaf's hot part. -/
def Engine.hotOf (e : Engine) (s : Sheaf) : Bytes := e.readMem (e.hotAddr s) 128
/-- A sheaf's history. -/
def Engine.histOf (e : Engine) (s : Sheaf) : Bytes := e.readMem (e.histAddr s) 512
/-- The engine after a sheaf's hot part is written; a copy that runs is made again (R323). -/
def Engine.writeHot (e : Engine) (s : Sheaf) (h : Bytes) : Engine :=
  (e.store (e.hotAddr s) h).setSheaf s.key fun s => { s with mig := s.mig.map fun m => { m with dirty := true } }

/-- The census of a silo set after one sheaf more or fewer in the loft: at 255 it stays (R318). -/
def Engine.census (e : Engine) (key : Bytes) (up : Bool) : Engine :=
  let i := e.shfSet 1 key
  let c := Tbl.get 0 e.shf.census i
  let c' := if c = 255 then 255 else if up then c + 1 else c - 1
  { e with shf := { e.shf with census := Tbl.set 0 e.shf.census i c' } }

/-- A sheaf is deleted: its ways are free. -/
def Engine.deleteSheaf (e : Engine) (key : Bytes) : Engine :=
  match e.sheaf key with
  | none => e
  | some s =>
    let e := if s.tier = 2 then e.census key false else e
    { e with shf := { e.shf with sheaves := e.shf.sheaves.filter fun s => s.key != key } }

/-- A sheaf is evicted (R322). -/
def Engine.evictSheaf (e : Engine) (key : Bytes) : Engine :=
  ((e.deleteSheaf key).count (Reg.SHF_CNT 10)).evt Fld.SHF_EVT_EVICT

/-- The sheaf is aged at a time (R306). -/
def Engine.agedAt (e : Engine) (s : Sheaf) (t : Nat) : Bool :=
  let a := e.get Fld.SHF_CFG_AGE_MS
  decide (a ≠ 0) && decide (hotLastTs (e.hotOf s) + a * 1250000 < t)

/-! ### Holding a flow (R305) -/

/-- Who holds a flow. -/
def Engine.holder (e : Engine) (key : Bytes) : Option Holder := (e.shf.holds.find? fun x => x.1 == key).map (·.2)

/-- Asks for a flow, ordered by a timestamp: `true` once it is held, and whether it was given just now. -/
def Engine.takeFlow (e : Engine) (h : Holder) (key : Bytes) (ts : Nat) : Bool × Bool × Engine :=
  if e.shf.holds.any fun x => x.1 == key && x.2 == h then (true, false, e)
  else if (e.holder key).isSome ∨ e.shf.waits.any (fun x => x.1 == key && x.2.1 != h && decide (x.2.2 < ts)) then
    if e.shf.waits.any fun x => x.1 == key && x.2.1 == h then (false, false, e)
    else (false, false, { e with shf := { e.shf with waits := e.shf.waits ++ [(key, h, ts)] } })
  else
    (true, true, { e with shf := { e.shf with
      holds := e.shf.holds ++ [(key, h)]
      waits := e.shf.waits.filter fun x => !(x.1 == key && x.2.1 == h) } })

/-! ### Victims and migrations (R321 to R324) -/

/-- Migrations in progress. -/
def Engine.migrations (e : Engine) : Nat := (e.shf.sheaves.filter fun s => s.mig.isSome).length

/-- The victim of a set: an aged candidate first, then the least recently touched candidate (R321). -/
def Engine.victim (e : Engine) (t set : Nat) : Option Sheaf :=
  let cands := (e.inSet t set).filter fun s =>
    !(s.held t).isEmpty && (e.holder s.key).isNone && s.undo0.isNone && s.undo1.isNone && s.mig.isNone
  let age (s : Sheaf) : Nat := match (e.recency t set).findIdx? fun w => (s.held t).contains w with | some i => i | none => 8
  let pick (l : List Sheaf) : Option Sheaf :=
    l.foldl (fun b s => match b with | none => some s | some x => if age x < age s then some s else b) none
  match pick (cands.filter fun s => e.agedAt s e.time) with
  | some s => some s
  | none => pick cands

/-- What making room did. -/
inductive Room where
  | room
  | moved (key : Bytes)
  | evicted
  | stuck
deriving DecidableEq, Repr

/-- A migration starts on a sheaf: its destination way is reserved (R323). -/
def Engine.startMig (e : Engine) (s : Sheaf) (m : Mig) : Engine := e.setSheaf s.key fun s => { s with mig := some m }

/-- Room in a silo set for a key: a free way, else its victim moves to the loft or is evicted (R322). -/
def Engine.roomSilo (e : Engine) (key : Bytes) : Room × Engine :=
  let set := e.shfSet 1 key
  if (e.freeWay 1 set).isSome then (.room, e)
  else match e.victim 1 set with
    | none => (.stuck, e)
    | some v =>
      if !e.is Fld.SHF_LOFT_EN then (.evicted, e.evictSheaf v.key)
      else if e.get Fld.SHF_LIMIT_MIG_MAX ≤ e.migrations then (.stuck, e)
      else
        let ls := e.shfSet 2 v.key
        match e.freeWay 2 ls with
        | some w => (.moved v.key, e.startMig v ⟨2, none, none, some w, false⟩)
        | none => match e.victim 2 ls with
          | none => (.stuck, e)
          | some x => (.evicted, e.evictSheaf x.key)

/-- Room in a granary set for a key: a free way, else its victim's hot part moves to its own silo slot (R322). -/
def Engine.roomGranary (e : Engine) (key : Bytes) : Room × Engine :=
  let set := e.shfSet 0 key
  if (e.freeWay 0 set).isSome then (.room, e)
  else match e.victim 0 set with
    | none => (.stuck, e)
    | some v =>
      if e.get Fld.SHF_LIMIT_MIG_MAX ≤ e.migrations then (.stuck, e)
      else (.moved v.key, e.startMig v ⟨1, none, none, none, false⟩)

/-- A need is noted once. -/
def Engine.needRoom (e : Engine) (h : Holder) (key : Bytes) (promote : Bool) : Engine :=
  if e.shf.needs.any fun n => n.who == h && n.key == key && n.promote == promote then e
  else { e with shf := { e.shf with needs := e.shf.needs ++ [⟨h, key, promote, none⟩] } }

/-- A need is met or given up. -/
def Engine.dropNeed (e : Engine) (n : ShfNeed) : Engine :=
  { e with shf := { e.shf with needs := e.shf.needs.filter fun m => !(m.who == n.who && m.key == n.key && m.promote == n.promote) } }

/-- The move that makes room for a need is noted. -/
def Engine.needMover (e : Engine) (n : ShfNeed) (k : Option Bytes) : Engine :=
  { e with shf := { e.shf with needs := e.shf.needs.map fun m =>
      if m.who = n.who ∧ m.key = n.key ∧ m.promote = n.promote then { m with mover := k } else m } }

/-- One need is worked on: `true` when something was done. -/
def Engine.serveNeed (e : Engine) (n : ShfNeed) : Bool × Engine :=
  let busy := match n.mover.bind e.sheaf with | some s => s.mig.isSome | none => false
  let s := e.sheaf n.key
  if busy then (false, e)
  else if n.promote && (match s with | some s => s.tier == 0 || s.mig.isSome | none => true) then (true, e.dropNeed n)
  else if n.promote ∧ e.get Fld.SHF_LIMIT_MIG_MAX ≤ e.migrations then
    (true, (e.dropNeed n).count (Reg.SHF_CNT 9))
  else
    let fromLoft := match s with | some s => s.tier == 2 | none => true
    let act (r : Room × Engine) : Bool × Engine :=
      match r.1 with
      | .moved k => (true, r.2.needMover n (some k))
      | .evicted => (true, r.2)
      | _ => (false, r.2)
    let g := e.roomGranary n.key
    if g.1 ≠ .room then act g
    else
      let r := if !n.promote || fromLoft then e.roomSilo n.key else (.room, e)
      if r.1 ≠ .room then act r
      else match n.promote, s with
        | true, some s =>
          let sw := if fromLoft then e.freeWay 1 (e.shfSet 1 n.key) else none
          (true, (e.startMig s ⟨0, e.freeWay 0 (e.shfSet 0 n.key), sw, none, false⟩).dropNeed n)
        | _, _ => (true, e.dropNeed n)

/-- SHEAF_MIGRATION_START: the oldest need that can be worked on (R321 to R324). -/
def migrationStart (e : Engine) : Engine :=
  (e.shf.needs.findSome? fun n => let r := e.serveNeed n; if r.1 then some r.2 else none).getD e

/-- A copy ends: one that no commit overlapped changes the residence; else it is made again (R323). -/
def migrationComplete (key : Bytes) (e : Engine) : Engine :=
  match e.sheaf key with
  | none => e
  | some s =>
    match s.mig with
    | none => e
    | some m =>
      if m.dirty then e.setSheaf key fun s => { s with mig := some { m with dirty := false } }
      else
        let hot := e.hotOf s
        let hist := e.histOf s
        let e := e.busy 294
        match m.dst with
        | 1 =>
          let s' := { s with tier := 1, gWay := none, mig := none }
          let e := e.setSheaf key fun _ => s'
          (e.store (e.hotAddr s') hot).count (Reg.SHF_CNT 6)
        | 2 =>
          let s' := { s with tier := 2, gWay := none, sWay := none, lWay := m.lWay, mig := none }
          let e := (e.setSheaf key fun _ => s').census key true
          ((e.store (e.hotAddr s') (hot ++ hist)).touchSheaf s').count (Reg.SHF_CNT 7)
        | _ =>
          let s' := { s with tier := 0, gWay := m.gWay, sWay := if s.tier = 2 then m.sWay else s.sWay, lWay := none, mig := none }
          let e := e.setSheaf key fun _ => s'
          let e := if s.tier = 2 then (e.census key false).store (e.histAddr s') hist else e
          ((e.store (e.hotAddr s') hot).touchSheaf s').count (Reg.SHF_CNT 8)

/-- SHEAF_MIGRATION_START (R321 to R324). -/
def execSheafMigrationStart (s : State) : Res := engineStep s migrationStart
/-- SHEAF_MIGRATION_COMPLETE (R322, R323). -/
def execSheafMigrationComplete (key : Bytes) (s : State) : Res := engineStep s (migrationComplete key)

/-! ### The undo log (R313 to R316) -/

/-- The byte offset of the undo entry that a holder owns. -/
def Sheaf.undoOf (s : Sheaf) (h : Holder) : Option Nat :=
  if s.undo0.map (·.1) = some h then some 96 else if s.undo1.map (·.1) = some h then some 112 else none

/-- Both entries are held (R315). -/
def Sheaf.undoFull (s : Sheaf) : Bool := s.undo0.isSome && s.undo1.isSome

/-- Pushes an entry: it goes to UNDO0, and one already there moves to UNDO1 (R314). -/
def pushUndo (s : Sheaf) (hot : Bytes) (h : Holder) (now : Nat) (entry : Bytes) : Sheaf × Bytes :=
  if s.undo0.isSome then
    ({ s with undo1 := s.undo0, undo0 := some (h, now) }, patch hot 96 (entry ++ slice hot 96 16))
  else ({ s with undo0 := some (h, now) }, patch hot 96 entry)

/-- An entry becomes EMPTY. -/
def Engine.emptyUndo (e : Engine) (s : Sheaf) (o : Nat) : Engine :=
  let e := e.writeHot s (patch (e.hotOf s) o (List.replicate 16 0))
  e.setSheaf s.key fun s => if o = 96 then { s with undo0 := none } else { s with undo1 := none }

/-- The sheaf in which a holder owns an entry. -/
def Engine.undoSheaf (e : Engine) (h : Holder) : Option (Sheaf × Nat) :=
  e.shf.sheaves.findSome? fun s => (s.undoOf h).map fun o => (s, o)

/-- A held entry is released when its packet's status is GOOD (R314). -/
def Engine.releaseUndo (e : Engine) (h : Holder) : Engine :=
  match e.undoSheaf h with
  | none => e
  | some (s, o) => e.emptyUndo s o

/-- The undo of R316. -/
def Engine.undoSheafOf (e : Engine) (h : Holder) : Engine :=
  match e.undoSheaf h with
  | none => e
  | some (s, o) =>
    let hot := e.hotOf s
    let u12 := leAt hot (o + 12) 2
    let u14 := byteAt hot (o + 14)
    let counted := bitOf u14 6
    let hot := if counted then
        let hot := patch hot 56 (natLE 4 (hotPkts hot - 1) ++ natLE 6 (hotBytes hot - u12 % 2 ^ 14))
        if hotLastTs hot % 2 ^ 32 = leAt hot (o + 8) 4 then patch hot 48 (slice hot o 8) else hot
      else hot
    let hot := if bitOf u14 4 then patch hot 68 (natLE 2 (hotValid hot &&& (0xFFFF - 2 ^ (u14 % 16)))) else hot
    let created := u12 / 2 ^ 14 = 1 ∨ u12 / 2 ^ 14 = 3
    let other := if o = 96 then s.undo1.isSome else s.undo0.isSome
    let e := e.writeHot s hot
    let e := (e.emptyUndo s o).count (Reg.SHF_CNT 13)
    if created ∧ hotPkts hot = 0 ∧ other = false then e.deleteSheaf s.key else e

/-! ### Fetch and commit (R303 to R312, R315) -/

/-- What a fetch delivers. -/
structure Fetched where
  present : Bool
  isNew : Bool
  interval : Nat
  histLen : Nat
  genReset : Bool
  hot : Bytes
deriving DecidableEq, Repr

/-- A fetch that found nothing and creates nothing. -/
def Fetched.none : Fetched := ⟨false, false, 0, 0, false, []⟩

/-- Creates a sheaf when there is room in its granary and silo sets (R307); `none` while there is not. -/
def Engine.createSheaf (e : Engine) (h : Holder) (key : Bytes) (ts : Nat) (kv : Bytes) (good : Bool) : Option Engine :=
  match e.freeWay 0 (e.shfSet 0 key), e.freeWay 1 (e.shfSet 1 key) with
  | some g, some w =>
    let s : Sheaf := { key := key, tier := 0, gWay := some g, sWay := some w, lWay := none }
    let hot := key ++ natLE 8 ts ++ natLE 4 0 ++ natLE 6 0 ++ slice kv 0 2 ++ natLE 4 0 ++ slice kv 4 8 ++ slice kv 12 2 ++
      List.replicate 46 0
    let (s, hot) := if good then (s, hot)
      else pushUndo s hot h e.cyc (natLE 8 ts ++ natLE 4 ts ++ natLE 2 (2 ^ 14) ++ natLE 2 0)
    let e := { e with shf := { e.shf with sheaves := e.shf.sheaves ++ [s] } }
    some (((e.writeHot s hot).touchSheaf s).count (Reg.SHF_CNT 1))
  | _, _ => none

/-- A fetch at this home by a holder: `none` while it waits, for the flow (R305) or for room (R324). -/
def Engine.sheafFetch (e : Engine) (h : Holder) (key : Bytes) (ts : Nat) (kv : Bytes) (nocreate good : Bool) (ecc : Ecc) :
    Option Fetched × Engine :=
  let (got, fresh, e) := e.takeFlow h key ts
  if !got then (none, e)
  else
    let e := if fresh then (e.count (Reg.SHF_CNT 0)).busy 294 else e
    let found := match e.sheaf key with
      | some s => if s.tier = 2 ∧ (!e.is Fld.SHF_LOFT_EN ∨ Tbl.get 0 e.shf.census (e.shfSet 1 key) = 0) then none else some s
      | none => none
    -- a poisoned hot part deletes its sheaf (Table ERR-2); an aged sheaf is deleted (R306)
    let (found, e) := match found with
      | none => (none, e)
      | some s =>
        let (bad, e) := e.checkRead (tierMem s.tier) (e.hotAddr s) 128 ecc
        if bad then
          let a := e.hotAddr s
          let e := ((e.poisoned 9 a (objRef 4 e.selfId (flowHash key))).count (Reg.ERR_CNT 5)).deleteSheaf key
          ((none : Option Sheaf), { e with poison := e.poison.filter fun p => !(decide (a ≤ p) && decide (p < a + 128)) })
        else if e.agedAt s ts then (none, (e.count (Reg.SHF_CNT 11)).deleteSheaf key)
        else (some s, e)
    match found with
    | some s =>
      let e := (e.count (Reg.SHF_CNT (2 + s.tier))).touchSheaf s
      let e := if s.tier = 0 then e else e.needRoom h key true
      let hot := e.hotOf s
      let reset := hotGen hot != leAt kv 0 2
      (some ⟨true, false, ts - hotLastTs hot, if reset then 0 else histLen hot, reset, hot⟩, e)
    | none =>
      if nocreate then (some .none, e)
      else match e.createSheaf h key ts kv good with
        | some e =>
          let e := { e with shf := { e.shf with needs := e.shf.needs.filter fun n => n.promote || n.who != h } }
          (some ⟨true, true, 0, 0, false, match e.sheaf key with | some s => e.hotOf s | none => []⟩, e)
        | none => (none, e.needRoom h key false)

/-- A commit's update of the counts (R311): the hot part, LEN and COUNTED. -/
def hotCount (hot : Bytes) (ts len : Nat) : Bytes × Nat × Bool :=
  let p := hotPkts hot
  let b := hotBytes hot
  let add := min len (2 ^ 48 - 1 - b)
  (patch hot 48 (natLE 8 ts ++ natLE 4 (min (p + 1) (2 ^ 32 - 1)) ++ natLE 6 (b + add)), add, decide (p < 2 ^ 32 - 1))

/-- The quantised summary of one packet as INT4 codes, with its flags (R353): the codes, and each element's flags. -/
def quantSummary (xs : List Nat) (scale zp : Nat) : List (Nat × Nat) :=
  (List.range 32).map fun d => quantise .int4 (f32v (xs.getD d 0)) (f32q scale) (zp % 16)

/-- The model's history contexts gather a summary's elements. -/
def Engine.gatherSummary (e : Engine) (ctx : Option Nat) (xs : List Nat) (qs : List (Nat × Nat)) (scale zp : Nat) : Engine :=
  match ctx with
  | none => e
  | some t => (List.range 32).foldl (fun e d =>
      let q := qs.getD d (0, 0)
      e.winPath t scale zp (f32v (xs.getD d 0)) q.1 q.2) e

/-- A commit at this home (R310 to R315): `none` while an undo entry is waited for; else the flags of its narrowings.
`m` is the model whose tracked contexts gather. -/
def Engine.sheafCommit (e : Engine) (h : Holder) (key : Bytes) (ts len : Nat) (kv : Bytes) (nocount noappend : Bool)
    (sum : Option (List Nat × List Nat)) (good : Bool) (m : Option Model) : Option (Nat × Engine) :=
  match e.sheaf key with
  | none => some (0, (e.count (Reg.SHF_CNT 15)).releaseFlow h)
  | some s =>
    let own := s.undoOf h
    if !good && own.isNone && s.undoFull then none
    else
      let hot0 := e.hotOf s
      let prev := hotLastTs hot0
      let (hot, added, counted) := if nocount then (hot0, 0, false) else hotCount hot0 ts len
      let reset := hotGen hot != leAt kv 0 2
      let hot := if reset then
          patch (patch hot 66 (slice kv 0 2 ++ natLE 2 0 ++ natLE 1 0)) 72 (slice kv 4 8 ++ slice kv 12 2)
        else hot
      let e := if reset then e.count (Reg.SHF_CNT 18) else e
      let pos := hotHead hot
      let (hot, appended, spill, fl, e) := match sum with
        | some (ks, vs) =>
          if noappend then (hot, false, false, 0, e)
          else
            let kq : List (Nat × Nat) := quantSummary ks (leAt hot 72 4) (byteAt hot 80)
            let vq : List (Nat × Nat) := quantSummary vs (leAt hot 76 4) (byteAt hot 81)
            let ctx := match m with | some m => e.histCtx m | none => (none, none)
            let e := e.gatherSummary ctx.1 ks kq (leAt hot 72 4) (byteAt hot 80)
            let e := e.gatherSummary ctx.2 vs vq (leAt hot 76 4) (byteAt hot 81)
            let e := (e.store (e.histAddr s + 16 * pos) (packElems .int4 (kq.map Prod.fst))).store
              (e.histAddr s + 256 + 16 * pos) (packElems .int4 (vq.map Prod.fst))
            let spill := bitOf (hotValid hot) pos
            let hot := patch hot 68 (natLE 2 (hotValid hot ||| 2 ^ pos) ++ natLE 1 ((pos + 1) % 16))
            (hot, true, spill, (kq ++ vq).foldl (fun a (q : Nat × Nat) => a ||| q.2) 0, e)
        | none => (hot, false, false, 0, e)
      let kind := if own.isSome then 3 else 2
      let entry := natLE 8 prev ++ natLE 4 ts ++ natLE 2 (added % 2 ^ 14 + 2 ^ 14 * kind) ++
        natLE 2 (pos * bit appended + 16 * bit appended + 32 * bit spill + 64 * bit counted)
      let (s', hot) := match own with
        | some o => (s, patch hot o entry)
        | none => if good then (s, hot) else pushUndo s hot h e.cyc entry
      let e := e.setSheaf key fun _ => s'
      some (fl, ((e.writeHot s' hot).touchSheaf s').releaseFlow h)

/-- Resolves a packet's pending requests at its remote home, once (R538): COMPENSATE is counted in CSC_ERV_CNT5. -/
def Engine.resolveRemote (e : Engine) (p : Pkt) (good : Bool) : Engine :=
  match p.shf with
  | some q =>
    if q.remote ∧ q.marked then
      let e := e.setPkt p.id fun p => { p with shf := some { q with marked := false } }
      let e := if good then e else e.count (Reg.CSC_ERV_CNT 5)
      (e.flgSend 0x12 (e.homeOf q.key p.ts) 0 (natLE 4 p.ts ++ natLE 1 (bit (!good)) ++ natLE 3 0) q.key).2
    else e
  | none => e

end Sys2Proof.Machine
end

