-- ==== Sys2Proof/Machine/Cascade.lean ====
section
/-!
DEFINITION. Cascade.lean: the steps of a path that parse, classify, find and update the sheaf, and the ends of a path
(R256 to R279, R303 to R312, R333).
-/
namespace Sys2Proof.Machine

/-- An earlier packet waits in the same kind of step for the same reason: it is served first (R228). -/
def Engine.earlierWaits (e : Engine) (p : Pkt) (kind why : Nat) : Bool :=
  e.pkts.any fun q => q.onPath && !q.failed && q.begun.isSome && q.why == why && entKind (e.entryOf q) == kind && q.before p

/-! ### PARSE (R241, R273, R585) -/

/-- The epoch that a path starting now belongs to; 0 with no live model. -/
def Engine.liveEpoch (e : Engine) : Nat := match e.gft.live with | some m => m.epoch | none => 0

/-- A time graft is due: it takes effect before a path starts. -/
def Engine.graftDue (e : Engine) : Bool :=
  match e.gft.arm with
  | some a => a.mode == .time && decide (a.t ≤ e.time)
  | none => false

/-- PARSE consumes the parse vector; OUTCOME MARK flags the verdict (R243). The packet's epoch is the one live when its
first PARSE step is dispatched (R585). -/
def parseStep (p : Pkt) (_arg : Nat) (e : Engine) : Engine :=
  if p.epoch.isNone ∧ e.graftDue then e
  else
    let p := { p with parsed := true, epoch := some (p.epoch.getD e.liveEpoch) }
    let p := p.flagIf (p.result 1 == 1) flMALFORMED_MARK
    (e.setPkt p.id fun _ => p).advance p.id

/-- PARSE. -/
def execParse (pkt : Nat) (s : State) : Res := engineStep s fun e => e.dispatch pkt 0 parseStep

/-! ### CLASSIFY (R259 to R266) -/

/-- One chunk of a key by its selector (Table WNW-1). -/
def keyChunk (p : Pkt) (sel : Nat) : Nat :=
  if sel ≤ 111 then leAt p.pv (2 * sel) 2
  else if sel = 112 then p.port % 32
  else if sel = 113 then (if p.classified then p.cls else 0x8000)
  else if sel = 114 then (if p.classified then p.col + 4 * p.que else 0x8000)
  else 0

/-- The key of a packet under a layout. -/
def Bank.key (b : Bank) (k : Nat) (p : Pkt) : List Nat :=
  let l := b.item 2 k
  (List.range 40).map fun i => keyChunk p (byteAt l i)

/-- The rules whose VALID bit is set, in ascending index. -/
def Bank.validRules (b : Bank) : List Nat :=
  b.rules.filterMap fun x => if x.1 % 192 = 171 ∧ 128 ≤ x.2.toNat then some (x.1 / 192) else none

/-- The ternary comparison of a rule. -/
def ruleMatches (im : Bytes) (key : List Nat) : Bool :=
  (List.range 40).all fun i => (key.getD i 0 ^^^ leAt im (2 * i) 2) &&& leAt im (80 + 2 * i) 2 == 0

/-- The range units a rule uses. -/
def ruleUnits (im : Bytes) : List Nat :=
  (List.range 4).filterMap fun j =>
    let w := leAt im (160 + 2 * j) 2
    if bitOf w 15 then some (w % 2 ^ 15) else none

/-- A range unit holds for a key. -/
def Bank.unitHolds (b : Bank) (key : List Nat) (u : Nat) : Bool :=
  let x := leNat (b.item 1 u)
  let c := key.getD (bitsOf x 37 32) 0
  decide (bitsOf x 15 0 ≤ c) && decide (c ≤ bitsOf x 31 16)

/-- The first rule of a list that wins under layout `k`: `none` where a poisoned item is met (R263). -/
def Bank.firstRule (b : Bank) (key : List Nat) (k : Nat) (rs : List Nat) : Option (Option Nat) :=
  match rs with
  | [] => some none
  | r :: rs =>
    if (0, r) ∈ b.bad then none
    else
      let im := b.item 0 r
      if byteAt im 172 % 8 ≠ k ∨ !ruleMatches im key then b.firstRule key k rs
      else
        let us := ruleUnits im
        if us.any fun u => decide ((1, u) ∈ b.bad) then none
        else if us.all fun u => b.unitHolds key u then some (some r)
        else b.firstRule key k rs

/-- A packet takes an action's class, colour and queue. -/
def Pkt.act (p : Pkt) (a : Nat) : Pkt :=
  { p with classified := true, cls := bitsOf a 11 0, col := bitsOf a 13 12, que := bitsOf a 19 14 }

/-- CLASSIFY: a lookup under the winnow's rate, in arrival order. -/
def classifyStep (p : Pkt) (arg : Nat) (e : Engine) : Engine :=
  if e.earlierWaits p 1 1 then e.wait p.id 1
  else match e.takeRate 0 8 8 with
    | none => e.wait p.id 1
    | some e =>
      let k := arg % 8
      let (bad, e) := e.tableRead p 2 k
      if bad then e.tableError p
      else
        let b := e.bankOf p
        match b.firstRule (b.key k p) k b.validRules with
        | none => (e.memUe 5 0 false).tableError p
        | some hit =>
          let e := (e.count (Reg.WNW_CNT 0)).busy 292
          let e := match hit with
            | some r => e.tally (Reg.WNW_HIT r)
            | none => e.count (Reg.WNW_CNT 1)
          let a := match hit with
            | some r => leAt (b.item 0 r) 168 4
            | none => leAt (b.item 2 k) 40 4
          (e.setPkt p.id fun p => p.act a).advance p.id

/-- CLASSIFY. -/
def execClassify (pkt : Nat) (s : State) : Res := engineStep s fun e => e.dispatch pkt 1 classifyStep

/-! ### DROP, INVALID and the path limit (R272, R279, R288) -/

/-- DROP. -/
def execDrop (pkt : Nat) (s : State) : Res := engineStep s fun e => e.dispatch pkt 13 fun p _ e => e.endPath p.id

/-- INVALID: acts as DROP, counted in CSC_CNT2. -/
def execInvalid (pkt : Nat) (s : State) : Res :=
  engineStep s fun e => e.dispatch pkt 15 fun p _ e => ((e.count (Reg.CSC_CNT 2)).evt Fld.CSC_EVT_INVALID_ENTRY).endPath p.id

/-- FLOW of a packet's records: the flow handle, or 0 with no SHEAF_FETCH. -/
def Pkt.flow (p : Pkt) : Nat := match p.shf with | some q => flowHandle q.key | none => 0

/-- The forced end after the 16th step: it waits for the status when it has a record to write (Table ERV-1). -/
def pathLimitEnd (id : Nat) (e : Engine) : Engine :=
  match e.pkt id with
  | none => e
  | some p =>
    if !p.onPath ∨ p.failed ∨ p.begun.isSome = true ∨ p.steps < 16 then e
    else if p.ver.isNone ∧ !p.good then e.wait id 15
    else
      let e := e.setPkt id fun p => p.flagIf p.ver.isNone flPATH_LIMIT
      let e := if p.ver.isNone then e.writeVerdict id p.flow false else e
      let e := (e.count (Reg.CSC_CNT 1)).evt Fld.CSC_EVT_PATH_LIMIT
      (e.setPkt id fun p => { p with joinClosed := true }).endPath id

/-- PATH_LIMIT_END (R279). -/
def execPathLimitEnd (pkt : Nat) (s : State) : Res := engineStep s (pathLimitEnd pkt)

/-! ### SHEAF_FETCH (R293, R299, R303 to R310, R333) -/

/-- The SHEAF result field (R303). -/
def PShf.field (q : PShf) : Nat :=
  if !q.present then 0
  else q.histLen + 2 ^ 5 * bit q.isNew + 2 ^ 6 + 2 ^ 8 * min (hotPkts q.cur) 255 + 2 ^ 16 * leAt q.cur 82 2

/-- The packet takes what a fetch delivered: the result fields, and NEW_FLOW for a sheaf it created. -/
def Pkt.withSheaf (p : Pkt) (q : PShf) : Pkt :=
  { p with shf := some q, shfField := q.field, fhash := flowHash q.key }.flagIf q.isNew flNEW_FLOW

/-- The key–value descriptor of a packet's epoch. -/
def Engine.kvFor (e : Engine) (p : Pkt) : Bytes := match e.modelFor p with | some m => m.kvdesc | none => kvDefault

/-- The data of a remote sheaf request (Table FLG-7): key, intake timestamp, epoch and KVDESC. -/
def Engine.shfReqData (e : Engine) (p : Pkt) (key : Bytes) : Bytes :=
  key ++ natLE 8 p.ts ++ natLE 4 (p.epoch.getD 0) ++ fitTo 16 (e.kvFor p)

/-- A remote home that cannot be used: the packet is evaluated as if no sheaf were found (Table SHF-8). -/
def Engine.remoteFailed (e : Engine) (id : Nat) (key : Bytes) (marked : Bool) : Engine :=
  let e := (e.count (Reg.SHF_CNT 16)).evt Fld.SHF_EVT_REMOTE_TIMEOUT
  (e.setPkt id fun p =>
    ((p.withSheaf { key := key, remote := true, done := true, marked := marked }).flag flREMOTE_HOME).flag flSEQ_FALLBACK).advance id

/-- A fetch sent to a remote home. -/
def Engine.remoteFetch (e : Engine) (p : Pkt) (key : Bytes) (arg home : Nat) : Engine :=
  let marked := !p.good
  let e := e.count (Reg.SHF_CNT 5)
  let (t, e) := e.flgRequest 0x10 home (.fetch p.id) (natLE 4 p.ts ++ natLE 1 (arg % 16 + 16 * bit marked) ++ natLE 3 0)
    (e.shfReqData p key)
  match t with
  | none => e.remoteFailed p.id key false
  | some t =>
    (e.setPkt p.id fun p => { p with shf := some { key := key, remote := true, tag := some t, marked := marked } }.flag flREMOTE_HOME).wait p.id 3

/-- SHEAF_FETCH: a second one in a path does no lookup (R308). -/
def sheafFetchStep (ecc : Ecc) (p : Pkt) (arg : Nat) (e : Engine) : Engine :=
  match p.shf with
  | some q => if q.done then (e.setPkt p.id fun p => p.withSheaf q).advance p.id else e.wait p.id 3
  | none =>
    match e.takeRate 3 64 8 with
    | none => e.wait p.id 1
    | some e =>
      let key := flowKey p.pv (arg % 8)
      let home := e.homeOf key p.ts
      if home ≠ e.selfId then e.remoteFetch p key arg home
      else
        match e.sheafFetch (.pkt p.id) key p.ts (e.kvFor p) (bitOf arg 3) p.good ecc with
        | (none, e) => e.wait p.id (if e.shf.holds.any fun x => x.1 == key && x.2 == .pkt p.id then 4 else 7)
        | (some f, e) =>
          let q : PShf :=
            { key := key, done := true, present := f.present, isNew := f.isNew, interval := f.interval,
              histLen := f.histLen, hot := f.hot, cur := f.hot, genReset := f.genReset, holding := true }
          (e.setPkt p.id fun p => p.withSheaf q).advance p.id

/-- SHEAF_FETCH. -/
def execSheafFetch (pkt : Nat) (ecc : Ecc) (s : State) : Res := engineStep s fun e => e.dispatch pkt 2 (sheafFetchStep ecc)

/-! ### SHEAF_COMMIT (R311, R312, R315) -/

/-- The summaries a commit appends: only when SEQ is 1. -/
def Pkt.summary (p : Pkt) : Option (List Nat × List Nat) := if p.seq then p.kv else none

/-- A commit sent to a remote home; the step waits for its answer. -/
def Engine.remoteCommit (e : Engine) (p : Pkt) (q : PShf) (arg : Nat) : Engine :=
  let marked := !p.good
  let sum := p.summary
  let data := e.shfReqData p q.key ++ match sum with
    | some (ks, vs) => packElems .f32 (fitNats 32 ks ++ fitNats 32 vs)
    | none => []
  let (t, e) := e.flgRequest 0x11 (e.homeOf q.key p.ts) (.commit p.id)
    (natLE 4 p.ts ++ natLE 1 (arg % 4 + 4 * bit sum.isSome + 8 * bit marked) ++ natLE 1 0 ++ natLE 2 p.len) data
  match t with
  | none =>
    let e := (e.count (Reg.SHF_CNT 16)).evt Fld.SHF_EVT_REMOTE_TIMEOUT
    (e.setPkt p.id fun p => { p with shf := some { q with committed := true } }).advance p.id
  | some t => (e.setPkt p.id fun p => { p with shf := some { q with tag := some t, marked := q.marked || marked } }).wait p.id 3
where
  /-- Exactly `n` numbers. -/
  fitNats (n : Nat) (l : List Nat) : List Nat := l.take n ++ List.replicate (n - l.length) 0

/-- SHEAF_COMMIT: at most once for a packet, and only with a sheaf present (R312). -/
def sheafCommitStep (p : Pkt) (arg : Nat) (e : Engine) : Engine :=
  let idle (e : Engine) : Engine := ((e.count (Reg.SHF_CNT 15)).releaseFlow (.pkt p.id)).advance p.id
  match p.shf with
  | none => idle e
  | some q =>
    if q.tag.isSome then e.wait p.id 3
    else if q.committed ∨ !q.present then idle e
    else
      match e.takeRate 3 64 8 with
      | none => e.wait p.id 1
      | some e =>
        if q.remote then e.remoteCommit p q arg
        else
          match e.sheafCommit (.pkt p.id) q.key p.ts p.len (e.kvFor p) (bitOf arg 0) (bitOf arg 1) p.summary p.good (e.modelFor p) with
          | none => e.wait p.id 7
          | some (fl, e) =>
            let hot := match e.sheaf q.key with | some s => e.hotOf s | none => q.cur
            ((e.busy 294).setPkt p.id fun p =>
              ({ p with shf := some { q with committed := true, holding := false, cur := hot } }).numFlags fl).advance p.id

/-- SHEAF_COMMIT. -/
def execSheafCommit (pkt : Nat) (s : State) : Res := engineStep s fun e => e.dispatch pkt 9 sheafCommitStep

/-! ### Requests at a remote home that are not answered (R333) -/

/-- The request that a packet's step waits for. -/
def Engine.pktReq (e : Engine) (id : Nat) : Option FlgReq :=
  e.flg.reqs.find? fun r => r.owner == .fetch id || r.owner == .commit id

/-- A request is no longer outstanding. -/
def Engine.dropReq (e : Engine) (tag : Nat) : Engine :=
  { e with flg := { e.flg with reqs := e.flg.reqs.filter fun r => r.tag != tag } }

/-- A commit's request ends: the step completes. -/
def Engine.commitDone (e : Engine) (id : Nat) : Engine :=
  match e.pkt id with
  | some p => match p.shf with
    | some q => if p.onPath && !p.failed then
        (e.setPkt id fun p => { p with shf := some { q with committed := true, tag := none } }).advance id else e
    | none => e
  | none => e

/-- A fetch's request ends with no sheaf. -/
def Engine.fetchLost (e : Engine) (id : Nat) : Engine :=
  match e.pkt id with
  | some p => match p.shf with
    | some q => if p.onPath && !p.failed then e.remoteFailed id q.key q.marked
      else (e.count (Reg.SHF_CNT 16)).evt Fld.SHF_EVT_REMOTE_TIMEOUT
    | none => e
  | none => e

/-- A request of a packet fails, by timeout or by a NACK. -/
def Engine.reqFailed (e : Engine) (r : FlgReq) : Engine :=
  match r.owner with
  | .fetch id => (e.dropReq r.tag).fetchLost id
  | .commit id => (((e.dropReq r.tag).count (Reg.SHF_CNT 16)).evt Fld.SHF_EVT_REMOTE_TIMEOUT).commitDone id
  | .thread _ => e

/-- REMOTE_HOME_TIMEOUT (R333): due TIMEOUT_US after the request. -/
def remoteHomeTimeout (id : Nat) (e : Engine) : Engine :=
  match e.pktReq id with
  | none => e
  | some r => if e.cyc < r.at_ + e.get Fld.SHF_REMOTE_TIMEOUT_US * usTicks then e else e.reqFailed r

/-- REMOTE_HOME_TIMEOUT. -/
def execRemoteHomeTimeout (pkt : Nat) (s : State) : Res := engineStep s (remoteHomeTimeout pkt)

end Sys2Proof.Machine
end

