-- ==== Sys2Proof/Machine/Sluice.lean ====
section
/-!
DEFINITION. Sluice.lean: field ports, transmit queues, fair queueing, shapers, gates and policers (R217, R547 to R568).
-/
namespace Sys2Proof.Machine

/-! ### Ports (R217, R223, Table SLC-1) -/

/-- Sub-ports of a cage under its breakout: 1, 2 or 4. -/
def Engine.subPorts (e : Engine) (c : Nat) : Nat := 2 ^ min (e.get (Fld.ITK_CAGE_CFG_BREAKOUT c)) 2
/-- Port p = 4c + s exists (R217). -/
def Engine.present (e : Engine) (p : Nat) : Bool := decide (p < 32) && decide (p % 4 < e.subPorts (p / 4))
/-- A port's speed as ITK_PORT_STAT.SPEED codes it: 0 400G, 1 200G, 2 100G. -/
def Engine.speed (e : Engine) (p : Nat) : Nat := min (e.get (Fld.ITK_CAGE_CFG_BREAKOUT (p / 4))) 2
/-- Bits a port sends in a tick (R565). -/
def Engine.bitsPerTick (e : Engine) (p : Nat) : Nat := 320 / 2 ^ e.speed p
/-- A port's MODE (Table ITK-1). -/
def Engine.portMode (e : Engine) (p : Nat) : Nat := e.get (Fld.ITK_PORT_CFG_MODE p)
/-- A port is up with its link. -/
def Engine.portLive (e : Engine) (p : Nat) : Bool := e.is (Fld.ITK_PORT_CTRL_UP p) && e.is (Fld.ITK_PORT_STAT_LINK p)
/-- The transmit queue of queue number q on a port (R547). -/
def Engine.txqOf (e : Engine) (p q : Nat) : Nat :=
  let n := 64 / e.subPorts (p / 4)
  64 * (p / 4) + n * (p % 4) + q % n
/-- The port that a transmit queue belongs to. -/
def Engine.txPortOf (e : Engine) (t : Nat) : Nat := 4 * (t / 64) + t % 64 / (64 / e.subPorts (t / 64))
/-- The transmit queues of a port. -/
def Engine.portQueues (e : Engine) (p : Nat) : List Nat :=
  let n := 64 / e.subPorts (p / 4)
  (List.range n).map fun k => 64 * (p / 4) + n * (p % 4) + k

/-! ### Queues -/

/-- A transmit queue. -/
def Engine.txq (e : Engine) (t : Nat) : TxQ := Tbl.get {} e.slc.txq t
/-- The engine with a transmit queue changed. -/
def Engine.setTxq (e : Engine) (t : Nat) (f : TxQ → TxQ) : Engine :=
  { e with slc := { e.slc with txq := Tbl.set {} e.slc.txq t (f (e.txq t)) } }
/-- A port's scheduler. -/
def Engine.txp (e : Engine) (p : Nat) : TxPort := Tbl.get {} e.slc.ports p
/-- The engine with a port's scheduler changed. -/
def Engine.setTxp (e : Engine) (p : Nat) (f : TxPort → TxPort) : Engine :=
  { e with slc := { e.slc with ports := Tbl.set {} e.slc.ports p (f (e.txp p)) } }

/-- An EMIT command's frame. -/
def Engine.emitOf (e : Engine) (cmd : Nat) : Option Emit := e.slc.emits.find? fun m => m.cmd == cmd

/-- A frame's length L, once it is known (R552). -/
def Engine.frameLen (e : Engine) (s : TxSrc) : Option Nat :=
  match s with
  | .pkt id => (e.pkt id).bind fun p => if p.rx then none else some p.data.length
  | .emit c => (e.emitOf c).map (·.data.length)
/-- L, or the receiving port's MAXLEN while it is not known (R565). -/
def Engine.frameLenMax (e : Engine) (s : TxSrc) : Nat :=
  match e.frameLen s with
  | some n => n
  | none => match s with
    | .pkt id => ((e.pkt id).map (·.maxlen)).getD 0
    | .emit _ => 0

/-- A transmit queue's depth in cells (R568). -/
def TxQ.depth (q : TxQ) : Nat := (q.frames.map (·.cells)).sum

/-- The head of a transmit queue takes its tag, and its late launch is noted (R557, R562). -/
def Engine.txRetag (e : Engine) (t : Nat) : Engine :=
  match (e.txq t).frames with
  | [] => e.put (Fld.SLC_TXQ_TAG_F t) 0
  | f :: _ =>
    let v := (e.txp (e.txPortOf t)).v
    let e := e.put (Fld.SLC_TXQ_TAG_F t) (finishTag v (e.frameLenMax f.src + 20) (e.get (Fld.SLC_TXQ_CFG_WEIGHT t)))
    let e := e.setTxq t fun q => { q with frames := modAt q.frames 0 fun f => { f with headAt := e.time } }
    if f.launch ≠ 0 ∧ f.launch < e.time then (e.count (Reg.SLC_CNT 2)).evt Fld.SLC_EVT_LATE_LAUNCH else e

/-- A frame enters a transmit queue. -/
def Engine.txPush (e : Engine) (t : Nat) (f : TxFrame) : Engine :=
  let empty := (e.txq t).frames.isEmpty
  let e := e.setTxq t fun q => { q with frames := q.frames ++ [f] }
  let e := if empty then e.txRetag t else e
  e.highWater (Fld.SLC_TXQ_HWM_DEPTH_HWM t) (e.txq t).depth

/-- A frame is taken out of a transmit queue; a new head takes its tag. -/
def Engine.txTake (e : Engine) (t : Nat) (src : TxSrc) : Engine :=
  let wasHead := ((e.txq t).frames.head?.map (·.src)) == some src
  let e := e.setTxq t fun q => { q with frames := q.frames.filter fun f => f.src != src }
  if wasHead then e.txRetag t else e

/-- The limit of a transmit queue for a colour: 0 green, 1 yellow, 2 red (R552). -/
def Engine.txLimit (e : Engine) (t col : Nat) : Nat :=
  if col = 0 then e.get (Fld.SLC_TXQ_LIMIT_CELLS t)
  else if col = 1 then e.get (Fld.SLC_TXQ_YLIM_CELLS t) else e.get (Fld.SLC_TXQ_RLIM_CELLS t)

/-- The cells a packet's frame needs in a queue: those of L, or its earmark while reception goes on (R552). -/
def Pkt.txCells (p : Pkt) : Nat := p.cells

/-- Admits a packet's frame to a transmit queue by its colour; a frame not admitted is released at once and counted
(R552, R556). -/
def Engine.txAdmit (e : Engine) (p : Pkt) (t col : Nat) : Engine :=
  let c := p.txCells
  if (e.txq t).depth + c ≤ e.txLimit t col then
    let dei := e.is (Fld.SLC_TXQ_CFG_DEI_MARK t) && col != 0 && decide (byteAt p.pv 7 % 4 ≠ 0)
    let e := e.setPkt p.id fun p => { p with inTx := true }
    e.txPush t ⟨.pkt p.id, c, col, e.time, e.time, 0, dei⟩
  else (e.tally (Reg.SLC_TXQ_TALLY t 2)).count (Reg.SLC_CNT 3)

/-! ### Policers (R553) -/

/-- A policer's decision on a frame of L bytes with a colour: 0 GREEN, 1 YELLOW, 2 RED. -/
def Engine.police (e : Engine) (c col len : Nat) : Nat × Engine :=
  let p : Pol := Tbl.get {} e.slc.pol c
  let dt := e.cyc - p.last
  let tc := min (e.get (Fld.SLC_POL_CBS_BYTES c) * 2 ^ 20) (p.tc + e.get (Fld.SLC_POL_CIR_RATE c) * dt)
  let tp := min (e.get (Fld.SLC_POL_PBS_BYTES c) * 2 ^ 20) (p.tp + e.get (Fld.SLC_POL_PIR_RATE c) * dt)
  let b := len * 2 ^ 20
  let r : Nat × Nat × Nat :=
    if col = 2 ∨ tp < b then (2, tc, tp)
    else if col = 1 ∨ tc < b then (1, tc, tp - b)
    else (0, tc - b, tp - b)
  let e := e.count (Reg.SLC_CNT 7)
  (r.1, { e with slc := { e.slc with pol := Tbl.set {} e.slc.pol c ⟨r.2.1, r.2.2, e.cyc⟩ } })

/-- A policer is enabled: both buckets are full. -/
def Engine.polFill (e : Engine) (c : Nat) : Engine :=
  let p : Pol := ⟨e.get (Fld.SLC_POL_CBS_BYTES c) * 2 ^ 20, e.get (Fld.SLC_POL_PBS_BYTES c) * 2 ^ 20, e.cyc⟩
  { e with slc := { e.slc with pol := Tbl.set {} e.slc.pol c p } }

/-! ### Gates (R564 to R567) -/

/-- The spans of a gate list's cycle: start, end, gates and entry index. Entries of INTERVAL 0 are skipped, entries
past the cycle are cut, and the last one lasts until its end; where every INTERVAL is 0 that is the list's last entry (log entry 67). -/
def gateSpans (cycle : Nat) (es : List (Nat × Nat)) : List (Nat × Nat × Nat × Nat) :=
  let r := es.foldl (fun (r : List (Nat × Nat × Nat × Nat) × Nat × Nat) x =>
    let (l, at_, i) := r
    let stop := min cycle (at_ + x.2)
    (if at_ < stop then l ++ [(at_, stop, x.1, i)] else l, stop, i + 1)) ([], 0, 0)
  match r.1, es.getLast? with
  | [], some x => [(0, cycle, x.1, es.length - 1)]
  | l, _ => modAt l (l.length - 1) fun x => (x.1, cycle, x.2.2)

/-- How far into its cycle a list is at a time. -/
def Gcl.phase (g : Gcl) (t : Nat) : Nat :=
  let c := max g.cycle 1
  (t + (c - g.act % c)) % c

/-- The span in effect at a time. -/
def Gcl.spanAt (g : Gcl) (t : Nat) : Option (Nat × Nat × Nat × Nat) :=
  let x := g.phase t
  (gateSpans g.cycle g.entries).find? fun s => decide (s.1 ≤ x) && decide (x < s.2.1)

/-- Gate `k` is open at a time. -/
def Gcl.openAt (g : Gcl) (k t : Nat) : Bool := match g.spanAt t with | some s => bitOf s.2.2.1 k | none => false

/-- The length of the unbroken open run of gate `k` in spans taken round the cycle from an index; at most one cycle. -/
def openRun (k : Nat) (spans : List (Nat × Nat × Nat × Nat)) : Nat :=
  ((spans.takeWhile fun s => bitOf s.2.2.1 k).map fun s => s.2.1 - s.1).sum

/-- The close time X of gate `k` from an open time: `none` where it never closes (R565). -/
def Gcl.closeAt (g : Gcl) (k t : Nat) : Option Nat :=
  let spans := gateSpans g.cycle g.entries
  if spans.all fun s => bitOf s.2.2.1 k then none
  else
    let x := g.phase t
    let i := (spans.findIdx? fun s => decide (s.1 ≤ x) && decide (x < s.2.1)).getD 0
    let rot := spans.drop i ++ spans.take i
    let start := ((spans[i]?).map (·.1)).getD 0
    some (t - x + start + openRun k rot)

/-- The longest unbroken open run W of gate `k`; `none` for a gate that is always open (R566). -/
def Gcl.longest (g : Gcl) (k : Nat) : Option Nat :=
  let spans := gateSpans g.cycle g.entries
  if spans.all fun s => bitOf s.2.2.1 k then none
  else some ((List.range spans.length).foldl (fun m i => max m (openRun k (spans.drop i ++ spans.take i))) 0)

/-- The local queue number of a transmit queue. -/
def Engine.localQueue (e : Engine) (t : Nat) : Nat := t % (64 / e.subPorts (t / 64))

/-- The ticks a frame takes with its overhead (R565). -/
def Engine.txDuration (e : Engine) (p n : Nat) : Nat := ceilDiv ((n + 20) * 8) (e.bitsPerTick p)

/-- Gate `k` is open throughout the cycle (R565). -/
def Gcl.always (g : Gcl) (k : Nat) : Bool := (gateSpans g.cycle g.entries).all fun s => bitOf s.2.2.1 k

/-- The gate of a queue is open now, and the frame can finish before its window closes, which a pending list's activation ends
unless neither list ever closes it (R564, R565, log entry 67). While EN is 0 every gate is open. -/
def Engine.gateFits (e : Engine) (t n : Nat) : Bool :=
  let p := e.txPortOf t
  if !e.is (Fld.SLC_GCL_CTRL_EN p) then true
  else
  let k := e.localQueue t
  let tp := e.txp p
  let finish := e.time + e.txDuration p n
  let pend := match tp.pendGcl with
    | some g => decide (finish ≤ g.act) || g.always k && (match tp.oper with | some o => o.always k | none => true)
    | none => true
  match tp.oper with
  | none => pend
  | some g => g.openAt k e.time && pend && (match g.closeAt k e.time with | some x => decide (finish ≤ x) | none => true)

/-! ### Selection (R558, R559) -/

/-- A transmit queue's head is eligible (R559). -/
def Engine.txEligible (e : Engine) (t : Nat) : Bool :=
  match (e.txq t).frames with
  | [] => false
  | f :: _ =>
    e.gateFits t (e.frameLenMax f.src) &&
      (!e.is (Fld.SLC_TXQ_CFG_SHAPE_EN t) || decide (0 ≤ (e.txq t).tokens)) &&
      (f.launch == 0 || decide (f.launch ≤ e.time)) && e.portLive (e.txPortOf t)

/-- Before a selection, every head far behind V is clamped (R558). -/
def Engine.txClamp (e : Engine) (p : Nat) : Engine :=
  let v := (e.txp p).v
  (e.portQueues p).foldl (fun e t =>
    if !(e.txq t).frames.isEmpty && decide (tagDist (e.get (Fld.SLC_TXQ_TAG_F t)) v < -(2 ^ 40)) then
      ((e.put (Fld.SLC_TXQ_TAG_F t) ((v + 2 ^ 48 - 2 ^ 40) % 2 ^ 48)).count (Reg.SLC_CNT 0)).evt Fld.SLC_EVT_LAG_CLAMP
    else e) e

/-- The queue with the least distance from V among those eligible, the lowest index on a tie. -/
def leastTag (v : Nat) (tag : Nat → Nat) (qs : List Nat) : Option Nat :=
  qs.foldl (fun b t => match b with
    | none => some t
    | some x => if tagDist (tag t) v < tagDist (tag x) v then some t else some x) none

/-- The transmit queue a port serves next. -/
def Engine.txSelect (e : Engine) (p : Nat) : Option Nat :=
  leastTag (e.txp p).v (fun t => e.get (Fld.SLC_TXQ_TAG_F t)) ((e.portQueues p).filter e.txEligible)

/-! ### Removal and stomps (R534, R539, R576) -/

/-- Where a source's frame is queued. -/
def Engine.txFind (e : Engine) (s : TxSrc) : Option Nat :=
  (e.slc.txq.find? fun q => q.2.frames.any fun f => f.src == s).map (·.1)
/-- The port that is transmitting a source's frame. -/
def Engine.txSending (e : Engine) (s : TxSrc) : Option Nat :=
  (e.slc.ports.find? fun p => match p.2.cur with | some c => c.fr.src == s | none => false).map (·.1)

/-- A failed frame's transmission: in progress, it is stomped; still queued, it is removed unsent (R534, R539). -/
def Engine.txFail (e : Engine) (id : Nat) : Engine :=
  match e.txSending (.pkt id) with
  | some p => (e.setTxp p fun x => { x with cur := x.cur.map fun c => { c with stomp := true } }).count (Reg.CSC_ERV_CNT 4)
  | none =>
    match e.txFind (.pkt id) with
    | some t =>
      let e := (e.txTake t (.pkt id)).count (Reg.CSC_ERV_CNT 4)
      e.setPkt id fun p => { p with inTx := false }
    | none => e

/-- A frame's length becomes known: the depth of its queue is corrected, and a shaper it has started under is charged
(R552, R560). -/
def Engine.txLength (e : Engine) (id : Nat) : Engine :=
  let n := (e.frameLen (.pkt id)).getD 0
  match e.txFind (.pkt id) with
  | some t => e.setTxq t fun q =>
      { q with frames := q.frames.map fun f => if f.src = .pkt id then { f with cells := ceilDiv n 256 } else f }
  | none =>
    match e.txSending (.pkt id) with
    | none => e
    | some p => match (e.txp p).cur with
      | none => e
      | some c =>
        if c.cut ∧ e.is (Fld.SLC_TXQ_CFG_SHAPE_EN c.q) then
          e.setTxq c.q fun q => { q with tokens := q.tokens - (((n + 20) * 2 ^ 20 : Nat) : Int) }
        else e

/-- A queued frame is discarded because its port is down (R222): a packet's is counted in the port's n = 14, and an
EMIT command completes with REFUSED (log entry 14). -/
def Engine.txDiscard (e : Engine) (t : Nat) (f : TxFrame) : Engine :=
  let e := (e.txTake t f.src).count (Reg.ITK_PCNT (e.txPortOf t) 14)
  match f.src with
  | .pkt id => (e.setPkt id fun p => { p with inTx := false }).settle id
  | .emit c => Engine.finish { e with slc := { e.slc with emits := e.slc.emits.filter fun m => m.cmd != c } } c 0x20

/-- A port that is down discards its queued frames as they reach the head (Table SLC-5). -/
def Engine.txFlush (e : Engine) (p : Nat) : Engine :=
  (e.portQueues p).foldl (fun e t => (e.txq t).frames.foldl (fun e f => e.txDiscard t f) e) e

end Sys2Proof.Machine
end

