-- ==== Sys2Proof/Machine/Ports.lean ====
section
/-!
DEFINITION. Ports.lean: the set-up and the link of field ports, and the thresher's set-up (R217 to R220, R245 to R248, R734).
-/
namespace Sys2Proof.Machine

/-- BAR0 writes to a block are ignored: its expansion pends (R708), or a partition apply is in progress and R720 names the block
(block 0 stands for the staged sizes and their profile). -/
def Engine.pends (e : Engine) (blk : Nat) : Bool :=
  bitOf (e.rd Reg.GLB_PEND) blk || (bitOf (e.rd Reg.GLB_PEND) 0 && decide (blk ∈ [3, 7, 8, 16]))

/-- A BAR0 write to a block whose writes are ignored is counted (R708). -/
def pendWrite (blk : Nat) (f : Engine → Engine) (e : Engine) : Engine :=
  if e.pends blk then (e.evt Fld.GLB_EVT_PEND_WRITE).count (Reg.GLB_CNT 1) else f e

/-- A port's receiver. -/
def Engine.rxOf (e : Engine) (p : Nat) : Rx := Tbl.get {} e.rx p
/-- The engine with a port's receiver changed. -/
def Engine.setRx (e : Engine) (p : Nat) (f : Rx → Rx) : Engine := { e with rx := Tbl.set {} e.rx p (f (e.rxOf p)) }

/-- LINK as R734 gives it: the port exists, UP is 1, its cage holds a module in high-power mode, its PCS is aligned. -/
def Engine.linkNow (e : Engine) (p : Nat) : Bool :=
  let g := e.phys.cages.getD (p / 4) {}
  e.present p && e.is (Fld.ITK_PORT_CTRL_UP p) && g.present && !g.highPower && !g.lowPower && (e.rxOf p).aligned

/-- LINK follows its conditions; each change sets LINK_CHANGE, and a port that goes down discards what it has queued. -/
def Engine.relink (e : Engine) (p : Nat) : Engine :=
  let l := e.linkNow p
  if e.is (Fld.ITK_PORT_STAT_LINK p) = l then e
  else
    let e := (e.put (Fld.ITK_PORT_STAT_LINK p) (bit l)).evt Fld.ITK_EVT_LINK_CHANGE
    if l then e else e.txFlush p

/-- The links of a cage's ports. -/
def Engine.relinkCage (e : Engine) (c : Nat) : Engine := (List.range 4).foldl (fun e s => e.relink (4 * c + s)) e

/-- Every link. -/
def Engine.relinkAll (e : Engine) : Engine := (List.range 32).foldl Engine.relink e

/-- PRESENT and SPEED follow a cage's breakout (R217). -/
def Engine.showBreakout (e : Engine) (c : Nat) : Engine :=
  (List.range 4).foldl (fun e s =>
    let p := 4 * c + s
    (e.put (Fld.ITK_PORT_STAT_PRESENT p) (bit (e.present p))).put (Fld.ITK_PORT_STAT_SPEED p) (if e.present p then e.speed p else 0)) e

/-- A write of UP = 1 takes effect (R220). -/
def Engine.upAllowed (e : Engine) (p : Nat) : Bool :=
  let mode := e.portMode p
  let q := e.get (Fld.ITK_PORT_CFG_PAIR p)
  e.present p && (mode == 2 || e.gft.live.isSome || e.causeOn 5) &&
    (mode != 1 || (e.present q && e.portMode q == 1 && e.speed q == e.speed p && e.get (Fld.ITK_PORT_CFG_PAIR q) == p))

/-- UP = 1. -/
def portUp (p : Nat) (e : Engine) : Engine :=
  if 32 ≤ p ∨ e.is (Fld.ITK_PORT_CTRL_UP p) then e
  else if e.upAllowed p then (e.put (Fld.ITK_PORT_CTRL_UP p) 1).relink p
  else e.evt Fld.ITK_EVT_UP_REFUSED

/-- PORT_UP (R220). -/
def execPortUp (port : Nat) (s : State) : Res := hostStep s (pendWrite 3 (portUp port))

/-- LINK_CHANGE (R734): the PCS reaches or loses alignment and lock; while UP is 0 it is held idle. -/
def linkChange (p : Nat) (aligned : Bool) (e : Engine) : Engine :=
  if 32 ≤ p then e
  else (e.setRx p fun r => { r with aligned := aligned && e.is (Fld.ITK_PORT_CTRL_UP p) }).relink p

/-- LINK_CHANGE. -/
def execLinkChange (port : Nat) (aligned : Bool) (s : State) : Res := engineStep s (linkChange port aligned)

/-- A write to ITK_PORT_CFG: refused while UP is 1, with MODE 3, or with MAXLEN outside 1,518 to 9,728 (R219); else the
profile reads CUSTOM (R247). -/
def portCfgWrite (p v : Nat) (e : Engine) : Engine :=
  if 32 ≤ p then e
  else
    let m := bitsOf v 23 10
    if e.is (Fld.ITK_PORT_CTRL_UP p) ∨ v % 4 = 3 ∨ m < 1518 ∨ 9728 < m then e.evt Fld.ITK_EVT_CFG_REFUSED
    else (e.wr (Reg.ITK_PORT_CFG p) (v &&& 0xFFFDFF)).put Fld.ITK_PROFILE_PROFILE 7

/-- ITK_PORT_CFG_WRITE (R219). -/
def execItkPortCfgWrite (port v : Nat) (s : State) : Res := hostStep s (pendWrite 3 (portCfgWrite port v))

/-- A write to a cage's BREAKOUT: refused while a port of the cage is up, and with 3 (R219). -/
def cageCfgWrite (c v : Nat) (e : Engine) : Engine :=
  if 8 ≤ c then e
  else if v % 4 = 3 ∨ (List.range 4).any fun s => e.is (Fld.ITK_PORT_CTRL_UP (4 * c + s)) then e.evt Fld.ITK_EVT_CFG_REFUSED
  else ((e.wr (Reg.ITK_CAGE_CFG c) (v % 4)).showBreakout c).put Fld.ITK_PROFILE_PROFILE 7

/-- ITK_CAGE_CFG_WRITE (R219). -/
def execItkCageCfgWrite (cage v : Nat) (s : State) : Res := hostStep s (pendWrite 3 (cageCfgWrite cage v))

/-- The expansion of an intake profile: BREAKOUT of every cage, MODE, PAIR, CUT, MACCTL and MAXLEN of every port
(Table ITK-3). -/
def itkExpand (v : Nat) : Option (Engine → Engine) :=
  let mk (brk mode : Nat) (e : Engine) : Engine :=
    let e := (List.range 8).foldl (fun e c => (e.wr (Reg.ITK_CAGE_CFG c) brk).showBreakout c) e
    (List.range 32).foldl (fun e p => e.wr (Reg.ITK_PORT_CFG p) (mode + 4 * (p ^^^ 4) + 2 ^ 10 * 9600)) e
  match v with
  | 0 => some (mk 0 0)
  | 1 => some (mk 0 1)
  | 2 => some (mk 2 0)
  | 3 => some (mk 0 2)
  | _ => none

/-- A profile selection: a value that names no profile is ignored whole (R17); while the block's expansion pends the
write is ignored and counted (R708); else PROFILE reads the value, the expansion is written, and GLB_PEND shows it
until it completes. -/
def profileWrite (blk : Nat) (f : Fld) (v : Nat) (expand : Option (Engine → Engine)) : Engine → Engine :=
  pendWrite blk fun e =>
    match expand with
    | none => e
    | some g => (fun e => e.wr Reg.GLB_PEND (e.rd Reg.GLB_PEND ||| 2 ^ blk)) ((g e).put f v)

/-- ITK_PROFILE: refused while any port has UP = 1 (R245). -/
def itkProfileSelect (v : Nat) (e : Engine) : Engine :=
  if (itkExpand v).isSome && !e.pends 3 && (List.range 32).any fun p => e.is (Fld.ITK_PORT_CTRL_UP p) then
    e.evt Fld.ITK_EVT_CFG_REFUSED
  else profileWrite 3 Fld.ITK_PROFILE_PROFILE v (itkExpand v) e

/-- ITK_PROFILE_SELECT (R245). -/
def execItkProfileSelect (v : Nat) (s : State) : Res := hostStep s (itkProfileSelect v)

/-- THR_MAL_ACT under each profile (Table THR-8). -/
def thrExpand (v : Nat) : Option (Engine → Engine) :=
  ([0x96AA6A98, 0x00000000, 0xAAAAAAA8, 0x55555554][v]?).map fun w e => e.wr Reg.THR_MAL_ACT w

/-- THR_PROFILE_SELECT (R246). -/
def execThrProfileSelect (v : Nat) (s : State) : Res := hostStep s (profileWrite 4 Fld.THR_PROFILE_PROFILE v (thrExpand v))

/-- A THR_MAL_ACT write: ignored as a whole with a 3 in any kind's field, or with bits 1:0 nonzero (R248). -/
def thrMalActWrite (v : Nat) (e : Engine) : Engine :=
  if v % 4 ≠ 0 ∨ (List.range 16).any fun k => bitsOf v (2 * k + 1) (2 * k) == 3 then e.evt Fld.THR_EVT_CFG_ERR
  else (e.wr Reg.THR_MAL_ACT (v % 2 ^ 32)).put Fld.THR_PROFILE_PROFILE 7

/-- THR_MAL_ACT_WRITE (R247, R248). -/
def execThrMalActWrite (v : Nat) (s : State) : Res := hostStep s (pendWrite 4 (thrMalActWrite v))

end Sys2Proof.Machine
end

