-- ==== Sys2Proof/Machine/Orchard.lean ====
section
/-!
DEFINITION. Orchard.lean: grader sets, feature vectors, ensembles of trees, admission, and their commands (R369 to R399).
-/
namespace Sys2Proof.Machine

/-! ### Power domains (R104, R109) -/

/-- A power domain is ON. -/
def Engine.domOn (e : Engine) (i : Nat) : Bool := (Tbl.get {} e.doms i).st == .on

/-! ### Feature vectors (R369 to R376) -/

/-- The input block of a packet in the form of Table ORC-8: parse vector, result fields, and the sheaf snapshot. -/
def Pkt.orcBlock (p : Pkt) : Bytes :=
  fitTo 224 p.pv ++ (List.range 16).flatMap (fun i => natLE 4 (p.result i)) ++
    match p.shf with
    | some q =>
      if q.present then
        natLE 8 q.interval ++ natLE 8 (hotBytes q.hot) ++ natLE 4 (hotPkts q.hot) ++ natLE 1 q.histLen ++ natLE 1 (bit q.isNew) ++
          fitTo 14 (slice q.hot 82 14) ++ List.replicate 12 0
      else List.replicate 48 0
    | none => List.replicate 48 0

/-- The raw value of a source (Table ORC-2) from an input block. -/
def rawSource (b : Bytes) (src i : Nat) : Nat :=
  match src with
  | 0 => leNat (slice (b.take 224) i 8)
  | 1 => leAt b (224 + 4 * i) 4
  | _ =>
    match i with
    | 0 => leAt b 288 8
    | 1 => leAt b 304 4
    | 2 => leAt b 296 8
    | 3 => leAt b 308 1
    | 4 => leAt b 310 8
    | 5 => leAt b 318 6
    | _ => leAt b 309 1

/-- Byte offset of slot `i` in a grader set image. -/
def slotOff (i : Nat) : Nat := 16 + 16 * i
/-- A slot's KIND. -/
def slotKind (im : Bytes) (i : Nat) : Nat := byteAt im (slotOff i) % 4
/-- A slot is BINNED. -/
def slotBinned (im : Bytes) (i : Nat) : Bool := bitOf (byteAt im (slotOff i)) 3
/-- NEDGES of a slot. -/
def slotEdges (im : Bytes) (i : Nat) : Nat := byteAt im (slotOff i + 5)

/-- `primary` of R373: the word and the flags of its narrowing. -/
def primarySlot (im b : Bytes) (i : Nat) : Nat × Nat :=
  let o := slotOff i
  let w := byteAt im (o + 4)
  let x := (rawSource b (byteAt im (o + 1)) (byteAt im (o + 2)) >>> (byteAt im (o + 3))) % 2 ^ w
  let x : Int := if bitOf (byteAt im o) 2 then sextOf w x else x
  let (v, fl) := toF32 (((NVal.ofInt x).mul (f32v (leAt im (o + 8) 4))).add (f32v (leAt im (o + 12) 4)))
  if slotBinned im i then
    let q := (f32v v).rat
    let eo := 4 * leAt im (o + 6) 2
    (((List.range (slotEdges im i)).filter fun k => decide ((f32v (leAt im (eo + 4 * k) 4)).rat ≤ q)).length, fl)
  else (v, fl)

/-- The feature vector of a grader set over an input block, with the flags of its narrowings (R374, R376). -/
def gradeVector (im b : Bytes) : List Nat × Nat :=
  let n := leAt im 0 2
  let prim := (List.range n).map fun i => if slotKind im i = 1 then primarySlot im b i else (0, 0)
  let word (i : Nat) : Nat := (prim.getD i (0, 0)).1
  let vec := (List.range 256).map fun i =>
    if i < n ∧ slotKind im i = 2 then
      let a := byteAt im (slotOff i + 1)
      let c := byteAt im (slotOff i + 2)
      word a * (slotEdges im c + 1) + word c
    else if i < n then word i else 0
  (vec, prim.foldl (fun f x => f ||| x.2) 0)

/-- The resident address of a section. -/
def Model.secAddr (m : Model) (s : Sect) : Nat := Tbl.get 0 m.place s.i

/-- A poisoned part of a model: the live model is lost (Table ERR-2, `row` 5 or 6). A packet of the retiring model is
evaluated no further. -/
def Engine.modelPoison (e : Engine) (m : Model) (row a obj : Nat) : Engine :=
  let e := e.poisoned row a obj
  if (e.gft.live.map fun l => l.epoch) = some m.epoch then e.loseModel else e

/-- The bytes of a resident section: `none` where they are poisoned. -/
def Engine.readSect (e : Engine) (m : Model) (s : Sect) (row obj : Nat) (ecc : Ecc) : Option Bytes × Engine :=
  let a := m.secAddr s
  match e.checkRead 0 a s.len ecc with
  | (true, e) => (none, e.modelPoison m row a obj)
  | (false, e) => (some (e.readMem a s.len), e)

/-- A step that is not evaluated: grade NONE with reason BYPASS (R689). -/
def Engine.skipEval (e : Engine) (id : Nat) : Engine := (e.setPkt id fun p => p.flag flBYPASS).advance id

/-- GRADE builds the whole vector, under the grader's rate and in arrival order (R376, R377). -/
def gradeStep (ecc : Ecc) (p : Pkt) (arg : Nat) (e : Engine) : Engine :=
  if p.noEval then e.skipEval p.id
  else if e.earlierWaits p 3 1 then e.wait p.id 1
  else match e.takeRate 1 8 8 with
    | none => e.wait p.id 1
    | some e =>
      let e := (e.count (Reg.ORC_CNT 1)).busy 290
      let zero := List.replicate 256 0
      match (e.modelFor p).bind fun m => (m.sect 3 arg).map fun s => (m, s) with
      | none =>
        let e := (e.count (Reg.ORC_CNT 8)).evt Fld.ORC_EVT_NO_VECTOR
        (e.setPkt p.id fun p => { p with vec := some (none, zero) }).advance p.id
      | some (m, s) =>
        match e.readSect m s 5 (e.pktRef p.ts) ecc with
        | (none, e) => e.skipEval p.id
        | (some im, e) =>
          let r := gradeVector im p.orcBlock
          (e.setPkt p.id fun p => ({ p with vec := some (some arg, r.1) }).numFlags r.2).advance p.id

/-- GRADE. -/
def execGrade (pkt : Nat) (ecc : Ecc) (s : State) : Res := engineStep s fun e => e.dispatch pkt 3 (gradeStep ecc)

/-! ### Ensembles (R378 to R385) -/

/-- The image's bytes of an ensemble descriptor; one of zero trees where the image defines none (R385). -/
def Model.ensemble (m : Option Model) (i : Nat) : Option Bytes :=
  m.bind fun m => (m.sect 4 i).map fun s => sectBytes m.image s

/-- NTREES. -/
def ensTrees (d : Bytes) : Nat := leAt d 0 4 % 2 ^ 13

/-- Walks one tree from node `i`: the leaf's VALUE, and the addresses of the nodes read. -/
def walkTree (node : Nat → Nat) (vec : List Nat) (fuel i : Nat) : Nat × List Nat :=
  match fuel with
  | 0 => (0, [])
  | k + 1 =>
    let x := node i
    if bitOf x 40 then (x % 2 ^ 32, [i])
    else
      let w := vec.getD (bitsOf x 39 32) 0
      let left := if bitOf x 41 then decide ((f32v w).rat < (f32v (x % 2 ^ 32)).rat) else decide (w < x % 2 ^ 32)
      let r := walkTree node vec k (if left then i + 1 else bitsOf x 63 44)
      (r.1, i :: r.2)

/-- `evaluate` of R382 over the first `n` roots: the sum, its flags, and the nodes read. -/
def evalTrees (node : Nat → Nat) (vec : List Nat) (roots : List Nat) (base : Nat) : Nat × Nat × List Nat :=
  roots.foldl (fun (acc : Nat × Nat × List Nat) r =>
    let t := walkTree node vec 17 r
    let s := f32add acc.1 t.1
    (s.1, acc.2.1 ||| s.2, acc.2.2 ++ t.2)) (base, 0, [])

/-- BUCKET of a sum (R383). -/
def bucketOf (d : Bytes) (s : Nat) (cut : Bool) : Nat :=
  let v := f32v s
  let c := if v.isNan then 0
    else ((List.range (byteAt d 13)).filter fun k => decide ((f32v (leAt d (16 + 4 * k) 4)).rat ≤ v.rat)).length
  c + 16 * bit cut

/-- The result of an evaluation: the sum and the flags, or nothing where a poisoned word was met. -/
def Engine.evalEnsemble (e : Engine) (m : Model) (d : Bytes) (vec : List Nat) (n obj : Nat) (ecc : Ecc) :
    Option (Nat × Nat) × Engine :=
  let ra := e.mwAddr m + leAt d 4 4
  let (bad, e) := e.checkRead 0 ra (4 * n) ecc
  if bad then (none, e.modelPoison m 5 ra obj)
  else
    let na := e.nodeAddr m
    let roots := (List.range n).map fun k => leNat (e.readMem (ra + 4 * k) 4) % 2 ^ 20
    let r := evalTrees (fun i => leNat (e.readMem (na + 8 * i) 8)) vec roots (leAt d 8 4)
    match r.2.2.find? fun i => decide (na + 8 * i ∈ e.poison) with
    | some i => (none, ((e.memUe 0 (na + 8 * i) false).modelPoison m 5 (na + 8 * i) obj))
    | none => (some (r.1, r.2.1), e.alwaysN Reg.ORC_CNT0 n)

/-! ### Admission (R386 to R391) -/

/-- The backlog B. -/
def Engine.backlog (e : Engine) : Nat := e.orc.queued + (e.orc.pipe.map Prod.snd).sum

/-- Orchard halves that are ON. -/
def Engine.halves (e : Engine) : List Nat := [0, 1].filter fun h => e.domOn (12 + h)

/-- Trees join the backlog. -/
def Engine.admitTrees (e : Engine) (n : Nat) : Engine := { e with orc := { e.orc with queued := e.orc.queued + n } }

/-- Those who still wait for admission, in order: packets on their path, commands not ended. -/
def Engine.orcWaiters (e : Engine) : List OrcWait :=
  e.orc.waiting.filter fun w => match w with
    | .pkt id => (match e.pkt id with | some p => p.onPath && !p.failed && !p.noEval | none => false)
    | .cmd id => (e.cmd id).isSome
    | .thr tid => (match Tbl.find e.ril.threads (tid % 8192) with | some t => t.id == tid && t.ended.isNone | none => false)

/-- Nobody ahead of this one waits. -/
def Engine.orcTurn (e : Engine) (w : OrcWait) : Bool :=
  match e.orcWaiters with
  | [] => true
  | x :: _ => x == w

/-- It takes its place in the order. -/
def Engine.orcJoin (e : Engine) (w : OrcWait) : Engine :=
  if w ∈ e.orc.waiting then e else { e with orc := { e.orc with waiting := e.orcWaiters ++ [w] } }

/-- It has been admitted. -/
def Engine.orcLeave (e : Engine) (w : OrcWait) : Engine := { e with orc := { e.orc with waiting := e.orc.waiting.filter (· != w) } }

/-- R388: the packet's limit and policy once decided, and the trees of this step; `none` while it waits. -/
def Engine.orcAdmit (e : Engine) (p : Pkt) (t : Nat) : Option ((Option Nat × Bool) × Nat) :=
  let above := decide (e.get Fld.ORC_CFG_BACKLOG_THR < e.backlog + t)
  let room := !above || e.backlog == 0
  match p.limit with
  | none =>
    if e.is (Fld.ORC_POLICY_MODE p.cls) then (if room then some ((none, true), t) else none)
    else
      let lim := if above then some (e.get (Fld.ORC_POLICY_TRUNC_N p.cls)) else none
      some ((lim, false), min t (lim.getD t))
  | some (lim, bp) => if bp && !room then none else some ((lim, bp), min t (lim.getD t))

/-- The bookkeeping of a step that evaluates fewer than its trees (R389). -/
def Engine.noteTrunc (e : Engine) (p : Pkt) (t n : Nat) : Engine :=
  if n < t then
    let e := ((e.count (Reg.ORC_CNT 3)).countN (Reg.ORC_CNT 4) (t - n)).evt Fld.ORC_EVT_TRUNC
    if bitOf p.flags flTRUNC then e else e.tally (Reg.ORC_TRUNC p.cls)
  else e

/-- A residue failure in a tree pipeline (R693, Table ERR-2 row 8): ENGINE_UE, and no corrupted leaf is used. -/
def Engine.orcResidue (e : Engine) : Engine :=
  let h := (e.halves.headD 0)
  let e := (e.alwaysN (Reg.ERR_UE 7) 1).evt Fld.ERR_EVT_UE
  ((e.errRecord 0x13 2 18 7 0 0 0 (32 + h) 0 0).poisoned 8 0 0).engineUe (32 + h)

/-- An admitted ORCHARD step evaluates its trees and sets S and BUCKET (R382 to R385). -/
def Engine.orcRun (e : Engine) (p : Pkt) (arg : Nat) (d : Option Bytes) (t n : Nat) (lim : Option Nat × Bool) (ecc : Ecc) : Engine :=
  let e := ((e.count (Reg.ORC_CNT 2)).admitTrees n).noteTrunc p t n
  let e := if d.isNone then e.count (Reg.ORC_CNT 7) else e
  let e := if p.vec.isNone then (e.count (Reg.ORC_CNT 8)).evt Fld.ORC_EVT_NO_VECTOR else e
  let p := { p with limit := some lim, ens := some arg }
  let p := if n < t then { p.flag flTRUNC with truncN := some (lim.1.getD n) } else p
  match d with
  | none => (e.setPkt p.id fun _ => { p with sum := 0, bucket := 0 }).advance p.id
  | some d =>
    let mism := match p.vec with | some (some g, _) => g != byteAt d 12 % 64 | _ => false
    let e := if mism then e.count (Reg.ORC_CNT 9) else e
    let vec := match p.vec with | some v => v.2 | none => []
    match e.modelFor p with
    | none => (e.setPkt p.id fun _ => p).skipEval p.id
    | some m =>
      let (x, e) := if n = 0 then (ecc, e) else e.takeInject 7 ecc
      if x = .residue ∧ n ≠ 0 then ((e.setPkt p.id fun _ => p).orcResidue).skipEval p.id
      else match e.evalEnsemble m d vec n (e.pktRef p.ts) ecc with
        | (none, e) => (e.setPkt p.id fun q => { p with noEval := q.noEval }).skipEval p.id
        | (some (s, fl), e) =>
          -- a joined y is one more addend after the last tree (R419)
          let (s, fl) := match if p.seq then p.y else none with
            | some y => let r := f32add s y; (r.1, fl ||| r.2)
            | none => (s, fl)
          (e.setPkt p.id fun _ => ({ p with sum := s, bucket := bucketOf d s (decide (n < t)) }).numFlags fl).advance p.id

/-- ORCHARD. -/
def orchardStep (ecc : Ecc) (p : Pkt) (arg : Nat) (e : Engine) : Engine :=
  if p.noEval then e.skipEval p.id
  else if e.halves.isEmpty then
    ((e.count (Reg.CLK_CNT 2)).setPkt p.id fun p => p.flag flDOMAIN).advance p.id
  else
    let w := OrcWait.pkt p.id
    if !e.orcTurn w then (e.orcJoin w).wait p.id 10
    else
      let d := Model.ensemble (e.modelFor p) arg
      let t := match d with | some d => ensTrees d | none => 0
      match e.orcAdmit p t with
      | none => ((e.orcJoin w).evt Fld.ORC_EVT_WAIT).wait p.id 10
      | some (lim, n) =>
        match e.takeRate 4 64 8 with
        | none => (e.orcJoin w).wait p.id 1
        | some e => (e.orcLeave w).orcRun p arg d t n lim ecc

/-- ORCHARD. -/
def execOrchard (pkt : Nat) (ecc : Ecc) (s : State) : Res := engineStep s fun e => e.dispatch pkt 4 (orchardStep ecc)

/-- ORCHARD_ADMIT: the step at the head of the order is taken up again (R391). -/
def orchardAdmit (e : Engine) : Engine :=
  match e.orcWaiters with
  | .pkt id :: _ => e.dispatch id 4 (orchardStep .clean)
  | _ => e

/-- ORCHARD_ADMIT. -/
def execOrchardAdmit (s : State) : Res := engineStep s orchardAdmit

/-! ### Commands (R394) -/

/-- The model of a bank code: 0 live, 1 shadow. -/
def Engine.bankModel (e : Engine) (b : Nat) : Option Model := if b = 0 then e.gft.live else e.gft.shadow

/-- A command of group 0x4: it takes its place among the steps that wait for admission (R387), and is checked for LENGTH
and bank. -/
def orcCmd (id op len : Nat) (f : Cmd → Model → Engine → Engine) (e : Engine) : Engine :=
  match e.startable id op with
  | none => e
  | some _ =>
    if !e.orcTurn (.cmd id) then e.orcJoin (.cmd id)
    else withCmd id op 290 (fun c e =>
      let e := e.orcLeave (.cmd id)
      if c.len ≠ len ∨ 1 < c.arg 33 1 then e.finish c.id 0x10
      else match e.bankModel (c.arg 33 1) with
        | none => e.finish c.id 0x20
        | some m => f c m e) e

/-- ORC_GRADE: the vector that a GRADE step would build from an input block. -/
def orcGrade (id : Nat) (h : HostRead) (e : Engine) : Engine :=
  orcCmd id 0x40 336 h' e
where
  /-- Its work. -/
  h' (c : Cmd) (m : Model) (e : Engine) : Engine :=
    match e.cmdData c h with
    | (none, e) => e
    | (some b, e) =>
      match m.sect 3 (c.arg 32 1) with
      | none => (e.cmdWrite c (List.replicate 1024 0)).finishOk c.id 0
      | some s =>
        match e.readSect m s 5 (e.cmdRef c) .clean with
        | (none, e) => e.finish c.id 0x31
        | (some im, e) =>
          let r := gradeVector im b
          (e.cmdWrite c (packElems .f32 r.1)).complete c.id 0 0 (r.2 % 16) none 290

/-- ORC_GRADE. -/
def execOrcGrade (cmd : Nat) (src : HostRead) (s : State) : Res := engineStep s (orcGrade cmd src)

/-- ORC_EVAL: an ensemble over a supplied vector, cut at N trees. -/
def orcEval (id : Nat) (h : HostRead) (e : Engine) : Engine :=
  orcCmd id 0x41 1024 h' e
where
  /-- Its work. -/
  h' (c : Cmd) (m : Model) (e : Engine) : Engine :=
    if e.halves.isEmpty then e.finish c.id 0x21
    else match e.cmdData c h with
      | (none, e) => e
      | (some b, e) =>
        match Model.ensemble (some m) (c.arg 32 1) with
        | none => e.complete c.id 0 0 0 none (288 + e.halves.headD 0)
        | some d =>
          let t := ensTrees d
          let n := min t (c.arg 36 4)
          let vec := (List.range 256).map fun i => leAt b (4 * i) 4
          match (e.admitTrees n).evalEnsemble m d vec n (e.cmdRef c) .clean with
          | (none, e) => e.finish c.id 0x31
          | (some (s, fl), e) =>
            e.complete c.id 0 (s + 2 ^ 32 * bucketOf d s (decide (n < t))) (fl % 16) none (288 + e.halves.headD 0)

/-- ORC_EVAL. -/
def execOrcEval (cmd : Nat) (src : HostRead) (s : State) : Res := engineStep s (orcEval cmd src)

/-- The orchard profiles (Table ORC-6). -/
def orcExpand (v : Nat) : Option (Engine → Engine) :=
  ([(0, 32), (0, 16), (1, 32)][v]?).map fun x e =>
    (List.range 4096).foldl (fun e c => e.wr (Reg.ORC_POLICY c) (x.2 + 2 ^ 31 * x.1)) (e.put Fld.ORC_CFG_BACKLOG_THR 16384)

/-- ORC_PROFILE_SELECT (R392). -/
def execOrcProfileSelect (v : Nat) (s : State) : Res :=
  hostStep s (profileWrite 8 Fld.ORC_PROFILE_PROFILE v (orcExpand v))

end Sys2Proof.Machine
end

