-- ==== Sys2Proof/Machine/MillMath.lean ====
section
/-!
DEFINITION. MillMath.lean: stage descriptors, the hopper, the multiply and accumulate, and the chute (R400 to R413).
-/
namespace Sys2Proof.Machine

/-! ### Exponentials and square roots (R409, log entry 15) -/

/-- Bits of the fixed-point values below the point. -/
def expBits : Nat := 640

/-- `exp` of a rational from −256 to 0 as a fixed-point value: a Taylor series at t ÷ 1,024, then ten squarings. -/
def expFix (t : Rat) : Int :=
  let one : Int := (2 ^ expBits : Nat)
  let r : Int := (t * ((2 ^ expBits : Nat) : Rat) / 1024).floor
  let s := (List.range 64).foldl (fun (acc : Int × Int) i =>
    let term := acc.2 * r / one / ((i + 1 : Nat) : Int)
    (acc.1 + term, term)) (one, one)
  (List.range 10).foldl (fun v _ => v * v / one) s.1

/-- `exp` of a rational that is at most 0, far closer than any rounding to K20 can tell; below −256 it is less than
any K20 value by many powers of two. -/
def expNeg (t : Rat) : Rat :=
  if t = 0 then 1
  else if t < -256 then 1 / ((2 ^ 368 : Nat) : Rat)
  else (expFix t : Rat) / ((2 ^ expBits : Nat) : Rat)

/-- The square root of a rational that is at least 0, exact where it is rational. -/
def ratSqrt (q : Rat) : Rat :=
  let n := q.num.toNat * q.den
  let r := Nat.sqrt n
  if r * r = n then (r : Rat) / (q.den : Rat)
  else ((Nat.sqrt (n * 2 ^ 1024) : Nat) : Rat) / ((2 ^ 512 : Nat) : Rat) / (q.den : Rat)

/-! ### Stage descriptors (Table MIL-1) -/

def stM (b : Bytes) : Nat := leAt b 0 2 % 2 ^ 13
/-- N, or HIST_LEN where N_HL is set. -/
def stN (b : Bytes) (hl : Nat) : Nat := if bitOf (leAt b 2 2) 15 then hl else leAt b 2 2 % 2 ^ 13
/-- K, or HIST_LEN where K_HL is set. -/
def stK (b : Bytes) (hl : Nat) : Nat := if bitOf (leAt b 4 2) 15 then hl else leAt b 4 2 % 2 ^ 13
def stASrc (b : Bytes) : Nat := byteAt b 6 % 16
def stBSrc (b : Bytes) : Nat := byteAt b 6 / 16
def stCDst (b : Bytes) : Nat := byteAt b 7 % 16
def stRSrc (b : Bytes) : Nat := byteAt b 7 / 16
def stAFmt (b : Bytes) : Nat := byteAt b 8 % 16
def stBFmt (b : Bytes) : Nat := byteAt b 8 / 16
def stCFmt (b : Bytes) : Nat := byteAt b 9 % 16
def stRFmt (b : Bytes) : Nat := byteAt b 9 / 16
def stHop (b : Bytes) : Nat := byteAt b 10 % 8
def stTile (b : Bytes) : Nat := byteAt b 11 % 128
def stTransA (b : Bytes) : Bool := bitOf (byteAt b 12) 0
def stTransB (b : Bytes) : Bool := bitOf (byteAt b 12) 1
def stBChan (b : Bytes) : Bool := bitOf (byteAt b 12) 2
def stChTable (b : Bytes) : Bool := bitOf (byteAt b 12) 3
def stChMode (b : Bytes) : Nat := bitsOf (byteAt b 12) 5 4
def stContext (b : Bytes) : Nat := leAt b 14 2
/-- Scale i of A, B, R, C. -/
def stScale (b : Bytes) (i : Nat) : Nat := leAt b (16 + 4 * i) 4
/-- Zero point i of A, B, R, C. -/
def stZp (b : Bytes) (i : Nat) : Nat := byteAt b (32 + i)
/-- Address i of A, B, C, R, B_QP, CH, HOP, C_QP. -/
def stAddr (b : Bytes) (i : Nat) : Nat := leAt b (48 + 8 * i) 8
def stP0 (b : Bytes) : Nat := leAt b 36 4
def stP1 (b : Bytes) : Nat := leAt b 40 4

/-- A format field; the code has been checked. -/
def fmtOf (c : Nat) : Fmt := (Fmt.ofCode c).getD .f32
/-- A source or destination is a register REG0 to REG3. -/
def isReg (c : Nat) : Bool := decide (1 ≤ c) && decide (c ≤ 4)
/-- The list of stages of a byte string. -/
def stagesOf (d : Bytes) : List Bytes := (List.range (d.length / 128)).map fun i => slice d (128 * i) 128

/-! ### Checks of a stage (R403, R404, R408, R412, R414, R428) -/

/-- Binary32 as a register holds it: FMT 7, scale 1.0, zero point 0. -/
def plainF32 (f s z : Nat) : Bool := f == 7 && s == 0x3F800000 && z == 0

/-- A finite binary32 code. -/
def f32Finite (c : Nat) : Bool := bitsOf c 30 23 != 255

/-- Where a stage list may find its operands: a template's lie in its image's MWBLOCK, a command's in the module-local
ranges of R404. -/
structure StageWhere where
  tmpl : Bool
  /-- MWBLOCK's bytes, for a template. -/
  mw : Bytes
deriving DecidableEq, Repr

/-- A range that a stage may name. -/
def StageWhere.inside (w : StageWhere) (a n : Nat) : Bool :=
  if w.tmpl then decide (a + n ≤ w.mw.length)
  else decide (a + n ≤ 0xC000000) || (decide (0x10000000 ≤ a) && decide (a + n ≤ 0x11000000)) ||
    (decide (0x04000000000 ≤ a) && decide (a + n ≤ 0x05000000000))

/-- A MEM operand of `rows` × `cols` elements: format, parameters, INT4 rows of even length, and its range. -/
def memOperandOk (w : StageWhere) (f s z addr rows cols : Nat) (perChannel : Bool) : Bool :=
  decide (f ≤ 8) && (perChannel || (scaleOk s && zpOk (fmtOf f) z)) && (f != 0 || cols % 2 == 0) &&
    w.inside addr ((fmtOf f).bytesOf (rows * cols))

/-- The shape of a history operand: N × K with K = 32 under TRANS_B, else K × N with N = 32. -/
def histShapeOk (b : Bytes) : Bool :=
  stBFmt b == 0 && !stBChan b &&
    (if stTransB b then bitOf (leAt b 2 2) 15 && leAt b 4 2 == 32 else bitOf (leAt b 4 2) 15 && leAt b 2 2 == 32)

/-- The hopper parameters that lie in the descriptor are sound. -/
def hopParamsOk (b : Bytes) : Bool :=
  match stHop b with
  | 2 => f32Finite (stP0 b)
  | 3 => f32Finite (stP0 b) && f32Finite (stP1 b)
  | 6 => f32Finite (stP0 b) && !bitOf (stP0 b) 31
  | _ => true

/-- Bytes of the hopper table of a mode. -/
def hopTableLen (mode k : Nat) : Nat := if mode = 4 then 776 else if mode = 5 ∨ mode = 6 then 8 * k else 0

/-- A hopper table's values are finite, and PWL knots rise strictly (R408). -/
def hopTableOk (mode : Nat) (t : Bytes) : Bool :=
  (List.range (t.length / 4)).all (fun i => f32Finite (leAt t (4 * i) 4)) &&
    (mode != 4 || (List.range 63).all fun i => decide ((f32v (leAt t (4 * i) 4)).rat < (f32v (leAt t (4 * i + 4) 4)).rat))

/-- Some channel uses mode bit `i`; a table's bytes are given. -/
def anyChMode (b ch : Bytes) (i : Nat) : Bool := if stChTable b then ch.any (fun c => bitOf c.toNat i) else bitOf (stChMode b) i

/-- The rules that a stage descriptor must meet. `ch` is its channel table, `qp` its per-column parameters and `hop` its
hopper table, where it has them. -/
def stageOk (w : StageWhere) (b ch qp hop : Bytes) : Bool :=
  let nhl := bitOf (leAt b 2 2) 15
  let khl := bitOf (leAt b 4 2) 15
  let n := stN b 16
  let k := stK b 16
  let m := stM b
  let as_ := stASrc b
  let bs := stBSrc b
  let cd := stCDst b
  let rs := stRSrc b
  let reserved := bitsOf (leAt b 0 2) 15 13 == 0 && bitsOf (leAt b 2 2) 14 13 == 0 && bitsOf (leAt b 4 2) 14 13 == 0 &&
    decide (byteAt b 10 < 8) && decide (byteAt b 11 < 128) && decide (byteAt b 12 < 64) && byteAt b 13 == 0 &&
    leAt b 44 4 == 0 && leAt b 112 16 == 0
  let dims := decide (1 ≤ m) && decide (m ≤ 4096) && (nhl || (decide (1 ≤ n) && decide (n ≤ 4096))) && (khl || decide (k ≤ 4096)) &&
    (w.tmpl || (!nhl && !khl)) && (!w.tmpl || (m == 1 && !stTransA b && stContext b == 0xFFFF))
  let fmts := decide (stAFmt b ≤ 8) && decide (stBFmt b ≤ 8) && decide (stCFmt b ≤ 8) && decide (stRFmt b ≤ 8)
  let aOk :=
    if as_ = 0 then memOperandOk w (stAFmt b) (stScale b 0) (stZp b 0) (stAddr b 0) (if stTransA b then k else m)
      (if stTransA b then m else k) false
    else if isReg as_ then plainF32 (stAFmt b) (stScale b 0) (stZp b 0) && decide (m ≤ 64) && decide (k ≤ 64)
    else w.tmpl && as_ == 8 && plainF32 (stAFmt b) (stScale b 0) (stZp b 0) && decide (k ≤ 256)
  let bOk :=
    if bs = 0 then
      memOperandOk w (stBFmt b) (stScale b 1) (stZp b 1) (stAddr b 1) (if stTransB b then n else k) (if stTransB b then k else n) (stBChan b)
        && (!stBChan b || (w.inside (stAddr b 4) (8 * n) && (List.range n).all fun i =>
          scaleOk (leAt qp (8 * i) 4) && zpOk (fmtOf (stBFmt b)) (byteAt qp (8 * i + 4)) && leAt qp (8 * i + 5) 3 == 0))
    else if isReg bs then plainF32 (stBFmt b) (stScale b 1) (stZp b 1) && !stBChan b && decide (k ≤ 64) && decide (n ≤ 64)
    else w.tmpl && (bs == 9 || bs == 10) && histShapeOk b
  let cOk :=
    if cd = 0 then memOperandOk w (stCFmt b) (stScale b 3) (stZp b 3) (stAddr b 2) m n false
    else isReg cd && plainF32 (stCFmt b) (stScale b 3) (stZp b 3) && decide (m ≤ 64) && decide (n ≤ 64) && !anyChMode b ch 1
  let rOk :=
    if rs = 0 then memOperandOk w (stRFmt b) (stScale b 2) (stZp b 2) (stAddr b 3) m n false
    else if isReg rs then plainF32 (stRFmt b) (stScale b 2) (stZp b 2) && decide (m ≤ 64) && decide (n ≤ 64)
    else rs == 15
  let chOk := (!stChTable b || w.inside (stAddr b 5) n) && (!anyChMode b ch 1 ||
    ([1, 2, 4, 8, 16, 32, 64].contains (stTile b) && w.inside (stAddr b 7) (ceilDiv m (max (stTile b) 1) * n * 8)))
  let hopOk := hopParamsOk b && (hopTableLen (stHop b) k == 0 || (w.inside (stAddr b 6) (hopTableLen (stHop b) k) && hopTableOk (stHop b) hop))
  let ctxOk := stContext b == 0xFFFF || decide (stContext b < 256)
  let used : List Bool := [as_ == 0, bs == 0, cd == 0, rs == 0, stBChan b && bs == 0, stChTable b,
    hopTableLen (stHop b) 1 != 0, anyChMode b ch 1]
  let unused := (List.range 8).all fun i => used.getD i false || stAddr b i == 0
  reserved && dims && fmts && aOk && bOk && cOk && rOk && chOk && hopOk && ctxOk && unused

/-- A stage is checked with the tables it names read by `rd`. -/
def checkStage (w : StageWhere) (rd : Nat → Nat → Bytes) (b : Bytes) : Bool :=
  let n := stN b 16
  let ch := if stChTable b && w.inside (stAddr b 5) n then rd (stAddr b 5) n else []
  let qp := if stBChan b && w.inside (stAddr b 4) (8 * n) then rd (stAddr b 4) (8 * n) else []
  let hl := hopTableLen (stHop b) (stK b 16)
  let hop := if hl != 0 && w.inside (stAddr b 6) hl then rd (stAddr b 6) hl else []
  stageOk w b ch qp hop

/-! ### The hopper (R408, R409) -/

/-- The exact mean and population variance. -/
def meanVar (xs : List Rat) : Rat × Rat :=
  let n : Rat := (xs.length : Rat)
  let mu := xs.sum / n
  (mu, (xs.map fun x => (x - mu) * (x - mu)).sum / n)

/-- One element under an element mode, exactly. -/
def hopElem (mode : Nat) (p0 p1 : NVal) (t : Bytes) (i : Nat) (x : NVal) : NVal :=
  let f (o : Nat) : NVal := f32v (leAt t o 4)
  match x with
  | .nan => .nan
  | _ =>
    match mode with
    | 1 => if 0 < x.rat then x else .num false 0
    | 2 => if 0 < x.rat then x else x.mul p0
    | 3 =>
      let y := if x.rat < p0.rat then p0 else x
      if p1.rat < y.rat then p1 else y
    | 4 =>
      let j := ((List.range 64).filter fun k => decide ((f (4 * k)).rat ≤ x.rat)).length
      ((f (256 + 4 * j)).mul x).add (f (516 + 4 * j))
    | 5 => (x.mul (f (8 * i))).add (f (8 * i + 4))
    | _ => x

/-- A row of A through the hopper: each element's K20 code and the flags of its one narrowing. -/
def hopRow (mode : Nat) (p0 p1 : NVal) (t : Bytes) (xs : List NVal) : List (Nat × Nat) :=
  if mode = 6 ∨ mode = 7 then
    if xs.any NVal.isNan then xs.map fun _ => (Fmt.canonNan .k20, fNAN)
    else
      let rs := xs.map NVal.rat
      if mode = 6 then
        let mv := meanVar rs
        let sd := ratSqrt (mv.2 + p0.rat)
        rs.zipIdx.map fun (r : Rat × Nat) =>
          let z := if sd = 0 then 0 else (r.1 - mv.1) / sd
          narrow .k20 (((NVal.ofRat z).mul (f32v (leAt t (8 * r.2) 4))).add (f32v (leAt t (8 * r.2 + 4) 4)))
      else
        let mx := rs.foldl max (rs.headD 0)
        let es := rs.map fun r => expNeg (r - mx)
        let sum := es.sum
        es.map fun v => narrow .k20 (NVal.ofRat (v / sum))
  else xs.zipIdx.map fun (x : NVal × Nat) => narrow .k20 (hopElem mode p0 p1 t x.2 x.1)

/-! ### Running a stage (R405 to R413) -/

/-- What a list of stages has made so far: the engine, the registers (key 4,096 × register + 64 × row + column), the
flags, and the address of a poisoned word that was met. -/
structure MilAcc where
  e : Engine
  regs : Tbl Nat := []
  flags : Nat := 0
  bad : Option Nat := none
  nans : Nat := 0

/-- What a list reads beside memory: the base of its addresses, INPUT, and the history of the row. -/
structure MilIn where
  base : Nat := 0
  input : List NVal := []
  hl : Nat := 0
  /-- History codes by entry in logical order, keys and values, and their scales and zero points. -/
  hk : List (List Nat) := []
  hv : List (List Nat) := []
  kScale : Nat := 0
  vScale : Nat := 0
  kZp : Nat := 0
  vZp : Nat := 0

/-- An element of a register. -/
def MilAcc.reg (a : MilAcc) (src r c : Nat) : Nat := Tbl.get 0 a.regs (4096 * (src - 1) + 64 * r + c)

/-- Reads operand bytes, noting a poisoned word. -/
def MilAcc.read (a : MilAcc) (addr n : Nat) : Bytes × MilAcc :=
  match (protWords (localMem addr) addr n).find? fun w => decide (w ∈ a.e.poison) with
  | some w => (a.e.readMem addr n, { a with bad := some (a.bad.getD w) })
  | none => (a.e.readMem addr n, a)

/-- A K20 code as a value. -/
def k20v (c : Nat) : NVal := (decode .k20 c).1

/-- Row `r` of A after the hopper: K20 values and flags. -/
def rowA (b : Bytes) (x : MilIn) (a : MilAcc) (da hop : Bytes) (r k m : Nat) : List NVal × Nat :=
  let f := fmtOf (stAFmt b)
  let raw := (List.range k).map fun j =>
    if stASrc b = 0 then codeValue f (elemAt f da (if stTransA b then j * m + r else r * k + j)) (stZp b 0) (f32q (stScale b 0))
    else if stASrc b = 8 then (x.input.getD j (.num false 0), 0)
    else
      let c := if stTransA b then a.reg (stASrc b) j r else a.reg (stASrc b) r j
      (f32v c, (decode .f32 c).2)
  let h := hopRow (stHop b) (f32v (stP0 b)) (f32v (stP1 b)) hop (raw.map Prod.fst)
  (h.map fun c => k20v c.1, (raw.foldl (fun g (v : NVal × Nat) => g ||| v.2) 0) ||| (h.foldl (fun g (v : Nat × Nat) => g ||| v.2) 0))

/-- Element (kk, j) of B in K20 with the flags of its dequantisation. -/
def elemB (b : Bytes) (x : MilIn) (a : MilAcc) (db qp : Bytes) (kk j n k : Nat) : NVal × Nat :=
  let hist (rows : List (List Nat)) (z s : Nat) : Nat × Nat :=
    let row := if stTransB b then j else kk
    let d := if stTransB b then kk else j
    dequantise .int4 ((rows.getD row []).getD d 0) (z % 16) (f32q s) .k20
  let c : Nat × Nat :=
    match stBSrc b with
    | 0 =>
      let f := fmtOf (stBFmt b)
      let code := elemAt f db (if stTransB b then j * k + kk else kk * n + j)
      if stBChan b then dequantise f code (byteAt qp (8 * j + 4)) (f32q (leAt qp (8 * j) 4)) .k20
      else dequantise f code (stZp b 1) (f32q (stScale b 1)) .k20
    | 9 => hist x.hk x.kZp x.kScale
    | 10 => hist x.hv x.vZp x.vScale
    | s => dequantise .f32 (if stTransB b then a.reg s j kk else a.reg s kk j) 0 1 .k20
  (k20v c.1, c.2)

/-- The reduction of one output element in ascending k, each addition narrowed once (R407, R410). -/
def reduce (ps : List (NVal × NVal)) : Nat × Nat :=
  if ps.any fun p => p.1.isNan || p.2.isNan then (Fmt.canonNan .f32, fNAN)
  else ps.foldl (fun (acc : Nat × Nat) p =>
    let s := toF32 ((f32v acc.1).add (p.1.mul p.2))
    (s.1, acc.2 ||| s.2)) (0, 0)

/-- A channel's chute mode. -/
def chModeOf (b ch : Bytes) (j : Nat) : Nat := if stChTable b then byteAt ch j % 4 else stChMode b

/-- The values of a tile's rows of one channel give its range parameters (R348, R349, R413). -/
def tileParams (f : Fmt) (vs : List Nat) : Nat × Nat :=
  let qs := (vs.filter fun c => !(f32v c).isNan).map f32q
  paramsFromRange f (qs.foldl min (qs.headD 0)) (qs.foldl max (qs.headD 0))

/-- The tensor C goes to its destination, and its elements to their context's window. -/
def storeC (b : Bytes) (x : MilIn) (a : MilAcc) (out : List (Nat × Nat × Nat × Nat × Nat)) (m n : Nat) : MilAcc :=
  -- each element: v, scale, zero point, code, flags, in row-major order
  let t := stContext b
  let e := if t < 256 then
      (out.foldl (fun (e : Engine) o => e.winAdd t o.2.1 o.2.2.1 (f32v o.1) o.2.2.2.1 o.2.2.2.2)
        (a.e.winOpen t (stScale b 3))).winClose t
    else a.e
  let codes := out.map fun o => o.2.2.2.1
  if stCDst b = 0 then { a with e := e.store (x.base + stAddr b 2) (packElems (fmtOf (stCFmt b)) codes) }
  else
    let put (regs : Tbl Nat) (i : Nat) : Tbl Nat :=
      Tbl.set 0 regs (4096 * (stCDst b - 1) + 64 * (i / n) + i % n) (codes.getD i 0)
    { a with e := e, regs := (List.range (m * n)).foldl put a.regs }

/-- One stage: C = chute(hopper(A) × B). -/
def runStage (x : MilIn) (a : MilAcc) (b : Bytes) : MilAcc :=
  let m := stM b
  let n := stN b x.hl
  let k := stK b x.hl
  let mem (src fmt i rows cols : Nat) (a : MilAcc) : Bytes × MilAcc :=
    if src = 0 then a.read (x.base + stAddr b i) ((fmtOf fmt).bytesOf (rows * cols)) else ([], a)
  let (da, a) := mem (stASrc b) (stAFmt b) 0 m k a
  let (db, a) := mem (stBSrc b) (stBFmt b) 1 k n a
  let (dr, a) := mem (stRSrc b) (stRFmt b) 3 m n a
  let (qp, a) := if stBChan b then a.read (x.base + stAddr b 4) (8 * n) else ([], a)
  let (ch, a) := if stChTable b then a.read (x.base + stAddr b 5) n else ([], a)
  let (hop, a) := if hopTableLen (stHop b) k = 0 then ([], a) else a.read (x.base + stAddr b 6) (hopTableLen (stHop b) k)
  let rows := (List.range m).map fun r => rowA b x a da hop r k m
  let cols := (List.range n).map fun j => (List.range k).map fun kk => elemB b x a db qp kk j n k
  let bfl := cols.foldl (fun g (c : List (NVal × Nat)) => c.foldl (fun g v => g ||| v.2) g) 0
  let rf := fmtOf (stRFmt b)
  -- v of each element, row-major, with flags
  let vs := (rows.zipIdx).flatMap fun (row : (List NVal × Nat) × Nat) =>
    (cols.zipIdx).map fun (col : List (NVal × Nat) × Nat) =>
      let acc := reduce (row.1.1.zip (col.1.map Prod.fst))
      if bitOf (chModeOf b ch col.2) 0 && stRSrc b != 15 then
        let r : Nat × Nat := if stRSrc b = 0 then dequantise rf (elemAt rf dr (row.2 * n + col.2)) (stZp b 2) (f32q (stScale b 2)) .f32
          else (a.reg (stRSrc b) row.2 col.2, 0)
        let s := f32add acc.1 r.1
        (s.1, acc.2 ||| r.2 ||| s.2)
      else acc
  let cf := fmtOf (stCFmt b)
  let tm := max (stTile b) 1
  let tile (r j : Nat) : Nat × Nat :=
    let t := r / tm
    tileParams cf ((List.range (min tm (m - t * tm))).map fun i => (vs.getD ((t * tm + i) * n + j) (0, 0)).1)
  let tiled := anyChMode b ch 1
  let out := (List.range (m * n)).map fun i =>
    let v := vs.getD i (0, 0)
    let p := if bitOf (chModeOf b ch (i % n)) 1 then tile (i / n) (i % n) else (stScale b 3, stZp b 3)
    let q := if plainF32 (stCFmt b) p.1 p.2 then v.1 |> fun c => (c, 0) else quantise cf (f32v v.1) (f32q p.1) p.2
    (v.1, p.1, p.2, q.1, q.2)
  let fl := (rows.foldl (fun g (r : List NVal × Nat) => g ||| r.2) 0) ||| bfl ||| (vs.foldl (fun g (v : Nat × Nat) => g ||| v.2) 0) |||
    (out.foldl (fun g (o : Nat × Nat × Nat × Nat × Nat) => g ||| o.2.2.2.2) 0)
  let nans := (vs.filter fun v => (f32v v.1).isNan).length
  let a := { a with flags := a.flags ||| (fl % 16), nans := a.nans + nans, e := a.e.alwaysN Reg.MIL_MACS (m * n * k) }
  let a := storeC b x a out m n
  if tiled then
    let qps := (List.range (ceilDiv m tm)).flatMap fun t => (List.range n).flatMap fun j =>
      let p := if bitOf (chModeOf b ch j) 1 then tile (t * tm) j else (stScale b 3, stZp b 3)
      natLE 4 p.1 ++ natLE 1 p.2 ++ natLE 3 0
    { a with e := a.e.store (x.base + stAddr b 7) qps }
  else a

/-- A list of stages, in order. -/
def runStages (x : MilIn) (a : MilAcc) (l : List Bytes) : MilAcc := l.foldl (runStage x) a

/-- The cycles a list occupies a mill (R417), a stage of more than 64 rows once for each 64 of them. -/
def stageCycles (hl : Nat) (l : List Bytes) : Nat :=
  (l.map fun b => ceilDiv (stM b) 64 * ceilDiv (stN b hl) 64 * (stK b hl + 16)).sum

end Sys2Proof.Machine
end

