-- ==== Sys2Proof/Machine/SheafCmds.lean ====
section
/-!
DEFINITION. SheafCmds.lean: the sheaf and loft commands and the sheaf profiles (R327 to R332).
-/
namespace Sys2Proof.Machine

/-- The tier code of SHF_READ and SHF_DELETE: 0 absent, 1 granary, 2 silo, 3 loft. -/
def Engine.tierCode (e : Engine) (key : Bytes) : Nat :=
  match e.sheaf key with
  | some s => if s.tier = 2 ∧ !e.is Fld.SHF_LOFT_EN then 0 else s.tier + 1
  | none => 0

/-- A sheaf's history is reset (R310, Table ERR-2). -/
def Engine.resetHistory (e : Engine) (s : Sheaf) : Engine :=
  e.writeHot s (patch (patch (e.hotOf s) 68 (natLE 2 0)) 70 (natLE 1 0))

/-- The hot part and history of a present sheaf, poisoned parts met as Table ERR-2 says: a hot part deletes the sheaf,
a history is reset. -/
def Engine.readSheaf (e : Engine) (key : Bytes) : Option Bytes × Engine :=
  match e.sheaf key with
  | none => (none, e)
  | some s =>
    let obj := objRef 4 e.selfId (flowHash key)
    let (bad, e) := e.checkRead (tierMem s.tier) (e.hotAddr s) 128 .clean
    if bad then (none, ((e.poisoned 9 (e.hotAddr s) obj).count (Reg.ERR_CNT 5)).deleteSheaf key)
    else
      let (bad, e) := e.checkRead (if s.tier = 2 then 6 else 3) (e.histAddr s) 512 .clean
      let e := if bad then ((e.poisoned 10 (e.histAddr s) obj).resetHistory s) else e
      (some (e.hotOf s ++ e.histOf s), e)

/-- A sheaf command on a key: it waits for the flow behind packets stamped no later than its acceptance (R305), and does
`f` while it holds it. A key whose home is another member answers RESULT[3] and does nothing. -/
def shfKeyCmd (id op len : Nat) (h : HostRead) (f : Cmd → Bytes → Engine → Option Engine) (e : Engine) : Engine :=
  match e.startable id op with
  | none => e
  | some c =>
    if c.len ≠ len then withCmd id op 294 (fun c e => e.finish c.id 0x10) e
    else
      match e.cmdDataN c 48 h .clean with
      | (none, e) => e
      | (some key, e) =>
        if e.homeOf key e.time ≠ e.selfId then withCmd id op 294 (fun c e => e.finishOk c.id 8) e
        else
          let (got, _, e) := e.takeFlow (.cmd id) key c.at_
          if !got then e
          else match f c key e with
            | none => e
            | some e => e.releaseFlow (.cmd id)

/-- SHF_READ: writes the hot part and the history to DST (Table SHF-7). -/
def shfRead (id : Nat) (h : HostRead) (e : Engine) : Engine :=
  shfKeyCmd id 0x30 640 h (fun _ key e => some <| withCmd id 0x30 294 (fun c e =>
    let code := e.tierCode key
    if code = 0 then e.finishOk c.id 0
    else match e.readSheaf key with
      | (none, e) => e.finishOk c.id 0
      | (some d, e) => (e.cmdWrite c d).finishOk c.id code) e) e

/-- SHF_READ. -/
def execShfRead (cmd : Nat) (src : HostRead) (s : State) : Res := engineStep s (shfRead cmd src)

/-- SHF_DELETE: it also waits until no undo entry is held. -/
def shfDelete (id : Nat) (h : HostRead) (e : Engine) : Engine :=
  shfKeyCmd id 0x31 48 h (fun _ key e =>
    let held := match e.sheaf key with | some s => s.undo0.isSome || s.undo1.isSome | none => false
    if held then none
    else some <| withCmd id 0x31 294 (fun c e =>
      let code := e.tierCode key
      let e := if code = 0 then e else (e.deleteSheaf key).count (Reg.SHF_CNT 17)
      e.finishOk c.id code) e) e

/-- SHF_DELETE. -/
def execShfDelete (cmd : Nat) (src : HostRead) (s : State) : Res := engineStep s (shfDelete cmd src)

/-- Every sheaf and the census go. -/
def Engine.clearSheaves (e : Engine) : Engine := { e with shf := { e.shf with sheaves := [], census := [] } }

/-- SHF_FLUSH: refused unless every field port has UP = 0. -/
def shfFlush (id : Nat) (e : Engine) : Engine :=
  withCmd id 0x32 294 (fun c e =>
    if (List.range 32).any fun p => e.is (Fld.ITK_PORT_CTRL_UP p) then e.finish c.id 0x20
    else e.clearSheaves.finishOk c.id 0) e

/-- SHF_FLUSH. -/
def execShfFlush (cmd : Nat) (s : State) : Res := engineStep s (shfFlush cmd)

/-- Two ranges overlap. -/
def overlaps (a n b m : Nat) : Bool := decide (a < b + m) && decide (b < a + n)

/-- SHF_LOFT_MAP registers one loft window (R330). -/
def shfLoftMap (id : Nat) (e : Engine) : Engine :=
  withCmd id 0x33 294 (fun c e =>
    let host := c.arg 32 8
    let size := c.arg 40 8
    let off := c.arg 48 8
    let m := 2 ^ 21
    let bad := e.is Fld.SHF_LOFT_EN || host % m != 0 || size % m != 0 || off % m != 0 || decide (2 ^ 40 < off + size) ||
      (e.shf.windows.any fun w => overlaps off size w.off w.size) || !e.inWindow c.pd host size ||
      decide (512 ≤ e.shf.windows.length)
    if bad then e.finish c.id 0x20
    else
      let w : LoftWin := ⟨off, size, host⟩
      let e : Engine := { e with shf := { e.shf with windows := e.shf.windows ++ [w] } }
      (e.put Fld.SHF_LOFT_WINDOWS e.shf.windows.length).finishOk c.id 0) e

/-- SHF_LOFT_MAP. -/
def execShfLoftMap (cmd : Nat) (s : State) : Res := engineStep s (shfLoftMap cmd)

/-- The registered windows cover loft offsets from `a` up to `n`: each round moves past the window that covers `a`. -/
def covers (ws : List LoftWin) (fuel a n : Nat) : Bool :=
  match fuel with
  | 0 => decide (n ≤ a)
  | k + 1 =>
    if n ≤ a then true
    else match ws.find? fun w => decide (w.off ≤ a) && decide (a < w.off + w.size) with
      | some w => covers ws k (w.off + w.size) n
      | none => false

/-- The loft is disabled: its sheaves are evicted, its census and windows cleared (R331). -/
def Engine.loftOff (e : Engine) : Engine :=
  let e := (e.shf.sheaves.filter fun s => s.tier == 2).foldl (fun e s => e.evictSheaf s.key) e
  let stay (s : Sheaf) : Sheaf := if (s.mig.map (·.dst)) = some 2 then { s with mig := none } else s
  let f := e.shf
  let f := { f with census := [], windows := [], rec2 := [], sheaves := f.sheaves.map stay }
  let e := { e with shf := f }
  (e.wr Reg.SHF_LOFT 0).wr (Reg.SHF_CAP 2) 0

/-- SHF_LOFT_ENABLE (R331). -/
def shfLoftEnable (id : Nat) (e : Engine) : Engine :=
  withCmd id 0x34 294 (fun c e =>
    let on := c.arg 32 1
    let sets := c.arg 36 4
    if 1 < on then e.finish c.id 0x10
    else if on = 0 then e.loftOff.finishOk c.id 0
    else if e.is Fld.SHF_LOFT_EN ∨ sets = 0 ∨ 2 ^ 27 < sets ∨ !covers e.shf.windows 513 0 (sets * 8192) then e.finish c.id 0x20
    else (((e.put Fld.SHF_LOFT_EN 1).put Fld.SHF_LOFT_SETS sets).wr (Reg.SHF_CAP 2) (8 * sets)).finishOk c.id 0) e

/-- SHF_LOFT_ENABLE. -/
def execShfLoftEnable (cmd : Nat) (s : State) : Res := engineStep s (shfLoftEnable cmd)

/-- SHF_HOME_SET: stages entries and N for the next tally boundary (R332). -/
def shfHomeSet (id : Nat) (h : HostRead) (e : Engine) : Engine :=
  withCmd id 0x35 294 (fun c e =>
    if c.len % 2 ≠ 0 then e.finish c.id 0x10
    else
      match e.cmdData c h with
      | (none, e) => e
      | (some d, e) =>
        let first := c.arg 32 4
        let n := c.arg 36 2
        let es : List (Nat × Nat) := (List.range (c.len / 2)).map fun i => (first + i, leAt d (2 * i) 2)
        if es.any (fun x => decide (16384 ≤ x.2)) ∨ 16384 < first + es.length ∨ 16384 < n then e.finish c.id 0x20
        else
          let e := { e with shf := { e.shf with
            stagedHome := (e.shf.stagedHome.filter fun (x : Nat × Nat) => !(es.any fun y => y.1 == (x : Nat × Nat).1)) ++ es
            stagedN := if n = 0 then e.shf.stagedN else some n
            stagedCmds := e.shf.stagedCmds ++ [c.id] } }
          e.put Fld.SHF_HOME_PEND 1) e

/-- SHF_HOME_SET. -/
def execShfHomeSet (cmd : Nat) (src : HostRead) (s : State) : Res := engineStep s (shfHomeSet cmd src)

/-- The staged home table applies at a tally boundary T, and its commands complete (R298, R332). The table as it stood
before stays known for packets stamped before T. -/
def Engine.applyHome (e : Engine) (t : Nat) : Engine :=
  if !e.is Fld.SHF_HOME_PEND then e
  else
    let old := e.shf.stagedHome.map fun (x : Nat × Nat) => (x.1, e.get (Fld.SHF_HOMETAB_ID x.1))
    let oldN := e.get Fld.SHF_HOME_N
    let e := e.shf.stagedHome.foldl (fun e x => e.put (Fld.SHF_HOMETAB_ID x.1) x.2) e
    let e := match e.shf.stagedN with | some n => e.put Fld.SHF_HOME_N n | none => e
    let e := e.shf.stagedCmds.foldl (fun e c => e.finishOk c 0) e
    let e := { e with shf := { e.shf with
      stagedHome := [], stagedN := none, stagedCmds := [], oldHome := old, oldN := oldN, homeT := t } }
    (e.put Fld.SHF_HOME_PEND 0).evt Fld.SHF_EVT_HOME_APPLIED

/-- The sheaf profiles (Table SHF-6): AGE_MS, HIST_MAX, MIG_MAX and TIMEOUT_US. -/
def shfExpand (v : Nat) : Option (Engine → Engine) :=
  ([(60000, 4096, 256, 100), (10000, 1024, 512, 100), (0, 4096, 256, 1000)][v]?).map fun x e =>
    (((e.put Fld.SHF_CFG_AGE_MS x.1).put Fld.SHF_LIMIT_HIST_MAX x.2.1).put Fld.SHF_LIMIT_MIG_MAX x.2.2.1).put
      Fld.SHF_REMOTE_TIMEOUT_US x.2.2.2

/-- SHF_PROFILE_SELECT (R327). -/
def execShfProfileSelect (v : Nat) (s : State) : Res :=
  hostStep s (profileWrite 7 Fld.SHF_PROFILE_PROFILE v (shfExpand v))

end Sys2Proof.Machine
end

