-- ==== Sys2Proof/Machine/Mill.lean ====
section
/-!
DEFINITION. Mill.lean: items, batches, joins, and the commands of the mills (R105, R107, R276, R309, R414 to R433, R597).
-/
namespace Sys2Proof.Machine

/-! ### Steering (R107 to R109) -/

/-- The domain index within its kind that a remap entry names. -/
def Engine.remapEntry (e : Engine) (mill : Bool) (i : Nat) : Nat :=
  if mill then bitsOf (e.rd Reg.CLK_REMAP) (25 + 2 * i) (24 + 2 * i) else bitsOf (e.rd Reg.CLK_REMAP) (3 * i + 2) (3 * i)
/-- The engine with a remap entry rewritten. -/
def Engine.setRemap (e : Engine) (mill : Bool) (i v : Nat) : Engine :=
  e.wr Reg.CLK_REMAP (if mill then withBits (e.rd Reg.CLK_REMAP) (25 + 2 * i) (24 + 2 * i) v
    else withBits (e.rd Reg.CLK_REMAP) (3 * i + 2) (3 * i) v)
/-- Domains of a kind that are ON: mill quads (8 to 11) or rill banks (0 to 7), by their index in the kind. -/
def Engine.liveOf (e : Engine) (mill : Bool) : List Nat :=
  (List.range (if mill then 4 else 8)).filter fun d => e.domOn (if mill then 8 + d else d)

/-- The quad or bank for a flow hash; a re-steered packet is counted; `none` when none of the kind is ON. An entry that
names a domain that is not ON is rewritten to the lowest live one. -/
def Engine.steer (e : Engine) (mill : Bool) (hash : Nat) : Option Nat × Engine :=
  let i := hash % (if mill then 4 else 8)
  let d := e.remapEntry mill i
  match e.liveOf mill with
  | [] => (none, e)
  | l :: ls =>
    let e := if d ∈ l :: ls then e else e.setRemap mill i l
    let d := if d ∈ l :: ls then d else l
    (some d, if d = i then e else e.count (Reg.CLK_CNT 1))

/-! ### Queues (R416, R424) -/

/-- A quad's queue. -/
def Engine.milQ (e : Engine) (q : Nat) : List MilItem := Tbl.get [] e.mil.queues q
/-- The engine with a quad's queue changed; MIL_QSTAT follows it. -/
def Engine.setMilQ (e : Engine) (q : Nat) (l : List MilItem) : Engine :=
  let e := { e with mil := { e.mil with queues := Tbl.set [] e.mil.queues q l } }
  (e.put (Fld.MIL_QSTAT_DEPTH q) l.length).highWater (Fld.MIL_QSTAT_HWM q) l.length
/-- What a mill runs. -/
def Engine.milRun (e : Engine) (m : Nat) : Option MilWork := Tbl.get none e.mil.running m
/-- The engine with what a mill runs changed; MIL_SLOT.CLASS follows it (R434). -/
def Engine.setMilRun (e : Engine) (m : Nat) (w : Option MilWork) : Engine :=
  let e := { e with mil := { e.mil with running := Tbl.set none e.mil.running m w } }
  e.put (Fld.MIL_SLOT_CLASS m) (match w with | none => 0 | some (.batch _) => 1 | some (.job j) => j.cls)
/-- Work a mill has suspended. -/
def Engine.milHeld (e : Engine) (m : Nat) : List MilJob := Tbl.get [] e.mil.suspended m
/-- The mills of a quad. -/
def quadMills (q : Nat) : List Nat := (List.range 8).map fun i => 8 * q + i

/-! ### MILL_ENQUEUE (R309, R415) -/

/-- A history in logical order, in the form of Table MIL-8, and HIST_LEN (R302). -/
def logicalHist (hot hist : Bytes) : Bytes × Nat :=
  let es := ((List.range 16).map fun i => (hotHead hot + i) % 16).filter fun j => bitOf (hotValid hot) j
  (fitTo 256 (es.flatMap fun j => slice hist (16 * j) 16) ++ fitTo 256 (es.flatMap fun j => slice hist (256 + 16 * j) 16), es.length)

/-- What the history read of a packet's step gives. -/
inductive HistRead where
  | fallback
  | got (hist : Bytes) (len : Nat) (reading : Bool)
deriving DecidableEq, Repr

/-- The history read (R309, R310, Table ERR-2): none is issued for an empty history; one that is not admitted, or a
history that a remote home did not send, is the fallback. -/
def Engine.historyRead (e : Engine) (p : Pkt) (ecc : Ecc) : HistRead × Engine :=
  match p.shf with
  | none => (.got [] 0 false, e)
  | some q =>
    if !q.present ∨ q.genReset ∨ histLen q.cur = 0 then (.got [] 0 false, e)
    else if q.remote then
      if q.nohist then (.fallback, e) else let h := logicalHist q.cur q.hist; (.got h.1 h.2 false, e)
    else match e.sheaf q.key with
      | none => (.got [] 0 false, e)
      | some s =>
        if e.get Fld.SHF_LIMIT_HIST_MAX ≤ e.shf.histReads.length then (.fallback, e)
        else match e.checkRead (if s.tier = 2 then 6 else 3) (e.histAddr s) 512 ecc with
          | (true, e) =>
            let e := e.poisoned 10 (e.histAddr s) (objRef 4 e.selfId (flowHash q.key))
            (.got [] 0 false, e.resetHistory s)
          | (false, e) => let h := logicalHist q.cur (e.histOf s); (.got h.1 h.2 true, e)

/-- MILL_ENQUEUE. -/
def millEnqueueStep (ecc : Ecc) (p : Pkt) (arg : Nat) (e : Engine) : Engine :=
  if p.noEval then e.skipEval p.id
  else
    let p := { p with firstEnq := some (p.firstEnq.getD (p.begun.getD e.time)) }
    let e := e.setPkt p.id fun _ => p
    let lose (e : Engine) (f : Pkt → Pkt) : Engine := (e.setPkt p.id fun p => f { p with seqLost := true }).advance p.id
    match (e.modelFor p).bind fun m => (m.sect 5 arg).map fun s => (m, s) with
    | none => lose ((e.count (Reg.MIL_CNT 6)).evt Fld.MIL_EVT_UNDEF_TEMPLATE) id
    | some (m, s) =>
      if e.earlierWaits p 7 1 then e.wait p.id 1
      else match e.takeRate 1 8 8 with
        | none => e.wait p.id 1
        | some e =>
          match e.steer true p.fhash with
          | (none, e) => lose (e.count (Reg.CLK_CNT 2)) fun p => p.flag flDOMAIN
          | (some q, e) =>
            if e.get Fld.MIL_CFG_QDEPTH ≤ (e.milQ q).length then
              lose ((e.count (Reg.MIL_CNT 2)).evt Fld.MIL_EVT_QFULL) fun p => p.flag flJOIN_BUDGET
            else
              let t := sectBytes m.image s
              let gs := m.sect 3 (byteAt t 1 % 64)
              let (im, e) : Option Bytes × Engine := match gs with
                | some g => e.readSect m g 5 (e.pktRef p.ts) ecc
                | none => (some [], e.count (Reg.ORC_CNT 8))
              match im with
              | none => e.skipEval p.id
              | some im =>
                match e.historyRead p ecc with
                | (.fallback, e) => lose ((e.count (Reg.SHF_CNT 12)).evt Fld.SHF_EVT_FALLBACK) fun p => p.flag flSEQ_FALLBACK
                | (.got hist n reading, e) =>
                  let r : List Nat × Nat := if gs.isNone then (List.replicate 256 0, 0) else gradeVector im p.orcBlock
                  let hot := match p.shf with | some x => x.cur | none => []
                  let no := e.mil.nextItem
                  let it : MilItem :=
                    { no := no, pkt := p.id, epoch := m.epoch, tmpl := arg, row := r.1, hist := fitTo 512 hist, histLen := n,
                      kScale := leAt hot 72 4, vScale := leAt hot 76 4, kZp := byteAt hot 80, vZp := byteAt hot 81 }
                  let e := { e with mil := { e.mil with nextItem := no + 1 } }
                  let e := if reading then { e with shf := { e.shf with histReads := e.shf.histReads ++ [no] } } else e
                  let e := (e.setMilQ q (e.milQ q ++ [it])).busy 290
                  (e.setPkt p.id fun p => ({ p with items := p.items ++ [no] }).numFlags r.2).advance p.id

/-- MILL_ENQUEUE. -/
def execMillEnqueue (pkt : Nat) (ecc : Ecc) (s : State) : Res := engineStep s fun e => e.dispatch pkt 7 (millEnqueueStep ecc)

/-! ### Running templates (R414 to R416) -/

/-- INPUT of a template from its row (R415). -/
def millInput (m : Model) (t : Bytes) (row : List Nat) : List NVal :=
  let im := match m.sect 3 (byteAt t 1 % 64) with | some s => sectBytes m.image s | none => []
  row.zipIdx.map fun (x : Nat × Nat) =>
    if x.2 < leAt im 0 2 ∧ slotKind im x.2 = 1 ∧ slotBinned im x.2 = false then f32v x.1 else NVal.ofInt (x.1 : Int)

/-- What one row of a template gives: its accumulator, the summaries where the template names them, and y. -/
structure TmplOut where
  acc : MilAcc
  kv : Option (List Nat × List Nat)
  y : Option Nat

/-- Runs a template on one row: an item's, or a command's input block. -/
def Engine.runTemplate (e : Engine) (m : Model) (t : Bytes) (it : MilItem) : TmplOut :=
  let codes (o : Nat) : List (List Nat) :=
    (List.range it.histLen).map fun j => (List.range 32).map fun d => elemAt .int4 (slice it.hist (o + 16 * j) 16) d
  let x : MilIn :=
    { base := e.mwAddr m, input := millInput m t it.row, hl := it.histLen, hk := codes 0, hv := codes 256,
      kScale := it.kScale, vScale := it.vScale, kZp := it.kZp, vZp := it.vZp }
  let a := runStages x { e := e } (stagesOf (slice t 16 (128 * byteAt t 0)))
  let row (c : Nat) : List Nat := (List.range 32).map fun j => a.reg c 0 j
  { acc := a
    kv := if isReg (byteAt t 2) && isReg (byteAt t 3) then some (row (byteAt t 2), row (byteAt t 3)) else none
    y := if isReg (byteAt t 4) then some (a.reg (byteAt t 4) 0 0) else none }

/-! ### Batches (R416 to R418, R433) -/

/-- MILL_BATCH_START: an idle mill takes the oldest item of its quad and those that run with it. -/
def millBatchStart (m : Nat) (e : Engine) : Engine :=
  let q := m / 8
  let st := (Tbl.get {} e.doms (8 + q)).st
  if 32 ≤ m ∨ !(st = .on ∨ st = .draining) ∨ (e.milRun m).isSome then e
  else match e.milQ q with
    | [] => e
    | it :: _ =>
      let same (x : MilItem) : Bool := x.tmpl == it.tmpl && x.epoch == it.epoch
      let batch := ((e.milQ q).filter same).take (e.get Fld.MIL_CFG_BATCH_MAX)
      let nos := batch.map (·.no)
      let e := e.setMilQ q ((e.milQ q).filter fun x => !nos.contains x.no)
      let e := { e with shf := { e.shf with histReads := e.shf.histReads.filter fun i => !nos.contains i } }
      (((e.setMilRun m (some (.batch batch))).count (Reg.MIL_CNT 1)).countN (Reg.MIL_CNT 0) batch.length).busy (256 + m)

/-- MILL_BATCH_START. -/
def execMillBatchStart (mill : Nat) (s : State) : Res := engineStep s (millBatchStart mill)

/-- The learning region (R595). -/
def learnBase : Nat := 0x04B00000000

/-- The live model's LEARN section. -/
def Engine.learnSect (e : Engine) : Option Bytes := e.gft.live.bind fun m => (m.sect 9 0).map fun s => sectBytes m.image s

/-- The sample of R597: every SAMPLE_EVERY-th item of SRC_TEMPLATE of the live model overwrites the ring's oldest row. -/
def Engine.learnSample (e : Engine) (it : MilItem) : Engine :=
  match e.learnSect with
  | none => e
  | some l =>
    if it.tmpl ≠ byteAt l 0 ∨ it.epoch ≠ e.liveEpoch then e
    else
      let n := e.gft.learn.items + 1
      let take := n % max (e.get Fld.GFT_CFG_SAMPLE_EVERY) 1 == 0
      let rows := e.gft.learn.rows
      let e := { e with gft := { e.gft with learn := { e.gft.learn with items := n, rows := if take then rows + 1 else rows } } }
      if take then e.store (learnBase + leAt l 36 4 + 1024 * (rows % max (leAt l 2 2) 1)) (fitTo 1024 (packElems .f32 it.row)) else e

/-- An item's result reaches its packet, unless its JOIN has closed without it (R276). -/
def Engine.joinResult (e : Engine) (it : MilItem) (o : TmplOut) : Engine :=
  if it.late then e.count (Reg.CSC_CNT 7)
  else match e.pkt it.pkt with
    | none => e
    | some p =>
      if !p.onPath ∨ p.joinClosed then e
      else e.setPkt p.id fun p => { p with results := p.results ++ [⟨it.no, e.time, o.y, o.kv, o.acc.flags⟩] }

/-- One item of a batch completes. A poisoned template or weight of a model ends it with nothing joined (Table ERR-2 row 6). -/
def Engine.itemDone (e : Engine) (it : MilItem) : Engine :=
  match e.modelOf it.epoch with
  | none => e
  | some m =>
    match m.sect 5 it.tmpl with
    | none => e
    | some s =>
      let obj := match e.pkt it.pkt with | some p => e.pktRef p.ts | none => 0
      match e.readSect m s 6 obj .clean with
      | (none, e) => e
      | (some t, e) =>
        let o := e.runTemplate m t it
        let e := (o.acc.e).countN (Reg.MIL_CNT 7) o.acc.nans
        match o.acc.bad with
        | some a => (e.memUe (localMem a) a false).modelPoison m 6 a obj
        | none => (e.joinResult it o).learnSample it

/-- An error in a tile slot or a cell of mill `m` (Table ERR-2 row 7, R433, R693). -/
def Engine.millError (e : Engine) (m : Nat) (x : Ecc) : Engine :=
  let e := match x with
    | .residue => (((e.alwaysN (Reg.ERR_UE 7) 1).evt Fld.ERR_EVT_UE).errRecord 0x13 2 18 7 0 0 0 m 0 0)
    | _ => e.memUe 2 0 false
  (e.poisoned 7 0 0).engineUe m

/-- MILL_BATCH_COMPLETE: no item of a batch that an error touched joins its packet. -/
def millBatchComplete (m : Nat) (ecc : Ecc) (e : Engine) : Engine :=
  match e.milRun m with
  | some (.batch items) =>
    let (x, e) := e.takeInject 7 ecc
    let (x, e) := e.takeInject 2 x
    let e := (e.setMilRun m none).busy (256 + m)
    match x with
    | .residue | .ue => e.millError m x
    | .ce => items.foldl Engine.itemDone (e.memCe 2 0)
    | .clean => items.foldl Engine.itemDone e
  | _ => e

/-- MILL_BATCH_COMPLETE. -/
def execMillBatchComplete (mill : Nat) (ecc : Ecc) (s : State) : Res := engineStep s (millBatchComplete mill ecc)

/-! ### JOIN (R276, R419) -/

/-- The deadline of a packet's JOIN with a budget in 64 ns units. -/
def Pkt.joinDeadline (p : Pkt) (budget : Nat) : Nat := p.firstEnq.getD 0 + budget * 80

/-- A result counts when it arrived by the deadline; with budget 0, when it is there. -/
def Pkt.inTime (p : Pkt) (budget i : Nat) : Bool :=
  p.results.any fun r => r.item == i && (budget == 0 || decide (r.at_ ≤ p.joinDeadline budget))

/-- Items whose results come too late from now on. -/
def Engine.markLate (e : Engine) (nos : List Nat) : Engine :=
  let mark (x : MilItem) : MilItem := if nos.contains x.no then { x with late := true } else x
  let run (w : Option MilWork) : Option MilWork := match w with
    | some (.batch l) => some (.batch (l.map mark))
    | w => w
  { e with mil := { e.mil with
    queues := e.mil.queues.map fun (q : Nat × List MilItem) => (q.1, q.2.map mark)
    running := e.mil.running.map fun (x : Nat × Option MilWork) => (x.1, run x.2) } }

/-- The y that a JOIN adds to the packet's sum, once for each item (R419). -/
def Engine.addY (e : Engine) (p : Pkt) : Pkt :=
  match p.y with
  | none => p
  | some y =>
    match p.ens with
    | some a =>
      let r := f32add p.sum y
      let d := (Model.ensemble (e.modelFor p) a).getD []
      ({ p with sum := r.1, bucket := bucketOf d r.1 false % 16 + p.bucket / 16 * 16 }).numFlags r.2
    | none =>
      let r := f32add 0 y
      ({ p with sum := r.1 }).numFlags r.2

/-- JOIN ends. -/
def Engine.joinEnd (e : Engine) (p : Pkt) (budget : Nat) : Engine :=
  let missing := p.items.filter fun i => !p.inTime budget i
  let seq := !p.items.isEmpty && missing.isEmpty && !p.seqLost
  let lost := (p.results.filter fun r => missing.contains r.item).length
  let e := (e.markLate missing).countN (Reg.CSC_CNT 7) lost
  let rs := p.results.filter fun r => !missing.contains r.item
  let p := { p with seq := seq, results := rs }
  let p := (p.flagIf (!missing.isEmpty) flJOIN_BUDGET).numFlags (rs.foldl (fun f r => f ||| r.flags) 0)
  let last := rs.find? fun r => some r.item == p.items.getLast?
  let p := match last with
    | some r =>
      if seq then
        let new := p.yItem != some r.item
        let p := { p with y := r.y, kv := r.kv, yItem := some r.item }
        if new then e.addY p else p
      else p
    | none => p
  (e.setPkt p.id fun _ => p).advance p.id

/-- JOIN waits for every result or for its deadline. -/
def joinStep (p : Pkt) (arg : Nat) (e : Engine) : Engine :=
  let budget := arg % 4096
  let all := p.items.all fun i => p.results.any fun r => r.item == i
  if !all ∧ budget ≠ 0 ∧ e.time < p.joinDeadline budget then e.wait p.id 1
  else e.joinEnd p budget

/-- JOIN. -/
def execJoin (pkt : Nat) (s : State) : Res := engineStep s fun e => e.dispatch pkt 8 joinStep

/-- JOIN_DEADLINE: a JOIN that waits ends when its deadline has come. -/
def joinDeadline (id : Nat) (e : Engine) : Engine :=
  match e.pkt id with
  | none => e
  | some p => if p.begun.isSome then e.dispatch id 8 joinStep else e

/-- JOIN_DEADLINE. -/
def execJoinDeadline (pkt : Nat) (s : State) : Res := engineStep s (joinDeadline pkt)

/-! ### FOREGROUND and HARVEST work (R420 to R423, R427 to R429, R431) -/

/-- How a job ends: its status, RESULT, mill cycles, flags, and the bytes of a template's output. -/
structure JobEnd where
  status : Nat
  result : Nat
  cycles : Nat
  flags : Nat
  out : Option Bytes
  e : Engine

/-- The quad of a QUAD field: `none` for a field out of range, or where no such quad is ON. -/
def Engine.quadFor (e : Engine) (q : Nat) : Option (Option Nat) :=
  if q = 0xFF then some (e.liveOf true).head?
  else if q < 4 then some (if e.domOn (8 + q) then some q else none)
  else none

/-- The input block of a template run as an item (Table MIL-8). -/
def blockItem (d : Bytes) : MilItem :=
  { no := 0, pkt := 0, epoch := 0, tmpl := 0, row := (List.range 256).map fun i => leAt d (4 * i) 4, hist := slice d 1024 512,
    histLen := byteAt d 1536, kScale := leAt d 1540 4, vScale := leAt d 1544 4, kZp := byteAt d 1548, vZp := byteAt d 1549 }

/-- The checks of R428 and R429 on a job: the status and RESULT it ends with at once, if any. -/
def Engine.jobCheck (e : Engine) (j : MilJob) : Option (Nat × Nat) :=
  if j.template then
    let it := blockItem j.data
    if j.data.length ≠ 1600 ∨ 1 < j.bank then some (0x10, 0)
    else match e.bankModel j.bank with
      | none => some (0x20, 0)
      | some m =>
        if (m.sect 5 j.tmpl).isNone ∨ 16 < it.histLen ∨ !scaleOk it.kScale ∨ !scaleOk it.vScale then some (0x10, 0) else none
  else
    let l := stagesOf j.data
    if j.data.length % 128 ≠ 0 ∨ l.length = 0 ∨ 16 < l.length ∨ j.cls < 2 ∨ 3 < j.cls then some (0x10, 0)
    else match l.findIdx? fun b => !checkStage ⟨false, []⟩ (fun a n => e.readMem a n) b with
      | some i => some (0x10, i)
      | none => if j.cls = 3 ∧ !e.is Fld.MIL_CFG_HARVEST_EN then some (0x20, 0) else none

/-- The output block of a template run (Table MIL-8), and the flags of quantising the summaries. -/
def tmplBlock (o : TmplOut) (it : MilItem) : Bytes × Nat :=
  let kv := o.kv.getD (List.replicate 32 0, List.replicate 32 0)
  let q (xs : List Nat) (s z : Nat) : List (Nat × Nat) := if o.kv.isSome then quantSummary xs s z else []
  let kq : List (Nat × Nat) := q kv.1 it.kScale it.kZp
  let vq : List (Nat × Nat) := q kv.2 it.vScale it.vZp
  (packElems .f32 kv.1 ++ packElems .f32 kv.2 ++ fitTo 16 (packElems .int4 (kq.map Prod.fst)) ++
    fitTo 16 (packElems .int4 (vq.map Prod.fst)) ++ natLE 4 (o.y.getD 0) ++ List.replicate 28 0,
   (kq ++ vq).foldl (fun a (x : Nat × Nat) => a ||| x.2) 0 % 16)

/-- Runs a job's stages. -/
def Engine.runJob (e : Engine) (j : MilJob) : JobEnd :=
  if j.template then
    match (e.bankModel j.bank).bind fun m => (m.sect 5 j.tmpl).map fun s => (m, s) with
    | none => ⟨0x20, 0, 0, 0, none, e⟩
    | some (m, s) =>
      match e.readSect m s 6 0 .clean with
      | (none, e) => ⟨0x31, 0, 0, 0, none, e⟩
      | (some t, e) =>
        let it := blockItem j.data
        let o := e.runTemplate m t it
        let e := (o.acc.e).countN (Reg.MIL_CNT 7) o.acc.nans
        let cy := min (stageCycles it.histLen (stagesOf (slice t 16 (128 * byteAt t 0)))) (2 ^ 32 - 1)
        match o.acc.bad with
        | some a => ⟨0x31, 0, cy, 0, none, (e.memUe (localMem a) a false).modelPoison m 6 a 0⟩
        | none => let b := tmplBlock o it; ⟨0, 0, cy, (o.acc.flags ||| b.2) % 16, some b.1, e⟩
  else
    let base := if j.owner = .learn then learnBase else 0
    let a := runStages { base := base } { e := e } (stagesOf j.data)
    let e := a.e.countN (Reg.MIL_CNT 7) a.nans
    let cy := min (stageCycles 0 (stagesOf j.data)) (2 ^ 32 - 1)
    match a.bad with
    | some x => ⟨0x31, cy, cy, 0, none, (e.memUe (localMem x) x false).poisoned 1 x 0⟩
    | none => ⟨0, cy, cy, a.flags % 16, none, e⟩

/-- The mill that runs a job of this owner. -/
def Engine.jobMill (e : Engine) (o : MilOwner) : Option Nat :=
  (e.mil.running.find? fun x => match x.2 with | some (.job j) => j.owner == o | _ => false).map (·.1)

/-- FOREGROUND work waits for a quad. -/
def Engine.fgWaits (e : Engine) (q : Nat) : Bool := e.mil.waiting.any fun j => j.quad == q && j.cls == 2

/-- An idle mill of its quad that a job may start on (R420). -/
def Engine.jobPlace (e : Engine) (j : MilJob) : Option Nat :=
  if !e.domOn (8 + j.quad) ∨ !(e.milQ j.quad).isEmpty ∨ (j.cls = 3 ∧ (e.fgWaits j.quad ∨ !e.is Fld.MIL_CFG_HARVEST_EN)) then none
  else (quadMills j.quad).find? fun m => (e.milRun m).isNone && !((e.milHeld m).any fun h => decide (h.cls ≤ j.cls))

/-- A CMD_BEGIN or CMD_END trace record of mill work that is no packet's (R665). -/
def Engine.traceWork (e : Engine) (j : MilJob) (kind engine aux : Nat) : Engine :=
  let op := if j.template then 0x51 else 0x50
  match j.owner with
  | .cmd id => match e.cmd id with | some c => e.traceCmd c kind engine aux | none => e
  | .thread tid k => e.trace Fld.GLN_TRACE_CFG_CMD_EN kind (engine + 2 ^ 9 + 2 ^ 24 * op) (4 * tid + k) aux
  | .learn => e.trace Fld.GLN_TRACE_CFG_CMD_EN kind (engine + 2 * 2 ^ 9 + 2 ^ 24 * op) (bitsOf (e.rd (Reg.GFT_CNT 7)) 47 0 + 1) aux

/-- Starts a job on a mill. -/
def Engine.startJob (e : Engine) (j : MilJob) (m : Nat) : Engine :=
  let e := (e.setMilRun m (some (.job j))).busy (256 + m)
  let e := { e with mil := { e.mil with waiting := e.mil.waiting.filter fun x => x.owner != j.owner } }
  e.traceWork j 2 (256 + m) 0

/-- A job that is ready starts, or waits; HARVEST work that finds no idle mill is counted once as deferred (R421). -/
def Engine.placeJob (e : Engine) (j : MilJob) : Engine :=
  match e.jobPlace j with
  | some m => e.startJob j m
  | none =>
    let e := if j.cls = 3 then e.count (Reg.MIL_CNT 3) else e
    { e with mil := { e.mil with waiting := e.mil.waiting ++ [j] } }

/-- A job that waits starts where it can: the first of its quad and class that waits goes first. -/
def Engine.jobTurn (e : Engine) (o : MilOwner) : Engine :=
  match e.mil.waiting.find? fun j => j.owner == o with
  | none => e
  | some j =>
    if (e.mil.waiting.find? fun x => x.quad == j.quad && x.cls == j.cls) = some j then
      match e.jobPlace j with | some m => e.startJob j m | none => e
    else e

/-- The job that a mill runs ends: the mill is free. -/
def Engine.endJob (e : Engine) (o : MilOwner) : Option (Nat × MilJob × JobEnd) :=
  (e.jobMill o).bind fun m => match e.milRun m with
    | some (.job j) => some (m, j, ((e.setMilRun m none).busy (256 + m)).runJob j)
    | _ => none

/-- A host command's job: it is checked and placed at its first row; a row that says it ends completes it while a mill
runs it. -/
def milCmd (id op : Nat) (ends : Bool) (h : HostRead) (mk : Cmd → Bytes → MilJob) (quadField : Cmd → Nat) (e : Engine) : Engine :=
  let e := match e.startable id op with
    | none => e.jobTurn (.cmd id)
    | some c =>
      let e := e.setCmd id fun c => { c with ph := .running }
      match e.cmdData c h with
      | (none, e) => e
      | (some d, e) =>
        let j := mk c d
        let bad (st res : Nat) (e : Engine) : Engine := (e.traceCmd c 2 256 0).complete id st res 0 none 256
        match e.quadFor (quadField c) with
        | none => bad 0x10 0 e
        | some q =>
          match e.jobCheck j, q with
          | some (st, res), _ => bad st res e
          | none, none => bad 0x21 0 e
          | none, some q => e.placeJob { j with quad := q }
  if ends then
    match e.endJob (.cmd id) with
    | none => e
    | some (m, _, r) =>
      let e := match r.out, r.e.cmd id with
        | some b, some c => r.e.cmdWrite c b
        | _, _ => r.e
      e.complete id r.status r.result r.flags none (256 + m)
  else e

/-- MIL_RUN (R428). -/
def execMilRun (cmd : Nat) (src : HostRead) (ends : Bool) (s : State) : Res :=
  engineStep s <| milCmd cmd 0x50 ends src
    (fun c d => ⟨.cmd c.id, false, d, 0, 0, 0, c.arg 33 1 + 2, 0⟩) (fun c => c.arg 32 1)

/-- MIL_TEMPLATE (R429). -/
def execMilTemplate (cmd : Nat) (src : HostRead) (ends : Bool) (s : State) : Res :=
  engineStep s <| milCmd cmd 0x51 ends src
    (fun c d => ⟨.cmd c.id, true, d, c.arg 32 1, c.arg 33 1, c.dst, 2, 0⟩) (fun _ => 0xFF)

/-- MILL_YIELD: work that is no packet's is suspended when a packet item waits and no mill of the quad is idle (R422). -/
def millYield (m : Nat) (e : Engine) : Engine :=
  match e.milRun m with
  | some (.job j) =>
    if (e.milQ (m / 8)).isEmpty ∨ (quadMills (m / 8)).any fun x => (e.milRun x).isNone then e
    else
      let e := e.setMilRun m none
      let e := { e with mil := { e.mil with suspended := Tbl.set [] e.mil.suspended m (e.milHeld m ++ [j]) } }
      (e.count (Reg.MIL_CNT 4)).evt Fld.MIL_EVT_YIELD
  | _ => e

/-- MILL_YIELD. -/
def execMillYield (mill : Nat) (s : State) : Res := engineStep s (millYield mill)

/-- MILL_RESUME: suspended work goes on, on its mill, when it is free for its class (R420, R422). -/
def millResume (m : Nat) (e : Engine) : Engine :=
  if (e.milRun m).isSome ∨ !(e.milQ (m / 8)).isEmpty then e
  else
    let h := e.milHeld m
    match (h.find? fun j => j.cls == 2).or (if e.fgWaits (m / 8) then none else h.head?) with
    | none => e
    | some j =>
      let e := { e with mil := { e.mil with suspended := Tbl.set [] e.mil.suspended m (h.filter fun x => x.owner != j.owner) } }
      (e.setMilRun m (some (.job j))).busy (256 + m)

/-- MILL_RESUME. -/
def execMillResume (mill : Nat) (s : State) : Res := engineStep s (millResume mill)

/-- A quad enters DRAINING: a running HARVEST command is abandoned and requeued, counted as deferred and as abandoned
(R105, R431). -/
def Engine.quadDrains (e : Engine) (q : Nat) : Engine :=
  (quadMills q).foldl (fun e m =>
    let back (e : Engine) (j : MilJob) : Engine :=
      let e := ((e.count (Reg.MIL_CNT 3)).count (Reg.MIL_CNT 5)).evt Fld.MIL_EVT_ABANDON
      { e with mil := { e.mil with waiting := e.mil.waiting ++ [j] } }
    let e := match e.milRun m with
      | some (.job j) => if j.cls = 3 then back (e.setMilRun m none) j else e
      | _ => e
    let hs := (e.milHeld m).filter fun j => j.cls == 3
    let e := { e with mil := { e.mil with suspended := Tbl.set [] e.mil.suspended m ((e.milHeld m).filter fun j => j.cls != 3) } }
    hs.foldl back e) e

/-- The mill profiles (Table MIL-6). -/
def milExpand (v : Nat) : Option (Engine → Engine) :=
  ([(1024, 64, 1), (1024, 64, 0), (256, 16, 1)][v]?).map fun x e =>
    e.wr Reg.MIL_CFG (x.1 + 2 ^ 16 * x.2.1 + 2 ^ 31 * x.2.2)

/-- MIL_PROFILE_SELECT (R425). -/
def execMilProfileSelect (v : Nat) (s : State) : Res :=
  hostStep s (profileWrite 9 Fld.MIL_PROFILE_PROFILE v (milExpand v))

end Sys2Proof.Machine
end

