-- ==== Sys2Proof/Machine/Garner.lean ====
section
/-!
DEFINITION. Garner.lean: the slow path, its records and the host scheduler that writes them with every other record, the
customer partition and the garner watchdog (R510 to R530, R548 to R550, R557, R558).
-/
namespace Sys2Proof.Machine

/-! ### Pairs and their duties (R510, R523) -/

/-- A garner pair runs its firmware: it is ON, or DRAINING with work already dispatched to it (R105). -/
def Engine.pairUp (e : Engine) (k : Nat) : Bool :=
  decide ((Tbl.get {} e.doms (14 + k)).st ∈ [DomSt.on, DomSt.draining]) && !e.gar.restarting.contains k
/-- GAR_STAT.PAIR_UP. -/
def Engine.pairsUp (e : Engine) : Nat := ((List.range 4).map fun k => if e.pairUp k then 2 ^ k else 0).sum
/-- The customer partition runs (R520). -/
def Engine.custRun (e : Engine) : Bool := e.gar.custOk && e.gar.custStarted && e.pairUp 3
/-- The engine with a frame of the slow path changed. -/
def Engine.setSlow (e : Engine) (id : Nat) (f : SlowFr → SlowFr) : Engine :=
  { e with gar := { e.gar with queue := e.gar.queue.map fun x => if x.pkt = id then f x else x } }
/-- A frame of the slow path. -/
def Engine.slowFr (e : Engine) (id : Nat) : Option SlowFr := e.gar.queue.find? fun x => x.pkt == id

/-- The garner lets a frame go: its cells are released under R24. -/
def Engine.slowRelease (e : Engine) (id : Nat) : Engine :=
  (Engine.setPkt { e with gar := { e.gar with queue := e.gar.queue.filter fun x => x.pkt != id } } id
    fun p => { p with inSlow := false }).settle id

/-! ### The SLOW_PATH step (R512, R513, R515, R527) -/

/-- The slow-path queue of a port (R516). -/
def spqOf (port : Nat) : Nat := port / 4
/-- SLOW_REASON of a packet's parse vector. -/
def Pkt.slowReason (p : Pkt) : Nat := byteAt p.pv 6

/-- SLOW_PATH: the frame enters the slow-path queue, or drops or waits when it is full; the path ends. -/
def slowPathStep (p : Pkt) (_arg : Nat) (e : Engine) : Engine :=
  let full := decide (e.get Fld.GAR_SP_CFG_QDEPTH ≤ e.gar.queue.length)
  if full && e.get Fld.GAR_SP_CFG_FULL_ACT == 0 then ((e.count (Reg.GAR_CNT 3)).evt Fld.GAR_EVT_SP_FULL).endPath p.id
  else if full || e.earlierWaits p 12 10 then e.wait p.id 10
  else
    let r := p.slowReason
    let q := spqOf p.port
    let f : SlowFr :=
      { pkt := p.id, reason := r, act := bitsOf (e.get Fld.GAR_SP_ACT_ACT) (2 * r + 1) (2 * r), snap := e.get Fld.GAR_SP_CFG_SNAPLEN,
        slotLog := e.get (Fld.GAR_SPQ_SLOT_LOG2 q), base := e.get (Fld.GAR_SPQ_DATA_BASE q) * 2 ^ 12 }
    let e := { e with gar := { e.gar with queue := e.gar.queue ++ [f] } }
    let e := (e.count (Reg.GAR_CNT 0)).highWater Fld.GAR_SP_DEPTH_HWM e.gar.queue.length
    (e.setPkt p.id fun p => { p with inSlow := true }).endPath p.id

/-- SLOW_PATH. -/
def execSlowPath (pkt : Nat) (s : State) : Res := engineStep s fun e => e.dispatch pkt 12 slowPathStep

/-! ### Processing (R514 to R517, R521, R522, R525) -/

/-- The record of a slow-path queue stands at the head of its host-bound queue and its ring is not of kind slow-path (R516). -/
def Engine.slowMapBad (e : Engine) (q : Nat) : Bool :=
  match (e.hq (248 + q)).recs.head?, e.hqRing (248 + q) with
  | some r, some k => r.slow.isSome && e.ringState k == 1 && e.ringKind k != 7
  | _, _ => false

/-- A frame's record enters its host-bound queue. -/
def Engine.slowRecord (e : Engine) (f : SlowFr) (p : Pkt) (user flags : Nat) : Engine :=
  let e := e.setSlow f.pkt fun x => { x with ph := 2, user := user, flags := x.flags ||| flags }
  e.hqPush (248 + spqOf p.port) { words := List.replicate 8 0, at_ := e.time, slow := some f.pkt }

/-- Every earlier frame of the same slow-path queue has its record on the host-bound queue already (R517). -/
def Engine.slowFirst (e : Engine) (q : Nat) (f : SlowFr) : Bool :=
  (e.gar.queue.takeWhile fun x => x.pkt != f.pkt).all fun x =>
    x.ph == 2 || (match e.pkt x.pkt with | some y => spqOf y.port != q | none => true)

/-- A frame can be processed: its status is known, it is next in its queue unless its action drops it, and its queue's mapping
is sound. -/
def Engine.slowReady (e : Engine) (f : SlowFr) : Bool :=
  match e.pkt f.pkt with
  | none => false
  | some p => f.ph == 0 && p.status.isSome && !e.slowMapBad (spqOf p.port) && (f.act == 1 || e.slowFirst (spqOf p.port) f)

/-- The core that runs the slow path, as the engine index of Table GLN-3; none while both its pair and the fallback are down. -/
def Engine.slowCore (e : Engine) : Option Nat := if e.pairUp 1 && e.domOn 15 then some 332 else if e.pairUp 0 then some 331 else none

/-- SLOW_PATH_PROCESS: the oldest frame that can be processed takes its action. -/
def slowProcess (e : Engine) : Engine :=
  match e.slowCore, e.gar.queue.find? e.slowReady with
  | some core, some f =>
    match e.takeRate 320 1000000 4, e.pkt f.pkt with
    | some e, some p =>
      let e := e.busy core
      if f.act = 1 then (e.count (Reg.GAR_CNT 2)).slowRelease f.pkt
      else if f.act = 2 then
        if e.custRun && e.domOn 17 then e.setSlow f.pkt fun x => { x with ph := 1, flags := x.flags ||| 4 }
        else e.slowRecord f p 0 12
      else e.slowRecord f p 0 0
    | _, _ => e
  | _, _ => e

/-- SLOW_PATH_PROCESS. -/
def execSlowPathProcess (s : State) : Res := engineStep s slowProcess

/-- A frame that the customer partition has, while it runs. -/
def Engine.atCustomer (e : Engine) (id : Nat) : Option (SlowFr × Pkt) :=
  match e.slowFr id, e.pkt id with
  | some f, some p => if f.ph = 1 ∧ e.custRun = true then some (f, p) else none
  | _, _ => none

/-- CUSTOMER_HANDLER: the partition answers DELIVER with a USER value, or DROP. -/
def customerHandler (id : Nat) (deliver : Bool) (user : Nat) (e : Engine) : Engine :=
  match e.atCustomer id with
  | none => e
  | some (f, p) =>
    let e := (e.count (Reg.GAR_CNT 5)).busy 336
    if deliver then e.slowRecord f p (user % 2 ^ 64) 0 else (e.count (Reg.GAR_CNT 2)).slowRelease id

/-- CUSTOMER_HANDLER (R521). -/
def execCustomerHandler (pkt : Nat) (deliver : Bool) (user : Nat) (s : State) : Res := engineStep s (customerHandler pkt deliver user)

/-- CUSTOMER_FAULT: the frame is delivered with CUST_FAULT, and the partition starts again at its entry (log entry 21). -/
def customerFault (id : Nat) (e : Engine) : Engine :=
  match e.atCustomer id with
  | none => e
  | some (f, p) => (((e.count (Reg.GAR_CNT 6)).evt Fld.GAR_EVT_CUST_FAULT).busy 336).slowRecord f p 0 16

/-- CUSTOMER_FAULT (R522). -/
def execCustomerFault (pkt : Nat) (s : State) : Res := engineStep s (customerFault pkt)

/-- The partition stops: CUST_STOP is set, and the frames it has are delivered with CUST_OFF (R522, R530). -/
def Engine.custStop (e : Engine) : Engine :=
  if !e.custRun then { e with gar := { e.gar with custStarted := false } }
  else
    let e := Engine.evt { e with gar := { e.gar with custStarted := false } } Fld.GAR_EVT_CUST_STOP
    (e.gar.queue.filter fun f => f.ph == 1).foldl (fun e f => match e.pkt f.pkt with | some p => e.slowRecord f p 0 8 | none => e) e

/-! ### Cells that hold the poison code (R679, R683, R684) -/

/-- An uncorrectable error of a frame's cell: counted and recorded; where the cell lies is open (log entry 10). -/
def Engine.cellUe (e : Engine) : Engine :=
  let (a, e) := e.fresh Config.fCellAddr
  let e := (e.alwaysN (Reg.ERR_UE 0) 1).evt Fld.ERR_EVT_UE
  let (syn, e) := e.fresh Config.fSyndrome
  Engine.errRecord { e with err := { e.err with aerUe := true } } 0x11 2 18 0 0 (e.partBase 0 + a % max (e.partSize 0) 1) 0 syn 0 0

/-- A read of the first `n` cells of a frame: the first that delivers poisoned data, `cell` being where `ecc` lies. -/
def Engine.cellRead (e : Engine) (p : Pkt) (n : Nat) (ecc : Ecc) (cell : Nat) : Option Nat × Engine :=
  if n = 0 then (none, e)
  else
    let (x, e) := e.takeInject 0 ecc
    match (List.range n).find? fun i => decide (i ∈ p.bad) with
    | some i => (some i, e.cellUe)
    | none =>
      match x with
      | .ue =>
        let c := min cell (n - 1)
        (some c, e.cellUe.setPkt p.id fun p => { p with bad := p.bad ++ [c] })
      | .ce => let (a, e) := e.fresh Config.fCellAddr; (none, e.memCe 0 (e.partBase 0 + a % max (e.partSize 0) 1))
      | _ => (none, e)

/-! ### The record and its data slot (R518, R519, Table GAR-2) -/

/-- Word 5: the fragment's identification, offset and MF, from the frame's bytes. -/
def Engine.fragWord (e : Engine) (p : Pkt) (reason : Nat) : Nat × Engine :=
  if reason ≠ 1 ∧ reason ≠ 2 then (0, e)
  else
    let inner := leAt p.pv 16 2
    let o := if reason = 2 then leAt p.pv 22 2
      else if bitOf (leAt p.pv 0 4) pfINNER_IPV4 && inner != 0xFFFF then inner else leAt p.pv 8 2
    if p.data.length < o + 8 then
      let (x, e) := e.fresh Config.fFrag
      (x % 2 ^ 46 + 2 ^ 46, e)
    else if reason = 1 then
      let w := beAt p.data (o + 6) 2
      (beAt p.data (o + 4) 2 + 2 ^ 32 * (w % 2 ^ 13) + 2 ^ 45 * bitsOf w 13 13 + 2 ^ 46, e)
    else
      let w := beAt p.data (o + 2) 2
      (beAt p.data (o + 4) 4 + 2 ^ 32 * (w / 8) + 2 ^ 45 * (w % 2) + 2 ^ 46, e)

/-- The record's words but for PHASE, at ring count `n`. -/
def slowWords (p : Pkt) (f : SlowFr) (n cap flags frag : Nat) : List Nat :=
  [p.ts,
   p.len % 2 ^ 14 + 2 ^ 16 * cap + 2 ^ 32 * p.port + 2 ^ 40 * (p.status.getD 0) + 2 ^ 43 * spqOf p.port,
   f.reason + 2 ^ 8 * byteAt p.pv 5 + 2 ^ 16 * (byteAt p.pv 4 % 4) + 2 ^ 18 * p.cls + 2 ^ 30 * p.col + 2 ^ 32 * p.que + 2 ^ 38 * p.steps,
   p.fhash % 2 ^ 32 + 2 ^ 32 * (p.epoch.getD 0 % 2 ^ 32),
   p.gen % 2 ^ 32,
   frag,
   f.user,
   n % 2 ^ 32 + 2 ^ 32 * flags + 6 * 2 ^ 56]

/-- The data slot of a record at ring count `n` is written: CAPLEN and the DATA_FAULT flag. CAPLEN stops before a poisoned cell. -/
def Engine.slowData (e : Engine) (k n : Nat) (p : Pkt) (f : SlowFr) (ecc : Ecc) (cell : Nat) : Nat × Bool × Engine :=
  let slot := 2 ^ f.slotLog
  let a := f.base + n % e.ringSize k * slot
  let cap := min (min p.len p.data.length) (min f.snap (slot - 256))
  if !e.inWindow (e.ringPd k) a slot then
    (0, true, (e.count (Reg.GAR_CNT 8)).evt Fld.GAR_EVT_DATA_FAULT)
  else
    let (bad, e) := e.cellRead p (ceilDiv cap 256) ecc cell
    let (cap, e) := match bad with
      | some c => (min cap (256 * c), e.poisoned 12 0 (e.pktRef p.ts))
      | none => (cap, e)
    (cap, false, e.emit (.hostWrite a (fitTo 224 p.pv ++ List.replicate 32 0 ++ p.data.take cap)))

/-- A slow-path record and its data slot go to ring `k`; the frame is released. -/
def Engine.slowWrite (e : Engine) (k : Nat) (f : SlowFr) (p : Pkt) (ecc : Ecc) (cell : Nat) : Engine :=
  let n := e.prod k
  let (cap, fault, e) := e.slowData k n p f ecc cell
  let trunc := decide (cap < p.len)
  let (frag, e) := e.fragWord p f.reason
  let flags := (f.flags &&& 0x5C) ||| bit trunc ||| 2 * bit p.classified ||| 32 * bit fault
  let e := (e.putRecord k (slowWords p f n cap flags frag) false).count (Reg.GAR_CNT 1)
  (if trunc then e.count (Reg.GAR_CNT 9) else e).slowRelease f.pkt

/-! ### The host scheduler (R198 to R200, R537, R548 to R550, R558) -/

/-- The ring a record goes to: a RETRACT record's is the one its early record went to. -/
def Engine.recRing (e : Engine) (h : Nat) (r : HRec) : Option Nat := r.ring.or (e.hqRing h)
/-- KIND of a record. -/
def HRec.kind (r : HRec) : Nat := bitsOf (r.words.getD (r.words.length - 1) 0) 58 56

/-- A head whose queue is unmapped or whose ring is not ACTIVE is discarded and counted; so is the RETRACT record of a VERDICT
record that is discarded, and the frame of a slow-path record is released. -/
def Engine.hqPurge (e : Engine) (h : Nat) : Engine :=
  match (e.hq h).recs with
  | [] => e
  | r :: rest =>
    let ring := e.recRing h r
    if (match ring with | some k => e.ringState k == 1 | none => false) = true then e
    else
      let e := match ring with | some k => e.count (Reg.HIF_RING_CNT_DISCARD k) | none => e.count (Reg.HIF_CNT 2)
      let mine (x : HRec) : Bool := r.kind == 1 && r.pkt.isSome && x.pkt == r.pkt && x.kind == 2
      let e := e.countN (Reg.HIF_CNT 3) (rest.filter mine).length
      let e := match r.pkt with
        | some id => if r.kind = 1 then e.setPkt id fun p => { p with ver := p.ver.map fun (v : Ver) => { v with discarded := true } } else e
        | none => e
      let e := (e.setHq h fun q => { q with recs := rest.filter fun x => !mine x }).hqRetag h
      match r.slow with | some id => e.slowRelease id | none => e

/-- Heads far behind V are clamped (R558). -/
def Engine.hqClamp (e : Engine) (h : Nat) : Engine :=
  if !(e.hq h).recs.isEmpty && decide (tagDist (e.hq h).f e.slc.hv < -(2 ^ 40)) then
    ((e.setHq h fun q => { q with f := (e.slc.hv + 2 ^ 48 - 2 ^ 40) % 2 ^ 48 }).count (Reg.SLC_CNT 0)).evt Fld.SLC_EVT_LAG_CLAMP
  else e

/-- A host-bound queue's head is eligible: its ring has a free slot, and takes slow-path records if it is one (R516, R559). -/
def Engine.hqEligible (e : Engine) (h : Nat) : Bool :=
  match (e.hq h).recs with
  | [] => false
  | r :: _ => match e.recRing h r with
    | some k => e.ringState k == 1 && e.ringRoom k && (r.slow.isNone || e.ringKind k == 7)
    | none => false

/-- A VERDICT record has been written to a ring: its RETRACT record, if one comes, goes there too. -/
def Engine.verdictWritten (e : Engine) (h k : Nat) (r : HRec) : Engine :=
  match r.pkt with
  | some id =>
    if r.kind ≠ 1 then e
    else
      let e := e.setPkt id fun p => { p with ver := p.ver.map fun (v : Ver) => { v with ring := some k } }
      e.setHq h fun q => { q with recs := q.recs.map fun x => if x.pkt = some id ∧ x.kind = 2 then { x with ring := some k } else x }
  | none => e

/-- The head of the selected queue is written; a GAP record that is due goes first and may leave no room for it. -/
def Engine.hqWrite (e : Engine) (h : Nat) (ecc : Ecc) (cell : Nat) : Engine :=
  match (e.hq h).recs with
  | [] => e
  | r :: _ =>
    match e.recRing h r with
    | none => e
    | some k =>
      let e := (e.flushGap k).busy 327
      if !e.ringRoom k then e
      else
        let e := e.hqPop h
        match r.slow with
        | none => (e.putRecord k r.words false).verdictWritten h k r
        | some id => match e.slowFr id, e.pkt id with
          | some f, some p => e.slowWrite k f p ecc cell
          | _, _ => e

/-- Host-bound queues that hold records. -/
def Engine.hqBusy (e : Engine) : List Nat := (e.slc.hq.filter fun q => !q.2.recs.isEmpty).map (·.1)

/-- The host scheduler's turn: records that cannot be delivered are discarded, then the head with the least tag among those
whose ring has room; the queue it selects. -/
def Engine.hostTurn (e : Engine) : Option Nat × Engine :=
  let e := e.hqBusy.foldl (fun e h => (List.range (e.hq h).recs.length).foldl (fun e _ => e.hqPurge h) e) e
  let e := e.evtIf ((List.range 8).any e.slowMapBad) Fld.GAR_EVT_MAP_ERR
  let e := e.hqBusy.foldl Engine.hqClamp e
  (leastTag e.slc.hv (fun h => (e.hq h).f) (e.hqBusy.filter e.hqEligible), e)

/-- The host scheduler writes the record it selects. -/
def hostServe (ecc : Ecc) (cell : Nat) (e : Engine) : Engine :=
  match e.hostTurn with
  | (some h, e) => e.hqWrite h ecc cell
  | (none, e) => e

/-- HOST_RECORD_WRITE (R199). -/
def execHostRecordWrite (s : State) : Res := hostStep s (hostServe .clean 0)

/-- SLOW_PATH_RECORD_WRITE (R517): the host scheduler's turn when the record it selects is a slow-path record. -/
def slowRecordWrite (ecc : Ecc) (cell : Nat) (e : Engine) : Engine :=
  match e.hostTurn with
  | (some h, e') => if (e'.hq h).recs.any fun r => r.slow.isSome && (e'.hq h).recs.head? == some r then e'.hqWrite h ecc cell else e
  | (none, e') => e'

/-- SLOW_PATH_RECORD_WRITE. -/
def execSlowPathRecordWrite (ecc : Ecc) (cell : Nat) (s : State) : Res := hostStep s (slowRecordWrite ecc cell)

/-! ### The watchdog (R523, R609) -/

/-- A restart of pair 0: commands of groups 0x7, 0x8 and 0xB in flight complete with ABORTED, a load that runs leaves the shadow
EMPTY, a coordinator's book is lost; armed and locked grafts stand. -/
def Engine.gp0Restart (e : Engine) : Engine :=
  let cs := e.hif.cmds.filter fun c => c.ph != .done && (c.op / 16 == 0x7 || c.op / 16 == 0x8 || c.op / 16 == 0xB)
  let e := cs.foldl (fun e c => e.finish c.id 0x23) e
  let g := e.gft
  let s := if g.sst = .loading then { g with sst := .empty, shadow := none } else g
  { e with gft := { s with loading := none, coord := none, arm := s.arm.map fun a => { a with cmd := none } } }

/-- A restart of pair 2: the learning step in progress is issued again (R609). -/
def Engine.gp2Restart (e : Engine) : Engine :=
  let mine (j : MilJob) : Bool := j.owner == .learn
  let stop (e : Engine) (m : Nat) : Engine :=
    match e.milRun m with
    | some (.job j) =>
      if mine j then Engine.setMilRun { e with mil := { e.mil with waiting := e.mil.waiting ++ [j] } } m none else e
    | _ => e
  let e := (List.range 32).foldl stop e
  let held := (e.mil.suspended.flatMap fun (x : Nat × List MilJob) => x.2).filter mine
  { e with mil := { e.mil with
    waiting := e.mil.waiting ++ held
    suspended := e.mil.suspended.filterMap fun (x : Nat × List MilJob) =>
      let l := x.2.filter fun j => !mine j
      if l.isEmpty then none else some (x.1, l) } }

/-- Frames in a phase are processed again, and their records carry REDONE. -/
def Engine.slowRedo (e : Engine) (ph back : Nat) : Engine :=
  { e with gar := { e.gar with queue := e.gar.queue.map fun f =>
      if f.ph = ph then { f with ph := back, flags := f.flags ||| 64 } else f } }

/-- GARNER_WATCHDOG_RESTART: a pair that has not signalled for 100 ms is restarted. The frames whose records the slow path's pair
held keep their place (log entry 21). -/
def garnerRestart (k : Nat) (e : Engine) : Engine :=
  if 4 ≤ k ∨ !e.pairUp k then e
  else
    let slow := e.slowCore
    let e := (e.count (Reg.GAR_CNT 7)).evt Fld.GAR_EVT_WDT
    let e := if k = 0 then e.gp0Restart else if k = 2 then e.gp2Restart else e
    let e := if slow = some 332 ∧ k = 1 ∨ slow = some 331 ∧ k = 0 then e.slowRedo 2 2 else e
    let e := if k = 3 then e.slowRedo 1 0 else e
    { e with gar := { e.gar with restarting := e.gar.restarting ++ [k] } }

/-- GARNER_WATCHDOG_RESTART (R523). -/
def execGarnerWatchdogRestart (pair : Nat) (s : State) : Res := engineStep s (garnerRestart pair)

/-- GARNER_PAIR_ON: the pair takes its duties back (R523). -/
def execGarnerPairOn (pair : Nat) (s : State) : Res :=
  engineStep s fun e => { e with gar := { e.gar with restarting := e.gar.restarting.filter fun k => k != pair } }

/-! ### Commands (R520, R528, R529) and profiles (R526) -/

/-- GAR_INFO: 64 bytes whose layout is open (log entry 19). -/
def garInfo (id : Nat) (e : Engine) : Engine :=
  withCmd id 0xB0 330 (fun c e =>
    if c.len ≠ 64 then e.finish c.id 0x10
    else
      let (n, e) := ((e.freeCtr, { e with freeCtr := e.freeCtr + 1 }) : Nat × Engine)
      (e.cmdWrite c (freeBytes Config.fGarInfo n 64)).finishOk c.id 0) e

/-- GAR_INFO. -/
def execGarInfo (cmd : Nat) (s : State) : Res := engineStep s (garInfo cmd)

/-- The garner firmware region, and the customer area at its start (R511, R520). -/
def garnerBase : Nat := 0x04FE0000000

/-- GAR_CUST_LOAD: REFUSED while the partition runs; BAD_DESC on a bad header or CRC (log entry 19). -/
def garCustLoad (id : Nat) (h : HostRead) (e : Engine) : Engine :=
  withCmd id 0xB1 330 (fun c e =>
    if 2 ^ 24 < c.len ∨ c.len < 64 then e.finish c.id 0x10
    else if e.custRun then e.finish c.id 0x20
    else match e.cmdData c h with
      | (none, e) => e
      | (some d, e) =>
        if !Config.custImageOk d then e.finish c.id 0x10
        else Engine.finishOk (Engine.store { e with gar := { e.gar with custOk := true, custStarted := false } } garnerBase d) c.id 0) e

/-- GAR_CUST_LOAD. -/
def execGarCustLoad (cmd : Nat) (src : HostRead) (s : State) : Res := engineStep s (garCustLoad cmd src)

/-- GAR_CUST_CTRL: start or stop. -/
def garCustCtrl (id : Nat) (e : Engine) : Engine :=
  withCmd id 0xB2 330 (fun c e =>
    match c.arg 32 1 with
    | 0 => e.custStop.finishOk c.id 0
    | 1 =>
      if e.gar.custOk && e.pairUp 3 && e.domOn 17 then Engine.finishOk { e with gar := { e.gar with custStarted := true } } c.id 0
      else e.finish c.id 0x20
    | _ => e.finish c.id 0x10) e

/-- GAR_CUST_CTRL. -/
def execGarCustCtrl (cmd : Nat) (s : State) : Res := engineStep s (garCustCtrl cmd)

/-- GAR_CMIS_FW: `status` is the CDB completion status that the cage's module returns. -/
def garCmisFw (id : Nat) (h : HostRead) (status : Nat) (e : Engine) : Engine :=
  withCmd id 0xB3 330 (fun c e =>
    let cage := c.arg 32 1
    let step := c.arg 33 1
    if 8 ≤ cage ∨ 3 ≤ step then e.finish c.id 0x10
    else if step = 1 ∧ (List.range 4).any (fun s => e.is (Fld.ITK_PORT_CTRL_UP (4 * cage + s))) = true then e.finish c.id 0x20
    else match e.cmdData c h with
      | (none, e) => e
      | (some _, e) => e.finishOk c.id (status % 2 ^ 16)) e

/-- GAR_CMIS_FW. -/
def execGarCmisFw (cmd : Nat) (src : HostRead) (status : Nat) (s : State) : Res := engineStep s (garCmisFw cmd src status)

/-- The expansion of a garner profile (Table GAR-4). -/
def garExpand (v : Nat) : Option (Engine → Engine) :=
  let mk (act full depth snap slot : Nat) (e : Engine) : Engine :=
    let base := e.get Fld.GAR_BASIC_DATA_BASE
    let e := ((e.put Fld.GAR_SP_ACT_ACT act).put Fld.GAR_SP_CFG_FULL_ACT full).put Fld.GAR_SP_CFG_QDEPTH depth
    (List.range 8).foldl (fun e q => (e.put (Fld.GAR_SPQ_SLOT_LOG2 q) slot).put (Fld.GAR_SPQ_DATA_BASE q) base)
      (e.put Fld.GAR_SP_CFG_SNAPLEN snap)
  match v with
  | 0 => some (mk 0 1 4096 9728 14)
  | 1 => some (mk 0 0 4096 256 9)
  | 2 => some (mk 0x1555555 0 4096 0 8)
  | _ => none

/-- GAR_PROFILE_SELECT (R526). -/
def execGarProfileSelect (v : Nat) (s : State) : Res := hostStep s (profileWrite 12 Fld.GAR_PROFILE_PROFILE v (garExpand v))

end Sys2Proof.Machine
end

