-- ==== Sys2Proof/Machine/Image.lean ====
section
/-!
DEFINITION. Image.lean: the checks of a model image, SHA-256, and where a model is placed (R369 to R380, R414, R438, R579 to
R590, R596, R610).
-/
namespace Sys2Proof.Machine

/-! ### SHA-256 (R590, FIPS 180-4) -/

/-- The round constants, first half. -/
def shaK1 : List Nat :=
  [0x428a2f98, 0x71374491, 0xb5c0fbcf, 0xe9b5dba5, 0x3956c25b, 0x59f111f1, 0x923f82a4, 0xab1c5ed5,
   0xd807aa98, 0x12835b01, 0x243185be, 0x550c7dc3, 0x72be5d74, 0x80deb1fe, 0x9bdc06a7, 0xc19bf174,
   0xe49b69c1, 0xefbe4786, 0x0fc19dc6, 0x240ca1cc, 0x2de92c6f, 0x4a7484aa, 0x5cb0a9dc, 0x76f988da,
   0x983e5152, 0xa831c66d, 0xb00327c8, 0xbf597fc7, 0xc6e00bf3, 0xd5a79147, 0x06ca6351, 0x14292967]
/-- The round constants, second half. -/
def shaK2 : List Nat :=
  [0x27b70a85, 0x2e1b2138, 0x4d2c6dfc, 0x53380d13, 0x650a7354, 0x766a0abb, 0x81c2c92e, 0x92722c85,
   0xa2bfe8a1, 0xa81a664b, 0xc24b8b70, 0xc76c51a3, 0xd192e819, 0xd6990624, 0xf40e3585, 0x106aa070,
   0x19a4c116, 0x1e376c08, 0x2748774c, 0x34b0bcb5, 0x391c0cb3, 0x4ed8aa4a, 0x5b9cca4f, 0x682e6ff3,
   0x748f82ee, 0x78a5636f, 0x84c87814, 0x8cc70208, 0x90befffa, 0xa4506ceb, 0xbef9a3f7, 0xc67178f2]

/-- A 32-bit word rotated right. -/
def rotr32 (x n : Nat) : Nat := (x >>> n) ||| (x <<< (32 - n)) % 2 ^ 32

/-- The message schedule of a block: 64 words. -/
def shaSchedule (b : Bytes) : List Nat :=
  (List.range 48).foldl (fun w i =>
    let a := w.getD (i + 1) 0
    let c := w.getD (i + 14) 0
    let s0 := rotr32 a 7 ^^^ rotr32 a 18 ^^^ (a >>> 3)
    let s1 := rotr32 c 17 ^^^ rotr32 c 19 ^^^ (c >>> 10)
    w ++ [(w.getD i 0 + s0 + w.getD (i + 9) 0 + s1) % 2 ^ 32]) ((List.range 16).map fun i => beAt b (4 * i) 4)

/-- One block joins the hash. -/
def shaBlock (h : List Nat) (b : Bytes) : List Nat :=
  let r := ((shaSchedule b).zip (shaK1 ++ shaK2)).foldl (fun (v : List Nat) (x : Nat × Nat) =>
    let a := v.getD 0 0
    let e := v.getD 4 0
    let s1 := rotr32 e 6 ^^^ rotr32 e 11 ^^^ rotr32 e 25
    let ch := (e &&& v.getD 5 0) ^^^ ((2 ^ 32 - 1 - e) &&& v.getD 6 0)
    let t1 := (v.getD 7 0 + s1 + ch + x.2 + x.1) % 2 ^ 32
    let s0 := rotr32 a 2 ^^^ rotr32 a 13 ^^^ rotr32 a 22
    let maj := (a &&& v.getD 1 0) ^^^ (a &&& v.getD 2 0) ^^^ (v.getD 1 0 &&& v.getD 2 0)
    [(t1 + s0 + maj) % 2 ^ 32, a, v.getD 1 0, v.getD 2 0, (v.getD 3 0 + t1) % 2 ^ 32, e, v.getD 5 0, v.getD 6 0]) h
  (h.zip r).map fun (x : Nat × Nat) => (x.1 + x.2) % 2 ^ 32

/-- The digest as eight big-endian words. -/
def sha256 (m : Bytes) : List Nat :=
  let p := m ++ [0x80] ++ List.replicate ((119 - m.length % 64) % 64) 0 ++ natBE 8 (8 * m.length)
  (List.range (p.length / 64)).foldl (fun h i => shaBlock h (slice p (64 * i) 64))
    [0x6a09e667, 0xbb67ae85, 0x3c6ef372, 0xa54ff53a, 0x510e527f, 0x9b05688c, 0x1f83d9ab, 0x5be0cd19]

/-- The hash as GFT_LIVE_HASH and GFT_SHADOW_HASH show it: the first digest byte in bits 7:0 of word 0. -/
def imageHash (im : Bytes) : List Nat := (sha256 im).map fun w => leNat (natBE 4 w)

/-! ### Checks at load (Table GFT-7) -/

/-- A finite binary32 code held in 32 bits. -/
def finite32 (c : Nat) : Bool := f32Finite c

/-- Codes rise strictly in value and are finite. -/
def rising32 (l : List Nat) : Bool :=
  l.all finite32 && (l.zip (l.drop 1)).all fun (x : Nat × Nat) => decide ((f32v x.1).rat < (f32v x.2).rat)

/-- Header fields of R579, with the section table inside the image. -/
def headerOk (im : Bytes) (len : Nat) : Bool :=
  let n := leAt im 6 2
  im.length == len && decide (64 ≤ len) && decide (len ≤ 2 ^ 27) && leAt im 0 4 == 0x4D4C4D49 && leAt im 4 2 == 1 &&
    decide (1 ≤ n) && decide (n ≤ 1024) && decide (1 ≤ leAt im 8 4) && decide (leAt im 8 4 < 2 ^ 31) && leAt im 12 4 == len &&
    decide (byteAt im 20 < 2) && (slice im 21 43).all (· == 0) && decide (64 + 16 * n ≤ len)

/-- The largest INDEX of a section type. -/
def sectIndexMax (typ : Nat) : Nat := if typ = 3 ∨ typ = 4 then 63 else if typ = 5 then 255 else 0

/-- A section entry's own checks. -/
def sectOk (im : Bytes) (s : Sect) : Bool :=
  let o := 64 + 16 * s.i
  decide (1 ≤ s.typ) && decide (s.typ ≤ 9) && decide (s.idx ≤ sectIndexMax s.typ) && leAt im (o + 2) 2 == 0 && leAt im (o + 12) 4 == 0 &&
    s.off % 8 == 0 && decide (64 + 16 * leAt im 6 2 ≤ s.off) && decide (s.off + s.len ≤ im.length) &&
    (s.typ != 4 || s.len == 64) && (s.typ != 2 || s.len % 8 == 0) &&
    (s.typ != 7 || (s.len == 16 && leAt im (s.off + 2) 2 == 0 && leAt im (s.off + 14) 2 == 0))

/-- The first section that breaks R579 or Table GFT-3; index 0 for a missing MWBLOCK or a LEARN section that does not go
with ADAPTIVE. -/
def sectionRefuse (im : Bytes) : Option Nat :=
  let l := imageSects im
  let clash (s : Sect) : Bool := l.any fun t => decide (t.i < s.i) &&
    ((t.typ == s.typ && t.idx == s.idx) || overlaps s.off s.len t.off t.len)
  match l.find? fun s => !sectOk im s || clash s with
  | some s => some s.i
  | none => if (imageSect im 1 0).isNone ∨ (imageSect im 9 0).isSome ≠ bitOf (byteAt im 20) 0 then some 0 else none

/-- One grader slot (R370, R374, R375). -/
def graderSlotOk (g : Bytes) (n i : Nat) : Bool :=
  let o := slotOff i
  let b0 := byteAt g o
  let binned := slotBinned g i
  let e := slotEdges g i
  match slotKind g i with
  | 0 => true
  | 1 =>
    let src := byteAt g (o + 1)
    let ix := byteAt g (o + 2)
    let eo := 4 * leAt g (o + 6) 2
    decide (b0 < 16) && decide (src ≤ 2) && decide (ix ≤ [223, 15, 6].getD src 0) && decide (byteAt g (o + 3) < 64) &&
      decide (1 ≤ byteAt g (o + 4)) && decide (byteAt g (o + 4) ≤ 64) && (binned || e == 0) &&
      finite32 (leAt g (o + 8) 4) && finite32 (leAt g (o + 12) 4) &&
      (e == 0 || (decide (eo + 4 * e ≤ g.length) && rising32 ((List.range e).map fun k => leAt g (eo + 4 * k) 4)))
  | 2 =>
    let ok (x : Nat) : Bool := decide (x < n) && slotKind g x == 1 && slotBinned g x
    b0 == 2 && ok (byteAt g (o + 1)) && ok (byteAt g (o + 2)) && (slice g (o + 3) 13).all (· == 0)
  | _ => false

/-- A grader set image (R369 to R375). -/
def graderOk (g : Bytes) : Bool :=
  let n := leAt g 0 2
  decide (1 ≤ n) && decide (n ≤ 256) && (slice g 2 14).all (· == 0) && decide (16 + 16 * n ≤ g.length) && decide (g.length ≤ 2 ^ 18) &&
    (List.range n).all (graderSlotOk g n) && decide (((List.range n).filter fun i => slotKind g i == 2).length ≤ 64)

/-- A slot yields a binary32 value: an unbinned PRIMARY one. -/
def slotFloat (g : Bytes) (i : Nat) : Bool := decide (i < leAt g 0 2) && slotKind g i == 1 && !slotBinned g i

/-- A tree from node `i`: at most `fuel` nodes on any path, with `limit` nodes in all (R379, R380). -/
def treeOk (nodes g : Bytes) (limit fuel i : Nat) : Bool :=
  match fuel with
  | 0 => false
  | k + 1 =>
    if limit ≤ i then false
    else
      let x := leAt nodes (8 * i) 8
      if bitOf x 40 then bitsOf x 39 32 == 0 && bitsOf x 63 41 == 0 && finite32 (x % 2 ^ 32)
      else
        let r := bitsOf x 63 44
        bitsOf x 43 42 == 0 && decide (i + 1 < r) && bitOf x 41 == slotFloat g (bitsOf x 39 32) &&
          (!bitOf x 41 || finite32 (x % 2 ^ 32)) && treeOk nodes g limit k (i + 1) && treeOk nodes g limit k r

/-- An ensemble descriptor and its trees (R378, R380). -/
def ensembleOk (d mw nodes : Bytes) (grader : Nat → Option Bytes) (cap : Nat) : Bool :=
  let n := leAt d 0 4
  let ro := leAt d 4 4
  let t := byteAt d 13
  let thr := (List.range 12).map fun k => leAt d (16 + 4 * k) 4
  let limit := min (min (nodes.length / 8) cap) (2 ^ 20)
  decide (n ≤ 4096) && ro % 4 == 0 && decide (ro + 4 * n ≤ mw.length) && finite32 (leAt d 8 4) && decide (byteAt d 12 < 64) &&
    decide (t ≤ 12) && leAt d 14 2 == 0 && rising32 (thr.take t) && (thr.drop t).all (· == 0) &&
    match grader (byteAt d 12) with
    | none => false
    | some g => (List.range n).all fun k => treeOk nodes g limit 16 (leAt mw (ro + 4 * k) 4)

/-- A template section (R414). -/
def templateOk (t mw : Bytes) (grader : Nat → Option Bytes) : Bool :=
  let n := byteAt t 0
  let l := stagesOf (t.drop 16)
  let out (c : Nat) : Bool := isReg c || c == 15
  let holds (c : Nat) : Bool :=
    c == 15 || match (l.filter fun b => stCDst b == c).getLast? with
      | some b => !bitOf (leAt b 2 2) 15 && stN b 0 == 32
      | none => false
  decide (1 ≤ n) && decide (n ≤ 16) && t.length == 16 + 128 * n && decide (byteAt t 1 < 64) && (grader (byteAt t 1)).isSome &&
    (slice t 5 11).all (· == 0) && out (byteAt t 2) && out (byteAt t 3) && out (byteAt t 4) &&
    ((byteAt t 2 == 15) == (byteAt t 3 == 15)) && holds (byteAt t 2) && holds (byteAt t 3) &&
    l.all (checkStage ⟨true, mw⟩ fun a n => slice mw a n)

/-- A program table (R438). -/
def programsOk (p : Bytes) (part : Nat) : Bool :=
  p.length % 16 == 0 && decide (p.length ≤ 16384) && (List.range (p.length / 16)).all fun i =>
    let o := 16 * i
    leAt p o 4 % 4 == 0 && decide (leAt p o 4 < part) && decide (byteAt p (o + 12) ≤ 2) && leAt p (o + 13) 3 == 0

/-- An INT4 zero point held sign-extended in a byte. -/
def zp4Ok (b : Nat) : Bool := wrapInt 8 (sextOf 4 b) == b

/-- KVDESC's scales and zero points meet R340. -/
def kvOk (k : Bytes) : Bool := scaleOk (leAt k 4 4) && scaleOk (leAt k 8 4) && zp4Ok (byteAt k 12) && zp4Ok (byteAt k 13)

/-- Entry `j` of a TRACKED section. -/
def trkOff (j : Nat) : Nat := 16 + 16 * j

/-- Every tracked entry's INIT_SCALE and INIT_ZP meet R340. -/
def trackedNumOk (t : Bytes) : Bool :=
  (List.range (leAt t 0 2)).all fun j =>
    let o := trkOff j
    scaleOk (leAt t (o + 4) 4) && (match Fmt.ofCode (byteAt t (o + 3)) with | some f => zpOk f (byteAt t (o + 8)) | none => true)

/-- A TRACKED section (R581). -/
def trackedOk (im t : Bytes) : Bool :=
  let n := leAt t 0 2
  let ids := (List.range n).map fun j => leAt t (trkOff j) 2
  let sects := imageSects im
  decide (n ≤ 256) && (slice t 2 14).all (· == 0) && decide (16 + 16 * n ≤ t.length) && !ids.contains 0xFFFF &&
    ids.eraseDups.length == n && (List.range n).all fun j =>
      let o := trkOff j
      let r := leAt t (o + 12) 4
      let nr := byteAt t (o + 9)
      decide (byteAt t (o + 2) ≤ 1) && decide (byteAt t (o + 3) ≤ 8) && decide (nr ≤ 8) && (byteAt t (o + 2) != 0 || nr == 0) &&
        leAt t (o + 10) 2 == 0 && (nr == 0 || decide (r + 12 * nr ≤ t.length)) && (List.range nr).all fun k =>
          let x := r + 12 * k
          leAt t (x + 2) 2 == 0 && match sects[leAt t x 2]? with
            | some s => decide (leAt t (x + 4) 4 + 4 ≤ s.len) && decide (leAt t (x + 8) 4 + 1 ≤ s.len)
            | none => false

/-- The tracked entry of a tensor: CLASS and format. -/
def trackedOf (t : Bytes) (id : Nat) : Option (Nat × Fmt) :=
  ((List.range (leAt t 0 2)).find? fun j => leAt t (trkOff j) 2 == id).bind fun j =>
    (Fmt.ofCode (byteAt t (trkOff j + 3))).map fun f => (byteAt t (trkOff j + 2), f)

/-- Tensor `j` of a LEARN section: W_OFF, COUNT, WORK_OFF, G_OFF, M_OFF, V_OFF, then W_ID, G_ID, M_ID, V_ID. -/
structure LTens where
  w : Nat
  n : Nat
  work : Nat
  g : Nat
  m : Nat
  v : Nat
  wId : Nat
  gId : Nat
  mId : Nat
  vId : Nat
deriving DecidableEq, Repr

/-- The tensors of a LEARN section. -/
def learnTens (l : Bytes) : List LTens :=
  (List.range (byteAt l 9)).map fun j =>
    let o := 64 + 32 * j
    ⟨leAt l o 4, leAt l (o + 4) 4, leAt l (o + 8) 4, leAt l (o + 12) 4, leAt l (o + 16) 4, leAt l (o + 20) 4,
     leAt l (o + 24) 2, leAt l (o + 26) 2, leAt l (o + 28) 2, leAt l (o + 30) 2⟩

/-- A LEARN section (R596, R610). -/
def learnOk (im l t mw : Bytes) : Bool :=
  let ts := learnTens l
  let unit (o : Nat) : Bool :=
    let c := leAt l o 4
    finite32 c && decide (0 ≤ (f32v c).rat) && decide ((f32v c).rat ≤ 1)
  let pos (o : Nat) : Bool := scaleOk (leAt l o 4)
  let wBytes (x : LTens) : Nat := match trackedOf t x.wId with | some (_, f) => f.bytesOf x.n | none => 0
  let areas : List (Nat × Nat) := (leAt l 36 4, 1024 * leAt l 2 2 + 1024 * byteAt l 1) ::
    ts.flatMap fun x => [(x.work, wBytes x), (x.g, x.n), (x.m, x.n), (x.v, x.n)]
  let apart := areas.zipIdx.all fun (a : (Nat × Nat) × Nat) => areas.zipIdx.all fun (b : (Nat × Nat) × Nat) =>
    decide (b.2 ≤ a.2) || !overlaps a.1.1 a.1.2 b.1.1 b.1.2
  l.length == 64 + 32 * byteAt l 9 && decide (1 ≤ byteAt l 1) && decide (byteAt l 1 ≤ 64) && decide (64 ≤ leAt l 2 2) &&
    decide (leAt l 2 2 ≤ 4096) && decide (1 ≤ byteAt l 8) && decide (byteAt l 8 ≤ 16) && decide (1 ≤ byteAt l 9) &&
    decide (byteAt l 9 ≤ 64) && leAt l 10 2 == 0 && (slice l 40 24).all (· == 0) && decide (leAt l 4 4 + 128 * byteAt l 8 ≤ mw.length) &&
    pos 12 && unit 16 && unit 20 && unit 24 && unit 28 && pos 32 && (imageSect im 5 (byteAt l 0)).isSome &&
    ts.all (fun x => decide (1 ≤ x.n) && trackedOf t x.gId == some (0, .int8) && trackedOf t x.mId == some (0, .int8) &&
      trackedOf t x.vId == some (0, .uint8) && (trackedOf t x.wId).map Prod.fst == some 1 && decide (x.w + wBytes x ≤ mw.length)) &&
    areas.all (fun a => decide (a.1 + a.2 ≤ 2 ^ 30)) && apart

/-- Checks 1 to 10 of Table GFT-7, in its order: the reason and the section table index. -/
def imageRefuse (im : Bytes) (len nodeCap mwPart : Nat) : Option (Nat × Nat) :=
  if !headerOk im len then some (1, 0)
  else if crc32 (im.drop 64) ≠ leAt im 16 4 then some (2, 0)
  else match sectionRefuse im with
    | some i => some (3, i)
    | none =>
      let l := imageSects im
      let body (typ idx : Nat) : Option Bytes := (imageSect im typ idx).map (sectBytes im)
      let mw := (body 1 0).getD []
      let nodes := (body 2 0).getD []
      let trk := (body 8 0).getD (List.replicate 16 0)
      let bad (typ : Nat) (ok : Bytes → Bool) : Option Nat :=
        (l.find? fun s => s.typ == typ && !ok (sectBytes im s)).map (·.i)
      let checks : List (Nat × Option Nat) :=
        [(4, bad 3 graderOk), (5, bad 4 fun d => ensembleOk d mw nodes (body 3) nodeCap),
         (6, bad 5 fun t => templateOk t mw (body 3)), (7, bad 6 fun p => programsOk p mwPart),
         (8, (bad 7 kvOk).or (bad 8 trackedNumOk)), (9, bad 8 (trackedOk im)), (10, bad 9 fun l => learnOk im l trk mw)]
      checks.findSome? fun (c : Nat × Option Nat) => c.2.map fun i => (c.1, i)

/-! ### Placing a model (R580, R586) -/

/-- Bytes a model takes in the model/weights partition, from its sections: MWBLOCK first, then grader sets, templates and
programs on 8-byte boundaries; with each, its offset. -/
def mwLayout (im : Bytes) : List (Sect × Nat) × Nat :=
  let l := imageSects im
  let order := (l.filter fun s => s.typ == 1) ++ (l.filter fun s => s.typ == 3 || s.typ == 5 || s.typ == 6)
  order.foldl (fun (r : List (Sect × Nat) × Nat) s =>
    let o := ceilDiv r.2 8 * 8
    (r.1 ++ [(s, o)], o + s.len)) ([], 0)

/-- Nodes of an image. -/
def imageNodes (im : Bytes) : Nat := match imageSect im 2 0 with | some s => s.len / 8 | none => 0
/-- Ensembles of an image. -/
def imageEnsembles (im : Bytes) : Nat := ((imageSects im).filter fun s => s.typ == 4).length

/-- The lowest base at which `need` units fit in `cap` beside what the live model occupies. -/
def fitBeside (need cap align : Nat) (live : Option (Nat × Nat)) : Option Nat :=
  match live with
  | none => if need ≤ cap then some 0 else none
  | some (b, n) =>
    if need ≤ b then some 0
    else
      let x := ceilDiv (b + n) align * align
      if x + need ≤ cap then some x else none

/-- The bases of a new model: `none` when it does not fit (R586). -/
def Engine.placeModel (e : Engine) (im : Bytes) : Option (Nat × Nat) :=
  let live := e.gft.live
  let mw := fitBeside (mwLayout im).2 (e.partSize 3) 8 (live.map fun m => (m.mwBase, (mwLayout m.image).2))
  let nd := fitBeside (imageNodes im) (e.partSize 2 / 8) 1 (live.map fun m => (m.nodeBase, imageNodes m.image))
  let ens := imageEnsembles im + (match live with | some m => imageEnsembles m.image | none => 0)
  match mw, nd with
  | some a, some b => if ens ≤ 64 then some (a, b) else none
  | _, _ => none

/-- A model with its sections written to the partitions. -/
def Engine.layModel (e : Engine) (im : Bytes) (epoch : Nat) (learned : Bool) (bases : Nat × Nat) : Model × Engine :=
  let parts := (mwLayout im).1.map fun (x : Sect × Nat) => (x.1, e.partBase 3 + bases.1 + x.2)
  let parts := match imageSect im 2 0 with
    | some s => parts ++ [(s, e.partBase 2 + 8 * bases.2)]
    | none => parts
  let m : Model :=
    { epoch := epoch, image := im, hash := imageHash im, learned := learned, mwBase := bases.1, nodeBase := bases.2
      place := parts.foldl (fun (t : Tbl Nat) x => Tbl.put t x.1.i x.2) [] }
  (m, parts.foldl (fun e x => e.store x.2 (sectBytes im x.1)) e)

/-- The image of a model as it stands, with a fresh CRC (R607); `none` where a resident section is poisoned. -/
def Engine.imageNow (e : Engine) (m : Model) : Option Bytes :=
  let secs := (imageSects m.image).filter fun s => (Tbl.find m.place s.i).isSome
  if secs.any fun s => (protWords 0 (m.secAddr s) s.len).any fun w => decide (w ∈ e.poison) then none
  else
    let im := secs.foldl (fun im s => patch im s.off (e.readMem (m.secAddr s) s.len)) m.image
    some (patch im 16 (natLE 4 (crc32 (im.drop 64))))

end Sys2Proof.Machine
end

