-- ==== Sys2Proof/Machine/Tables.lean ====
section
/-!
DEFINITION. Tables.lean: the table commands, generations and the cascade profiles (R256 to R258, R280 to R290).
-/
namespace Sys2Proof.Machine

/-! ### Image rules (R260 to R262, R267, R271, R272) -/

/-- An ACTION whose reserved bits are zero and whose colour is not 3; bit 31 is not looked at. -/
def actionOk (a : Nat) : Bool := bitsOf a 30 20 == 0 && bitsOf a 13 12 != 3

/-- The ARG of a step kind holds nothing its defining chapter does not name. -/
def argOk (kind arg : Nat) : Bool :=
  match kind with
  | 1 => decide (arg < 8)
  | 2 => decide (arg < 16) && decide (arg % 8 ≤ 4)
  | 3 | 4 => decide (arg < 64)
  | 6 => decide (arg < 1024)
  | 7 => decide (arg < 256)
  | 8 => decide (arg < 4096)
  | 9 => decide (arg < 4)
  | _ => arg == 0

/-- A cascade entry follows Table CSC-1 and the rules of its kind. -/
def entryOk (x : Nat) : Bool :=
  let k := entKind x
  k != 14 && entMode x != 3 && decide (entWidth x ≤ 10) && bitsOf x 21 19 == 0 && argOk k (entArg x) &&
    (entMode x != 2 || k == 10 || k == 11)

/-- An item follows its image rules. -/
def itemOk (t : Nat) (b : Bytes) : Bool :=
  match t with
  | 0 => (List.range 80).all (fun i => byteAt b i &&& (255 - byteAt b (80 + i)) == 0) && actionOk (leAt b 168 4) &&
      decide (byteAt b 172 < 8) && (b.drop 173).all (· == 0)
  | 1 =>
    let x := leNat b
    decide (bitsOf x 15 0 ≤ bitsOf x 31 16) && decide (bitsOf x 37 32 ≤ 39) && bitsOf x 62 38 == 0
  | 2 => (b.take 40).all (fun s => decide (s.toNat ≤ 114) || s.toNat == 127) && actionOk (leAt b 40 4) && (b.drop 44).all (· == 0)
  | 3 => entryOk (leNat b)
  | _ => decide (leNat b < 1024)

/-! ### Commands -/

/-- REFUSED with a reason of Table WNW-5 and an item index (R287). -/
def Engine.tblRefuse (e : Engine) (c : Cmd) (reason idx : Nat) : Engine := e.complete c.id 0x20 (idx % 2 ^ 16 + 2 ^ 16 * reason) 0 none 292

/-- WNW_GEN_STAT.STATE: 0 READY, 1 RETIRING, 2 PENDING. -/
def Engine.genState (e : Engine) : Nat := e.get Fld.WNW_GEN_STAT_STATE

/-- Starts a command of group 0x2; `shadow` says that it works on the SHADOW bank, so it waits while that is RETIRING (R284). -/
def tblCmd (id op : Nat) (shadow : Cmd → Bool) (f : Cmd → Engine → Engine) (e : Engine) : Engine :=
  match e.startable id op with
  | none => e
  | some c => if shadow c && e.genState == 1 then e else withCmd id op 292 f e

/-- Writes items in ascending index until one fails: the bank, and the index of the item that failed. -/
def Bank.load (b : Bank) (t i : Nat) (items : List Bytes) : Bank × Option Nat :=
  match items with
  | [] => (b, none)
  | x :: xs => if itemOk t x then (b.writeItem t i x).load t (i + 1) xs else (b, some i)

/-- `n` items of a table from bytes. -/
def itemsOf (t n : Nat) (d : Bytes) : List Bytes := (List.range n).map fun i => slice d (i * itemSize t) (itemSize t)

/-- A load of table `t` (R283, R284, R287). -/
def tblLoad (id t : Nat) (h : HostRead) (e : Engine) : Engine :=
  tblCmd id (0x20 + t) (fun _ => true) (fun c e =>
    let first := c.arg 32 4
    let n := c.len / itemSize t
    if e.genState ≠ 0 then e.tblRefuse c 4 0
    else if c.len % itemSize t ≠ 0 then e.tblRefuse c 2 0
    else if tableItems t < first + n then e.tblRefuse c 1 0
    else
      match e.cmdData c h with
      | (none, e) => e
      | (some d, e) =>
        let r := e.tab.shadow.load t first (itemsOf t n d)
        let e := { e with tab := { e.tab with shadow := r.1, fromProfile := none } }
        match r.2 with
        | some i => e.tblRefuse c 3 i
        | none => e.finishOk c.id 0) e

/-- TBL_LOAD_RULES. -/
def execTblLoadRules (cmd : Nat) (src : HostRead) (s : State) : Res := engineStep s (tblLoad cmd 0 src)
/-- TBL_LOAD_RANGES. -/
def execTblLoadRanges (cmd : Nat) (src : HostRead) (s : State) : Res := engineStep s (tblLoad cmd 1 src)
/-- TBL_LOAD_LAYOUTS. -/
def execTblLoadLayouts (cmd : Nat) (src : HostRead) (s : State) : Res := engineStep s (tblLoad cmd 2 src)
/-- TBL_LOAD_CASCADE. -/
def execTblLoadCascade (cmd : Nat) (src : HostRead) (s : State) : Res := engineStep s (tblLoad cmd 3 src)
/-- TBL_LOAD_STARTS. -/
def execTblLoadStarts (cmd : Nat) (src : HostRead) (s : State) : Res := engineStep s (tblLoad cmd 4 src)

/-- TBL_PREPARE: EMPTY or COPY_LIVE (R285). -/
def tblPrepare (id : Nat) (e : Engine) : Engine :=
  tblCmd id 0x25 (fun _ => true) (fun c e =>
    let mode := c.arg 32 1
    if 1 < mode then e.finish c.id 0x10
    else if e.genState ≠ 0 then e.tblRefuse c 4 0
    else Engine.finishOk { e with tab := { e.tab with shadow := if mode = 0 then {} else e.tab.live, fromProfile := none } } c.id 0) e

/-- TBL_PREPARE. -/
def execTblPrepare (cmd : Nat) (s : State) : Res := engineStep s (tblPrepare cmd)

/-- TBL_READ copies items of a bank to DST (R283). -/
def tblRead (id : Nat) (e : Engine) : Engine :=
  tblCmd id 0x27 (fun c => c.arg 33 1 == 1) (fun c e =>
    let t := c.arg 32 1
    let bank := c.arg 33 1
    let first := c.arg 36 4
    let n := c.len / itemSize t
    if 4 < t ∨ 1 < bank then e.finish c.id 0x10
    else if c.len % itemSize t ≠ 0 then e.tblRefuse c 2 0
    else if tableItems t < first + n then e.tblRefuse c 1 0
    else
      let b := if bank = 0 then e.tab.live else e.tab.shadow
      let is := (List.range n).map fun i => first + i
      if is.any fun i => decide ((t, i) ∈ b.bad) then
        ((e.memUe 5 0 false).poisoned 1 c.dst (e.cmdRef c)).finish c.id 0x31
      else (e.cmdWrite c (is.flatMap fun i => b.item t i)).finishOk c.id 0) e

/-- TBL_READ. -/
def execTblRead (cmd : Nat) (s : State) : Res := engineStep s (tblRead cmd)

/-! ### Switches (R257, R258, R273, R286) -/

/-- A PARSE entry has the form of R273. -/
def Bank.parseOk (b : Bank) (x : Nat) : Bool :=
  entMode x == 1 && entSel x == 1 && entShift x == 0 && entWidth x == 2 &&
    entKind (b.entry ((entNext x + 2) % 1024)) == 12 && entKind (b.entry ((entNext x + 3) % 1024)) == 13

/-- The cross-entry checks, in the order of R286: the reason and the item that fails. -/
def Bank.check (b : Bank) : Option (Nat × Nat) :=
  match (List.range 1024).find? fun i => entKind (b.entry i) == 0 && !b.parseOk (b.entry i) with
  | some i => some (6, i)
  | none =>
    match (List.range 32).find? fun p => entKind (b.entry (b.start p)) != 0 with
    | some p => some (7, p)
    | none =>
      (b.validRules.find? fun r => (ruleUnits (b.item 0 r)).any fun u => !bitOf (leNat (b.item 1 u)) 63).map fun r => (5, r)

/-- The SHADOW bank becomes live at T; the former live bank retires (R257, R258). The new LIVE_GEN. -/
def Engine.switchTables (e : Engine) (t : Nat) : Engine :=
  let n := if e.tab.switches + 1 = 2 ^ 32 then 1 else e.tab.switches + 1
  let prof := match e.tab.fromProfile with | some v => v | none => 7
  let e := { e with tab := { e.tab with
    live := e.tab.shadow, shadow := e.tab.live, pend := none, fromProfile := none, switches := n, retGen := e.rd Reg.WNW_GEN } }
  let e := ((e.wr Reg.WNW_GEN n).wr Reg.WNW_GEN_STAT 1).wr Reg.WNW_SWITCH_TIME t
  ((e.wr Reg.WNW_PEND_TIME 0).evt Fld.WNW_EVT_SWITCHED).put Fld.CSC_PROFILE_PROFILE prof

/-- TBL_SWITCH (R286, R287). -/
def tblSwitch (id : Nat) (e : Engine) : Engine :=
  tblCmd id 0x26 (fun _ => false) (fun c e =>
    let mode := c.arg 32 1
    let time := c.arg 40 8
    if 3 < mode then e.finish c.id 0x10
    else if mode = 3 then
      match e.tab.pend with
      | none => e.finishOk c.id 0
      | some x =>
        let e := ({ e with tab := { e.tab with pend := none } }.wr Reg.WNW_GEN_STAT 0).wr Reg.WNW_PEND_TIME 0
        (e.complete x.cmd 0x23 0 0 none 292).finishOk c.id 1
    else if e.genState ≠ 0 then e.tblRefuse c 4 0
    else
      match e.tab.shadow.check with
      | some (r, i) => (e.evt Fld.WNW_EVT_CHECK_FAIL).tblRefuse c r i
      | none =>
        if mode = 0 then
          let e := e.switchTables e.time
          e.finishOk c.id (e.rd Reg.WNW_GEN)
        else if mode = 2 ∧ time < e.time then (e.evt Fld.WNW_EVT_SWITCH_LATE).finish c.id 0x24
        else
          let e := { e with tab := { e.tab with pend := some ⟨mode, if mode = 2 then time else 0, c.id, false⟩ } }
          (e.wr Reg.WNW_GEN_STAT (2 + 4 * mode)).wr Reg.WNW_PEND_TIME (if mode = 2 then time else 0)) e

/-- TBL_SWITCH. -/
def execTblSwitch (cmd : Nat) (s : State) : Res := engineStep s (tblSwitch cmd)

/-- TABLE_SWITCH_EFFECT: due at its tally boundary, or once lattice time reaches TIME. -/
def tableSwitchEffect (e : Engine) : Engine :=
  match e.tab.pend with
  | none => e
  | some x =>
    if x.due ∨ (x.mode = 2 ∧ x.t ≤ e.time) then
      let e := e.switchTables x.t
      e.finishOk x.cmd (e.rd Reg.WNW_GEN)
    else e

/-- TABLE_SWITCH_EFFECT. -/
def execTableSwitchEffect (s : State) : Res := engineStep s tableSwitchEffect

/-- Packets on a path that hold the retiring generation. -/
def Engine.retiringPkts (e : Engine) : Nat := (e.pkts.filter fun p => p.onPath && p.gen == e.tab.retGen && p.gen != 0).length

/-- GENERATION_RETIRED: no packet holds the old generation, and no frame still on its way to a path will (R257, R258). -/
def generationRetired (e : Engine) : Engine :=
  if e.genState = 1 ∧ e.retiringPkts = 0 ∧
      !(e.pkts.any fun p => !p.handed && decide (p.ts < e.rd Reg.WNW_SWITCH_TIME) && decide (e.tab.retGen ≠ 0)) then
    { e with tab := { e.tab with retGen := 0 } }.wr Reg.WNW_GEN_STAT 0
  else e

/-- GENERATION_RETIRED. -/
def execGenerationRetired (s : State) : Res := engineStep s generationRetired

/-! ### The cascade profiles (R280 to R282) -/

/-- A cascade entry from its fields. -/
def mkEntry (kind mode sel shift width next arg : Nat) : Nat :=
  kind + 2 ^ 4 * mode + 2 ^ 6 * sel + 2 ^ 10 * shift + 2 ^ 15 * width + 2 ^ 22 * next + 2 ^ 32 * arg
/-- A DIRECT entry. -/
def direct (kind arg next : Nat) : Nat := mkEntry kind 0 0 0 0 next arg

/-- Table CSC-5. -/
def profileEntries (v ens mill join : Nat) : List Nat :=
  [mkEntry 0 1 1 0 2 1 0, direct 1 0 5, direct 1 0 5, direct 12 0 0, direct 13 0 0] ++
  if v = 1 then
    [direct 2 0 6, direct 3 ens 7, direct 4 ens 8, direct 9 0 9, direct 10 0 10, mkEntry 11 2 0 0 0 0 0]
  else
    [direct 2 0 6, direct 7 mill 7, direct 3 ens 8, direct 4 ens 9, direct 8 join 10, direct 9 0 11, direct 10 0 12,
     mkEntry 11 2 0 0 0 0 0]

/-- Layout 0 of the profiles (Table CSC-4). -/
def fiveTuple (cls que : Nat) : Bytes :=
  ((List.range 16).map fun i => BitVec.ofNat 8 (30 + i)) ++ ([46, 50, 51, 112].map fun x => BitVec.ofNat 8 x) ++
    List.replicate 20 127 ++ natLE 4 (cls + 2 ^ 14 * que) ++ List.replicate 20 0

/-- The generation a profile writes. -/
def profileBank (v ens mill join cls que : Nat) : Bank :=
  let b := (Bank.writeItem {} 2 0 (fiveTuple cls que))
  ((profileEntries v ens mill join).zipIdx).foldl (fun b x => b.writeItem 3 x.2 (natLE 8 x.1)) b

/-- CSC_PROFILE_SELECT: prepare, expansion and switch NOW; refused while the shadow is not READY or a table command is
outstanding (R280). -/
def cscProfile (v : Nat) (e : Engine) : Engine :=
  if v ≠ 1 ∧ v ≠ 2 then e
  else if !bitOf (e.rd Reg.GLB_PEND) 6 && (e.genState != 0 || e.hif.cmds.any fun c => c.op / 16 == 2) then e.evt Fld.CSC_EVT_PROFILE_REFUSED
  else profileWrite 6 Fld.CSC_PROFILE_PROFILE v (some fun e =>
    let b := profileBank v (e.get Fld.CSC_BASIC_ENSEMBLE) (e.get Fld.CSC_BASIC_MILLCMD) (e.get Fld.CSC_BASIC_JOIN_BUDGET)
      (e.get Fld.CSC_BASIC2_DEFAULT_CLASS) (e.get Fld.CSC_BASIC2_DEFAULT_QUEUE)
    Engine.switchTables { e with tab := { e.tab with shadow := b, fromProfile := some v } } e.time) e

/-- CSC_PROFILE_SELECT. -/
def execCscProfileSelect (v : Nat) (s : State) : Res := hostStep s (cscProfile v)

end Sys2Proof.Machine
end

