-- ==== Sys2Proof/Machine/RegRead.lean ====
section
/-!
DEFINITION. RegRead.lean: what a register reads as: the stored value, or what it shows of the machine (R701 to R704, R728).
-/
namespace Sys2Proof.Machine

/-- Frames queued on a transmit queue and their cells. -/
def Engine.txqStat (e : Engine) (t : Nat) : Nat := (e.txq t).depth + 2 ^ 20 * (e.txq t).frames.length

/-- SHF_OCC of a tier: ways held, and destination ways that migrations have reserved (R325). -/
def Engine.shfOcc (e : Engine) (t : Nat) : Nat :=
  let n (f : Sheaf → Nat) : Nat := (e.shf.sheaves.map f).sum
  n (fun s => (s.held t).length) + 2 ^ 32 * n (fun s => (s.reserved t).length)

/-- Frames with an early record and a status that is not known. -/
def Engine.ervPend (e : Engine) : Nat :=
  (e.pkts.filter fun p => p.status.isNone && match p.ver with | some v => v.early | none => false).length

/-- The resident models. -/
def Engine.residents (e : Engine) : List Model := [e.gft.live, e.gft.shadow, e.gft.retiring].filterMap id

/-- FREE and WAITING contexts of a bank. -/
def Engine.bankStat (e : Engine) (b : Nat) : Nat :=
  let l := e.ril.threads.filter fun x => x.1 / 1024 == b
  let w := l.filter fun x => match x.2.st with | .waiting _ => true | _ => false
  (1024 - l.length) + 2 ^ 16 * w.length

/-- The code of the shadow slot's state. -/
def ShadowSt.code (s : ShadowSt) : Nat :=
  match s with
  | .empty => 0
  | .loading => 1
  | .ready => 2
  | .armed => 3
  | .locked => 4
  | .preparing => 5

/-- The learning loop runs: LEARN_EN is 1, the live model is ADAPTIVE, and learning is not paused (R595, R600). -/
def Engine.learning (e : Engine) : Bool :=
  e.is Fld.GFT_CFG_LEARN_EN && !e.gft.learn.paused && (match e.gft.live with | some m => (m.sect 9 0).isSome | none => false)

/-- GFT_STAT. -/
def Engine.gftStat (e : Engine) : Nat :=
  let g := e.gft
  bit g.live.isSome + 2 * g.sst.code + 16 * bit (match g.shadow with | some m => m.learned | none => false) +
    32 * bit g.retiring.isSome + 64 * bit e.learning + 128 * bit g.coord.isSome

/-- GFT_ARM_TIME: T of the armed graft, or Tc of the one it is locked for. -/
def Engine.armTime (e : Engine) : Nat :=
  match e.gft.arm, e.gft.lock with
  | some a, _ => a.t
  | none, some l => l.tc
  | none, none => 0

/-- GFT_TOKENS: the book of a lattice graft before its decision (R594). -/
def Engine.tokens (e : Engine) : Nat :=
  match e.gft.coord with
  | none => 0
  | some c =>
    let n := c.parts.length
    if c.decision.isSome then 2 ^ 32 * n else c.ok.length + 2 ^ 16 * (n - c.ok.length) + 2 ^ 32 * n

/-- FLG_CFGHASH (R626). -/
def Engine.cfgHash (e : Engine) : Nat :=
  crc32c (natLE 4 (e.get Fld.FLG_BASIC_LATTICE_NAME) ++ natLE 1 (e.latSize 0) ++ natLE 1 (e.latSize 1) ++ natLE 1 (e.latSize 2) ++
    natLE 1 0 ++ natLE 4 (e.rd Reg.FLG_USERHASH) ++ natLE 4 0)

/-- IDLE of engine `i`: exactly one of BUSY, STALL and IDLE advances in each core cycle since the cold reset (R655). -/
def Engine.idleCount (e : Engine) (i : Nat) : Nat :=
  if i < 346 then (e.cyc - (e.rd (Reg.GLN_BUSY i) + e.rd (Reg.GLN_STALL i))) % 2 ^ 64 else 0

/-- The registers that show the machine, by the base of their row and element: `none` for one that holds a value. -/
def Engine.regShows (e : Engine) (base i : Nat) : Option Nat :=
  match base with
  | 0x00000C => some (e.rd 0xC % 4 + 4 * bit e.inBypass + 8 * bit e.gft.live.isSome +
      16 * bit (e.is Fld.FLG_TIME_CFG_ROOT || !e.inLattice))
  | 0x000010 => some e.time
  | 0x010018 => some (((List.range 19).map fun d =>
      4 ^ d * (match (Tbl.get {} e.doms d).st with | .gated => 0 | .waking => 1 | .on => 2 | .draining => 3)).sum)
  | 0x100018 => some e.inflight
  | 0x180028 => some (if e.hostRing i then e.inTransit i % 2 ^ 17 + 2 ^ 17 * e.held i
      else cntSub (e.prod i) (e.cons i) % 2 ^ 17)
  | 0x200008 => some (e.get Fld.ITK_CELLS_TOTAL + 2 ^ 32 * e.cellsUsed)
  | 0x400008 => some e.retiringPkts
  | 0x500210 => some e.ervPend
  | 0x600040 => some (e.shfOcc i)
  | 0x700008 => some (e.backlog + 2 ^ 24 * (bit (e.domOn 12) + 2 * bit (e.domOn 13)))
  | 0x700010 => some ((e.residents.map fun m => imageNodes m.image).sum + 2 ^ 32 * (e.residents.map fun m => imageEnsembles m.image).sum)
  | 0x800200 => some (e.rd (Reg.MIL_SLOT i) +
      if (e.milRun i).isSome then
        let held := Config.free Config.fMilSlots (64 * e.time + 2 * i) % 17
        held + 2 ^ 8 * (Config.free Config.fMilSlots (64 * e.time + 2 * i + 1) % (17 - held))
      else 0)
  | 0xA00040 => some (e.bankStat i)
  | 0x1100020 => some (wrapInt 16 e.phys.hotspot)
  | 0xB00018 => some (e.pairsUp + 16 * bit e.custRun)
  | 0xB00028 => some (withBits (e.rd 0xB00028) 14 0 e.gar.queue.length)
  | 0xC10018 => some (e.txqStat i)
  | 0xC20008 => some (e.hq i).recs.length
  | 0xC80020 => some (match (e.txp i).oper.bind fun g => g.spanAt e.time with | some s => s.2.2.2 | none => 0)
  | 0xD0000C => some e.gftStat
  | 0xD00010 => some ((e.gft.live.map (·.epoch)).getD 0)
  | 0xD00014 => some ((e.gft.shadow.map (·.epoch)).getD 0)
  | 0xD00018 => some ((e.gft.retiring.map (·.epoch)).getD 0)
  | 0xD00020 => some e.armTime
  | 0xD00028 => some e.tokens
  | 0xD00030 => some (match e.gft.live with | some m => m.mwBase + 2 ^ 32 * m.nodeBase | none => 0)
  | 0xD00038 => some (match e.gft.live with | some m => leAt m.kvdesc 0 2 | none => 0)
  | 0xD00040 => some (match e.gft.live with | some m => m.hash.getD i 0 | none => 0)
  | 0xD00060 => some (match e.gft.shadow with | some m => m.hash.getD i 0 | none => 0)
  | 0xE00014 => some e.cfgHash
  | 0xF00048 => some e.gln.staging.length
  | 0xF10010 => some (e.idleCount i)
  | _ => none

/-- A register of a field port that does not exist, which reads zero (R578). -/
def Engine.portGone (e : Engine) (base i : Nat) : Bool :=
  decide (base ∈ [0xC01000, 0xC01100, 0xC80000, 0xC80008, 0xC80010, 0xC80018, 0xC80020, 0xC81000, 0xC81008]) && !e.present i

/-- What the register that starts at an offset reads as: bits that are written only, or reserved, read zero (Table SCP-3). -/
def Engine.regView (e : Engine) (off : Nat) : Option (Nat × Nat) :=
  match regFind off with
  | none => none
  | some (r, i, _) => some (r.width, if e.portGone r.base i then 0 else ((e.regShows r.base i).getD (e.rd off)) &&& (r.rw ||| r.w1c ||| r.ro))

/-- The bytes of a read of `n` bytes at an offset, where it is no bad access (R701 to R703): aligned 4 or 8 bytes; an 8-byte
read of two 32-bit registers gives both, and an unpopulated half reads zero. STW_MB_DATA is read in whole words, and the MSI-X table
and pending bits as PCIe defines. -/
def Engine.regBytes (e : Engine) (off n : Nat) : Option Bytes :=
  if 0x1200100 ≤ off ∧ off + n ≤ 0x1200200 ∧ off % 4 = 0 ∧ n % 4 = 0 ∧ 4 ≤ n then
    some (Tbl.readBytes e.mbData (off - 0x1200100) n)
  else if (n ≠ 4 ∧ n ≠ 8) ∨ off % n ≠ 0 then none
  else if 0x140000 ≤ off ∧ off + n ≤ 0x148000 then some ((List.range n).map fun i => e.msixByte (off - 0x140000 + i))
  else if 0x148000 ≤ off ∧ off + n ≤ 0x148100 then
    some (natLE n ((List.range (8 * n)).map fun i => if 8 * (off - 0x148000) + i ∈ e.hif.pba then 2 ^ i else 0).sum)
  else if n = 4 then
    match e.regView off with
    | some (32, v) => some (natLE 4 v)
    | _ => none
  else
    match e.regView off, e.regView (off + 4) with
    | some (64, v), _ => some (natLE 8 v)
    | some (_, v), some (32, w) => some (natLE 4 v ++ natLE 4 w)
    | some (_, v), _ => some (natLE 4 v ++ natLE 4 0)
    | none, some (32, w) => some (natLE 4 0 ++ natLE 4 w)
    | _, _ => none

end Sys2Proof.Machine
end

