-- ==== Sys2Proof/Machine/Rv.lean ====
section
/-!
DEFINITION. Rv.lean: the instructions of a rill core: RV64I, M and A with Zicsr (R448, Table RIL-5), and the Xmelor encodings
(R475, R476, Table XMR-1). The base instructions follow the RISC-V Unprivileged Specification that R448 names
(PRESUMED, log entry 17).
-/
namespace Sys2Proof.Machine

/-- Fields of an instruction word. -/
def rvOp (w : Nat) : Nat := bitsOf w 6 0
def rvRd (w : Nat) : Nat := bitsOf w 11 7
def rvF3 (w : Nat) : Nat := bitsOf w 14 12
def rvRs1 (w : Nat) : Nat := bitsOf w 19 15
def rvRs2 (w : Nat) : Nat := bitsOf w 24 20
def rvRs3 (w : Nat) : Nat := bitsOf w 31 27
def rvF2 (w : Nat) : Nat := bitsOf w 26 25
def rvF7 (w : Nat) : Nat := bitsOf w 31 25
def rvF5 (w : Nat) : Nat := bitsOf w 31 27

/-- Sign extension of the low `w` bits to 64. -/
def sx (w n : Nat) : Nat := wrapInt 64 (sextOf w n)
/-- The immediates. -/
def immI (w : Nat) : Nat := sx 12 (bitsOf w 31 20)
def immS (w : Nat) : Nat := sx 12 (bitsOf w 31 25 * 32 + bitsOf w 11 7)
def immB (w : Nat) : Nat :=
  sx 13 (bitsOf w 31 31 * 2 ^ 12 + bitsOf w 7 7 * 2 ^ 11 + bitsOf w 30 25 * 2 ^ 5 + bitsOf w 11 8 * 2)
def immU (w : Nat) : Nat := sx 32 (bitsOf w 31 12 * 2 ^ 12)
def immJ (w : Nat) : Nat :=
  sx 21 (bitsOf w 31 31 * 2 ^ 20 + bitsOf w 19 12 * 2 ^ 12 + bitsOf w 20 20 * 2 ^ 11 + bitsOf w 30 21 * 2)

/-- The Xmelor instructions (Table XMR-1). -/
inductive Xm where
  | xend | spawn | sleep | waitc | waitne | shkey | shrd | shwu | orcg | orce | mill | emitv | mark
  | casW | casD | saddD | nrw | qnt | dqt | fadd | fmul
deriving DecidableEq, Repr

/-- The command row that an instruction belongs to: everything that is not memory, ordering, a CSR or Xmelor is
`plain`, the encodings that are no instruction among them. -/
inductive RvCls where
  | plain | load | store | amo | lr | sc | fence | csr
  | xm (x : Xm)
deriving DecidableEq, Repr

/-- The Xmelor instruction that a custom-0 or custom-1 word encodes: function fields listed in Table XMR-1, and every
register field marked "—" is x0 (R476). -/
def xmOf (w : Nat) : Option Xm :=
  let z (c : Bool) (x : Xm) : Option Xm := if c then some x else none
  let rd0 := rvRd w == 0
  let rs2z := rvRs2 w == 0
  if rvOp w = 0x0B then
    match rvF3 w with
    | 0 => match rvF7 w with
      | 0 => z (rd0 && rs2z) .xend
      | 1 => some .spawn
      | 2 => z (rd0 && rs2z) .sleep
      | 3 => z rs2z .waitc
      | _ => none
    | 1 => z (rvF2 w == 0) .waitne
    | 2 =>
      let f := rvF7 w
      if f ≤ 4 then some .shkey
      else if f = 0x10 ∨ f = 0x11 then some .shrd
      else z (decide (0x20 ≤ f) && decide (f ≤ 0x27)) .shwu
    | 3 => match rvF2 w with
      | 0 => some .orcg
      | 1 => some .orce
      | 2 => z (rs2z && rvRs3 w == 0) .mill
      | _ => none
    | 4 => z (rvF7 w == 0 && rd0) .emitv
    | 5 => z (decide (rvF7 w ≤ 2) && rd0 && rs2z) .mark
    | _ => none
  else if rvOp w = 0x2B then
    match rvF3 w with
    | 0 => some .casW
    | 1 => some .casD
    | 2 => z (decide (rvF7 w ≤ 3)) .saddD
    | 4 => match rvF7 w with
      | 0 => z (decide (3 ≤ rvRs2 w) && decide (rvRs2 w ≤ 8)) .nrw
      | 1 => some .qnt
      | 2 => some .dqt
      | 3 => some .fadd
      | 4 => some .fmul
      | _ => none
    | _ => none
  else none

/-- The row of an instruction word. -/
def rvClass (w : Nat) : RvCls :=
  let f3 := rvF3 w
  match rvOp w with
  | 0x03 => if f3 = 7 then .plain else .load
  | 0x23 => if f3 < 4 then .store else .plain
  | 0x2F =>
    if f3 ≠ 2 ∧ f3 ≠ 3 then .plain
    else if rvF5 w = 2 then (if rvRs2 w = 0 then .lr else .plain)
    else if rvF5 w = 3 then .sc
    else if rvF5 w ∈ [0, 1, 4, 8, 0xC, 0x10, 0x14, 0x18, 0x1C] then .amo
    else .plain
  | 0x0F => if f3 = 0 then .fence else .plain
  | 0x73 => if f3 = 0 ∨ f3 = 4 then .plain else .csr
  | _ => match xmOf w with | some x => .xm x | none => .plain

/-! ### Arithmetic -/

/-- The 64-bit operations of OP: `alt` is bit 30, `mul` the M encodings. -/
def rvAlu (f3 : Nat) (alt : Bool) (a b : Nat) : Nat :=
  match f3 with
  | 0 => if alt then wrap64 (a + 2 ^ 64 - b) else wrap64 (a + b)
  | 1 => wrap64 (a <<< (b % 64))
  | 2 => bit (decide (sextOf 64 a < sextOf 64 b))
  | 3 => bit (decide (a < b))
  | 4 => a ^^^ b
  | 5 => if alt then wrapInt 64 (sextOf 64 a / (2 ^ (b % 64) : Int)) else a >>> (b % 64)
  | 6 => a ||| b
  | _ => a &&& b

/-- The 32-bit operations of OP-32: the result is sign-extended. -/
def rvAluW (f3 : Nat) (alt : Bool) (a b : Nat) : Nat :=
  match f3 with
  | 0 => sx 32 (if alt then a + 2 ^ 64 - b else a + b)
  | 1 => sx 32 ((a % 2 ^ 32) <<< (b % 32))
  | _ => if alt then wrapInt 64 (sextOf 32 a / (2 ^ (b % 32) : Int)) else sx 32 ((a % 2 ^ 32) >>> (b % 32))

/-- Division as RISC-V defines it: by zero all ones, and the overflow wraps. -/
def rvDiv (w : Nat) (signed : Bool) (a b : Nat) : Nat :=
  if b % 2 ^ w = 0 then 2 ^ w - 1
  else if signed then wrapInt w ((sextOf w a).tdiv (sextOf w b)) else (a % 2 ^ w) / (b % 2 ^ w)

/-- Remainder: by zero the dividend. -/
def rvRem (w : Nat) (signed : Bool) (a b : Nat) : Nat :=
  if b % 2 ^ w = 0 then a % 2 ^ w
  else if signed then wrapInt w ((sextOf w a).tmod (sextOf w b)) else (a % 2 ^ w) % (b % 2 ^ w)

/-- The M operations on 64 bits. -/
def rvMul (f3 a b : Nat) : Nat :=
  match f3 with
  | 0 => wrap64 (a * b)
  | 1 => wrapInt 64 (sextOf 64 a * sextOf 64 b / (2 ^ 64 : Int))
  | 2 => wrapInt 64 (sextOf 64 a * (b : Int) / (2 ^ 64 : Int))
  | 3 => a * b / 2 ^ 64
  | 4 => rvDiv 64 true a b
  | 5 => rvDiv 64 false a b
  | 6 => rvRem 64 true a b
  | _ => rvRem 64 false a b

/-- The M operations on 32 bits; `none` for an encoding that is none. -/
def rvMulW (f3 a b : Nat) : Option Nat :=
  match f3 with
  | 0 => some (sx 32 (a * b))
  | 4 => some (sx 32 (rvDiv 32 true a b))
  | 5 => some (sx 32 (rvDiv 32 false a b))
  | 6 => some (sx 32 (rvRem 32 true a b))
  | 7 => some (sx 32 (rvRem 32 false a b))
  | _ => none

/-- A branch is taken; `none` for an encoding that is none. -/
def rvTaken (f3 a b : Nat) : Option Bool :=
  match f3 with
  | 0 => some (a == b)
  | 1 => some (a != b)
  | 4 => some (decide (sextOf 64 a < sextOf 64 b))
  | 5 => some (!decide (sextOf 64 a < sextOf 64 b))
  | 6 => some (decide (a < b))
  | 7 => some (!decide (a < b))
  | _ => none

/-- What a plain instruction does: a value for a register (x0 for none) and the next pc, or an exception's cause
(Table RIL-8) with its tval. -/
inductive RvEffect where
  | go (rd v pc : Nat)
  | trap (cause tval : Nat)
deriving DecidableEq, Repr

/-- A plain instruction at `pc`, over the registers. -/
def rvPlain (reg : Nat → Nat) (pc w : Nat) : RvEffect :=
  let a := reg (rvRs1 w)
  let b := reg (rvRs2 w)
  let rd := rvRd w
  let f3 := rvF3 w
  let f7 := rvF7 w
  let set (v : Nat) : RvEffect := .go rd v (wrap64 (pc + 4))
  let ill : RvEffect := .trap 2 w
  let jump (rd t : Nat) : RvEffect := if t % 4 = 0 then .go rd (wrap64 (pc + 4)) t else .trap 0 t
  match rvOp w with
  | 0x37 => set (immU w)
  | 0x17 => set (wrap64 (pc + immU w))
  | 0x6F => jump rd (wrap64 (pc + immJ w))
  | 0x67 => if f3 = 0 then jump rd (wrap64 (a + immI w) / 2 * 2) else ill
  | 0x63 => match rvTaken f3 a b with
    | some true => jump 0 (wrap64 (pc + immB w))
    | some false => .go 0 0 (wrap64 (pc + 4))
    | none => ill
  | 0x13 =>
    if f3 = 1 then (if f7 / 2 = 0 then set (rvAlu 1 false a (bitsOf w 25 20)) else ill)
    else if f3 = 5 then
      (if f7 / 2 = 0 then set (rvAlu 5 false a (bitsOf w 25 20))
       else if f7 / 2 = 0x10 then set (rvAlu 5 true a (bitsOf w 25 20)) else ill)
    else set (rvAlu f3 false a (immI w))
  | 0x1B =>
    if f3 = 0 then set (rvAluW 0 false a (immI w))
    else if f3 = 1 then (if f7 = 0 then set (rvAluW 1 false a (rvRs2 w)) else ill)
    else if f3 = 5 then (if f7 = 0 then set (rvAluW 5 false a (rvRs2 w)) else if f7 = 0x20 then set (rvAluW 5 true a (rvRs2 w)) else ill)
    else ill
  | 0x33 =>
    if f7 = 0 then set (rvAlu f3 false a b)
    else if f7 = 0x20 ∧ (f3 = 0 ∨ f3 = 5) then set (rvAlu f3 true a b)
    else if f7 = 1 then set (rvMul f3 a b)
    else ill
  | 0x3B =>
    if f7 = 0 ∧ (f3 = 0 ∨ f3 = 1 ∨ f3 = 5) then set (rvAluW f3 false a b)
    else if f7 = 0x20 ∧ (f3 = 0 ∨ f3 = 5) then set (rvAluW f3 true a b)
    else if f7 = 1 then match rvMulW f3 a b with | some v => set v | none => ill
    else ill
  | 0x73 => if w = 0x73 then .trap 8 0 else if w = 0x100073 then .trap 3 pc else ill
  | _ => ill

/-- What an AMO writes: FUNC is a RISC-V AMO funct5, or 0x20 CAS, 0x21 SADD (Table FLG-7); `none` where a compare fails. -/
def amoNew (func n old x y : Nat) : Option Nat :=
  let m := 2 ^ (8 * n)
  let s (v : Nat) : Int := sextOf (8 * n) v
  match func with
  | 0x00 => some ((old + x) % m)
  | 0x01 => some (x % m)
  | 0x04 => some (old ^^^ x % m)
  | 0x08 => some (old ||| x % m)
  | 0x0C => some (old &&& x % m)
  | 0x10 => some (if s old ≤ s x then old else x % m)
  | 0x14 => some (if s x ≤ s old then old else x % m)
  | 0x18 => some (min old (x % m))
  | 0x1C => some (max old (x % m))
  | 0x20 => if old = x % m then some (y % m) else none
  | 0x21 => some (min (old + x) (m - 1))
  | _ => some old

end Sys2Proof.Machine
end

