-- ==== Sys2Proof/Machine/Rills.lean ====
section
/-!
DEFINITION. Rills.lean: threads, their accesses in the lattice address space, and the thread commands (R435 to R474).
-/
namespace Sys2Proof.Machine

/-! ### Threads -/

/-- A thread by its ID, SERIAL included. -/
def Engine.thread (e : Engine) (tid : Nat) : Option Thread :=
  (Tbl.find e.ril.threads (tid % 8192)).bind fun t => if t.id = tid then some t else none

/-- The engine with a thread as given. -/
def Engine.setThread (e : Engine) (t : Thread) : Engine :=
  { e with ril := { e.ril with threads := Tbl.put e.ril.threads (t.id % 8192) t } }

/-- The context becomes FREE. -/
def Engine.freeContext (e : Engine) (tid : Nat) : Engine :=
  { e with ril := { e.ril with threads := Tbl.del e.ril.threads (tid % 8192) } }

/-- A register of a thread; x0 reads zero. -/
def Thread.reg (t : Thread) (r : Nat) : Nat := if r = 0 then 0 else Tbl.get 0 t.regs r
/-- A thread with a register written; x0 discards the write. -/
def Thread.setReg (t : Thread) (r v : Nat) : Thread := if r = 0 then t else { t with regs := Tbl.set 0 t.regs r (wrap64 v) }

/-- The core of a thread, 32b + c, and its bank (R435). -/
def coreOf (tid : Nat) : Nat := tid % 8192 / 32
def rillBank (tid : Nat) : Nat := tid % 8192 / 1024

/-- The lattice address of a module-local one. -/
def Engine.latAddr (e : Engine) (a : Nat) : Nat := e.selfId % 2 ^ 14 * 2 ^ 42 + a

/-- A thread's reference (Table GLN-8). -/
def Engine.thrRef (e : Engine) (tid : Nat) : Nat := objRef 1 e.selfId tid

/-- A thread waits; the time at which the wait began is kept (R671). -/
def Engine.thrWait (e : Engine) (t : Thread) (w : ThrWait) : Engine :=
  let at_ := match t.st with
    | .waiting _ => t.waitAt
    | _ => e.time
  e.setThread { t with st := .waiting w, waitAt := at_ }

/-- An exception ends the thread: recorded in the bank's fault registers and, with FAULT_REC, on the error ring (R463). -/
def Engine.thrExcept (e : Engine) (t : Thread) (cause tval : Nat) : Engine :=
  let b := rillBank t.id
  let e := ((e.releaseFlow (.thread t.id)).count (Reg.RIL_CNT 6)).evt Fld.RIL_EVT_FAULT
  let e := if cause = 24 then e.count (Reg.RIL_CNT 10) else e
  let e := ((e.wr (Reg.RIL_FAULT b) (cause + 2 ^ 32 * t.id)).wr (Reg.RIL_FAULT_PC b) t.pc).wr (Reg.RIL_FAULT_TVAL b) tval
  let e := if e.is Fld.RIL_CFG_FAULT_REC then e.errInfo 0x03 11 (e.thrRef t.id) (t.id + 2 ^ 32 * cause) t.pc tval else e
  e.setThread { t with st := .ending, ended := some (.cause cause) }

/-- An instruction retires: its register, the next pc, and the count; a thread at its limit then takes INSN_LIMIT (R447). -/
def Engine.retire (e : Engine) (t : Thread) (rd v pc : Nat) : Engine :=
  let t := { t.setReg rd v with pc := pc, instret := t.instret + 1, st := .ready, home := none }
  let e := (e.setThread t).alwaysN Reg.RIL_INSNS 1
  if t.limit ≠ 0 ∧ t.limit ≤ t.instret then e.thrExcept t 24 t.limit else e

/-- An instruction that is not a jump retires. -/
def Engine.retireNext (e : Engine) (t : Thread) (rd v : Nat) : Engine := e.retire t rd v (wrap64 (t.pc + 4))

/-! ### Fetch and issue (R437, R451) -/

/-- The first poisoned word of a range, as a lattice address; its first word where none is listed. -/
def Engine.badWord (e : Engine) (a n : Nat) : Nat :=
  let ws := protWords (localMem a) a n
  e.latAddr ((ws.find? fun w => decide (w ∈ e.poison)).getD (ws.headD a))

/-- Reads the word at a thread's pc: only from the model/weights partition of its own module. An error is a cause of
Table RIL-8 with its tval. -/
def Engine.fetchWord (e : Engine) (t : Thread) : Except (Nat × Nat) Nat × Engine :=
  let a := t.pc % 2 ^ 42
  if t.pc / 2 ^ 42 ≠ e.selfId ∨ a < e.partBase 3 ∨ e.partBase 3 + e.partSize 3 < a + 4 then (.error (1, t.pc), e)
  else match e.checkRead 0 a 4 .clean with
    | (false, e) => (.ok (leNat (e.readMem a 4)), e)
    | (true, e) =>
      let bad := e.badWord a 4
      let e := match e.modelOf t.epoch with
        | some m => e.modelPoison m 6 a (e.thrRef t.id)
        | none => e.poisoned 6 a (e.thrRef t.id)
      (.error (27, bad), e)

/-- A thread can issue: it is READY, or its instruction waits to issue again. -/
def ThrSt.issues (s : ThrSt) : Bool :=
  match s with
  | .ready | .waiting (.retry _) => true
  | _ => false

/-- While THERMAL throttles, a core issues at most once in eight cycles (R692). -/
def Engine.issueRate (e : Engine) (core : Nat) : Option Engine :=
  if e.is Fld.ERR_BYPASS_STAT_THROTTLE then e.takeRate (64 + core) 1 8 else some e

/-- A thread issues the instruction at its pc when it is one of a row's: `f` does it. Encodings that are no instruction and
fetches that fault belong to the plain row. -/
def Engine.issue (e : Engine) (tid : Nat) (cls : RvCls) (f : Thread → Nat → Engine → Engine) : Engine :=
  match e.thread tid with
  | none => e
  | some t =>
    if !t.st.issues then e
    else match e.issueRate (coreOf tid) with
      | none => e
      | some e' => match e'.fetchWord t with
        | (.error (c, v), e') => if cls = .plain then e'.thrExcept t c v else e
        | (.ok w, e') => if rvClass w = cls then f t w (e'.busy (coreOf tid)) else e

/-! ### Rights (R450 to R453, Table RIL-6) -/

/-- Where a range of module-local addresses lies as a whole: 0 granary window, 1 one core's scratch, 2 silo, 3 register
mirror, 4 none of these. -/
def rangeOf (a n : Nat) : Nat :=
  if a + n ≤ 0x0C000000 then 0
  else if 0x10000000 ≤ a ∧ a + n ≤ 0x11000000 ∧ a % 65536 + n ≤ 65536 then 1
  else if 0x04000000000 ≤ a ∧ a + n ≤ 0x05000000000 then 2
  else if 0x3F000000000 ≤ a ∧ a + n ≤ 0x3F002000000 then 3
  else 4

/-- A byte range lies in partitions that a thread may read: every one but intake and sheaf. -/
def Engine.granReadable (e : Engine) (a n : Nat) : Bool :=
  let inPart (x : Nat) : Bool := [2, 3, 4, 5].any fun i => decide (e.partBase i ≤ x) && decide (x < e.partBase i + e.partSize i)
  (protWords 0 a n).all inPart

/-- A write window: base and size in MiB over an origin. -/
def inWindowMb (origin base size a n : Nat) : Bool :=
  decide (size ≠ 0) && decide (origin + base * 2 ^ 20 ≤ a) && decide (a + n ≤ origin + (base + size) * 2 ^ 20)

/-- A thread may read a range (Table RIL-6), the register mirror apart. -/
def Engine.mayRead (e : Engine) (a n : Nat) : Bool :=
  match rangeOf a n with
  | 0 => e.granReadable a n
  | 1 | 2 => true
  | _ => false

/-- A thread may write a range. -/
def Engine.mayWrite (e : Engine) (a n : Nat) : Bool :=
  match rangeOf a n with
  | 0 => inWindowMb 0 (e.get Fld.RIL_GWIN_BASE_MB) (e.get Fld.RIL_GWIN_SIZE_MB) a n
  | 1 => true
  | 2 => inWindowMb 0x04000000000 (e.get Fld.RIL_SWIN_BASE_MB) (e.get Fld.RIL_SWIN_SIZE_MB) a n
  | _ => false

/-- What a thread's access meets. -/
inductive Acc where
  | ok | access | misaligned
deriving DecidableEq, Repr

/-- A read of `n` bytes at a module-local address: misaligned ones are served in the granary window and the scratch only
(R453); the mirror serves aligned 4- and 8-byte reads. -/
def Engine.accRead (e : Engine) (a n : Nat) : Acc :=
  if rangeOf a n = 3 then (if a % n ≠ 0 then .misaligned else if n = 4 ∨ n = 8 then .ok else .access)
  else if !e.mayRead a n then .access
  else if rangeOf a n = 2 ∧ a % n ≠ 0 then .misaligned
  else .ok

/-- A write of `n` bytes at a module-local address. -/
def Engine.accWrite (e : Engine) (a n : Nat) : Acc :=
  if !e.mayWrite a n then .access
  else if rangeOf a n = 2 ∧ a % n ≠ 0 then .misaligned
  else .ok

/-- What a thread's address is: none (bits 63:56 not zero), this module's, or another member's. -/
inductive Where where
  | nowhere
  | here (a : Nat)
  | far (id a : Nat)
deriving DecidableEq, Repr

/-- Splits a lattice address (R450). -/
def Engine.locate (e : Engine) (addr : Nat) : Where :=
  if addr / 2 ^ 56 ≠ 0 then .nowhere
  else if bitsOf addr 55 42 = e.selfId then .here (addr % 2 ^ 42)
  else .far (bitsOf addr 55 42) (addr % 2 ^ 42)

/-- The alignment rule of R453 for an address of another member, whose rights are checked there. -/
def farAcc (a n : Nat) : Acc :=
  if a % n = 0 then .ok
  else match rangeOf a n with
    | 0 | 1 => .ok
    | 4 => .access
    | _ => .misaligned

/-- A register-mirror read: what the BAR0 read returns; a bad access reads zero (R452, R701). -/
def Engine.mirror (e : Engine) (off n : Nat) : Bytes := (e.regBytes off n).getD (List.replicate n 0)

/-- A local read that is permitted: its bytes, or `none` for poisoned data. -/
def Engine.localRead (e : Engine) (a n : Nat) (ecc : Ecc) : Option Bytes × Engine :=
  if rangeOf a n = 3 then (some (e.mirror (a - 0x3F000000000) n), e)
  else match e.checkRead (localMem a) a n ecc with
    | (true, e) => (none, e)
    | (false, e) => (some (e.readMem a n), e)

/-- A thread meets poisoned data (R473, Table ERR-2 rows 3 and 4). -/
def Engine.thrPoison (e : Engine) (t : Thread) (row a n : Nat) : Engine :=
  let w := e.badWord a n
  (e.poisoned row w (e.thrRef t.id)).thrExcept t 27 w

/-! ### Order and remote requests (R454, R455, R459) -/

/-- A request is a posted store. -/
def ThrReq.isStore (r : ThrReq) : Bool := match r.kind with | .store => true | _ => false
/-- Remote stores that have no acknowledgement. -/
def Thread.storesOut (t : Thread) : Bool := t.reqs.any ThrReq.isStore

/-- An ordering point: it waits for the acknowledgements it orders, then reports a store that failed (R455), then acts. -/
def Engine.ordered (e : Engine) (t : Thread) (waits : Bool) (f : Engine → Engine) : Engine :=
  if waits && t.storesOut then e.thrWait t (.retry 9)
  else match t.fault with
    | some (c, a) => e.thrExcept { t with fault := none } c a
    | none => f e

/-- Bytes of a request. -/
def ThrReq.size (r : ThrReq) : Nat :=
  match r.kind with
  | .load n _ _ => n
  | .amo n _ => n
  | _ => 8
/-- An outstanding request touches bytes of a range. -/
def Thread.overlaps (t : Thread) (a n : Nat) : Bool :=
  t.reqs.any fun r => decide (a < r.addr + r.size) && decide (r.addr < a + n)

/-- Room for another remote request of a thread (R454). -/
def Engine.remoteRoom (e : Engine) (t : Thread) : Bool :=
  let core := (e.ril.threads.filter fun (x : Nat × Thread) => x.1 / 32 == coreOf t.id).map fun x => x.2.reqs.length
  decide (t.reqs.length < e.get Fld.RIL_CFG_MAX_REMOTE) && decide (core.sum < 64)

/-- Sends a remote request of a thread: one that has no room waits; one whose member cannot be reached fails. -/
def Engine.remote (e : Engine) (t : Thread) (op dst addr : Nat) (kind : ThrReqKind) (arg data : Bytes)
    (sent : Thread → Nat → Engine → Engine) (lost : Engine → Engine) : Engine :=
  if !e.remoteRoom t then e.thrWait t (.retry 3)
  else match e.flgRequest op dst (.thread t.id) arg data with
    | (none, e) => lost e
    | (some tag, e) => sent { t with reqs := t.reqs ++ [⟨tag, addr, kind⟩] } tag (e.count (Reg.RIL_CNT 7))

/-- ARG of RD, WR and AMO (Table FLG-7). -/
def reqArg (a n func : Nat) : Bytes := natLE 8 (a % 2 ^ 42 + 2 ^ 42 * Nat.log2 n + 2 ^ 48 * func)

/-- A remote load or AMO holds its context until its response (R454). -/
def Engine.remoteWait (e : Engine) (t : Thread) (op dst a n func : Nat) (addr : Nat) (kind : ThrReqKind) (data : Bytes) : Engine :=
  if t.overlaps addr n then e.thrWait t (.retry 3)
  else e.remote t op dst addr kind (reqArg a n func) data (fun t tag e => e.thrWait t (.remote tag)) fun e => e.thrExcept t 26 addr

/-! ### Loads and stores (R457, R458) -/

/-- A value read for a register. -/
def loadValue (n : Nat) (signed : Bool) (bs : Bytes) : Nat := if signed then sx (8 * n) (leNat bs) else leNat (bs.take n)

/-- LOAD. -/
def loadInstr (ecc : Ecc) (t : Thread) (w : Nat) (e : Engine) : Engine :=
  let n := 2 ^ (rvF3 w % 4)
  let signed := decide (rvF3 w < 4)
  let addr := wrap64 (t.reg (rvRs1 w) + immI w)
  match e.locate addr with
  | .nowhere => e.thrExcept t 5 addr
  | .here a => match e.accRead a n with
    | .access => e.thrExcept t 5 addr
    | .misaligned => e.thrExcept t 4 addr
    | .ok => match e.localRead a n ecc with
      | (none, e) => e.thrPoison t 3 a n
      | (some d, e) => e.retireNext t (rvRd w) (loadValue n signed d)
  | .far id a => match farAcc a n with
    | .access => e.thrExcept t 5 addr
    | .misaligned => e.thrExcept t 4 addr
    | .ok => e.remoteWait t 0x01 id a n 0 addr (.load n (rvRd w) signed) []

/-- STORE: performed here, or posted. -/
def storeInstr (t : Thread) (w : Nat) (e : Engine) : Engine :=
  let n := 2 ^ rvF3 w
  let addr := wrap64 (t.reg (rvRs1 w) + immS w)
  let v := natLE n (t.reg (rvRs2 w))
  match e.locate addr with
  | .nowhere => e.thrExcept t 7 addr
  | .here a => match e.accWrite a n with
    | .access => e.thrExcept t 7 addr
    | .misaligned => e.thrExcept t 6 addr
    | .ok => (e.store a v).retireNext t 0 0
  | .far id a => match farAcc a n with
    | .access => e.thrExcept t 7 addr
    | .misaligned => e.thrExcept t 6 addr
    | .ok =>
      e.remote t 0x02 id addr .store (reqArg a n 0) v (fun t _ e => e.retireNext t 0 0)
        fun e => e.retireNext { t with fault := t.fault.or (some (26, addr)) } 0 0

/-! ### Atomics (R461, R462) -/

/-- An AMO of `n` bytes at the location's memory: `old` is written to `rd`. A compare that fails writes nothing (R499). -/
def Engine.amo (e : Engine) (t : Thread) (n func addr x y rd : Nat) (aq rl : Bool) (ecc : Ecc) : Engine :=
  let go (e : Engine) : Engine :=
    if addr / 2 ^ 56 ≠ 0 then e.thrExcept t 7 addr
    else if addr % n ≠ 0 then e.thrExcept t 6 addr
    else match e.locate addr with
      | .nowhere => e.thrExcept t 7 addr
      | .here a =>
        if e.accWrite a n ≠ .ok then e.thrExcept t 7 addr
        else match e.localRead a n ecc with
          | (none, e) => e.thrPoison t 3 a n
          | (some d, e) =>
            let e := match amoNew func n (leNat d) x y with
              | some v => e.store a (natLE n v)
              | none => e
            e.retireNext t rd (loadValue n true d)
      | .far id a =>
        e.remoteWait t 0x03 id a n func addr (.amo n rd) (if func = 0x20 then natLE n x ++ natLE n y else natLE n x)
  if aq || rl then e.ordered t rl go else go e

/-- AMO. -/
def amoInstr (ecc : Ecc) (t : Thread) (w : Nat) (e : Engine) : Engine :=
  e.amo t (2 ^ rvF3 w) (rvF5 w) (t.reg (rvRs1 w)) (t.reg (rvRs2 w)) 0 (rvRd w) (bitOf w 26) (bitOf w 25) ecc

/-- LR and SC are permitted on local scratch, and on local granary addresses inside RIL_GWIN (R462). -/
def Engine.lrWhere (e : Engine) (addr n : Nat) : Option Nat :=
  match e.locate addr with
  | .here a => if decide (rangeOf a n < 2) && (e.accWrite a n == .ok) then some a else none
  | _ => none

/-- LR. -/
def lrInstr (t : Thread) (w : Nat) (e : Engine) : Engine :=
  let n := 2 ^ rvF3 w
  let addr := t.reg (rvRs1 w)
  let go (e : Engine) : Engine :=
    match e.lrWhere addr n with
    | none => e.thrExcept t 5 addr
    | some a =>
      if a % n ≠ 0 then e.thrExcept t 4 addr
      else match e.localRead a n .clean with
        | (none, e) => e.thrPoison t 3 a n
        | (some d, e) => e.retireNext { t with resv := some (a / 8 * 8) } (rvRd w) (loadValue n true d)
  if bitOf w 26 || bitOf w 25 then e.ordered t (bitOf w 25) go else go e

/-- SC: it writes and returns 0 while the reservation holds its bytes, else returns 1; either way the reservation is lost. -/
def scInstr (t : Thread) (w : Nat) (e : Engine) : Engine :=
  let n := 2 ^ rvF3 w
  let addr := t.reg (rvRs1 w)
  let go (e : Engine) : Engine :=
    match e.lrWhere addr n with
    | none => e.thrExcept t 7 addr
    | some a =>
      if a % n ≠ 0 then e.thrExcept t 6 addr
      else if t.resv = some (a / 8 * 8) then
        (e.store a (natLE n (t.reg (rvRs2 w)))).retireNext { t with resv := none } (rvRd w) 0
      else e.retireNext { t with resv := none } (rvRd w) 1
  if bitOf w 26 || bitOf w 25 then e.ordered t (bitOf w 25) go else go e

/-- FENCE: it waits for remote stores when its predecessor set holds W or O and its successor set is not empty; FENCE.TSO acts
as FENCE rw,rw (R459). -/
def fenceInstr (t : Thread) (w : Nat) (e : Engine) : Engine :=
  let tso := bitsOf w 31 28 == 8
  let p := bitsOf w 27 24
  let s := bitsOf w 23 20
  e.ordered t (tso || ((bitOf p 0 || bitOf p 2) && s != 0)) fun e => e.retireNext t 0 0

/-- The control registers of Table RIL-5. -/
def Engine.csr (e : Engine) (t : Thread) (n : Nat) : Option Nat :=
  match n with
  | 0xC00 => some (e.cyc - t.startAt)
  | 0xC01 => some e.time
  | 0xC02 => some t.instret
  | 0xCC0 => some t.id
  | 0xCC1 => some (e.selfId % 2 ^ 14)
  | 0xCC2 => some t.kind
  | 0xCC3 => some t.epoch
  | _ => none

/-- A CSR instruction: a read of a register of Table RIL-5; a write, or any other register, is illegal (R449). -/
def csrInstr (t : Thread) (w : Nat) (e : Engine) : Engine :=
  let writes := rvF3 w % 4 == 1 || rvRs1 w != 0
  match e.csr t (bitsOf w 31 20) with
  | none => e.thrExcept t 2 w
  | some v => if writes then e.thrExcept t 2 w else e.retireNext t (rvRd w) v

/-- A plain instruction. -/
def plainInstr (t : Thread) (w : Nat) (e : Engine) : Engine :=
  match rvPlain t.reg t.pc w with
  | .go rd v pc => e.retire t rd v pc
  | .trap c v => e.thrExcept t c v

/-- RV_INSTRUCTION (R447, R448, R463). -/
def execRvInstruction (tid : Nat) (s : State) : Res := engineStep s fun e => e.issue tid .plain plainInstr
/-- LOAD (R458). -/
def execLoad (tid : Nat) (ecc : Ecc) (s : State) : Res := engineStep s fun e => e.issue tid .load (loadInstr ecc)
/-- STORE (R457). -/
def execStore (tid : Nat) (s : State) : Res := engineStep s fun e => e.issue tid .store storeInstr
/-- AMO (R461). -/
def execAmo (tid : Nat) (ecc : Ecc) (s : State) : Res := engineStep s fun e => e.issue tid .amo (amoInstr ecc)
/-- LR (R462). -/
def execLr (tid : Nat) (s : State) : Res := engineStep s fun e => e.issue tid .lr lrInstr
/-- SC (R462). -/
def execSc (tid : Nat) (s : State) : Res := engineStep s fun e => e.issue tid .sc scInstr
/-- FENCE (R459). -/
def execFence (tid : Nat) (s : State) : Res := engineStep s fun e => e.issue tid .fence fenceInstr
/-- CSR_ACCESS (R449). -/
def execCsrAccess (tid : Nat) (s : State) : Res := engineStep s fun e => e.issue tid .csr csrInstr

/-! ### Responses (R454, R455) -/

/-- A thread's request. -/
def Thread.req (t : Thread) (tag : Nat) : Option ThrReq := t.reqs.find? fun r => r.tag == tag
/-- A thread without a request. -/
def Thread.dropReq (t : Thread) (tag : Nat) : Thread := { t with reqs := t.reqs.filter fun r => r.tag != tag }

/-- A request of a thread fails with a cause: precise for one that holds its context, kept for a store (R455). -/
def Engine.thrReqFailed (e : Engine) (r : FlgReq) (tid cause : Nat) : Engine :=
  let e := e.dropReq r.tag
  match e.thread tid with
  | none => e
  | some t => match t.req r.tag with
    | none => e
    | some q =>
      let t := t.dropReq r.tag
      if q.isStore then e.setThread { t with fault := t.fault.or (some (cause, q.addr)) }
      else if t.st = .waiting (.remote r.tag) then e.thrExcept t cause q.addr
      else e.setThread t

/-- REMOTE_REQUEST_TIMEOUT (R455, R490). -/
def remoteRequestTimeout (tag : Nat) (e : Engine) : Engine :=
  match e.flg.reqs.find? fun r => r.tag == tag with
  | some r => match r.owner with
    | .thread tid =>
      if e.cyc < r.at_ + e.get Fld.RIL_CFG_REMOTE_TIMEOUT_US * usTicks then e
      else (e.count (Reg.RIL_CNT 8)).thrReqFailed r tid 25
    | _ => e
  | none => e

/-- REMOTE_REQUEST_TIMEOUT. -/
def execRemoteRequestTimeout (tag : Nat) (s : State) : Res := engineStep s (remoteRequestTimeout tag)

/-! ### Starting threads (R438 to R445) -/

/-- A program's descriptor in a model: `none` where the model does not define it. -/
def Model.program (m : Model) (i : Nat) : Option Bytes :=
  (m.sect 6 0).bind fun s => if i < s.len / 16 then some (slice (sectBytes m.image s) (16 * i) 16) else none

/-- A context holds no thread. -/
def Engine.ctxFree (e : Engine) (i : Nat) : Bool := (Tbl.find e.ril.threads i).isNone
/-- The lowest FREE context of a core. -/
def Engine.coreCtx (e : Engine) (core : Nat) : Option Nat := ((List.range 32).map fun x => 32 * core + x).find? e.ctxFree
/-- The first FREE context of cores in an order. -/
def Engine.firstCtx (e : Engine) (cores : List Nat) : Option Nat := cores.findSome? e.coreCtx

/-- Starts a thread on a context (R435, R439, R440): the start block's first 250 bytes are given. -/
def Engine.startThread (e : Engine) (ctx kind prog : Nat) (m : Model) (desc block : Bytes) : Nat × Engine :=
  let serial := (Tbl.get 0 e.ril.serial ctx + 1) % 65536
  let tid := ctx + 2 ^ 16 * serial
  let sb := 0x10000000 + 0x10000 * (ctx / 32) + 0xE000 + 256 * (ctx % 32)
  let arg := leAt desc 4 4
  let t : Thread :=
    { id := tid, kind := kind, epoch := m.epoch, limit := leAt desc 8 4, startAt := e.cyc,
      pc := e.latAddr (e.mwAddr m + leAt desc 0 4) }
  let t := ((t.setReg 10 (e.latAddr sb)).setReg 11 arg).setReg 12 tid
  let e := e.store sb (fitTo 250 block ++ natLE 2 prog ++ natLE 4 arg)
  let e := { e with ril := { e.ril with serial := Tbl.set 0 e.ril.serial ctx serial } }
  (tid, (e.count (Reg.RIL_CNT kind)).setThread t)

/-- The start block that SPROUT writes, up to the program index (Table RIL-3). -/
def sproutBlock (p : Pkt) : Bytes :=
  fitTo 224 p.pv ++ natLE 8 p.ts ++ natLE 4 p.fhash ++
    natLE 4 (p.cls % 2 ^ 12 + 2 ^ 12 * p.col + 2 ^ 14 * p.que + 2 ^ 20 * p.port + 2 ^ 25 * gradeOf p.flags) ++
    natLE 4 (p.epoch.getD 0) ++ natLE 4 p.shfField ++ natLE 2 p.len

/-- SPROUT (R277, R442, R443): it never holds the path. -/
def sproutStep (p : Pkt) (arg : Nat) (e : Engine) : Engine :=
  if p.noEval then e.skipEval p.id
  else if (e.liveOf false).isEmpty then
    ((e.count (Reg.CLK_CNT 2)).setPkt p.id fun p => p.flag flDOMAIN).advance p.id
  else
    let prog := arg % 1024
    match (e.modelFor p).bind fun m => (m.program prog).map fun d => (m, d) with
    | none => (e.count (Reg.RIL_CNT 5)).advance p.id
    | some (m, d) =>
      match e.steer false p.fhash with
      | (none, e) => e.advance p.id
      | (some b, e) =>
        let c := p.fhash / 8 % 32
        let spread := byteAt d 12 == 2 || (byteAt d 12 == 0 && e.is Fld.RIL_CFG_SPREAD)
        let others := if spread then (List.range 31).map fun i => 32 * b + (c + 1 + i) % 32 else []
        match e.coreCtx (32 * b + c), e.firstCtx others with
        | some x, _ => (e.startThread x 0 prog m d (sproutBlock p)).2.advance p.id
        | none, some x => ((e.startThread x 0 prog m d (sproutBlock p)).2.count (Reg.RIL_CNT 4)).advance p.id
        | none, none => ((e.count (Reg.RIL_CNT 3)).evt Fld.RIL_EVT_SPROUT_SKIP).advance p.id

/-- SPROUT. -/
def execSprout (pkt : Nat) (s : State) : Res := engineStep s fun e => e.dispatch pkt 6 sproutStep

/-! ### Thread commands (R467 to R469) -/

/-- THR_START. -/
def thrStart (id : Nat) (h : HostRead) (e : Engine) : Engine :=
  let core (c : Cmd) : Nat := 32 * (c.arg 34 1 % 8) + (if c.arg 35 1 < 32 then c.arg 35 1 else 0)
  let eng := match e.cmd id with | some c => core c | none => 328
  withCmd id 0x60 eng (fun c e =>
    let b := c.arg 34 1
    let k := c.arg 35 1
    let fail (st res : Nat) (e : Engine) : Engine := e.complete c.id st res 0 none eng
    if c.len ≠ 256 ∨ 7 < b ∨ (31 < k ∧ k ≠ 0xFF) then fail 0x10 0 e
    else if !e.domOn b then fail 0x21 0 (e.count (Reg.CLK_CNT 3))
    else match e.gft.live.bind fun m => (m.program (c.arg 32 2)).map fun d => (m, d) with
      | none => fail 0x20 3 e
      | some (m, d) =>
        match e.firstCtx (if k = 0xFF then (List.range 32).map fun i => 32 * b + i else [32 * b + k]) with
        | none => fail 0x20 1 e
        | some x => match e.cmdData c h with
          | (none, e) => e
          | (some block, e) =>
            let (tid, e) := e.startThread x 1 (c.arg 32 2) m d block
            if bitOf (c.arg 36 1) 0 then
              match e.thread tid with
              | some t => e.setThread { t with waitEnd := some c.id }
              | none => e
            else e.complete c.id 0 tid 0 none eng) e

/-- THR_START. -/
def execThrStart (cmd : Nat) (src : HostRead) (s : State) : Res := engineStep s (thrStart cmd src)

/-- A thread is killed: it issues no more, its outstanding loads are discarded and its posted stores stay (R469); a sheaf
instruction that has not taken its flow is withdrawn (R506). -/
def Engine.killThread (e : Engine) (t : Thread) : Engine :=
  let e := (e.releaseFlow (.thread t.id)).count (Reg.RIL_CNT 9)
  e.setThread { t with st := .ending, ended := some .killed, reqs := t.reqs.filter ThrReq.isStore, fault := none }

/-- THR_KILL: it completes once the context is FREE. -/
def thrKill (id : Nat) (e : Engine) : Engine :=
  withCmd id 0x61 328 (fun c e =>
    match e.thread (c.arg 32 4) with
    | none => e.finishOk c.id 0
    | some t => if t.ended.isSome then e.finishOk c.id 0 else e.killThread { t with killers := t.killers ++ [c.id] }) e

/-- THR_KILL. -/
def execThrKill (cmd : Nat) (s : State) : Res := engineStep s (thrKill cmd)

/-- A context's byte in THR_STATUS. -/
def Engine.ctxByte (e : Engine) (i : Nat) : Nat :=
  match Tbl.find e.ril.threads i with
  | none => 0
  | some t => (match t.st with | .ready => 1 | .waiting _ => 2 | .ending => 3) + 4 * t.kind

/-- THR_STATUS. -/
def thrStatus (id : Nat) (e : Engine) : Engine :=
  withCmd id 0x62 328 (fun c e =>
    if c.len ≠ 8192 then e.finish c.id 0x10
    else (e.cmdWrite c ((List.range 8192).map fun i => BitVec.ofNat 8 (e.ctxByte i))).finishOk c.id 0) e

/-- THR_STATUS. -/
def execThrStatus (cmd : Nat) (s : State) : Res := engineStep s (thrStatus cmd)

/-! ### Ends (R446, R468, R482) -/

/-- The commands that wait for a thread's end complete: a THR_START with WAIT_END with status `st` and the bits above the
thread ID, a THR_KILL with OK. -/
def Engine.threadEnds (e : Engine) (t : Thread) : Engine :=
  let e := match t.waitEnd, t.ended with
    | some c, some (.exit v) => e.complete c 0 (t.id + 2 ^ 32 * (v % 2 ^ 24)) 0 none (coreOf t.id)
    | some c, some (.cause k) => e.complete c 0x23 (2 ^ 32 * k) 0 none (coreOf t.id)
    | some c, _ => e.complete c 0x23 (2 ^ 32 * 0xFF) 0 none (coreOf t.id)
    | none, _ => e
  t.killers.foldl (fun e c => e.finishOk c 1) (e.freeContext t.id)

/-- THREAD_END_FREE: every store of the thread has been performed, and for X.END every submission has completed; a store
that failed is reported at the end (R455). -/
def threadEndFree (tid : Nat) (e : Engine) : Engine :=
  match e.thread tid with
  | none => e
  | some t =>
    let exits : Bool := match t.ended with | some (.exit _) => true | _ => false
    if t.st ≠ .ending ∨ t.storesOut ∨ (exits && t.tickets.any fun (x : Nat × Option MilDone) => x.2.isNone) = true then e
    else match if exits then t.fault else none with
      | some (c, a) =>
        let e := e.thrExcept t c a
        (match e.thread tid with | some t => e.threadEnds t | none => e)
      | none => e.threadEnds t

/-- THREAD_END_FREE. -/
def execThreadEndFree (tid : Nat) (s : State) : Res := engineStep s (threadEndFree tid)

/-- The rill profiles (Table RIL-10). -/
def rilExpand (v : Nat) : Option (Engine → Engine) :=
  ([(100, 8, 1, 1), (100, 8, 0, 1), (2000, 8, 1, 1)][v]?).map fun x e =>
    e.wr Reg.RIL_CFG (x.1 + 2 ^ 16 * x.2.1 + 2 ^ 20 * x.2.2.1 + 2 ^ 21 * x.2.2.2)

/-- RIL_PROFILE_SELECT (R464). -/
def execRilProfileSelect (v : Nat) (s : State) : Res :=
  hostStep s (profileWrite 11 Fld.RIL_PROFILE_PROFILE v (rilExpand v))

end Sys2Proof.Machine
end

