-- ==== Sys2Proof/Machine/Xmelor.lean ====
section
/-!
DEFINITION. Xmelor.lean: the Xmelor instructions of the rill cores (R475 to R509).
-/
namespace Sys2Proof.Machine

/-! ### Operands and buffers (R477, R480) -/

/-- A buffer of `n` bytes: wholly in the thread's own module, 8-byte aligned, readable as a source or writable as a
destination. Its module-local address, or the exception's cause. -/
def Engine.buffer (e : Engine) (addr n : Nat) (write : Bool) : Except Nat Nat :=
  let acc : Nat := if write then 7 else 5
  match e.locate addr with
  | .here a =>
    if !(if write then e.mayWrite a n else e.mayRead a n) then .error acc
    else if a % 8 ≠ 0 then .error (acc - 1)
    else .ok a
  | _ => .error acc

/-- A source buffer's bytes go to `f`; a buffer that breaks the rule, or holds poisoned data, is an exception. -/
def Engine.withSource (e : Engine) (t : Thread) (addr n : Nat) (f : Bytes → Engine → Engine) : Engine :=
  match e.buffer addr n false with
  | .error c => e.thrExcept t c addr
  | .ok a => match e.checkRead (localMem a) a n .clean with
    | (true, e) => e.thrPoison t 4 a n
    | (false, e) => f (e.readMem a n) e

/-- A destination buffer's address goes to `f`. -/
def Engine.withDest (e : Engine) (t : Thread) (addr n : Nat) (f : Nat → Engine) : Engine :=
  match e.buffer addr n true with
  | .error c => e.thrExcept t c addr
  | .ok a => f a

/-- An operand value that breaks a rule (R477). -/
def Engine.badOperand (e : Engine) (t : Thread) (v : Nat) : Engine := e.thrExcept t 28 v

/-- Narrowing flags in rd[63:60], in the order INX, UNF, SAT, NAN (R479). -/
def rdFlags (fl : Nat) : Nat := 2 ^ 60 * (fl % 16)
/-- The same with CLIP in rd[59], for the numeric instructions. -/
def rdNumFlags (fl : Nat) : Nat := rdFlags fl + 2 ^ 59 * (fl / 16 % 2)

/-! ### Thread control (R482 to R485) -/

/-- X.END: the thread ends with an exit value; its context becomes FREE by THREAD_END_FREE. -/
def xEndInstr (t : Thread) (w : Nat) (e : Engine) : Engine :=
  let t := { t with st := .ending, ended := some (.exit (t.reg (rvRs1 w) % 2 ^ 24)), instret := t.instret + 1 }
  (e.setThread t).alwaysN Reg.RIL_INSNS 1

/-- X.SPAWN: the new thread runs the spawner's epoch. -/
def xSpawnInstr (t : Thread) (w : Nat) (e : Engine) : Engine :=
  let x := t.reg (rvRs2 w)
  let b := bitsOf x 12 10
  let core := bitsOf x 17 13
  let any := bitOf x 18
  let fail (code : Nat) (e : Engine) : Engine := e.retireNext t (rvRd w) (2 ^ 63 + code)
  if x / 2 ^ 19 ≠ 0 ∨ (any ∧ core ≠ 0) then e.badOperand t x
  else e.ordered t true fun e => e.withSource t (t.reg (rvRs1 w)) 256 fun block e =>
    if !e.domOn b then fail 2 (e.count (Reg.CLK_CNT 3))
    else match (e.modelOf t.epoch).bind fun m => (m.program (x % 1024)).map fun d => (m, d) with
      | none => fail 3 e
      | some (m, d) =>
        match e.firstCtx (if any then (List.range 32).map fun i => 32 * b + i else [32 * b + core]) with
        | none => fail 1 e
        | some c =>
          let (tid, e) := e.startThread c 2 (x % 1024) m d block
          e.retireNext t (rvRd w) tid

/-- X.SLEEP: a deadline already reached retires at once. -/
def xSleepInstr (t : Thread) (w : Nat) (e : Engine) : Engine :=
  let d := t.reg (rvRs1 w)
  if d ≤ e.time then e.retireNext t 0 0 else e.thrWait t (.sleep d)

/-- X_SLEEP_WAKE. -/
def xSleepWake (tid : Nat) (e : Engine) : Engine :=
  match e.thread tid with
  | some t => match t.st with
    | .waiting (.sleep d) => if d ≤ e.time then e.retireNext t 0 0 else e
    | _ => e
  | none => e

/-- One read of X.WAITNE's word: it retires when the word differs or the deadline is reached. -/
def Engine.waitneRead (e : Engine) (t : Thread) (a cmp d rd : Nat) : Engine :=
  match e.localRead a 8 .clean with
  | (none, e) => e.thrPoison t 3 a 8
  | (some b, e) => if leNat b ≠ cmp ∨ d ≤ e.time then e.retireNext t rd (leNat b) else e.thrWait t (.waitne a cmp d rd)

/-- X.WAITNE: a load with aq of a local aligned 8-byte word. -/
def xWaitneInstr (t : Thread) (w : Nat) (e : Engine) : Engine :=
  let addr := t.reg (rvRs1 w)
  e.ordered t false fun e =>
    match e.locate addr with
    | .here a =>
      if a % 8 ≠ 0 then e.thrExcept t 4 addr
      else if e.accRead a 8 ≠ .ok then e.thrExcept t 5 addr
      else e.waitneRead t a (t.reg (rvRs2 w)) (t.reg (rvRs3 w)) (rvRd w)
    | _ => e.thrExcept t 5 addr

/-- X_WAITNE_WAKE: the word is read again. -/
def xWaitneWake (tid : Nat) (e : Engine) : Engine :=
  match e.thread tid with
  | some t => match t.st with
    | .waiting (.waitne a cmp d rd) => e.waitneRead t a cmp d rd
    | _ => e
  | none => e

/-! ### Sheaves (R486 to R490) -/

/-- X.SHKEY. -/
def xShkeyInstr (t : Thread) (w : Nat) (e : Engine) : Engine :=
  e.withDest t (t.reg (rvRs2 w)) 48 fun dst => e.withSource t (t.reg (rvRs1 w)) 224 fun pv e =>
    let key := flowKey pv (rvF7 w)
    (e.store dst key).retireNext t (rvRd w) (flowHash key)

/-- The hot part of a sheaf can be read; a poisoned one deletes the sheaf (Table ERR-2 row 9). -/
def Engine.hotGood (e : Engine) (s : Sheaf) : Bool × Engine :=
  let (bad, e) := e.checkRead (tierMem s.tier) (e.hotAddr s) 128 .clean
  if bad then
    let a := e.hotAddr s
    (false, ((e.poisoned 9 a (objRef 4 e.selfId (flowHash s.key))).count (Reg.ERR_CNT 5)).deleteSheaf s.key)
  else (true, e)

/-- A USER field after OP (R489): 0 SET, 1 ADD, 2 OR, 3 MAXU. -/
def userOp (op width old x : Nat) : Nat :=
  match op with
  | 0 => x % 2 ^ width
  | 1 => (old + x) % 2 ^ width
  | 2 => old ||| x % 2 ^ width
  | _ => max old (x % 2 ^ width)

/-- What a sheaf instruction does at the home while it holds the flow: its status (R487) and the snapshot. `f7` is the
instruction's funct7. -/
def Engine.sheafInsn (e : Engine) (key : Bytes) (f7 x : Nat) : Nat × Bytes × Engine :=
  let code := e.tierCode key
  match if code = 0 then none else e.sheaf key with
  | none => (0, [], e)
  | some s =>
    if f7 = 0x11 then
      match e.readSheaf key with
      | (none, e) => (0, [], e)
      | (some d, e) => (code, d, e)
    else match e.hotGood s with
      | (false, e) => (0, [], e)
      | (true, e) =>
        let hot := e.hotOf s
        if f7 = 0x10 then (code, hot, e)
        else
          let fld := (f7 - 0x20) / 4
          let off := if fld = 0 then 82 else 90
          let n := if fld = 0 then 8 else 6
          (code, [], e.writeHot s (patch hot off (natLE n (userOp (f7 % 4) (8 * n) (leAt hot off n) x))))

/-- A sheaf instruction of a thread: here once it has the flow, else at the home that was found when it issued. `buf` and
`len` are a snapshot's destination. -/
def Engine.sheafThread (e : Engine) (t : Thread) (key : Bytes) (f7 x rs1 rd buf len : Nat) : Engine :=
  let ts := match t.st with | .waiting _ => t.waitAt | _ => e.time
  let home := t.home.getD (e.homeOf key ts)
  let t := { t with home := some home }
  if home ≠ e.selfId then
    e.remote t 0x13 home rs1 (.sheaf rd buf len) (natLE 4 0 ++ natLE 1 f7 ++ natLE 3 0) (key ++ natLE 8 x)
      (fun t tag e => e.thrWait t (.remote tag)) fun e => e.thrExcept t 26 rs1
  else match e.takeRate 3 64 8 with
    | none => e.thrWait t (.retry 1)
    | some e =>
      let (got, _, e) := e.takeFlow (.thread t.id) key ts
      if !got then e.thrWait t (.retry 7)
      else
        let (st, d, e) := e.sheafInsn key f7 x
        let e := if d.isEmpty then e else e.store buf d
        ((e.busy 294).releaseFlow (.thread t.id)).retireNext t rd st

/-- X.SHRD: a snapshot of the hot part, or of the whole sheaf. -/
def xShrdInstr (t : Thread) (w : Nat) (e : Engine) : Engine :=
  let len := if rvF7 w = 0x11 then 640 else 128
  e.ordered t true fun e => e.withDest t (t.reg (rvRs2 w)) len fun dst => e.withSource t (t.reg (rvRs1 w)) 48 fun key e =>
    e.sheafThread t key (rvF7 w) 0 (t.reg (rvRs1 w)) (rvRd w) dst len

/-- X.SHWU: FIELD 1 takes 48 bits. -/
def xShwuInstr (t : Thread) (w : Nat) (e : Engine) : Engine :=
  let x := t.reg (rvRs2 w)
  if 0x24 ≤ rvF7 w ∧ x / 2 ^ 48 ≠ 0 then e.badOperand t x
  else e.ordered t true fun e => e.withSource t (t.reg (rvRs1 w)) 48 fun key e =>
    e.sheafThread t key (rvF7 w) x (t.reg (rvRs1 w)) (rvRd w) 0 0

/-! ### The orchard and the mills (R491 to R496) -/

/-- A step at the grader arrived before and still waits (R377). -/
def Engine.graderBusy (e : Engine) (at_ : Nat) : Bool :=
  e.pkts.any fun q => q.onPath && !q.failed && q.why == 1 && (match q.begun with | some b => decide (b < at_) | none => false) &&
    (entKind (e.entryOf q) == 3 || entKind (e.entryOf q) == 7)

/-- X.ORCG: the vector of a grader set of the thread's epoch. -/
def xOrcgInstr (t : Thread) (w : Nat) (e : Engine) : Engine :=
  let i := t.reg (rvRs3 w) % 64
  let at_ := match t.st with | .waiting _ => t.waitAt | _ => e.time
  e.ordered t true fun e =>
    match (e.modelOf t.epoch).bind fun m => (m.sect 3 i).map fun s => (m, s) with
    | none => e.thrExcept t 29 i
    | some (m, s) =>
      e.withDest t (t.reg (rvRs2 w)) 1024 fun dst => e.withSource t (t.reg (rvRs1 w)) 336 fun b e =>
        if e.graderBusy at_ then e.thrWait t (.retry 1)
        else match e.takeRate 1 8 8 with
          | none => e.thrWait t (.retry 1)
          | some e => match e.readSect m s 5 (e.thrRef t.id) .clean with
            | (none, e) => e.thrExcept t 27 (e.badWord (m.secAddr s) s.len)
            | (some im, e) =>
              let r := gradeVector im b
              ((e.busy 290).store dst (packElems .f32 r.1)).retireNext t (rvRd w) (rdFlags r.2)

/-- X.ORCE: it takes its place in the order of admission, and is never truncated. -/
def xOrceInstr (t : Thread) (w : Nat) (e : Engine) : Engine :=
  let x := t.reg (rvRs2 w)
  let y := t.reg (rvRs3 w)
  if x / 2 ^ 6 ≠ 0 then e.badOperand t x
  else if y / 2 ^ 32 ≠ 0 then e.badOperand t y
  else e.ordered t true fun e =>
    match (e.modelOf t.epoch).bind fun m => (Model.ensemble (some m) x).map fun d => (m, d) with
    | none => e.thrExcept t 29 x
    | some (m, d) => e.withSource t (t.reg (rvRs1 w)) 1024 fun b e =>
      let o := OrcWait.thr t.id
      if e.halves.isEmpty then (e.orcJoin o).thrWait t (.retry 14)
      else if !e.orcTurn o then (e.orcJoin o).thrWait t (.retry 10)
      else match e.takeRate 4 64 8 with
        | none => (e.orcJoin o).thrWait t (.retry 1)
        | some e =>
          let n := min (ensTrees d) y
          let vec := (List.range 256).map fun i => leAt b (4 * i) 4
          match ((e.orcLeave o).admitTrees n).evalEnsemble m d vec n (e.thrRef t.id) .clean with
          | (none, e) => e.thrExcept t 27 (e.badWord (e.mwAddr m + leAt d 4 4) (4 * n))
          | (some (s, fl), e) =>
            e.retireNext t (rvRd w) (s + 2 ^ 32 * bucketOf d s (decide (n < ensTrees d)) + rdFlags fl)

/-- A submission that ends at once. -/
def milDone (status stage : Nat) : Option MilDone := some ⟨status, stage, 0, 0⟩

/-- What a submission block asks for (Table XMR-2, R495): a job, or the status it ends with. -/
def Engine.submission (e : Engine) (o : MilOwner) (b : Bytes) : Except MilDone MilJob × Engine :=
  let kind := byteAt b 0
  let src := leAt b 8 8
  let dst := leAt b 16 8
  let z (l : List Nat) : Bool := l.all (· == 0)
  let bad : Except MilDone MilJob := .error ⟨0x10, 0, 0, 0⟩
  let lo := leAt b 5 3
  let hi := leAt b 24 8
  let read (n : Nat) (k : Bytes → Except MilDone MilJob) : Except MilDone MilJob × Engine :=
    if src / 2 ^ 42 ≠ 0 then (bad, e)
    else if !StageWhere.inside ⟨false, []⟩ src n then (.error ⟨0x13, 0, 0, 0⟩, e)
    else match e.checkRead (localMem src) src n .clean with
      | (true, e) => (.error ⟨0x31, 0, 0, 0⟩, e.poisoned 1 src 0)
      | (false, e) => (k (e.readMem src n), e)
  if kind = 0 then
    let n := byteAt b 3
    if !z [byteAt b 4, lo, dst, hi] ∨ 16 < n ∨ 1 < byteAt b 2 ∨ (3 < byteAt b 1 ∧ byteAt b 1 ≠ 0xFF) then (bad, e)
    else if n = 0 then (.error ⟨0x01, 0, 0, 0⟩, e)
    else read (128 * n) fun d => .ok ⟨o, false, d, 0, 0, 0, byteAt b 2 + 2, byteAt b 1⟩
  else if kind = 1 then
    if !z [byteAt b 1, byteAt b 2, lo, hi] ∨ 1 < byteAt b 4 ∨ dst / 2 ^ 42 ≠ 0 then (bad, e)
    else if !StageWhere.inside ⟨false, []⟩ dst 320 then (.error ⟨0x13, 0, 0, 0⟩, e)
    else read 1600 fun d => .ok ⟨o, true, d, byteAt b 3, byteAt b 4, dst, 2, 0xFF⟩
  else (bad, e)

/-- X.MILL: the lowest free ticket; the work is checked and issued as a MIL_RUN or a MIL_TEMPLATE command's. -/
def xMillInstr (t : Thread) (w : Nat) (e : Engine) : Engine :=
  match [0, 1, 2, 3].find? fun k => (Tbl.find t.tickets k).isNone with
  | none => e.thrExcept t 30 4
  | some k => e.ordered t true fun e => e.withSource t (t.reg (rvRs1 w)) 32 fun b e =>
    let held (d : Option MilDone) (e : Engine) : Engine :=
      e.retireNext { t with tickets := Tbl.put t.tickets k d } (rvRd w) k
    match e.submission (.thread t.id k) b with
    | (.error d, e) => held (some d) e
    | (.ok j, e) => match e.quadFor j.quad with
      | none => held (milDone 0x10 0) e
      | some q => match e.jobCheck j, q with
        | some (st, res), _ => held (milDone st res) e
        | none, none => held (milDone 0x21 0) e
        | none, some q => held none (e.placeJob { j with quad := q })

/-- A held ticket is freed, and rd holds the result (R496). -/
def Engine.ticketDone (e : Engine) (t : Thread) (k rd : Nat) (d : MilDone) : Engine :=
  e.retireNext { t with tickets := Tbl.del t.tickets k } rd
    (d.status + 2 ^ 8 * d.stage + 2 ^ 16 * min d.cycles (2 ^ 32 - 1) + rdFlags d.flags)

/-- X.WAITC. -/
def xWaitcInstr (t : Thread) (w : Nat) (e : Engine) : Engine :=
  let x := t.reg (rvRs1 w)
  if x / 4 ≠ 0 then e.badOperand t x
  else match Tbl.find t.tickets x with
    | none => e.thrExcept t 30 x
    | some d => e.ordered t true fun e =>
      match d with
      | some d => e.ticketDone t x (rvRd w) d
      | none => e.thrWait t (.ticket x (rvRd w))

/-- A submission's ticket takes its result; a thread that waits for it goes on. -/
def Engine.ticketEnds (e : Engine) (tid k : Nat) (d : MilDone) : Engine :=
  match e.thread tid with
  | none => e
  | some t =>
    if Tbl.find t.tickets k ≠ some none then e
    else match t.st with
      | .waiting (.ticket k' rd) =>
        if k' = k then e.ticketDone t k rd d else e.setThread { t with tickets := Tbl.put t.tickets k (some d) }
      | _ => e.setThread { t with tickets := Tbl.put t.tickets k (some d) }

/-- XMILL_SUBMISSION_COMPLETE: work that waits starts when a mill is free for it, and ends with all its memory effects
performed. -/
def xmillComplete (tid k : Nat) (e : Engine) : Engine :=
  let o := MilOwner.thread tid k
  let e := e.jobTurn o
  match e.endJob o with
  | none => e
  | some (m, j, r) =>
    let e := match r.out with | some b => r.e.store j.dst b | none => r.e
    (e.traceWork j 3 (256 + m) r.status).ticketEnds tid k ⟨r.status, if r.status = 0x10 then r.result else 0, r.cycles, r.flags⟩

/-! ### Host-bound records (R497, R498) -/

/-- X.EMITV: the engine sets MODULE, EPOCH and KIND over the thread's record image. -/
def xEmitvInstr (t : Thread) (w : Nat) (e : Engine) : Engine :=
  let x := t.reg (rvRs2 w)
  if x / 2 ^ 8 ≠ 0 then e.badOperand t x
  else e.ordered t true fun e => e.withSource t (t.reg (rvRs1 w)) 32 fun b e =>
    let w2 := leAt b 16 8
    let w3 := leAt b 24 8
    if 5 < bitsOf w2 22 20 ∨ bitsOf w2 13 12 = 3 ∨ bitsOf w2 23 23 ≠ 0 ∨ bitsOf w2 47 36 ≠ 0 ∨ bitsOf w3 55 46 ≠ 0 then
      e.badOperand t (t.reg (rvRs1 w))
    else
      let ws := [leAt b 0 8, leAt b 8 6 + 2 ^ 48 * (e.selfId % 2 ^ 14), w2,
        t.epoch % 2 ^ 32 + 2 ^ 32 * bitsOf w3 55 32 + 2 ^ 56]
      (e.pushVerdict x { words := ws, at_ := e.time } (leAt b 0 8)).2.retireNext t 0 0

/-- GLEAN.MARK (R503): a trace record while marker tracing runs, else nothing. -/
def gleanMarkInstr (t : Thread) (w : Nat) (e : Engine) : Engine :=
  (e.trace Fld.GLN_TRACE_CFG_MARK_EN 4 t.id (t.reg (rvRs1 w) % 2 ^ 32) (rvF7 w)).retireNext t 0 0

/-! ### Atomics (R499, R500) -/

/-- X.CAS.W and X.CAS.D. -/
def xCasInstr (n : Nat) (t : Thread) (w : Nat) (e : Engine) : Engine :=
  e.amo t n 0x20 (t.reg (rvRs1 w)) (t.reg (rvRs2 w)) (t.reg (rvRs3 w)) (rvRd w) (bitOf w 26) (bitOf w 25) .clean

/-- X.SADD.D. -/
def xSaddInstr (t : Thread) (w : Nat) (e : Engine) : Engine :=
  e.amo t 8 0x21 (t.reg (rvRs1 w)) (t.reg (rvRs2 w)) 0 (rvRd w) (bitOf w 26) (bitOf w 25) .clean

/-! ### Narrow conversion (R501, R502) -/

/-- X.NRW narrows a binary32 value to the format its rs2 field codes. -/
def xNrwInstr (t : Thread) (w : Nat) (e : Engine) : Engine :=
  let v := decode .f32 (t.reg (rvRs1 w) % 2 ^ 32)
  let r := narrow (fmtOf (rvRs2 w)) v.1
  e.retireNext t (rvRd w) (r.1 + rdNumFlags (v.2 ||| r.2))

/-- The parameters of X.QNT and X.DQT: format, scale and zero-point code; `none` where they break R502 or R340. -/
def qntParams (x : Nat) : Option (Fmt × Nat × Nat) :=
  (Fmt.ofCode (bitsOf x 43 40)).bind fun f =>
    let z := bitsOf x 39 32 % 2 ^ f.bits
    if x / 2 ^ 44 = 0 ∧ scaleOk (x % 2 ^ 32) = true ∧ zpOk f z = true then some (f, x % 2 ^ 32, z) else none

/-- X.QNT: INT4 and INT8 codes are sign-extended into rd[31:0]. -/
def xQntInstr (t : Thread) (w : Nat) (e : Engine) : Engine :=
  let x := t.reg (rvRs2 w)
  match qntParams x with
  | none => e.badOperand t x
  | some (f, s, z) =>
    let v := decode .f32 (t.reg (rvRs1 w) % 2 ^ 32)
    let r := quantise f v.1 (f32q s) z
    let c := if f = .int4 ∨ f = .int8 then wrapInt 32 (sextOf f.bits r.1) else r.1
    e.retireNext t (rvRd w) (c + rdNumFlags (v.2 ||| r.2))

/-- X.DQT. -/
def xDqtInstr (t : Thread) (w : Nat) (e : Engine) : Engine :=
  let x := t.reg (rvRs2 w)
  match qntParams x with
  | none => e.badOperand t x
  | some (f, s, z) =>
    let r := dequantise f (t.reg (rvRs1 w) % 2 ^ (if f = .k20 then 20 else f.bits)) z (f32q s) .f32
    e.retireNext t (rvRd w) (r.1 + rdNumFlags r.2)

/-- X.FADD and X.FMUL: the exact result, narrowed once. -/
def xArithInstr (op : NVal → NVal → NVal) (t : Thread) (w : Nat) (e : Engine) : Engine :=
  let a := decode .f32 (t.reg (rvRs1 w) % 2 ^ 32)
  let b := decode .f32 (t.reg (rvRs2 w) % 2 ^ 32)
  let r := toF32 (op a.1 b.1)
  e.retireNext t (rvRd w) (r.1 + rdNumFlags (a.2 ||| b.2 ||| r.2))

/-! ### The rows -/

/-- X_END (R482). -/
def execXEnd (tid : Nat) (s : State) : Res := engineStep s fun e => e.issue tid (.xm .xend) xEndInstr
/-- X_SPAWN (R483). -/
def execXSpawn (tid : Nat) (s : State) : Res := engineStep s fun e => e.issue tid (.xm .spawn) xSpawnInstr
/-- X_SLEEP (R484). -/
def execXSleep (tid : Nat) (s : State) : Res := engineStep s fun e => e.issue tid (.xm .sleep) xSleepInstr
/-- X_SLEEP_WAKE (R484). -/
def execXSleepWake (tid : Nat) (s : State) : Res := engineStep s (xSleepWake tid)
/-- X_WAITNE (R485). -/
def execXWaitne (tid : Nat) (s : State) : Res := engineStep s fun e => e.issue tid (.xm .waitne) xWaitneInstr
/-- X_WAITNE_WAKE (R485). -/
def execXWaitneWake (tid : Nat) (s : State) : Res := engineStep s (xWaitneWake tid)
/-- X_WAITC (R496). -/
def execXWaitc (tid : Nat) (s : State) : Res := engineStep s fun e => e.issue tid (.xm .waitc) xWaitcInstr
/-- XMILL_SUBMISSION_COMPLETE (R495, R496). -/
def execXmillSubmissionComplete (tid ticket : Nat) (s : State) : Res := engineStep s (xmillComplete tid ticket)
/-- X_SHKEY (R486). -/
def execXShkey (tid : Nat) (s : State) : Res := engineStep s fun e => e.issue tid (.xm .shkey) xShkeyInstr
/-- X_SHRD (R488). -/
def execXShrd (tid : Nat) (s : State) : Res := engineStep s fun e => e.issue tid (.xm .shrd) xShrdInstr
/-- X_SHWU (R489). -/
def execXShwu (tid : Nat) (s : State) : Res := engineStep s fun e => e.issue tid (.xm .shwu) xShwuInstr
/-- X_ORCG (R492). -/
def execXOrcg (tid : Nat) (s : State) : Res := engineStep s fun e => e.issue tid (.xm .orcg) xOrcgInstr
/-- X_ORCE (R493). -/
def execXOrce (tid : Nat) (s : State) : Res := engineStep s fun e => e.issue tid (.xm .orce) xOrceInstr
/-- X_MILL (R494). -/
def execXMill (tid : Nat) (s : State) : Res := engineStep s fun e => e.issue tid (.xm .mill) xMillInstr
/-- X_EMITV (R497). -/
def execXEmitv (tid : Nat) (s : State) : Res := engineStep s fun e => e.issue tid (.xm .emitv) xEmitvInstr
/-- GLEAN_MARK (R503). -/
def execGleanMark (tid : Nat) (s : State) : Res := engineStep s fun e => e.issue tid (.xm .mark) gleanMarkInstr
/-- X_CAS_W (R499). -/
def execXCasW (tid : Nat) (s : State) : Res := engineStep s fun e => e.issue tid (.xm .casW) (xCasInstr 4)
/-- X_CAS_D (R499). -/
def execXCasD (tid : Nat) (s : State) : Res := engineStep s fun e => e.issue tid (.xm .casD) (xCasInstr 8)
/-- X_SADD_D (R500). -/
def execXSaddD (tid : Nat) (s : State) : Res := engineStep s fun e => e.issue tid (.xm .saddD) xSaddInstr
/-- X_NRW (R501). -/
def execXNrw (tid : Nat) (s : State) : Res := engineStep s fun e => e.issue tid (.xm .nrw) xNrwInstr
/-- X_QNT (R502). -/
def execXQnt (tid : Nat) (s : State) : Res := engineStep s fun e => e.issue tid (.xm .qnt) xQntInstr
/-- X_DQT (R502). -/
def execXDqt (tid : Nat) (s : State) : Res := engineStep s fun e => e.issue tid (.xm .dqt) xDqtInstr
/-- X_FADD (R501). -/
def execXFadd (tid : Nat) (s : State) : Res := engineStep s fun e => e.issue tid (.xm .fadd) (xArithInstr NVal.add)
/-- X_FMUL (R501). -/
def execXFmul (tid : Nat) (s : State) : Res := engineStep s fun e => e.issue tid (.xm .fmul) (xArithInstr NVal.mul)

end Sys2Proof.Machine
end

