-- ==== Sys2Proof/Machine/Graft.lean ====
section
/-!
DEFINITION. Graft.lean: loading and grafting models, lattice-wide grafts, and the learning loop (R582 to R611).
-/
namespace Sys2Proof.Machine

/-- The engine with the graft controller changed. -/
def Engine.setGft (e : Engine) (f : Gft → Gft) : Engine := { e with gft := f e.gft }
/-- The engine with the learning loop's state changed. -/
def Engine.setLearn (e : Engine) (f : Learn → Learn) : Engine := e.setGft fun g => { g with learn := f g.learn }

/-- The shadow slot holds a learned image. -/
def Gft.shadowLearned (g : Gft) : Bool := match g.shadow with | some m => m.learned | none => false

/-- A number put in its place in a rising list. -/
def insertNat (x : Nat) (l : List Nat) : List Nat :=
  match l with
  | [] => [x]
  | y :: r => if x < y then x :: y :: r else if x = y then y :: r else y :: insertNat x r

/-- Members that can be reached, this one among them (R638). -/
def Engine.reachable (e : Engine) : List Nat :=
  let others := (e.flg.mgmt.map Prod.fst).filter fun m => m != e.selfId &&
    match Tbl.find e.flg.lsas m with | some l => decide (e.cyc < l.at_ + 3750000000) | none => false
  insertNat e.selfId others

/-! ### Binding the NUM contexts (R354, R582, R601 to R603) -/

/-- A model's TRACKED section; an empty one where it has none. -/
def Model.tracked (m : Model) : Bytes := match m.sect 8 0 with | some s => sectBytes m.image s | none => List.replicate 16 0

/-- The entries of a TRACKED section. -/
def trackedCount (t : Bytes) : Nat := min (leAt t 0 2) 256

/-- The refs of a tracked entry: section table index, SCALE_OFF, ZP_OFF (R581). -/
def trackedRefs (t : Bytes) (j : Nat) : List (Nat × Nat × Nat) :=
  let r := leAt t (trkOff j + 12) 4
  (List.range (byteAt t (trkOff j + 9))).map fun k => (leAt t (r + 12 * k) 2, leAt t (r + 12 * k + 4) 4, leAt t (r + 12 * k + 8) 4)

/-- The parameters a model's image gives entry `j`: what its first ref names, else INIT_SCALE and INIT_ZP. -/
def Model.trackedParams (m : Model) (j : Nat) : Nat × Nat :=
  let t := m.tracked
  let init := (leAt t (trkOff j + 4) 4, byteAt t (trkOff j + 8))
  match trackedRefs t j with
  | [] => init
  | r :: _ => match (imageSects m.image)[r.1]? with
    | some s => let b := sectBytes m.image s; (leAt b r.2.1 4, byteAt b r.2.2)
    | none => init

/-- A host graft binds the contexts: TENSOR_ID, CLASS and FMT, and the live scale and zero point at their INIT values. Contexts
that the image does not bind read TENSOR_ID 0xFFFF. -/
def Engine.bindContexts (e : Engine) (m : Model) : Engine :=
  let t := m.tracked
  (List.range 256).foldl (fun e j =>
    let e := e.setWin j none
    if j < trackedCount t then
      let o := trkOff j
      let e := ((e.put (Fld.NUM_TCTRL_TENSOR_ID j) (leAt t o 2)).put (Fld.NUM_TCTRL_CLASS j) (byteAt t (o + 2))).put
        (Fld.NUM_TCTRL_FMT j) (byteAt t (o + 3))
      (e.put (Fld.NUM_TSCALE_SCALE j) (leAt t (o + 4) 4)).put (Fld.NUM_TZP_ZP j) (byteAt t (o + 8))
    else e.put (Fld.NUM_TCTRL_TENSOR_ID j) 0xFFFF) e

/-- A code stored under one scale and zero point, stored under another (R601). -/
def requant (f : Fmt) (old new : Nat × Nat) (c : Nat) : Nat :=
  (quantise f (f32v (dequantise f c old.2 (f32q old.1) .f32).1) (f32q new.1) new.2).1

/-- The codes of `n` elements of a format, requantised. -/
def requantBytes (f : Fmt) (old new : Nat × Nat) (n : Nat) (b : Bytes) : Bytes :=
  packElems f ((List.range n).map fun i => requant f old new (elemAt f b i))

/-- The live parameters of a tensor's context. -/
def Engine.tensorParams (e : Engine) (id : Nat) : Nat × Nat :=
  match e.ctxOf id with | some t => e.numScale t | none => (0x3F800000, 0)

/-- The format of a tensor in a model. -/
def Model.tensorFmt (m : Model) (id : Nat) : Fmt := match trackedOf m.tracked id with | some (_, f) => f | none => .int8

/-- The tensors of a model's LEARN section. -/
def Model.tensors (m : Model) : List LTens := match m.sect 9 0 with | some s => learnTens (sectBytes m.image s) | none => []

/-- A learned graft: the MODEL contexts take the parameters that the new image's refs name, and the working copies of the
tensors whose parameters changed are requantised; everything else that the loop has learned carries over (R601, R602). -/
def Engine.rebindLearned (e : Engine) (m : Model) : Engine :=
  let t := m.tracked
  let old (id : Nat) : Nat × Nat := e.tensorParams id
  let e' := (List.range (trackedCount t)).foldl (fun e j =>
    if byteAt t (trkOff j + 2) = 1 then
      let p := m.trackedParams j
      (e.put (Fld.NUM_TSCALE_SCALE j) p.1).put (Fld.NUM_TZP_ZP j) p.2
    else e) e
  m.tensors.foldl (fun e x =>
    let f := m.tensorFmt x.wId
    let n := f.bytesOf x.n
    if old x.wId = e.tensorParams x.wId then e
    else e.store (learnBase + x.work) (requantBytes f (old x.wId) (e.tensorParams x.wId) x.n (e.readMem (learnBase + x.work) n))) e'

/-- The learning state as a host graft leaves it (R603). -/
def Engine.resetLearning (e : Engine) (m : Model) : Engine :=
  let t := m.tracked
  let e := (List.range (trackedCount t)).foldl (fun e j =>
    (e.put (Fld.NUM_TSCALE_SCALE j) (leAt t (trkOff j + 4) 4)).put (Fld.NUM_TZP_ZP j) (byteAt t (trkOff j + 8))) e
  let e := e.setLearn fun l => { paused := l.paused, running := l.running }
  m.tensors.foldl (fun e x =>
    let e := e.store (learnBase + x.work) (e.readMem (e.mwAddr m + x.w) ((m.tensorFmt x.wId).bytesOf x.n))
    let zero (id : Nat) : Byte := BitVec.ofNat 8 (e.tensorParams id).2
    (e.store (learnBase + x.m) (List.replicate x.n (zero x.mId))).store (learnBase + x.v) (List.replicate x.n (zero x.vId))) e

/-! ### The graft (R585, R588, R589) -/

/-- A participant's G_DONE: 0 on time, 1 late, 2 not grafted. This module's own goes to its book, another coordinator's over the
management channel. -/
def Engine.noteDone (e : Engine) (src code : Nat) : Engine :=
  match e.gft.coord with
  | none => e
  | some c =>
    if !c.parts.contains src ∨ (c.onTime ++ c.late ++ c.notDone).contains src then e
    else e.setGft fun g => { g with coord := some (match code with
      | 0 => { c with onTime := c.onTime ++ [src] }
      | 1 => { c with late := c.late ++ [src] }
      | _ => { c with notDone := c.notDone ++ [src] }) }

/-- GFT_LPREPARE completes (R593). -/
def Engine.coordEnds (e : Engine) : Engine :=
  match e.gft.coord with
  | none => e
  | some c =>
    let e := e.setGft fun g => { g with coord := none }
    match c.decision with
    | some (some (reason, who)) => e.complete c.cmd 0x23 (reason + 2 ^ 8 * who) 0 none 330
    | _ => e.complete c.cmd 0 (c.parts.length + 2 ^ 15 * c.onTime.length + 2 ^ 30 * c.late.length) 0 none 330

/-- Every participant of a decided graft has reported. -/
def Engine.coordCheck (e : Engine) : Engine :=
  match e.gft.coord with
  | some c => if c.decision.isSome && c.parts.all fun p => (c.onTime ++ c.late ++ c.notDone).contains p then e.coordEnds else e
  | none => e

/-- Sends G_DONE to the coordinator. -/
def Engine.sendDone (e : Engine) (coord code : Nat) : Engine :=
  if coord = e.selfId then (e.noteDone coord code).coordCheck
  else (e.flgSend 0xC4 coord 0 (natLE 1 code ++ natLE 7 0) []).2

/-- The armed or pending shadow model becomes live. -/
def Engine.graft (e : Engine) : Engine :=
  match e.gft.shadow with
  | none => e
  | some m =>
    let old := e.gft.live
    let arm := e.gft.arm
    let lock := e.gft.lock
    let e := e.setGft fun g => { g with
      live := some m, retiring := old.or g.retiring, shadow := none, sst := .empty, arm := none, lock := none,
      seq := if m.learned then (g.seq + 1) % 2 ^ 17 else g.seq }
    let e := if m.learned then e.rebindLearned m else (e.bindContexts m).resetLearning m
    let e := (e.count (Reg.GFT_CNT 0)).evt Fld.GFT_EVT_GRAFTED
    let e := if m.learned then e.count (Reg.GFT_CNT 1) else e
    let e := e.endCause 3
    let e := match arm.bind (·.cmd) with
      | some id => e.complete id 0 m.epoch 0 none 330
      | none => e
    match arm, lock with
    | some a, some l =>
      if a.mode = .lattice then
        let late := decide (l.tc < a.t)
        let e := if late then (e.count (Reg.GFT_CNT 5)).evt Fld.GFT_EVT_LATE else e
        e.sendDone l.coord (if late then 1 else 0)
      else e
    | _, _ => e

/-- An armed graft is due: its tally boundary has come, or lattice time has reached its T. -/
def Engine.armDue (e : Engine) : Bool :=
  match e.gft.arm with
  | some a => (match a.mode with
    | .tally | .learned => a.due
    | .time | .lattice => decide (a.t ≤ e.time)) && e.gft.sst == .armed
  | none => false

/-- GRAFT_TAKES_EFFECT (R585, R588, R589). -/
def execGraftTakesEffect (s : State) : Res := engineStep s fun e => if e.armDue then e.graft else e

/-- An epoch is in use by a packet on its path, an item of a mill or a thread (R585). -/
def Engine.epochUsed (e : Engine) (ep : Nat) : Bool :=
  (e.pkts.any fun p => p.onPath && p.epoch == some ep) ||
    (e.mil.queues.any fun (q : Nat × List MilItem) => q.2.any fun i => i.epoch == ep) ||
    (e.mil.running.any fun (x : Nat × Option MilWork) => match x.2 with | some (.batch l) => l.any fun i => i.epoch == ep | _ => false) ||
    (e.ril.threads.any fun (x : Nat × Thread) => x.2.epoch == ep)

/-- RETIRING_MODEL_RELEASED (R585). -/
def retiringReleased (e : Engine) : Engine :=
  match e.gft.retiring with
  | some m => if e.epochUsed m.epoch then e else e.setGft fun g => { g with retiring := none }
  | none => e

/-- RETIRING_MODEL_RELEASED. -/
def execRetiringModelReleased (s : State) : Res := engineStep s retiringReleased

/-- An armed slot goes back to READY; the command that armed it completes with ABORTED, and a lattice graft's coordinator hears
that it was not grafted. -/
def Engine.disarm (e : Engine) : Engine :=
  let arm := e.gft.arm
  let lock := e.gft.lock
  let e := e.setGft fun g => { g with sst := .ready, arm := none, lock := none }
  let e := match arm.bind (·.cmd) with | some id => e.complete id 0x23 0 0 none 330 | none => e
  match lock with | some l => e.sendDone l.coord 2 | none => e

/-- GFT_GRAFT (R588). -/
def gftGraft (id : Nat) (e : Engine) : Engine :=
  withCmd id 0x71 330 (fun c e =>
    let mode := c.arg 32 1
    let t := c.arg 40 8
    let arm (a : Armed) (e : Engine) : Engine := e.setGft fun g => { g with sst := .armed, arm := some a }
    if mode ≠ 0 ∧ mode ≠ 1 ∧ mode ≠ 3 then e.finish c.id 0x10
    else if mode = 3 then
      if e.gft.sst = .armed then e.disarm.finishOk c.id 1 else e.finishOk c.id 0
    else if e.gft.sst ≠ .ready then e.finish c.id 0x20
    else if mode = 1 then
      if t < c.at_ then e.finish c.id 0x24 else arm { mode := .time, t := t, cmd := some c.id } e
    else
      let e := arm { mode := .tally, t := 0, cmd := some c.id } e
      if e.gft.live.isNone then e.graft else e) e

/-- GFT_GRAFT. -/
def execGftGraft (cmd : Nat) (s : State) : Res := engineStep s (gftGraft cmd)

/-! ### Loading (R583, R586, R607) -/

/-- The shadow slot cannot take a host image now (reason BUSY): ARMED by a host or lattice graft, LOCKED or PREPARING. -/
def Gft.busy (g : Gft) : Bool :=
  match g.sst with
  | .armed => !g.shadowLearned
  | .locked | .preparing => true
  | _ => false

/-- A learned image that is READY or ARMED is discarded (R607). -/
def Engine.dropLearned (e : Engine) : Engine :=
  if (e.gft.sst = .ready ∨ e.gft.sst = .armed) ∧ e.gft.shadowLearned then
    ((if e.gft.sst = .armed then e.disarm else e).count (Reg.GFT_CNT 8)).evt Fld.GFT_EVT_LEARN_DISCARD
  else e

/-- A load begins: it waits while a RETIRING model is held or another load runs; with FORCE the threads that hold the retiring
model are killed (R586, R607). A busy slot stays as it is. -/
def Engine.loadBegins (e : Engine) (c : Cmd) : Engine :=
  match e.gft.retiring with
  | some m =>
    if bitOf (c.arg 32 1) 0 then
      let ts := e.ril.threads.filter fun (x : Nat × Thread) => x.2.epoch == m.epoch && x.2.ended.isNone
      ts.foldl (fun e (x : Nat × Thread) => (e.killThread x.2).count (Reg.GFT_CNT 10)) e
    else e
  | none =>
    if e.gft.loading.isSome then e
    else withCmd c.id 0x70 330 (fun c e =>
      if e.gft.busy then e.setGft fun g => { g with loading := some c.id }
      else e.dropLearned.setGft fun g => { g with loading := some c.id, sst := .loading, shadow := none }) e

/-- The reason and index a load is refused for, in the order of Table GFT-7. -/
def Engine.loadRefuse (e : Engine) (im : Bytes) (len : Nat) : Option (Nat × Nat) :=
  match imageRefuse im len (e.partSize 2 / 8) (e.partSize 3) with
  | some r => some r
  | none =>
    if (e.placeModel im).isNone then some (11, 0)
    else if (e.gft.live.map fun m => m.epoch) = some (leAt im 8 4) then some (12, 0)
    else if e.gft.busy then some (13, 0)
    else none

/-- A load ends: the image is checked and placed in the shadow slot, or refused. -/
def Engine.loadEnds (e : Engine) (c : Cmd) (h : HostRead) : Engine :=
  let leave (e : Engine) : Engine := e.setGft fun g =>
    if g.sst = .loading then { g with loading := none, sst := .empty, shadow := none } else { g with loading := none }
  match e.cmdData c h with
  | (none, e) => leave e
  | (some im, e) =>
    match e.loadRefuse im c.len, e.placeModel im with
    | none, some b =>
      let (m, e) := e.layModel im (leAt im 8 4) false b
      let e := e.setGft fun g => { g with loading := none, sst := .ready, shadow := some m }
      e.complete c.id 0 m.epoch 0 none 330
    | r, _ =>
      let x := r.getD (11, 0)
      ((leave e).count (Reg.GFT_CNT 2)).evt Fld.GFT_EVT_LOAD_FAIL |>.complete c.id 0x20 (2 ^ 16 * x.1 + x.2) 0 none 330

/-- GFT_LOAD: a row begins the load, and one that says so ends it. -/
def gftLoad (id : Nat) (h : HostRead) (ends : Bool) (e : Engine) : Engine :=
  let e := match e.startable id 0x70 with | some c => e.loadBegins c | none => e
  if ends && e.gft.loading == some id then
    match e.cmd id with | some c => e.loadEnds c h | none => e
  else e

/-- GFT_LOAD (R583). -/
def execGftLoad (cmd : Nat) (src : HostRead) (ends : Bool) (s : State) : Res := engineStep s (gftLoad cmd src ends)

/-- GFT_DISCARD: the shadow becomes EMPTY, unless it is ARMED, LOCKED or PREPARING; it waits for a load that runs. -/
def gftDiscard (id : Nat) (e : Engine) : Engine :=
  if e.gft.sst = .loading then e
  else withCmd id 0x72 330 (fun c e =>
    if e.gft.sst = .armed ∨ e.gft.sst = .locked ∨ e.gft.sst = .preparing then e.finish c.id 0x20
    else (e.setGft fun g => { g with sst := .empty, shadow := none }).finishOk c.id 0) e

/-- GFT_DISCARD (R606). -/
def execGftDiscard (cmd : Nat) (s : State) : Res := engineStep s (gftDiscard cmd)

/-- GFT_EXPORT: the model as it stands (R607). -/
def gftExport (id : Nat) (e : Engine) : Engine :=
  withCmd id 0x73 330 (fun c e =>
    if 1 < c.arg 33 1 then e.finish c.id 0x10
    else match e.bankModel (c.arg 33 1) with
      | none => e.finish c.id 0x20
      | some m =>
        if c.len ≠ m.image.length then e.finish c.id 0x10
        else match e.imageNow m with
          | none => (e.poisoned 1 0 (e.cmdRef c)).finish c.id 0x31
          | some im => (e.cmdWrite c im).complete c.id 0 m.epoch 0 none 330) e

/-- GFT_EXPORT (R607). -/
def execGftExport (cmd : Nat) (s : State) : Res := engineStep s (gftExport cmd)

/-- GFT_LEARN: pause, resume, or a reset of the learning state under R603. -/
def gftLearn (id : Nat) (e : Engine) : Engine :=
  withCmd id 0x76 330 (fun c e =>
    let op := c.arg 32 1
    if 2 < op then e.finish c.id 0x10
    else
      let e := if op = 2 then (match e.gft.live with | some m => e.resetLearning m | none => e)
        else e.setLearn fun l => { l with paused := op == 0 }
      e.finishOk c.id 0) e

/-- GFT_LEARN (R606). -/
def execGftLearn (cmd : Nat) (s : State) : Res := engineStep s (gftLearn cmd)

/-! ### Lattice-wide grafts (R591 to R594, R608) -/

/-- MARGIN_US and INDOUBT_US in ticks. -/
def Engine.margin (e : Engine) : Nat := e.get Fld.GFT_LATT_MARGIN_US * usTicks
def Engine.indoubt (e : Engine) : Nat := e.get Fld.GFT_LATT_INDOUBT_US * usTicks

/-- A participant's vote: 0, or the first failing reason of Table GFT-8. -/
def Engine.voteFor (e : Engine) (epoch : Nat) (hash : List Nat) (tc : Nat) : Nat :=
  match e.gft.shadow with
  | none => if e.gft.sst = .preparing then 4 else 3
  | some m =>
    if m.hash ≠ hash then 1
    else if m.epoch ≠ epoch then 2
    else if e.gft.lock.isSome ∨ e.gft.sst = .preparing then 4
    else if e.gft.sst ≠ .ready then 3
    else if tc < e.time + e.margin then 5
    else if e.suspect then 6
    else 0

/-- The shadow is LOCKED for a coordinator's graft. -/
def Engine.lockFor (e : Engine) (coord tc : Nat) : Engine := e.setGft fun g => { g with sst := .locked, lock := some ⟨coord, tc⟩ }

/-- A participant receives the decision: COMMIT arms a LOCKED shadow at Tc, or grafts at once when Tc has passed; ABORT returns it
to READY. -/
def Engine.decided (e : Engine) (coord : Nat) (commit : Bool) : Engine :=
  match e.gft.lock with
  | some l =>
    if l.coord ≠ coord ∨ e.gft.sst ≠ .locked then e.sendDone coord 2
    else if commit then
      let e := e.setGft fun g => { g with sst := .armed, arm := some { mode := .lattice, t := max l.tc e.time, cmd := none } }
      if l.tc < e.time then e.graft else e
    else (e.setGft fun g => { g with sst := .ready, lock := none }).sendDone coord 2
  | none => e.sendDone coord 2

/-- The coordinator decides, and tells every participant. -/
def Engine.coordDecide (e : Engine) (abort : Option (Nat × Nat)) : Engine :=
  match e.gft.coord with
  | none => e
  | some c =>
    let e := e.setGft fun g => { g with coord := some { c with decision := some abort } }
    let e := match abort with
      | none => e.count (Reg.GFT_CNT 3)
      | some _ => (e.count (Reg.GFT_CNT 4)).evt Fld.GFT_EVT_LATT_ABORT
    let reason := match abort with | some r => r.1 | none => 0
    let e := (c.parts.filter fun p => p != e.selfId).foldl (fun e p =>
      (e.flgSend 0xC3 p 0 (natLE 1 (bit abort.isSome) ++ natLE 1 reason ++ natLE 6 0) []).2) e
    (e.decided e.selfId abort.isNone).coordCheck

/-- The coordinator notes a vote; votes after the decision are ignored. -/
def Engine.noteVote (e : Engine) (src code : Nat) : Engine :=
  match e.gft.coord with
  | none => e
  | some c =>
    if c.decision.isSome ∨ !c.parts.contains src ∨ c.ok.contains src then e
    else if code ≠ 0 then e.coordDecide (some (code, src))
    else
      let ok := c.ok ++ [src]
      let e := e.setGft fun g => { g with coord := some { c with ok := ok } }
      if c.parts.all fun p => ok.contains p then e.coordDecide none else e

/-- GFT_LPREPARE (R591, R608). -/
def gftLprepare (id : Nat) (e : Engine) : Engine :=
  withCmd id 0x74 330 (fun c e =>
    let tc := c.arg 40 8
    if e.gft.lock.isSome ∨ e.gft.coord.isSome ∨ tc < c.at_ + 2 * e.margin then e.finish c.id 0x20
    else
      let (ep, h) := match e.gft.shadow with | some m => (m.epoch, m.hash) | none => (0, List.replicate 8 0)
      let parts := e.reachable
      let k : Coord := { cmd := c.id, epoch := ep, hash := h, tc := tc, parts := parts, ok := [], decision := none,
                         onTime := [], late := [], notDone := [] }
      let e := e.setGft fun g => { g with coord := some k }
      let e := (parts.filter fun p => p != e.selfId).foldl (fun e p =>
        (e.flgSend 0xC1 p 0 (natLE 8 tc) (natLE 4 ep ++ h.flatMap fun w => natLE 4 w)).2) e
      let v := e.voteFor ep h tc
      let e := if v = 0 then e.lockFor e.selfId tc else e
      e.noteVote e.selfId v) e

/-- GFT_LPREPARE. -/
def execGftLprepare (cmd : Nat) (s : State) : Res := engineStep s (gftLprepare cmd)

/-- GFT_LABORT: aborts the lattice graft that this module coordinates, before its decision. -/
def gftLabort (id : Nat) (e : Engine) : Engine :=
  withCmd id 0x75 330 (fun c e =>
    match e.gft.coord with
    | some k => if k.decision.isNone then (e.coordDecide (some (8, e.selfId))).finishOk c.id 1 else e.finishOk c.id 0
    | none => e.finishOk c.id 0) e

/-- GFT_LABORT (R591). -/
def execGftLabort (cmd : Nat) (s : State) : Res := engineStep s (gftLabort cmd)

/-- G_PREPARE: a participant votes. -/
def gPrepare (id : Nat) (e : Engine) : Engine :=
  match e.flgMsg id 0xC1 with
  | none => e
  | some m =>
    let tc := leNat m.arg
    let v := e.voteFor (leAt m.data 0 4) ((List.range 8).map fun i => leAt m.data (4 + 4 * i) 4) tc
    let e := if v = 0 then e.lockFor m.src tc else e
    (e.freeMsg m).flgSend 0xC2 m.src m.tag (natLE 1 v ++ natLE 7 0) [] |>.2

/-- G_PREPARE (R591). -/
def execGPrepare (msg : Nat) (s : State) : Res := engineStep s (gPrepare msg)

/-- G_VOTE. -/
def gVote (id : Nat) (e : Engine) : Engine :=
  match e.flgMsg id 0xC2 with
  | none => e
  | some m => (e.freeMsg m).noteVote m.src (byteAt m.arg 0)

/-- G_VOTE (R591, R594). -/
def execGVote (msg : Nat) (s : State) : Res := engineStep s (gVote msg)

/-- VOTE_DEADLINE: a vote is missing MARGIN_US ÷ 2 before Tc; the lowest member that has not voted is named. -/
def voteDeadline (e : Engine) : Engine :=
  match e.gft.coord with
  | some c =>
    if c.decision.isSome ∨ e.time + e.margin / 2 < c.tc then e
    else e.coordDecide (some (7, ((c.parts.filter fun p => !c.ok.contains p).headD e.selfId)))
  | none => e

/-- VOTE_DEADLINE (R591). -/
def execVoteDeadline (s : State) : Res := engineStep s voteDeadline

/-- G_DECIDE. -/
def gDecide (id : Nat) (e : Engine) : Engine :=
  match e.flgMsg id 0xC3 with
  | none => e
  | some m => (e.freeMsg m).decided m.src (byteAt m.arg 0 == 0)

/-- G_DECIDE (R591, R592). -/
def execGDecide (msg : Nat) (s : State) : Res := engineStep s (gDecide msg)

/-- G_DONE. -/
def gDone (id : Nat) (e : Engine) : Engine :=
  match e.flgMsg id 0xC4 with
  | none => e
  | some m => ((e.freeMsg m).noteDone m.src (byteAt m.arg 0)).coordCheck

/-- G_DONE (R593). -/
def execGDone (msg : Nat) (s : State) : Res := engineStep s (gDone msg)

/-- INDOUBT_TIMEOUT: a LOCKED participant without a decision INDOUBT_US after Tc keeps its old model (R592). -/
def indoubtTimeout (e : Engine) : Engine :=
  match e.gft.lock with
  | some l =>
    if e.gft.sst = .locked ∧ l.tc + e.indoubt ≤ e.time then
      let e := e.setGft fun g => { g with sst := .ready, lock := none }
      ((e.count (Reg.GFT_CNT 6)).evt Fld.GFT_EVT_ORPHAN).sendDone l.coord 2
    else e
  | none => e

/-- INDOUBT_TIMEOUT. -/
def execIndoubtTimeout (s : State) : Res := engineStep s indoubtTimeout

/-- LPREPARE_INDOUBT_EXPIRY: INDOUBT_US after Tc the command completes with what has been reported (R593). -/
def lprepareExpiry (e : Engine) : Engine :=
  match e.gft.coord with
  | some c => if c.decision.isSome ∧ c.tc + e.indoubt ≤ e.time then e.coordEnds else e
  | none => e

/-- LPREPARE_INDOUBT_EXPIRY. -/
def execLprepareIndoubtExpiry (s : State) : Res := engineStep s lprepareExpiry

/-! ### The learning loop (R595 to R601) -/

/-- A gradient stage as issued: a CONTEXT that names a LEARN tensor gives C its live scale and zero point (R598). -/
def Engine.gradStage (e : Engine) (b : Bytes) : Bytes :=
  let t := stContext b
  if t < 256 ∧ e.numBound t = true ∧ e.get (Fld.NUM_TCTRL_CLASS t) = 0 then
    let p := e.numScale t
    patch (patch b 28 (natLE 4 p.1)) 35 (natLE 1 p.2)
  else b

/-- LEARNING_STEP_START: the newest BATCH rows go to the batch area, oldest first, and the gradient list is issued as HARVEST
work on the lowest quad that is ON (R598, R600). -/
def learningStepStart (e : Engine) : Engine :=
  match e.learnSect, e.gft.live, (e.liveOf true).head? with
  | some l, some m, some q =>
    let n := byteAt l 1
    let depth := max (leAt l 2 2) 1
    let g := e.gft.learn
    if !e.learning ∨ g.running ∨ !e.is Fld.MIL_CFG_HARVEST_EN ∨ e.inBypass ∨ g.rows < g.seenRows + n then e
    else
      let a := e.mwAddr m + leAt l 4 4
      match e.checkRead 0 a (128 * byteAt l 8) .clean with
      | (true, e) => e.modelPoison m 6 a 0
      | (false, e) =>
        let ring := learnBase + leAt l 36 4
        let rows := (List.range n).flatMap fun i => e.readMem (ring + 1024 * ((g.rows - n + i) % depth)) 1024
        let e := e.store (ring + 1024 * depth) rows
        let e := e.setLearn fun g => { g with running := true, seenRows := g.rows }
        let data := (stagesOf (e.readMem a (128 * byteAt l 8))).flatMap e.gradStage
        e.placeJob ⟨.learn, false, data, 0, 0, 0, 3, q⟩
  | _, _, _ => e

/-- LEARNING_STEP_START. -/
def execLearningStepStart (s : State) : Res := engineStep s learningStepStart

/-- The hyperparameters of a LEARN section. -/
structure Hyper where
  lr : NVal
  b1 : NVal
  omb1 : NVal
  b2 : NVal
  omb2 : NVal
  eps : NVal

/-- One element of the optimiser (R599): the codes of w, m and v, the exact values of m and v before they were quantised, and
the flags of the three quantisations. -/
structure OptOut where
  w : Nat
  m : Nat
  v : Nat
  mx : NVal
  vx : NVal
  mfl : Nat
  vfl : Nat
  e : Engine

/-- `update` of R599. Each parameter pair is a scale and a zero point. -/
def optimise (e : Engine) (p : Hyper) (fw : Fmt) (pw pg pm pv : Nat × Nat) (wc gc mc vc : Nat) : OptOut :=
  let n (x : NVal) : NVal := f32v (toF32 x).1
  let dq (f : Fmt) (c : Nat) (s : Nat × Nat) : NVal := f32v (dequantise f c s.2 (f32q s.1) .f32).1
  let g := dq .int8 gc pg
  let w := dq fw wc pw
  let m := dq .int8 mc pm
  let v := dq .uint8 vc pv
  let m := n ((n (p.b1.mul m)).add (n (p.omb1.mul g)))
  let v := n ((n (p.b2.mul v)).add (n (p.omb2.mul (n (g.mul g)))))
  let (root, e) : NVal × Engine :=
    match v with
    | .nan => (.nan, e)
    | .num neg a =>
      if neg ∧ a ≠ 0 then let x := e.fresh Config.fNegSqrt; (f32v (x.1 % 2 ^ 32), x.2) else (n (.num neg (ratSqrt a)), e)
  let den := n (root.add p.eps)
  let u := if den.isNan then .nan else n ((n (p.lr.mul m)).divBy den.rat)
  let w := n (w.sub u)
  let qw := quantise fw w (f32q pw.1) pw.2
  let qm := quantise .int8 m (f32q pm.1) pm.2
  let qv := quantise .uint8 v (f32q pv.1) pv.2
  ⟨qw.1, qm.1, qv.1, m, v, qm.2, qv.2, e⟩

/-- The optimiser over one tensor, in ascending element order. -/
def Engine.updateTensor (e : Engine) (m : Model) (p : Hyper) (x : LTens) : Engine :=
  let fw := m.tensorFmt x.wId
  let pw := e.tensorParams x.wId
  let pg := e.tensorParams x.gId
  let pm := e.tensorParams x.mId
  let pv := e.tensorParams x.vId
  let rd (o n : Nat) : Bytes := e.readMem (learnBase + o) n
  let wb := rd x.work (fw.bytesOf x.n)
  let gb := rd x.g x.n
  let mb := rd x.m x.n
  let vb := rd x.v x.n
  let win (f : Nat → Engine → Engine) (id : Nat) (e : Engine) : Engine := match e.ctxOf id with | some t => f t e | none => e
  let e := win (fun t e => e.winOpen t pv.1) x.vId (win (fun t e => e.winOpen t pm.1) x.mId e)
  let r := (List.range x.n).foldl (fun (r : List Nat × List Nat × List Nat × Engine) i =>
    let o := optimise r.2.2.2 p fw pw pg pm pv (elemAt fw wb i) (byteAt gb i) (byteAt mb i) (byteAt vb i)
    let e := win (fun t e => e.winAdd t pm.1 pm.2 o.mx o.m o.mfl) x.mId o.e
    let e := win (fun t e => e.winAdd t pv.1 pv.2 o.vx o.v o.vfl) x.vId e
    (o.w :: r.1, o.m :: r.2.1, o.v :: r.2.2.1, e)) ([], [], [], e)
  let e := ((r.2.2.2.store (learnBase + x.work) (packElems fw r.1.reverse)).store (learnBase + x.m)
    (packElems .int8 r.2.1.reverse)).store (learnBase + x.v) (packElems .uint8 r.2.2.1.reverse)
  win (fun t e => e.winClose t) x.vId (win (fun t e => e.winClose t) x.mId e)

/-- LEARNING_STEP_COMPLETE: the gradient list ends and every adaptive tensor is updated, in tensor order (R599). A list that met
poisoned data ends the step without an update. -/
def learningStepComplete (e : Engine) : Engine :=
  let e := e.jobTurn .learn
  match e.endJob .learn with
  | none => e
  | some (mill, j, r) =>
    let e := (r.e.traceWork j 3 (256 + mill) r.status).setLearn fun g => { g with running := false }
    match r.status, e.learnSect, e.gft.live with
    | 0, some l, some m =>
      let f (o : Nat) : NVal := f32v (leAt l o 4)
      let p : Hyper := ⟨f 12, f 16, f 20, f 24, f 28, f 32⟩
      let e := m.tensors.foldl (fun e x => e.updateTensor m p x) e
      (e.count (Reg.GFT_CNT 7)).setLearn fun g => { g with steps := g.steps + 1 }
    | _, _, _ => e

/-- LEARNING_STEP_COMPLETE. -/
def execLearningStepComplete (s : State) : Res := engineStep s learningStepComplete

/-- The learned image: the live one with the working codes of the adaptive tensors and the staged values at every ref of their
tensors (R601); `none` where the live image holds poison. -/
def Engine.learnedImage (e : Engine) (m : Model) : Option Bytes :=
  (e.imageNow m).map fun im =>
    let staged := e.gft.learn.staged.map fun (x : Nat × Nat × Nat) => (e.get (Fld.NUM_TCTRL_TENSOR_ID x.1), x.2.1, x.2.2)
    let new (id : Nat) : Nat × Nat :=
      match staged.find? fun (x : Nat × Nat × Nat) => x.1 == id with
      | some x => (x.2.1, x.2.2)
      | none => e.tensorParams id
    let mw := match m.sect 1 0 with | some s => s.off | none => 0
    let im := m.tensors.foldl (fun im x =>
      let f := m.tensorFmt x.wId
      let b := e.readMem (learnBase + x.work) (f.bytesOf x.n)
      let b := if new x.wId = e.tensorParams x.wId then b else requantBytes f (e.tensorParams x.wId) (new x.wId) x.n b
      patch im (mw + x.w) b) im
    let t := m.tracked
    let im := (List.range (trackedCount t)).foldl (fun im j =>
      match staged.find? fun (x : Nat × Nat × Nat) => x.1 == leAt t (trkOff j) 2 with
      | none => im
      | some x => (trackedRefs t j).foldl (fun im (r : Nat × Nat × Nat) =>
          match (imageSects m.image)[r.1]? with
          | some s => patch (patch im (s.off + r.2.1) (natLE 4 x.2.1)) (s.off + r.2.2) (natLE 1 x.2.2)
          | none => im) im) im
    patch im 16 (natLE 4 (crc32 (im.drop 64)))

/-- LEARNED_PREPARATION: due after STEPS_PER_GRAFT steps, or while a value is staged. A slot that is not EMPTY makes it wait, and
is counted; a first row builds the image (PREPARING), the next one arms it with MODE TALLY (R601). -/
def learnedPreparation (e : Engine) : Engine :=
  if e.gft.sst = .preparing then
    e.setGft fun g => { g with sst := .armed, arm := some { mode := .learned, t := 0, cmd := none } }
  else
    let l := e.gft.learn
    let due := decide (e.get Fld.GFT_CFG_STEPS_PER_GRAFT ≤ l.steps) || !l.staged.isEmpty
    match e.gft.live with
    | none => e
    | some m =>
      if (m.sect 9 0).isNone ∨ !e.is Fld.GFT_CFG_LEARN_EN ∨ !due then e
      else if e.gft.sst ≠ .empty then e.count (Reg.GFT_CNT 9)
      else if e.gft.retiring.isSome then e
      else match e.learnedImage m, e.placeModel m.image with
        | some im, some b =>
          let epoch := 2 ^ 31 + 2 ^ 17 * (e.selfId % 2 ^ 14) + e.gft.seq
          let (sh, e) := e.layModel im epoch true b
          let e := e.setGft fun g => { g with sst := .preparing, shadow := some sh }
          e.setLearn fun l => { l with steps := 0, staged := [] }
        | _, _ => e.count (Reg.GFT_CNT 9)

/-- LEARNED_PREPARATION. -/
def execLearnedPreparation (s : State) : Res := engineStep s learnedPreparation

/-- The graft profiles (Table GFT-9). -/
def gftExpand (v : Nat) : Option (Engine → Engine) :=
  ([(0, 64, 16), (1, 64, 16), (1, 8, 4)][v]?).map fun x e =>
    e.wr Reg.GFT_CFG (x.1 + 2 ^ 4 * x.2.1 + 2 ^ 16 * x.2.2)

/-- GFT_PROFILE_SELECT (R604). -/
def execGftProfileSelect (v : Nat) (s : State) : Res :=
  hostStep s (profileWrite 14 Fld.GFT_PROFILE_PROFILE v (gftExpand v))

end Sys2Proof.Machine
end

