-- ==== Sys2Proof/Machine/Links.lean ====
section
/-!
DEFINITION. Links.lean: training, quarantine and retrain of Felgen links, and the links' set-up (R617, R620 to R629, R646, R647).
-/
namespace Sys2Proof.Machine

/-! ### Lattice time and the time-suspect state (R642, R643, R660) -/

/-- The engine with the lattice manager's state changed. -/
def Engine.setFlg (e : Engine) (f : Flg → Flg) : Engine := { e with flg := f e.flg }

/-- Ticks between periodic tally boundaries. -/
def Engine.tallyPeriod (e : Engine) : Nat := max (e.get Fld.GLN_TALLY_CFG_PERIOD_MS) 1 * 1250000

/-- Lattice time is set: after a backward change the next periodic boundary is the first multiple after the new time; after a
forward one the boundary that is passed comes, once (R660). Frames that follow are not ordered after those before (R251). -/
def Engine.setTime (e : Engine) (t : Nat) : Engine :=
  let back := decide (t < e.time)
  let next := if back then (t / e.tallyPeriod + 1) * e.tallyPeriod else e.gln.nextT
  let rx := (e.rx.map fun kv => (kv.1, { kv.2 with last := none })).filter fun kv => kv.2 ≠ {}
  { e with time := t % 2 ^ 64, rx := rx, gln := { e.gln with nextT := next } }

/-- SUSPECT takes a value; its changes are events (R643). -/
def Engine.setSuspect (e : Engine) (b : Bool) : Engine :=
  if e.suspect = b then e
  else if b then ((e.put Fld.FLG_TIME_STAT_SUSPECT 1).evt Fld.FLG_EVT_SUSPECT_SET).count (Reg.FLG_CNT 7)
  else (e.put Fld.FLG_TIME_STAT_SUSPECT 0).evt Fld.FLG_EVT_SUSPECT_CLR

/-- After a change of EN or ROOT: a root, and a module with every port disabled, are never time-suspect; any other member is
until a SYNC has completed. `was` says whether a port was enabled before. -/
def Engine.suspectCheck (e : Engine) (was : Bool) : Engine :=
  let e := if !e.inLattice then (e.setFlg fun g => { g with synced := false, outRun := 0, inRun := 0 }).put Fld.FLG_TIME_STAT_SYNCED 0
    else if !was then e.setFlg fun g => { g with rspAt := e.cyc } else e
  if e.is Fld.FLG_TIME_CFG_ROOT || !e.inLattice then e.setSuspect false
  else if !e.flg.synced then e.setSuspect true
  else e

/-! ### Port states (R623, R628, R631) -/

/-- The member's ID lies inside the dimensions (R628). -/
def Engine.idInside (e : Engine) (id : Nat) : Bool := [0, 1, 2].all fun d => decide (latCoord id d < e.latSize d)

/-- A port that trains when it can: EN is 1, the Felgen block is ON, and the ID lies inside the dimensions. -/
def Engine.portWanted (e : Engine) (p : Nat) : Bool :=
  e.is (Fld.FLG_PORT_CFG_EN p) && e.domOn 18 && e.idInside e.selfId

/-- The LSAs held have changed: the routes are due (R638). -/
def Engine.lsaChanged (e : Engine) : Engine := e.setFlg fun g => { g with routesDue := some (g.routesDue.getD e.cyc) }

/-- A port takes a state; a change is an event, and an LSA is due. -/
def Engine.setPortState (e : Engine) (p st : Nat) : Engine :=
  if e.fstate p = st then e
  else
    let e := (e.put (Fld.FLG_PORT_STAT_STATE p) st).evt Fld.FLG_EVT_PORT_CHANGE
    let e := if st = 4 then e.evt Fld.FLG_EVT_QUARANTINE else e
    (e.setFlg fun g => { g with lsaDue := true }).lsaChanged

/-- Messages that came by a port no longer stand in its buffers: no credit is owed for them (R622). -/
def Engine.unbuffer (e : Engine) (p : Nat) : Engine :=
  e.setFlg fun g => { g with inbox := g.inbox.map fun m => if m.port = p then { m with buffered := false } else m }

/-- A link ends: what its port holds for sending is discarded and counted (R631), and its book is empty. -/
def Engine.dropLink (e : Engine) (p st : Nat) : Engine :=
  let n := (e.fport p).replay.length + (e.fport p).wait.length
  let e := if n = 0 then e else e.countN (Reg.FLG_CNT 1) n
  let e := e.setFport p fun _ => { since := e.cyc }
  let e := (List.range 8).foldl (fun e k => e.wr (Reg.FLG_PORT_CREDIT p k) 0) e
  (e.unbuffer p).setPortState p st

/-- A port whose set-up has changed starts again: DETECT, or DISABLED. -/
def Engine.restartPort (e : Engine) (p : Nat) : Engine := e.dropLink p (if e.portWanted p then 1 else 0)

/-- Every enabled port retrains; a port that is not enabled stays DISABLED. -/
def Engine.restartPorts (e : Engine) : Engine :=
  (List.range 8).foldl (fun e p => if e.fstate p = 0 ∧ e.portWanted p = false then e else e.restartPort p) e

/-! ### TRAIN records (R622 to R627, Table FLG-3) -/

/-- The receive buffers of each channel-class, in flits (R616). -/
def bufferSize (k : Nat) : Nat := if k < 4 then 128 else if k < 6 then 16 else 32

/-- The TRAIN record of a port; times in it are in 1/16 tick (R624). -/
def Engine.trainBody (e : Engine) (p : Nat) : Bytes :=
  natLE 1 1 ++ natLE 1 p ++ natLE 1 (e.get (Fld.FLG_PORT_CFG_ROLE p)) ++ natLE 1 (e.get Fld.FLG_VER_VMIN) ++
    natLE 1 (e.get Fld.FLG_VER_VMAX) ++ natLE 1 (e.latSize 0) ++ natLE 1 (e.latSize 1) ++ natLE 1 (e.latSize 2) ++
    natLE 4 (e.get Fld.FLG_BASIC_LATTICE_NAME) ++ natLE 2 e.selfId ++ natLE 1 (e.fport p).qreason ++ natLE 1 0 ++
    natLE 4 e.cfgHash ++ natLE 8 (16 * e.time) ++ ((List.range 8).flatMap fun k => natLE 1 (bufferSize k)) ++
    natLE 2 (e.get Fld.FLG_FIELD_FIELD_ID)

/-- Sends a CTRL flit. -/
def Engine.sendCtrl (e : Engine) (p : Nat) (body : Bytes) : Engine := e.sendFlits p [⟨2, 0, false, ⟨0, 0, false, false, body⟩⟩]

/-- Sends a TRAIN record. -/
def Engine.sendTrain (e : Engine) (p : Nat) : Engine :=
  (e.sendCtrl p (e.trainBody p)).setFport p fun q => { q with trainAt := e.cyc }

/-- The oldest CTRL body of a type that has been received and not acted on, with its arrival, taken off the list. -/
def Engine.takeCtrl (e : Engine) (p ctype : Nat) : Option ((Nat × Bytes) × Engine) :=
  let l := (e.fport p).ctrl
  match l.findIdx? fun x => byteAt x.2 0 == ctype with
  | none => none
  | some i => (l[i]?).map fun x => (x, e.setFport p fun q => { q with ctrl := q.ctrl.eraseIdx i })

/-- The neighbour of a member in the direction of a role (R629). -/
def Engine.neighbour (e : Engine) (id role : Nat) : Nat :=
  let d := (role - 1) / 2
  let n := max (e.latSize d) 1
  let c := if role % 2 = 1 then (latCoord id d + 1) % n else (latCoord id d + n - 1) % n
  if d = 0 then withBits id 4 0 c else if d = 1 then withBits id 9 5 c else withBits id 13 10 c

/-- The role at the far end of a link. -/
def opposite (role : Nat) : Nat := if role % 2 = 1 then role + 1 else role - 1

/-- The reason a record quarantines this end, 0 for none: the checks of R625 in their order. A port with no ROLE has no
dimension. -/
def Engine.trainReason (e : Engine) (p : Nat) (b : Bytes) : Nat :=
  let role := e.get (Fld.FLG_PORT_CFG_ROLE p)
  if byteAt b 4 < e.get Fld.FLG_VER_VMIN ∨ e.get Fld.FLG_VER_VMAX < byteAt b 3 then 1
  else if leAt b 8 4 ≠ e.get Fld.FLG_BASIC_LATTICE_NAME then 2
  else if leAt b 16 4 ≠ e.cfgHash then 3
  else if role = 0 ∨ 6 < role ∨ e.latSize ((role - 1) / 2) < 2 then 4
  else if byteAt b 2 ≠ opposite role then 5
  else if leAt b 12 2 ≠ e.neighbour e.selfId role then 6
  else 0

/-- A port quarantines; a reason of its own that it has already stands (R625). -/
def Engine.quarantine (e : Engine) (p reason : Nat) : Engine :=
  if e.fstate p = 4 ∧ (e.fport p).qreason ≠ 0 then e
  else
    let e := (e.setFport p fun q => { q with qreason := reason }).put (Fld.FLG_PORT_STAT_REASON p) reason
    e.setPortState p 4

/-- The book takes the credits that a record advertises (R616, R617). -/
def Engine.bookFull (e : Engine) (p : Nat) (b : Bytes) : Engine :=
  (List.range 8).foldl (fun e k =>
    let n := byteAt b (28 + k)
    e.wr (Reg.FLG_PORT_CREDIT p k) (n + 2 ^ 48 * n)) e

/-- What a record shows of the far end. -/
def Engine.noteFar (e : Engine) (p : Nat) (b : Bytes) : Engine :=
  let e := (e.put (Fld.FLG_PORT_STAT_NEIGH_ID p) (leAt b 12 2)).put (Fld.FLG_PORT_STAT_NEIGH_PORT p) (byteAt b 1)
  e.put (Fld.FLG_PORT_STAT_VER p) (if e.trainReason p b = 1 then 0 else min (byteAt b 4) (e.get Fld.FLG_VER_VMAX))

/-- A record is checked: it brings a training port UP, or quarantines the port. -/
def Engine.checkRecord (e : Engine) (p : Nat) (b : Bytes) : Engine :=
  let r := e.trainReason p b
  let why := if r ≠ 0 then r else if byteAt b 14 ≠ 0 then 7 else 0
  let e := if e.fstate p = 2 then e.bookFull p b else e
  let e := e.noteFar p b
  if why ≠ 0 then e.quarantine p why
  else if e.fstate p = 2 then e.setPortState p 3
  else e

/-- TRAIN: a record that came by a port is acted on, except while a retrain runs, which takes it itself. -/
def trainRecv (p : Nat) (e : Engine) : Engine :=
  if (e.fport p).retrain.isSome ∨ !(e.fstate p = 2 ∨ e.fstate p = 3 ∨ e.fstate p = 4) then e
  else match e.takeCtrl p 1 with
    | none => e
    | some ((_, b), e) => e.checkRecord p b

/-- TRAIN (R625). -/
def execTrain (port : Nat) (s : State) : Res := engineStep s (trainRecv port)

/-- A training attempt begins: SEQ starts at 0 and ACK at 4,095, and QREASON at 0 (R615, R625). -/
def Engine.startTraining (e : Engine) (p : Nat) : Engine :=
  let e := (e.dropLink p 2).put (Fld.FLG_PORT_STAT_REASON p) 0
  e.sendTrain p

/-- TRAINING_START: the cable is there (R623). -/
def trainingStart (p : Nat) (e : Engine) : Engine :=
  if e.fstate p = 1 ∧ e.portWanted p = true ∧ e.phys.cable.getD p false = true then e.startTraining p else e

/-- TRAINING_START. -/
def execTrainingStart (port : Nat) (s : State) : Res := engineStep s (trainingStart port)

/-- TRAINING_TIMEOUT: an attempt is limited to 500 ms (R623). -/
def trainingTimeout (p : Nat) (e : Engine) : Engine :=
  if e.fstate p = 2 ∧ (e.fport p).since + 625000000 ≤ e.cyc then e.dropLink p 5 else e

/-- TRAINING_TIMEOUT. -/
def execTrainingTimeout (port : Nat) (s : State) : Res := engineStep s (trainingTimeout port)

/-- TRAINING_RETRY: a port that is DOWN tries again every 1 s while EN is 1 (R623). -/
def trainingRetry (p : Nat) (e : Engine) : Engine :=
  if e.fstate p = 5 ∧ e.portWanted p = true ∧ (e.fport p).since + 1250000000 ≤ e.cyc then e.dropLink p 1 else e

/-- TRAINING_RETRY. -/
def execTrainingRetry (port : Nat) (s : State) : Res := engineStep s (trainingRetry port)

/-- TRAIN_RESEND: every 10 ms while the port is UP or in QUARANTINE (R624). -/
def trainResend (p : Nat) (e : Engine) : Engine :=
  if (e.fstate p = 3 ∨ e.fstate p = 4) ∧ (e.fport p).retrain.isNone = true ∧ (e.fport p).trainAt + 12500000 ≤ e.cyc then e.sendTrain p
  else e

/-- TRAIN_RESEND. -/
def execTrainResend (port : Nat) (s : State) : Res := engineStep s (trainResend port)

/-! ### Retry and retrain (R617, R620 to R622) -/

/-- Sends the flits of the replay buffer again, those of the channels the link carries. -/
def Engine.replayFlits (e : Engine) (p : Nat) : Engine :=
  let fs := (e.fport p).replay.filter fun x => e.fcarries p x.2.vc
  if fs.isEmpty then e
  else (e.countN (Reg.FLG_PCNT p 6) fs.length).sendFlits p (fs.map fun x => ⟨1, x.1, false, x.2⟩)

/-- NAK_RECEIVE: the sender replays from ACK + 1 (R620). -/
def nakReceive (p : Nat) (e : Engine) : Engine :=
  match (e.fport p).nak with
  | none => e
  | some _ =>
    let recent := ((e.fport p).nakTimes.filter fun t => decide (e.cyc < t + 1250000)) ++ [e.cyc]
    (e.setFport p fun q => { q with nak := none, nakRun := q.nakRun + 1, nakTimes := recent }).replayFlits p

/-- NAK_RECEIVE. -/
def execNakReceive (port : Nat) (s : State) : Res := engineStep s (nakReceive port)

/-- A retrain begins: FREE and HELD become zero and INTRANSIT becomes ADVERTISED; what the buffers hold goes on into the module,
and the record advertises them in full. -/
def Engine.startRetrain (e : Engine) (p : Nat) : Engine :=
  let e := (e.count (Reg.FLG_PCNT p 7)).evt Fld.FLG_EVT_RETRAIN
  let e := (List.range 8).foldl (fun e k =>
    let adv := e.get (Fld.FLG_PORT_CREDIT_ADV p k)
    e.wr (Reg.FLG_PORT_CREDIT p k) (2 ^ 32 * adv + 2 ^ 48 * adv)) e
  let e := e.setFport p fun q => { q with
    retrain := some e.cyc, owed := [], nak := none, nakRun := 0, nakTimes := [],
    partOld := q.part.map fun (x : Nat × List Bytes) => (x.1, x.2.length),
    ctrl := q.ctrl.filter fun x => byteAt x.2 0 != 1 }
  (e.unbuffer p).sendTrain p

/-- The link is up in either state and no retrain runs. -/
def Engine.canRetrain (e : Engine) (p : Nat) : Bool := (e.fstate p == 3 || e.fstate p == 4) && (e.fport p).retrain.isNone

/-- RETRAIN_START: 16 NAKs without progress, 64 within 1 ms, or loss of group lock for 1 µs (R621). -/
def retrainStart (p : Nat) (loss : Bool) (e : Engine) : Engine :=
  let q := e.fport p
  let many := (q.nakTimes.filter fun t => decide (e.cyc < t + 1250000)).length
  if e.canRetrain p = true ∧ (loss = true ∨ 16 ≤ q.nakRun ∨ 64 ≤ many) then e.startRetrain p else e

/-- RETRAIN_START. -/
def execRetrainStart (port : Nat) (lossOfLock : Bool) (s : State) : Res := engineStep s (retrainStart port lossOfLock)

/-- Each flit sent again after a retrain takes a credit of the new book (R616). -/
def Engine.takeReplayCredits (e : Engine) (p : Nat) : Engine :=
  (List.range 8).foldl (fun e k =>
    let n := min ((e.fport p).replay.filter fun x => x.2.k == k).length (e.get (Fld.FLG_PORT_CREDIT_FREE p k))
    (e.put (Fld.FLG_PORT_CREDIT_FREE p k) (e.get (Fld.FLG_PORT_CREDIT_FREE p k) - n)).put (Fld.FLG_PORT_CREDIT_HELD p k) n) e

/-- RETRAIN_COMPLETE: the far end's record completes it, FREE becomes ADVERTISED and INTRANSIT zero, and the replay buffer is sent
again; a retrain that takes more than 2 ms becomes a full training. -/
def retrainComplete (p : Nat) (e : Engine) : Engine :=
  match (e.fport p).retrain with
  | none => e
  | some t =>
    if t + 2500000 < e.cyc then e.startTraining p
    else match e.takeCtrl p 1 with
      | none => e
      | some ((_, b), e) =>
        let e := (e.setFport p fun q => { q with retrain := none }).bookFull p b
        let e := e.checkRecord p b
        ((e.takeReplayCredits p).replayFlits p).pump p false

/-- RETRAIN_COMPLETE. -/
def execRetrainComplete (port : Nat) (s : State) : Res := engineStep s (retrainComplete port)

/-! ### Set-up (R626 to R628, R646, R647) -/

/-- A write of a port's EN and ROLE: a change retrains that port only. -/
def Engine.portCfg (e : Engine) (p v : Nat) : Engine :=
  let was := e.inLattice
  let old := e.rd (Reg.FLG_PORT_CFG p)
  let e := e.wr (Reg.FLG_PORT_CFG p) (v % 16)
  let e := if old = v % 16 then e else e.restartPort p
  e.suspectCheck was

/-- FLG_ID: an ID outside the dimensions is ignored. -/
def Engine.writeFlgId (e : Engine) (v : Nat) : Engine :=
  let id := v % 2 ^ 14
  if !e.idInside id then e.evt Fld.FLG_EVT_CFG_ERR
  else if id = e.selfId then e
  else (e.put Fld.FLG_ID_ID id).restartPorts

/-- DX and DY run from 1 to 32 and DZ from 1 to 16. -/
def basicOk (v : Nat) : Bool :=
  let x := bitsOf v 37 32
  let y := bitsOf v 45 40
  let z := bitsOf v 52 48
  decide (1 ≤ x) && decide (x ≤ 32) && decide (1 ≤ y) && decide (y ≤ 32) && decide (1 ≤ z) && decide (z ≤ 16)

/-- FLG_BASIC: accepted; one that leaves the ID outside the dimensions sets CFG_ERR, and every port reads DISABLED. -/
def Engine.writeFlgBasic (e : Engine) (v : Nat) : Engine :=
  let w := bitsOf v 31 0 + 2 ^ 32 * bitsOf v 37 32 + 2 ^ 40 * bitsOf v 45 40 + 2 ^ 48 * bitsOf v 52 48
  if !basicOk v then e.evt Fld.FLG_EVT_CFG_ERR
  else if w = e.rd Reg.FLG_BASIC then e
  else
    let e := e.wr Reg.FLG_BASIC w
    (if e.idInside e.selfId then e else e.evt Fld.FLG_EVT_CFG_ERR).restartPorts

/-- A write to FLG_ID, FLG_BASIC, FLG_USERHASH or a FLG_PORT_CFG, by BAR0 offset. -/
def flgConfig (off v : Nat) (e : Engine) : Engine :=
  if off = Reg.FLG_ID then e.writeFlgId v
  else if off = Reg.FLG_BASIC then e.writeFlgBasic v
  else if off = Reg.FLG_USERHASH then
    if v % 2 ^ 32 = e.rd Reg.FLG_USERHASH then e else (e.wr Reg.FLG_USERHASH (v % 2 ^ 32)).restartPorts
  else match (List.range 8).find? fun p => Reg.FLG_PORT_CFG p == off with
    | some p => (e.portCfg p v).put Fld.FLG_PROFILE_PROFILE 7
    | none => e

/-- FLG_CONFIG_WRITE. -/
def execFlgConfigWrite (off v : Nat) (s : State) : Res := hostStep s (pendWrite 15 (flgConfig off v))

/-- EN and ROLE of a port in a profile (Table FLG-9). -/
def flgProfileCfg (v p : Nat) : Nat :=
  if v = 0 then 0
  else if p < 6 then 1 + 2 * (p + 1)
  else if v = 2 then 1 + 2 * (p - 5)
  else 0

/-- FLG_PROFILE_SELECT (R646). -/
def execFlgProfileSelect (v : Nat) (s : State) : Res :=
  hostStep s (profileWrite 15 Fld.FLG_PROFILE_PROFILE v
    (if v ≤ 2 then some fun e => (List.range 8).foldl (fun e p => e.portCfg p (flgProfileCfg v p)) e else none))

end Sys2Proof.Machine
end

