-- ==== Sys2Proof/Machine/Lattice.lean ====
section
/-!
DEFINITION. Lattice.lean: requests and responses between members, reachability and routes, time, and the lattice commands
(R618 to R649).
-/
namespace Sys2Proof.Machine

/-! ### Requests at their target (R454, R634, R721, Table FLG-7) -/

/-- A NACK: 1 REFUSED. -/
def Engine.refuse (e : Engine) (m : FlgMsg) : Engine := (e.freeMsg m).respond m 0xFE (natLE 8 1) []

/-- A request of an OP that has been received: during a partition apply it is answered with NACK REFUSED (R721). -/
def Engine.request (e : Engine) (id op : Nat) (f : FlgMsg → Engine → Engine) : Engine :=
  match e.flgMsg id op with
  | none => e
  | some m => if bitOf (e.rd Reg.GLB_PEND) 0 then e.refuse m else f m e

/-- The address and size of RD, WR and AMO. -/
def FlgMsg.addr (m : FlgMsg) : Nat := leNat m.arg % 2 ^ 42
def FlgMsg.size (m : FlgMsg) : Nat := 2 ^ bitsOf (leNat m.arg) 43 42

/-- A request that meets poisoned data at its target is refused there (Table ERR-2 row 3). -/
def Engine.refusePoison (e : Engine) (m : FlgMsg) : Engine :=
  (e.poisoned 3 (e.badWord m.addr m.size) (objRef 14 e.selfId m.tag)).refuse m

/-- RD: checked against this module's own rights. -/
def rdRecv (ecc : Ecc) (m : FlgMsg) (e : Engine) : Engine :=
  if e.accRead m.addr m.size ≠ .ok then e.refuse m
  else match e.localRead m.addr m.size ecc with
    | (none, e) => e.refusePoison m
    | (some d, e) => (e.freeMsg m).respond m 0x81 [] d

/-- RD. -/
def execRd (msg : Nat) (ecc : Ecc) (s : State) : Res := engineStep s fun e => e.request msg 0x01 (rdRecv ecc)

/-- WR. -/
def wrRecv (m : FlgMsg) (e : Engine) : Engine :=
  if e.accWrite m.addr m.size ≠ .ok then e.refuse m
  else ((e.store m.addr (fitTo m.size m.data)).freeMsg m).respond m 0x82 [] []

/-- WR. -/
def execWr (msg : Nat) (s : State) : Res := engineStep s fun e => e.request msg 0x02 wrRecv

/-- AMO at its target. -/
def amoRecv (ecc : Ecc) (m : FlgMsg) (e : Engine) : Engine :=
  let a := m.addr
  let n := m.size
  if e.accWrite a n ≠ .ok ∨ a % n ≠ 0 then e.refuse m
  else match e.localRead a n ecc with
    | (none, e) => e.refusePoison m
    | (some d, e) =>
      let e := match amoNew (byteAt m.arg 6) n (leNat d) (leAt m.data 0 n) (leAt m.data n n) with
        | some v => e.store a (natLE n v)
        | none => e
      (e.freeMsg m).respond m 0x83 [] d

/-- AMO_REQUEST. -/
def execAmoRequest (msg : Nat) (ecc : Ecc) (s : State) : Res := engineStep s fun e => e.request msg 0x03 (amoRecv ecc)

/-! ### A home's part of a remote sheaf access (R307, R310, R635, R636, R538) -/

/-- A sheaf request's packet at this home, by SRC and PTAG. -/
def FlgMsg.holder (m : FlgMsg) : Holder := .remote m.src (leAt m.arg 0 4)

/-- Bytes 12 to 15 of a response: the home's live epoch. -/
def Engine.epochArg (e : Engine) (b : Nat) : Bytes := natLE 4 b ++ natLE 4 e.liveEpoch

/-- A resolution ends a pending packet's hold here: RELEASE frees its undo entry, COMPENSATE undoes it and gives the flow up. -/
def Engine.resolveHere (e : Engine) (h : Holder) (release : Bool) : Engine :=
  if release then e.releaseUndo h else (e.undoSheafOf h).releaseFlow h

/-- A resolution that arrived before its request is applied once the request has been performed. -/
def Engine.applyHeld (e : Engine) (m : FlgMsg) : Engine :=
  match e.shf.heldRes.find? fun x => x.src == m.src && x.ptag == leAt m.arg 0 4 with
  | none => e
  | some x =>
    Engine.resolveHere { e with shf := { e.shf with
      heldRes := e.shf.heldRes.filter fun y => !(y.src == x.src && y.ptag == x.ptag) } } m.holder x.release

/-- Whether a home sends the history of what a fetch found, and its bytes: only when its own HIST_MAX admits the read. -/
def Engine.homeHistory (e : Engine) (key : Bytes) (f : Fetched) : Bool × Bytes × Engine :=
  if f.histLen = 0 then (false, [], e)
  else if e.get Fld.SHF_LIMIT_HIST_MAX ≤ e.shf.histReads.length then (true, [], e)
  else match e.sheaf key with
    | none => (true, [], e)
    | some s => match e.checkRead (if s.tier = 2 then 6 else 3) (e.histAddr s) 512 .clean with
      | (true, e) => (true, [], e.poisoned 10 (e.histAddr s) (objRef 4 e.selfId (flowHash key)))
      | (false, e) => (false, e.histOf s, e)

/-- SH_FETCH: performed with the KVDESC and epoch it carries; it waits for the flow and for room as a local fetch does. -/
def shFetchRecv (ecc : Ecc) (m : FlgMsg) (e : Engine) : Engine :=
  match e.takeRate 3 64 8 with
  | none => e.holdMsg m
  | some e =>
    let key := slice m.data 0 48
    let b := byteAt m.arg 4
    match e.sheafFetch m.holder key (leAt m.data 48 8) (slice m.data 60 16) (bitOf b 3) (!bitOf b 4) ecc with
    | (none, e) => e.holdMsg m
    | (some f, e) =>
      let (no, hist, e) := e.homeHistory key f
      let e := (e.freeMsg m).respond m 0x90 (e.epochArg (bit f.present + 2 * bit f.isNew + 4 * bit no)) (fitTo 128 f.hot ++ hist)
      e.applyHeld m

/-- SH_FETCH. -/
def execShFetch (msg : Nat) (ecc : Ecc) (s : State) : Res := engineStep s fun e => e.request msg 0x10 (shFetchRecv ecc)

/-- Binary32 codes in a byte string. -/
def f32List (b : Bytes) (off n : Nat) : List Nat := (List.range n).map fun i => leAt b (off + 4 * i) 4

/-- SH_COMMIT. -/
def shCommitRecv (m : FlgMsg) (e : Engine) : Engine :=
  match e.takeRate 3 64 8 with
  | none => e.holdMsg m
  | some e =>
    let b := byteAt m.arg 4
    let sum := if bitOf b 2 then some (f32List m.data 76 32, f32List m.data 204 32) else none
    match e.sheafCommit m.holder (slice m.data 0 48) (leAt m.data 48 8) (leAt m.arg 6 2) (slice m.data 60 16) (bitOf b 0) (bitOf b 1)
        sum (!bitOf b 3) (e.modelOf (leAt m.data 56 4)) with
    | none => e.holdMsg m
    | some (_, e) => (((e.busy 294).freeMsg m).respond m 0x91 (e.epochArg 0) []).applyHeld m

/-- SH_COMMIT. -/
def execShCommit (msg : Nat) (s : State) : Res := engineStep s fun e => e.request msg 0x11 shCommitRecv

/-- A request of a packet that this home has received and not performed yet. -/
def Engine.shPending (e : Engine) (h : Holder) : Bool := e.flg.inbox.any fun m => (m.op == 0x10 || m.op == 0x11) && m.holder == h

/-- SH_RESOLVE: matched by SRC and PTAG; one that finds neither an entry nor a held flow is held for its request (R635). -/
def shResolve (id : Nat) (e : Engine) : Engine :=
  match e.flgMsg id 0x12 with
  | none => e
  | some m =>
    let e := e.freeMsg m
    let release := byteAt m.arg 4 == 0
    let known := (e.undoSheaf m.holder).isSome || e.shf.holds.any fun x => x.2 == m.holder
    if known && !e.shPending m.holder then e.resolveHere m.holder release
    else { e with shf := { e.shf with heldRes := e.shf.heldRes ++ [⟨m.src, leAt m.arg 0 4, release, e.cyc⟩] } }

/-- SH_RESOLVE. -/
def execShResolve (msg : Nat) (s : State) : Res := engineStep s (shResolve msg)

/-- SH_RESOLVE_HOLD_TIMEOUT: a held resolution is discarded RESOLVE_US after it arrived (R635). -/
def shResolveHoldTimeout (src ptag : Nat) (e : Engine) : Engine :=
  { e with shf := { e.shf with heldRes := e.shf.heldRes.filter fun x =>
      !(x.src == src && x.ptag == ptag && decide (x.at_ + e.get Fld.CSC_ERV_CFG_RESOLVE_US * usTicks ≤ e.cyc)) } }

/-- SH_RESOLVE_HOLD_TIMEOUT. -/
def execShResolveHoldTimeout (src ptag : Nat) (s : State) : Res := engineStep s (shResolveHoldTimeout src ptag)

/-- SH_INSN: a sheaf instruction of another member's thread, which takes the flow for itself. -/
def shInsnRecv (m : FlgMsg) (e : Engine) : Engine :=
  match e.takeRate 3 64 8 with
  | none => e.holdMsg m
  | some e =>
    let key := slice m.data 0 48
    let h := Holder.remote m.src (2 ^ 32 + m.tag)
    let (got, _, e) := e.takeFlow h key m.at_
    if !got then e.holdMsg m
    else
      let (st, d, e) := e.sheafInsn key (byteAt m.arg 4) (leAt m.data 48 8)
      ((((e.busy 294).releaseFlow h).freeMsg m).respond m 0x93 (natLE 1 st ++ natLE 7 0) d)

/-- SH_INSN. -/
def execShInsn (msg : Nat) (s : State) : Res := engineStep s fun e => e.request msg 0x13 shInsnRecv

/-! ### Responses (R454, R487, R490, R631, R636, R637) -/

/-- A response meets its request; one whose request has timed out is discarded and counted in FLG_CNT2. -/
def Engine.response (e : Engine) (id op : Nat) (f : FlgReq → FlgMsg → Engine → Engine) : Engine :=
  match e.flgMsg id op with
  | none => e
  | some m =>
    let e := e.freeMsg m
    match e.flg.reqs.find? fun r => r.tag == m.tag && r.dst == m.src && (op == 0xFE || r.op + 0x80 == op) with
    | none => e.count (Reg.FLG_CNT 2)
    | some r => f r m e

/-- A thread's request is answered: `f` acts on the thread, which waited for it, without the request. -/
def Engine.threadAnswer (e : Engine) (r : FlgReq) (f : ThrReq → Thread → Engine → Engine) : Engine :=
  let e := e.dropReq r.tag
  match r.owner with
  | .thread tid => match e.thread tid with
    | none => e
    | some t => match t.req r.tag with
      | none => e
      | some q =>
        let t := t.dropReq r.tag
        if q.isStore || t.st == .waiting (.remote r.tag) then f q t e else e.setThread t
  | _ => e

/-- RD_RSP. -/
def execRdRsp (msg : Nat) (s : State) : Res :=
  engineStep s fun e => e.response msg 0x81 fun r m e => e.threadAnswer r fun q t e =>
    match q.kind with
    | .load n rd signed => e.retireNext t rd (loadValue n signed (fitTo n m.data))
    | _ => e.setThread t

/-- WR_ACK. -/
def execWrAck (msg : Nat) (s : State) : Res :=
  engineStep s fun e => e.response msg 0x82 fun r _ e => e.threadAnswer r fun _ t e => e.setThread t

/-- AMO_RSP. -/
def execAmoRsp (msg : Nat) (s : State) : Res :=
  engineStep s fun e => e.response msg 0x83 fun r m e => e.threadAnswer r fun q t e =>
    match q.kind with
    | .amo n rd => e.retireNext t rd (loadValue n true (fitTo n m.data))
    | _ => e.setThread t

/-- SH_INSN_RSP: the status carries REMOTE (R487), and a snapshot goes to its buffer. -/
def execShInsnRsp (msg : Nat) (s : State) : Res :=
  engineStep s fun e => e.response msg 0x93 fun r m e => e.threadAnswer r fun q t e =>
    match q.kind with
    | .sheaf rd buf len =>
      let e := if m.data.isEmpty then e else e.store buf (fitTo len m.data)
      e.retireNext t rd (byteAt m.arg 0 ||| 8)
    | _ => e.setThread t

/-- The packet of a sheaf request while its step still waits. -/
def Engine.waitingPkt (e : Engine) (id : Nat) : Option (Pkt × PShf) :=
  (e.pkt id).bind fun p => if p.onPath && !p.failed then p.shf.map fun q => (p, q) else none

/-- SH_FETCH_RSP: the packet takes what the home found, under the home's epoch or its own (R32, R310, R636). -/
def shFetchRsp (r : FlgReq) (m : FlgMsg) (e : Engine) : Engine :=
  let e := e.dropReq r.tag
  match r.owner with
  | .fetch id => match e.waitingPkt id with
    | none => e
    | some (p, q) =>
      let b := byteAt m.arg 0
      let present := bitOf b 0
      let hot := slice m.data 0 128
      let reset := present && hotGen hot != leAt (e.kvFor p) 0 2
      let q : PShf := { q with
        done := true, present := present, isNew := bitOf b 1,
        interval := if present && !bitOf b 1 then p.ts - hotLastTs hot else 0,
        histLen := if reset || !present then 0 else histLen hot, hot := hot, cur := hot, hist := slice m.data 128 512,
        nohist := bitOf b 2, genReset := reset, holding := true, tag := none }
      let mixed := leAt m.arg 4 4 != p.epoch.getD 0
      (e.setPkt id fun p => (p.withSheaf q).flagIf mixed flMIXED_EPOCH).advance id
  | _ => e

/-- SH_FETCH_RSP. -/
def execShFetchRsp (msg : Nat) (s : State) : Res := engineStep s fun e => e.response msg 0x90 shFetchRsp

/-- SH_ACK: the commit's step completes. -/
def shAck (r : FlgReq) (m : FlgMsg) (e : Engine) : Engine :=
  let e := e.dropReq r.tag
  match r.owner with
  | .commit id =>
    let e := match e.waitingPkt id with
      | some (p, _) => e.setPkt id fun x => x.flagIf (leAt m.arg 4 4 != p.epoch.getD 0) flMIXED_EPOCH
      | none => e
    e.commitDone id
  | _ => e

/-- SH_ACK. -/
def execShAck (msg : Nat) (s : State) : Res := engineStep s fun e => e.response msg 0x91 shAck

/-- NACK: a thread raises REMOTE_FAULT; a packet is treated as one whose home does not answer. -/
def nackRecv (r : FlgReq) (_ : FlgMsg) (e : Engine) : Engine :=
  match r.owner with
  | .thread tid => e.thrReqFailed r tid 26
  | _ => e.reqFailed r

/-- NACK. -/
def execNack (msg : Nat) (s : State) : Res := engineStep s fun e => e.response msg 0xFE nackRecv

/-! ### LSAs (R638) -/

/-- The link of a role crosses its dimension's wrap (R619). -/
def Engine.wraps (e : Engine) (role : Nat) : Bool :=
  let d := (role - 1) / 2
  let x := latCoord e.selfId d
  if role % 2 = 1 then x + 1 == e.latSize d else x == 0

/-- Sends an LSA to the neighbour on a port. -/
def Engine.sendLsa (e : Engine) (p src : Nat) (arg data : Bytes) : Engine :=
  let role := e.get (Fld.FLG_PORT_CFG_ROLE p)
  let dst := e.get (Fld.FLG_PORT_STAT_NEIGH_ID p)
  let dirs := if role % 2 = 0 then 2 ^ ((role - 1) / 2) else 0
  (e.setFport p fun q => { q with wait := q.wait ++ msgFlits 2 (bit (e.wraps role)) dst src 0xC0 dirs 0 arg data }).pump p false

/-- Ports that are UP or quarantined. -/
def Engine.lsaPorts (e : Engine) : List Nat := (List.range 8).filter fun p => e.fstate p == 3 || e.fstate p == 4

/-- LSA_FLOOD_TIMER: on every port state change and every 1 s this member floods its own LSA. -/
def lsaFlood (e : Engine) : Engine :=
  let g := e.flg
  if !g.lsaDue ∧ e.cyc < g.lsaAt + 1250000000 then e
  else
    let seq := (g.lsaSeq + 1) % 2 ^ 32
    let (n, e) := e.fresh Config.fLsa
    let data := freeBytes Config.fLsa n 64
    let e := e.setFlg fun g => { g with lsaSeq := seq, lsaAt := e.cyc, lsaDue := false }
    e.lsaPorts.foldl (fun e p => e.sendLsa p e.selfId (natLE 8 seq) data) e

/-- LSA_FLOOD_TIMER. -/
def execLsaFloodTimer (s : State) : Res := engineStep s lsaFlood

/-- One 32-bit sequence is newer than another. -/
def seqNewer (a b : Nat) : Bool := let d := (a + 2 ^ 32 - b % 2 ^ 32) % 2 ^ 32; decide (d ≠ 0) && decide (d < 2 ^ 31)

/-- LSA: a newer one is kept, counted, and forwarded on every other port. `info` is what its data says. -/
def lsaRecv (id : Nat) (info : LsaInfo) (e : Engine) : Engine :=
  match e.flgMsg id 0xC0 with
  | none => e
  | some m =>
    let e := e.freeMsg m
    let seq := leAt m.arg 0 4
    let newer := match Tbl.find e.flg.lsas m.src with | some l => seqNewer seq l.seq | none => true
    if m.src = e.selfId ∨ newer = false then e
    else
      let l : Lsa := ⟨seq, info.epoch, info.suspect, info.root, info.ports, e.cyc⟩
      let e := ((e.setFlg fun g => { g with lsas := Tbl.put g.lsas m.src l }).lsaChanged).count (Reg.FLG_CNT 3)
      let e := e.evtIf (info.root && e.is Fld.FLG_TIME_CFG_ROOT) Fld.FLG_EVT_CFG_ERR
      (e.lsaPorts.filter fun p => p != m.port).foldl (fun e p => e.sendLsa p m.src m.arg m.data) e

/-- LSA. -/
def execLsa (msg : Nat) (info : LsaInfo) (s : State) : Res := engineStep s (lsaRecv msg info)

/-! ### Routes (R630, R638, R639, R641) -/

/-- The newest LSA of a member, while it is younger than 3 s. -/
def Engine.freshLsa (e : Engine) (m : Nat) : Option Lsa :=
  (Tbl.find e.flg.lsas m).bind fun l => if e.cyc < l.at_ + 3750000000 then some l else none

/-- State, role and neighbour of a member's ports, as this module knows them. -/
def Engine.portsOf (e : Engine) (m : Nat) : List (Nat × Nat × Nat) :=
  if m = e.selfId then
    (List.range 8).map fun p => (e.fstate p, e.get (Fld.FLG_PORT_CFG_ROLE p), e.get (Fld.FLG_PORT_STAT_NEIGH_ID p))
  else match e.freshLsa m with
    | some l => l.ports
    | none => []

/-- A member has a usable link in the direction of a role: UP, or for MGMT quarantined as well. -/
def Engine.linkUsable (e : Engine) (mg : Bool) (m role : Nat) : Bool :=
  (e.portsOf m).any fun x => (x.1 == 3 || (mg && x.1 == 4)) && x.2.1 == role && x.2.2 == e.neighbour m role

/-- One way round a dimension: the member it ends at and its hops; `none` where a link is not usable. -/
def Engine.walk (e : Engine) (mg : Bool) (at_ dst d neg fuel : Nat) : Option (Nat × Nat) :=
  if latCoord at_ d = latCoord dst d then some (at_, 0)
  else match fuel with
    | 0 => none
    | fuel + 1 =>
      if e.linkUsable mg at_ (roleOf d neg) then
        (e.walk mg (e.neighbour at_ (roleOf d neg)) dst d neg fuel).map fun x => (x.1, x.2 + 1)
      else none

/-- The way through one dimension: the shorter whose links are all usable, + when they are equal. -/
def Engine.routeDim (e : Engine) (mg : Bool) (dst : Nat) (r : Option (Nat × Route)) (d : Nat) : Option (Nat × Route) :=
  match r with
  | none => none
  | some (at_, r) =>
    match e.walk mg at_ dst d 0 32, e.walk mg at_ dst d 1 32 with
    | some x, some y => if y.2 < x.2 then some (y.1, ⟨r.dirs + 2 ^ d, r.hops + y.2⟩) else some (x.1, ⟨r.dirs, r.hops + x.2⟩)
    | some x, none => some (x.1, ⟨r.dirs, r.hops + x.2⟩)
    | none, some y => some (y.1, ⟨r.dirs + 2 ^ d, r.hops + y.2⟩)
    | none, none => none

/-- The route to a member. -/
def Engine.routeTo (e : Engine) (mg : Bool) (dst : Nat) : Option Route :=
  ([0, 1, 2].foldl (e.routeDim mg dst) (some (e.selfId, ⟨0, 0⟩))).map fun x => x.2

/-- Every lattice ID inside the dimensions, in rising order. -/
def Engine.latticeIds (e : Engine) : List Nat :=
  (List.range (e.latSize 2)).flatMap fun z => (List.range (e.latSize 1)).flatMap fun y =>
    (List.range (e.latSize 0)).map fun x => x + 32 * y + 1024 * z

/-- A route table. -/
def Engine.routeTable (e : Engine) (mg : Bool) : Tbl Route :=
  e.latticeIds.filterMap fun m => if m = e.selfId then none else (e.routeTo mg m).map fun r => (m, r)

/-- Hops to the root of every member that reaches it over UP links: each round adds the members one hop further. -/
def Engine.rootRound (e : Engine) (ms : List Nat) (t : Tbl Nat) (n : Nat) : Tbl Nat :=
  (ms.filter fun m => (Tbl.find t m).isNone &&
    (e.portsOf m).any fun x => x.1 == 3 && Tbl.find t x.2.2 == some n).foldl (fun t m => Tbl.put t m (n + 1)) t

/-- The members that are known, and their hops to the root. -/
def Engine.rootHops (e : Engine) : Tbl Nat :=
  let ms := insertNat e.selfId (e.flg.lsas.map Prod.fst)
  let roots := ms.filter fun m =>
    if m = e.selfId then e.is Fld.FLG_TIME_CFG_ROOT else match e.freshLsa m with | some l => l.root | none => false
  (List.range ms.length).foldl (e.rootRound ms) (roots.foldl (fun t m => Tbl.put t m 0) [])

/-- The parent's port and this member's hops: the neighbour with the fewest hops to the root over UP links, the lowest port on
a tie. -/
def Engine.parent (e : Engine) : Option (Nat × Nat) :=
  let h := e.rootHops
  if e.is Fld.FLG_TIME_CFG_ROOT then none
  else (List.range 8).foldl (fun (b : Option (Nat × Nat)) p =>
    if e.fstate p ≠ 3 then b
    else match Tbl.find h (e.get (Fld.FLG_PORT_STAT_NEIGH_ID p)), b with
      | some n, some x => if n + 1 < x.2 then some (p, n + 1) else b
      | some n, none => some (p, n + 1)
      | none, _ => b) none

/-- REACHABLE and UNREACH follow the members that can be reached (R638, R639). -/
def Engine.noteReach (e : Engine) : Engine :=
  let now := e.reachable
  let e := e.evtIf (e.flg.reach.any fun m => !now.contains m) Fld.FLG_EVT_UNREACH
  (e.setFlg fun g => { g with reach := now }).put Fld.FLG_STAT_REACHABLE now.length

/-- ROUTE_RECOMPUTE: both tables, within 10 ms of a change to the LSAs held; a packet-facing home table never changes by it. -/
def routeRecompute (e : Engine) : Engine :=
  if e.flg.routesDue.isNone then e
  else
    let e := e.setFlg fun g => { g with routesDue := none, routes := e.routeTable false, mgmt := e.routeTable true }
    let e := (e.count (Reg.FLG_CNT 4)).put Fld.FLG_STAT_ROUTES_VALID 1
    let e := match e.parent with
      | some (p, n) => ((e.put Fld.FLG_TIME_STAT_PARENT p).put Fld.FLG_TIME_STAT_PARENT_VALID 1).put Fld.FLG_TIME_STAT_HOPS n
      | none => ((e.put Fld.FLG_TIME_STAT_PARENT 0).put Fld.FLG_TIME_STAT_PARENT_VALID 0).put Fld.FLG_TIME_STAT_HOPS 0
    e.noteReach

/-- ROUTE_RECOMPUTE. -/
def execRouteRecompute (s : State) : Res := engineStep s routeRecompute

/-- LSA_AGE_EXPIRY: a member's newest LSA is 3 s old, so the member is not reachable. -/
def lsaAgeExpiry (m : Nat) (e : Engine) : Engine :=
  if (Tbl.find e.flg.lsas m).isSome ∧ (e.freshLsa m).isNone ∧ e.flg.reach.contains m then e.lsaChanged.noteReach else e

/-- LSA_AGE_EXPIRY. -/
def execLsaAgeExpiry (member : Nat) (s : State) : Res := engineStep s (lsaAgeExpiry member)

/-! ### Time (R640 to R643) -/

/-- A signed 64-bit field. -/
def int64 (b : Bytes) (off : Nat) : Int := sextOf 64 (leAt b off 8)

/-- SYNC_SEND: every 1 ms, to the parent. `frac` is the sixteenth of a tick in which the flit leaves. -/
def syncSend (frac : Nat) (e : Engine) : Engine :=
  let p := e.get Fld.FLG_TIME_STAT_PARENT
  if e.is Fld.FLG_TIME_CFG_ROOT ∨ e.is Fld.FLG_TIME_STAT_PARENT_VALID = false ∨ e.fstate p ≠ 3 ∨ (e.fport p).retrain.isSome ∨
      e.cyc < e.flg.syncAt + 1250000 then e
  else
    let t1 := 16 * e.time + frac % 16
    (e.setFlg fun g => { g with syncAt := e.cyc }).sendCtrl p (natLE 8 2 ++ natLE 8 t1)

/-- SYNC_SEND. -/
def execSyncSend (frac : Nat) (s : State) : Res := engineStep s (syncSend frac)

/-- SYNC: the parent answers with its times and its own estimated offset to the root. -/
def syncRecv (p frac : Nat) (e : Engine) : Engine :=
  match e.takeCtrl p 2 with
  | none => e
  | some ((t2, b), e) =>
    let off := if e.is Fld.FLG_TIME_CFG_ROOT then 0 else sextOf 32 (e.get Fld.FLG_TIME_STAT_OFFSET)
    e.sendCtrl p (natLE 8 3 ++ slice b 8 8 ++ natLE 8 t2 ++ natLE 8 (16 * e.time + frac % 16) ++ natLE 8 (wrapInt 64 off))

/-- SYNC. -/
def execSync (port frac : Nat) (s : State) : Res := engineStep s (syncRecv port frac)

/-- A signed 32-bit register field, saturating. -/
def sat32 (i : Int) : Nat := wrapInt 32 (max (-2 ^ 31) (min (2 ^ 31 - 1) i))

/-- The runs of SYNCs outside ±200 ns and inside ±100 ns, and what three in a row do (R643). -/
def Engine.judgeOffset (e : Engine) (off : Int) : Engine :=
  let out := if 4000 < off.natAbs then e.flg.outRun + 1 else 0
  let inn := if off.natAbs ≤ 2000 then e.flg.inRun + 1 else 0
  let e := e.setFlg fun g => { g with outRun := out, inRun := inn }
  if e.is Fld.FLG_TIME_CFG_ROOT || !e.inLattice then e
  else if 3 ≤ out then e.setSuspect true
  else if 3 ≤ inn then e.setSuspect false
  else e

/-- The servo acts on an estimated offset: one step where it is allowed, else a slew (R642). -/
def Engine.servo (e : Engine) (off : Int) : Engine :=
  if e.flg.stepOk then
    let e := e.setTime ((e.time : Int) - off / 16).toNat
    let e := (e.setFlg fun g => { g with stepOk := false, slew := 0 }).count (Reg.FLG_CNT 6)
    e.put Fld.FLG_TIME_STAT_OFFSET (sat32 (off % 16))
  else (e.setFlg fun g => { g with slew := -(off.tdiv 16) }).put Fld.FLG_TIME_STAT_OFFSET (sat32 off)

/-- SYNC_RSP: the exchange completes. The lead of the parent is rounded down to a sixteenth of a tick. -/
def syncRsp (p : Nat) (e : Engine) : Engine :=
  match e.takeCtrl p 3 with
  | none => e
  | some ((t4, b), e) =>
    if e.is Fld.FLG_TIME_CFG_ROOT ∨ e.is Fld.FLG_TIME_STAT_PARENT_VALID = false ∨ p ≠ e.get Fld.FLG_TIME_STAT_PARENT then e
    else
      let t1 : Int := leAt b 8 8
      let t2 : Int := leAt b 16 8
      let t3 : Int := leAt b 24 8
      let lead := ((t2 - t1) - ((t4 : Int) - t3)) / 2
      let off := int64 b 32 - lead
      let e := (e.setFlg fun g => { g with synced := true, rspAt := e.cyc }).count (Reg.FLG_CNT 5)
      let e := (e.put Fld.FLG_TIME_STAT_SYNCED 1).put Fld.GLB_STAT_TIME_VALID 1
      (e.judgeOffset off).servo off

/-- SYNC_RSP. -/
def execSyncRsp (port : Nat) (s : State) : Res := engineStep s (syncRsp port)

/-- TIME_SUSPECT_TIMEOUT: no SYNC_RSP from the parent for 10 ms (R643). -/
def timeSuspectTimeout (e : Engine) : Engine :=
  if e.is Fld.FLG_TIME_CFG_ROOT ∨ e.inLattice = false ∨ e.cyc < e.flg.rspAt + 12500000 then e
  else (e.setFlg fun g => { g with inRun := 0 }).setSuspect true

/-- TIME_SUSPECT_TIMEOUT. -/
def execTimeSuspectTimeout (s : State) : Res := engineStep s timeSuspectTimeout

/-- PPS_LOST: a root on PPS has accepted no edge for 2 s and falls back to REF (R640). -/
def ppsLost (e : Engine) : Engine :=
  if e.is Fld.FLG_TIME_CFG_ROOT ∧ e.get Fld.FLG_TIME_CFG_SRC = 1 ∧ e.flg.ppsLost = false ∧ e.flg.ppsAt + 2500000000 ≤ e.cyc then
    (e.setFlg fun g => { g with ppsLost := true, slew := 0 }).evt Fld.FLG_EVT_PPS_LOST
  else e

/-- PPS_LOST. -/
def execPpsLost (s : State) : Res := engineStep s ppsLost

/-! ### The lattice-coordinated reset (R118, R649) -/

/-- L_RESET: a member that receives it after its time resets on receipt and reports itself late. -/
def lReset (id : Nat) (e : Engine) : Engine :=
  match e.flgMsg id 0xC5 with
  | none => e
  | some m =>
    let t := leNat m.arg
    let e := e.freeMsg m
    let e := if t < e.time then e.put Fld.FLG_STAT_LATE_RESET 1 else e
    e.setFlg fun g => { g with resetAt := some t }

/-- L_RESET. -/
def execLReset (msg : Nat) (s : State) : Res := engineStep s (lReset msg)

/-- LATTICE_RESET: at least 1 ms after its issue; sent to every reachable member. -/
def latticeReset (id : Nat) (e : Engine) : Engine :=
  withCmd id 0x81 331 (fun c e =>
    let t := c.arg 40 8
    if t < c.at_ + 1250000 then e.finish c.id 0x24
    else
      let dsts := e.reachable.filter fun m => m != e.selfId
      let e := dsts.foldl (fun e m => (e.flgSend 0xC5 m 0 (natLE 8 t) []).2) e
      (e.setFlg fun g => { g with resetAt := some t }).finishOk c.id dsts.length) e

/-- LATTICE_RESET. -/
def execLatticeReset (cmd : Nat) (s : State) : Res := engineStep s (latticeReset cmd)

/-! ### The other lattice commands (R648) -/

/-- One entry of LAT_TOPOLOGY. -/
def Engine.topologyEntry (e : Engine) (reach : List Nat) (m : Nat) : Bytes :=
  let self := decide (m = e.selfId)
  let sus := if self then e.suspect else match Tbl.find e.flg.lsas m with | some l => l.suspect | none => false
  let ep := if self then e.liveEpoch else match Tbl.find e.flg.lsas m with | some l => l.epoch | none => 0
  let hops := match Tbl.find e.flg.mgmt m with | some r => r.hops | none => 0
  let ports := if self then e.portsOf m else match Tbl.find e.flg.lsas m with | some l => l.ports | none => []
  natLE 1 (bit (reach.contains m) + 2 * bit sus + 4 * bit self) ++ natLE 1 hops ++ natLE 2 0 ++ natLE 4 ep ++
    (List.range 8).flatMap fun p => match ports[p]? with
      | some x => natLE 1 (x.1 % 8 + 16 * (x.2.1 % 8))
      | none => [0]

/-- LAT_TOPOLOGY: LENGTH is 16 × 16,384. -/
def latTopology (id : Nat) (e : Engine) : Engine :=
  withCmd id 0x80 331 (fun c e =>
    if c.len ≠ 262144 then e.finish c.id 0x10
    else
      let reach := e.reachable
      (e.cmdWrite c ((List.range 16384).flatMap (e.topologyEntry reach))).finishOk c.id 0) e

/-- LAT_TOPOLOGY. -/
def execLatTopology (cmd : Nat) (s : State) : Res := engineStep s (latTopology cmd)

/-- LAT_LINK: 0 disables a port, 1 enables it, 2 retrains it. -/
def latLink (id : Nat) (e : Engine) : Engine :=
  withCmd id 0x82 331 (fun c e =>
    let p := c.arg 32 1
    let a := c.arg 33 1
    if 7 < p ∨ 2 < a then e.finish c.id 0x10
    else
      let e := if a = 2 then (if e.canRetrain p then e.startRetrain p else e)
        else (e.portCfg p (2 * e.get (Fld.FLG_PORT_CFG_ROLE p) + a)).put Fld.FLG_PROFILE_PROFILE 7
      e.finishOk c.id 0) e

/-- LAT_LINK. -/
def execLatLink (cmd : Nat) (s : State) : Res := engineStep s (latLink cmd)

/-- LAT_RESYNC: allows one step (R642). -/
def latResync (id : Nat) (e : Engine) : Engine :=
  withCmd id 0x83 331 (fun c e => (e.setFlg fun g => { g with stepOk := true }).finishOk c.id 0) e

/-- LAT_RESYNC. -/
def execLatResync (cmd : Nat) (s : State) : Res := engineStep s (latResync cmd)

end Sys2Proof.Machine
end

