-- ==== Sys2Proof/Machine/Gleaner.lean ====
section
/-!
DEFINITION. Gleaner.lean: tally boundaries, reading and clearing counters, trace drains, and the wait-for graph (R652 to R678).
-/
namespace Sys2Proof.Machine

/-! ### Tally boundaries (R195, R570, R657 to R660) -/

/-- The high-water marks that lie in a register, by its offset (R434, R531, R578). -/
def hwmFields (off : Nat) : List Fld :=
  if Reg.MIL_QSTAT 0 ≤ off ∧ off < Reg.MIL_QSTAT 4 then [⟨off, 28, 16⟩]
  else if off = Reg.GAR_SP_DEPTH then [Fld.GAR_SP_DEPTH_HWM]
  else if Reg.SLC_TXQ_HWM 0 ≤ off ∧ off < Reg.SLC_TXQ_HWM 512 ∧ off % 64 = 32 then [⟨off, 19, 0⟩, ⟨off, 63, 24⟩]
  else if Reg.SLC_HBQ_HWM 0 ≤ off ∧ off < Reg.SLC_HBQ_HWM 256 ∧ off % 32 = 16 then [⟨off, 16, 0⟩, ⟨off, 63, 24⟩]
  else []

/-- The register at an offset is a counter of a kind. -/
def kindAt (off : Nat) (k : RegKind) : Bool := match regFind off with | some (r, _) => r.kind == k | none => false

/-- The latched fields of a register's value: a tally counter whole, a high-water mark alone; `none` where it holds neither. -/
def latched (off v : Nat) : Option Nat :=
  if kindAt off .tally then some v
  else match hwmFields off with
    | [] => none
    | fs => some ((fs.map fun f => bitsOf v f.hi f.lo * 2 ^ f.lo).sum)

/-- What a register restarts from at a boundary: a tally counter from zero, a depth mark from the depth it observes, a delay mark
from zero. -/
def Engine.restartAt (e : Engine) (off v : Nat) : Nat :=
  if kindAt off .tally then 0
  else
    let depth :=
      if off < Reg.MIL_QSTAT 4 then (e.milQ ((off - Reg.MIL_QSTAT 0) / 8)).length
      else if off = Reg.GAR_SP_DEPTH then e.gar.queue.length
      else if off < Reg.SLC_HBQ_HWM 0 then (e.txq ((off - Reg.SLC_TXQ_HWM 0) / 64)).depth
      else (e.hq ((off - Reg.SLC_HBQ_HWM 0) / 32)).recs.length
    match hwmFields off with
    | [d] => withBits v d.hi d.lo depth
    | [d, s] => withBits (withBits v d.hi d.lo depth) s.hi s.lo 0
    | _ => v

/-- Latches every tally counter and high-water mark, and restarts them. -/
def Engine.latchTally (e : Engine) (t : Nat) : Engine :=
  let bank : Tbl Word := e.regs.filterMap fun (x : Nat × Word) => (latched x.1 x.2.toNat).map fun v => (x.1, BitVec.ofNat 64 v)
  let sat := bank.any fun (x : Nat × Word) => kindAt x.1 .tally && bitOf x.2.toNat 63
  let n := e.rd Reg.GLN_TALLY_STAT
  let offs := bank.map Prod.fst
  let e := offs.foldl (fun e off => e.wr off (e.restartAt off (e.rd off))) e
  { e with
    glnKeep := { e.glnKeep with shadow := bank, shadowTally := n, shadowT := t, satAny := sat }
    err := { e.err with ceTally := [] } }

/-- A TALLY record: on an ACTIVE completion ring, behind the completions that wait there. -/
def Engine.tallyRecord (e : Engine) (t : Nat) (trig : Bool) : Engine :=
  if !e.is Fld.HIF_TALLY_EN then e
  else
    let k := e.get Fld.HIF_TALLY_RING
    if e.ringState k ≠ 1 ∨ e.ringKind k ≠ 3 then e.hifEvt Fld.HIF_EVT_TALLY_LOST
    else
      let ws := [e.rd Reg.GLN_TALLY_STAT, t, 2 ^ 8 * bit e.glnKeep.satAny + 2 ^ 9 * bit trig, 5 * 2 ^ 56]
      if (e.ring k).queue.isEmpty && e.ringRoom k then e.putRecord k ws false
      else e.setRing k fun r => { r with queue := r.queue ++ [⟨0, 4096, 0, e.time, 0, 0, 0, none, 328, e.cyc, some ws⟩] }

/-- The windows of MODEL contexts run from one boundary to the next (R355). -/
def Engine.closeModelWindows (e : Engine) : Engine :=
  (e.num.map Prod.fst).foldl (fun e t => if e.get (Fld.NUM_TCTRL_CLASS t) = 1 then e.winClose t else e) e

/-- The boundary that is due: its instant, and whether a trigger edge caused it. -/
def Engine.boundaryDue (e : Engine) : Option (Nat × Bool) :=
  if e.is Fld.GLN_TALLY_CFG_MODE then (if e.gln.trigDue then some (e.time, true) else none)
  else if e.gln.nextT ≤ e.time then some (e.gln.nextT, false)
  else none

/-- TALLY_BOUNDARY: latch, restart, count, the TALLY record; then what was waiting for the boundary is due at its instant. -/
def tallyBoundary (e : Engine) : Engine :=
  match e.boundaryDue with
  | none => e
  | some (t, trig) =>
    let e := e.closeModelWindows.latchTally t
    let e := (e.wr Reg.GLN_TALLY_STAT (e.rd Reg.GLN_TALLY_STAT + 1)).wr Reg.GLN_TALLY_TIME t
    let e := e.tallyRecord t trig
    let e := { e with gln := { e.gln with trigDue := false, nextT := (e.time / e.tallyPeriod + 1) * e.tallyPeriod } }
    let e := { e with tab := { e.tab with pend := e.tab.pend.map fun (x : PendSwitch) => if x.mode = 1 then { x with due := true, t := t } else x } }
    let e := e.setGft fun g => { g with arm := g.arm.map fun (a : Armed) => match a.mode with
      | .tally | .learned => { a with due := true, t := t }
      | _ => a }
    e.applyHome t

/-- TALLY_BOUNDARY (R658). -/
def execTallyBoundary (s : State) : Res := engineStep s tallyBoundary

/-! ### CNT_SNAP and CNT_CLEAR (R661, R662, R676) -/

/-- A range entry: offset and count of words; `none` where it breaks R661. -/
def snapRange (w : Nat) : Option (Nat × Nat) :=
  if w % 8 = 0 ∧ bitsOf w 31 25 = 0 ∧ w / 2 ^ 48 = 0 ∧ bitsOf w 47 32 ≠ 0 then some (bitsOf w 24 0, bitsOf w 47 32) else none

/-- The ranges of a list; `none` where an entry breaks R661. -/
def snapRanges (b : Bytes) : Option (List (Nat × Nat)) :=
  let rs := (List.range (b.length / 8)).map fun i => snapRange (leAt b (8 * i) 8)
  if rs.all Option.isSome then some (rs.filterMap id) else none

/-- What a register's latched fields hold in the shadow bank; `none` where it has none. -/
def Engine.shadowReg (e : Engine) (off : Nat) : Option (Nat × Nat) :=
  (regFind off).bind fun r => (latched off 0).map fun _ => (r.1.width, (Tbl.get 0 e.glnKeep.shadow off).toNat)

/-- One word of a snapshot: its value, whether it is shadowed, and whether a counter in it carries SAT. -/
def Engine.snapWord (e : Engine) (shadow : Bool) (off : Nat) : Nat × Bool × Bool :=
  if shadow then
    match e.shadowReg off, e.shadowReg (off + 4) with
    | some (64, v), _ => (v, true, kindAt off .tally && bitOf v 63)
    | some (_, v), some (_, w) => (v + 2 ^ 32 * w, true, false)
    | some (_, v), none => (v, true, false)
    | none, some (_, w) => (2 ^ 32 * w, true, false)
    | none, none => (0, false, false)
  else
    let v := leNat ((e.regBytes off 8).getD [])
    (v, true, (kindAt off .tally || kindAt off .event) && bitOf v 63)

/-- CNT_SNAP: every word of the list at one instant, behind the header of Table GLN-5. -/
def cntSnap (id : Nat) (h : HostRead) (e : Engine) : Engine :=
  withCmd id 0x90 335 (fun c e =>
    if c.len % 8 ≠ 0 ∨ 1 < c.arg 32 1 ∨ c.dst ≠ 0 then e.finish c.id 0x10
    else match e.cmdData c h with
      | (none, e) => e
      | (some b, e) =>
        match snapRanges b with
        | none => e.finish c.id 0x10
        | some rs =>
          let n := (rs.map Prod.snd).sum
          if c.arg 48 4 < 32 + 8 * n then e.finish c.id 0x10
          else
            let sh := decide (c.arg 32 1 = 1)
            let offs := rs.flatMap fun (x : Nat × Nat) => (List.range x.2).map fun i => x.1 + 8 * i
            let ws := offs.map (e.snapWord sh)
            let miss := if sh then min (ws.filter fun w => !w.2.1).length 0xFFFF else 0
            let head := [if sh then e.glnKeep.shadowT else e.time, if sh then e.glnKeep.shadowTally else e.rd Reg.GLN_TALLY_STAT,
              n + 2 ^ 32 * miss, bit sh + 2 * bit (ws.any fun w => w.2.2)]
            let out := (head ++ ws.map fun w => w.1).flatMap (natLE 8)
            let dst := c.arg 40 8
            let e := if c.dstLoc then e.store (dst % 2 ^ 42) out else e.emit (.hostWrite dst out)
            (e.count (Reg.GLN_CNT 5)).finishOk c.id n) e

/-- CNT_SNAP. -/
def execCntSnap (cmd : Nat) (src : HostRead) (s : State) : Res := engineStep s (cntSnap cmd src)

/-- The event counters of the blocks of a mask are zero. -/
def Engine.clearEvents (e : Engine) (mask : Nat) : Engine :=
  { e with regs := e.regs.filter fun (x : Nat × Word) =>
      match regFind x.1 with | some (r, _) => !(r.kind == .event && bitOf mask r.blk) | none => true }

/-- CNT_CLEAR. -/
def cntClear (id : Nat) (e : Engine) : Engine :=
  withCmd id 0x91 335 (fun c e =>
    let m := c.arg 32 4
    if 2 ^ 20 ≤ m then e.finish c.id 0x10 else (e.clearEvents m).finishOk c.id 0) e

/-- CNT_CLEAR. -/
def execCntClear (cmd : Nat) (s : State) : Res := engineStep s (cntClear cmd)

/-! ### Traces (R663, R664, R668 to R670, R674) -/

/-- A context is sampled: a PC record at an instant. -/
def Engine.pcRecord (e : Engine) (t : Thread) : Bytes :=
  let x : Nat × Nat := match t.st with
    | .ready => (1, 0)
    | .waiting w => (2, match w with | .retry n => n | .remote _ => 3 | _ => 13)
    | .ending => (3, 0)
  e.traceRec e.time 1 (t.id % 2 ^ 32 + 2 ^ 32 * (t.epoch % 2 ^ 32)) (t.pc % 2 ^ 56) (x.1 + 16 * x.2)

/-- The next context of a core after the one it sampled last. -/
def Engine.nextSample (e : Engine) (core : Nat) : Option Thread :=
  let ts := (e.ril.threads.filter fun (x : Nat × Thread) => x.1 / 32 == core)
  let after := match Tbl.find e.gln.pcLast core with | some c => ts.filter fun (x : Nat × Thread) => decide (c < x.1) | none => ts
  ((after ++ ts).head?).map Prod.snd

/-- PC_SAMPLE: every 2^PC_LOG2 core cycles, one context of each core that has one. -/
def pcSample (e : Engine) : Engine :=
  if !(e.is Fld.GLN_TRACE_CFG_EN && e.is Fld.GLN_TRACE_CFG_PC_EN) ∨ e.cyc % 2 ^ e.get Fld.GLN_TRACE_CFG_PC_LOG2 ≠ 0 ∨
      e.gln.pcAt = some e.cyc then e
  else
    let e := { e with gln := { e.gln with pcAt := some e.cyc } }
    (List.range 256).foldl (fun e c => match e.nextSample c with
      | none => e
      | some t =>
        let e := { e with gln := { e.gln with pcLast := Tbl.put e.gln.pcLast c (t.id % 8192) } }
        e.stage (e.pcRecord t) e.time) e

/-- PC_SAMPLE. -/
def execPcSample (s : State) : Res := engineStep s pcSample

/-- The gleaning region: its base and size (R668). -/
def glnRegion : Nat := 0x04D00000000
def Engine.glnSize (e : Engine) : Nat := e.get Fld.GLN_REGION_SIZE_64M * 2 ^ 26

/-- The region's header (Table GLN-7). -/
def Engine.glnHeader (e : Engine) : Engine :=
  let k := e.glnKeep
  e.store glnRegion (natLE 4 0x4D4C474C ++ natLE 2 1 ++ natLE 2 e.selfId ++ natLE 8 e.glnSize ++ natLE 8 k.write ++ natLE 8 k.wraps ++
    natLE 8 k.lost ++ natLE 8 k.lastWrite ++ List.replicate 4048 0)

/-- Writing stops at a full destination (FULL_MODE 1): the record is lost (R670). -/
def Engine.glnLose (e : Engine) : Engine :=
  let e := { e with gln := { e.gln with stopped := true }, glnKeep := { e.glnKeep with lost := e.glnKeep.lost + 1 } }
  (e.count (Reg.GLN_CNT 2)).evt Fld.GLN_EVT_REGION_FULL

/-- One record goes to the region. -/
def Engine.regionRecord (e : Engine) (r : Bytes) : Engine :=
  let full := decide (e.glnSize < e.glnKeep.write + 32)
  if e.gln.stopped || (full && e.is Fld.GLN_TRACE_CFG_FULL_MODE) then e.glnLose
  else
    let o := if full then 4096 else e.glnKeep.write
    let e := (e.store (glnRegion + o) r).count (Reg.GLN_CNT 0)
    { e with glnKeep := { e.glnKeep with
        write := o + 32, wraps := e.glnKeep.wraps + bit full, lastWrite := e.time } }

/-- One record goes to the host buffer. -/
def Engine.hbufRecord (e : Engine) (r : Bytes) : Engine :=
  let full := decide (e.get Fld.GLN_HBUF_SIZE * 4096 < e.gln.hbufOff + 32)
  if e.gln.stopped || (full && e.is Fld.GLN_TRACE_CFG_FULL_MODE) then e.glnLose
  else
    let o := if full then 0 else e.gln.hbufOff
    let e := (e.emit (.hostWrite (e.rd Reg.GLN_HBUF_BASE + o) r)).count (Reg.GLN_CNT 0)
    { e with gln := { e.gln with hbufOff := o + 32 } }

/-- Records go to this member's own destination; what covers them is written after them. -/
def Engine.writeRecords (e : Engine) (rs : List Bytes) : Engine :=
  if e.get Fld.GLN_TRACE_CFG_DEST = 0 then (rs.foldl Engine.regionRecord e).glnHeader
  else
    let e := rs.foldl Engine.hbufRecord e
    e.emit (.hostWrite (e.rd Reg.GLN_HBUF_WB) (natLE 8 e.gln.hbufOff))

/-- The oldest staged records leave staging. -/
def Engine.unstage (e : Engine) (n : Nat) : Engine :=
  { e with gln := { e.gln with staging := e.gln.staging.drop n, drained := e.gln.drained + n } }

/-- A TRACE message still waits on a port for a credit. -/
def Engine.traceWaits (e : Engine) : Bool := (List.range 8).any fun p => (e.fport p).wait.any fun f => f.vc == 3

/-- TRACE_DRAIN: to the region, to the host buffer, or, 28 records at most, in one message to the collector. -/
def traceDrain (e : Engine) : Engine :=
  let rs := e.gln.staging
  if rs.isEmpty then e
  else if e.get Fld.GLN_TRACE_CFG_DEST < 2 then (e.unstage rs.length).writeRecords rs
  else if e.traceWaits then e
  else
    let n := min rs.length 28
    let (sent, e) := (e.unstage n).flgSend 0xE0 (e.get Fld.GLN_COLLECT_ID) 0 (natLE 8 n) (rs.take n).flatten
    if sent then e.countN (Reg.GLN_CNT 0) n else e.countN (Reg.GLN_CNT 4) n

/-- TRACE_DRAIN. -/
def execTraceDrain (s : State) : Res := engineStep s traceDrain

/-- TRACE: a collector writes the records it receives unchanged, or discards them (R668). -/
def traceRecv (id : Nat) (e : Engine) : Engine :=
  match e.flgMsg id 0xE0 with
  | none => e
  | some m =>
    let n := min (leAt m.arg 0 2) (m.data.length / 32)
    let e := e.freeMsg m
    if e.is Fld.GLN_TRACE_CFG_EN ∧ e.get Fld.GLN_TRACE_CFG_DEST < 2 then
      (e.countN (Reg.GLN_CNT 3) n).writeRecords ((List.range n).map fun i => slice m.data (32 * i) 32)
    else (e.countN (Reg.GLN_CNT 4) n).evt Fld.GLN_EVT_TRACE_RX_DROP

/-- TRACE. -/
def execTrace (msg : Nat) (s : State) : Res := engineStep s (traceRecv msg)

/-- TRACE_FLUSH: completes when every record staged before its acceptance has been written. -/
def traceFlush (id : Nat) (e : Engine) : Engine :=
  match e.startable id 0x92 with
  | none => e
  | some c => if e.gln.drained < c.staged then e else withCmd id 0x92 335 (fun c e => e.finishOk c.id c.inStage) e

/-- TRACE_FLUSH. -/
def execTraceFlush (cmd : Nat) (s : State) : Res := engineStep s (traceFlush cmd)

/-- GLN_TRACE_CFG takes a value; EN going from 0 to 1 restarts writing (R670). -/
def Engine.setTraceCfg (e : Engine) (v : Nat) : Engine :=
  let rise := !e.is Fld.GLN_TRACE_CFG_EN && bitOf v 0
  let e := e.wr Reg.GLN_TRACE_CFG v
  if rise then
    { e with
      gln := { e.gln with stopped := false, hbufOff := 0 }
      glnKeep := { e.glnKeep with write := 4096, wraps := 0, lost := 0 } }
  else e

/-- The expansion of a gleaner profile (Table GLN-11). -/
def glnExpand (v : Nat) : Option (Engine → Engine) :=
  let base := 16 * 2 ^ 8 + 10 * 2 ^ 16
  match v with
  | 0 => some fun e => e.setTraceCfg base
  | 1 => some fun e => e.setTraceCfg (base + 0x09)
  | 2 => some fun e => e.setTraceCfg (base + 0x1B)
  | 3 => some fun e => e.setTraceCfg (base + 0x1F)
  | _ => none

/-- GLN_PROFILE_SELECT (R674). -/
def execGlnProfileSelect (v : Nat) (s : State) : Res := hostStep s (profileWrite 16 Fld.GLN_PROFILE_PROFILE v (glnExpand v))

/-! ### Wait registers and the wait-for graph (R671 to R673, R733) -/

/-- What a wait register holds: waiter, resource and holder as references, when the wait began, and the waiter's stall reason. -/
structure WaitReg where
  waiter : Nat
  res : Nat
  holder : Nat
  at_ : Nat
  why : Nat
deriving DecidableEq, Repr

/-- A reference to whoever holds, or asks for, a flow. -/
def Engine.holderRef (e : Engine) (h : Holder) : Nat :=
  match h with
  | .pkt id => match e.pkt id with | some p => e.pktRef p.ts | none => 0
  | .remote src ptag => objRef 3 src ptag
  | .cmd id => match e.cmd id with | some c => e.cmdRef c | none => 0
  | .thread t => e.thrRef t

/-- A flow as a resource, with the reference of its holder. -/
def Engine.flowEdge (e : Engine) (key : Bytes) : Nat × Nat :=
  (objRef 4 e.selfId (flowHash key), match e.holder key with | some h => e.holderRef h | none => 0)

/-- The flow that someone waits for. -/
def Engine.flowWaited (e : Engine) (h : Holder) : Option Bytes := (e.shf.waits.find? fun x => x.2.1 == h).map fun x => x.1

/-- A request that has been sent, as a resource. -/
def Engine.reqRef (e : Engine) (tag : Nat) : Nat :=
  objRef 14 (match e.flg.reqs.find? fun r => r.tag == tag with | some r => r.dst | none => e.selfId) tag

/-- The wait registers of a host command: ORDER, the end of a thread, ring space, a flow, or a quad's mills. -/
def Engine.cmdWaits (e : Engine) (c : Cmd) : List WaitReg :=
  let w := e.cmdRef c
  match c.ph with
  | .accepted =>
    if e.orderMet c then [] else
      let first := e.hif.cmds.find? fun d => d.ring == c.ring
      [⟨w, objRef 5 e.selfId c.ring, match first with | some d => e.cmdRef d | none => 0, c.since, 9⟩]
  | .done => [⟨w, objRef 9 e.selfId c.comp, 0, c.since, 12⟩]
  | .running =>
    let ends := e.ril.threads.filterMap fun (x : Nat × Thread) =>
      if x.2.waitEnd = some c.id ∨ x.2.killers.contains c.id then
        some (⟨w, objRef 6 e.selfId x.2.id, e.thrRef x.2.id, c.since, 9⟩ : WaitReg) else none
    let mills := e.mil.waiting.filterMap fun j =>
      if j.owner = .cmd c.id then some (⟨w, objRef 13 e.selfId j.quad, 0, c.since, 1⟩ : WaitReg) else none
    ends ++ mills

/-- A command that has not started waits for a flow. -/
def Engine.cmdFlowWait (e : Engine) (c : Cmd) : List WaitReg :=
  match e.flowWaited (.cmd c.id) with
  | some key => let f := e.flowEdge key; [⟨e.cmdRef c, f.1, f.2, c.since, 7⟩]
  | none => []

/-- The wait register of a thread: a request, a flow, a word, a ticket or a domain. -/
def Engine.threadWaits (e : Engine) (t : Thread) : List WaitReg :=
  let mk (res holder why : Nat) : List WaitReg := [⟨e.thrRef t.id, res, holder, t.waitAt, why⟩]
  match t.st with
  | .waiting (.remote tag) => mk (e.reqRef tag) 0 3
  | .waiting (.waitne a _ _ _) => mk (objRef 7 e.selfId a) 0 13
  | .waiting (.ticket k _) => mk (objRef 12 e.selfId (4 * t.id + k)) 0 13
  | .waiting (.retry why) =>
    if why = 7 then
      match e.flowWaited (.thread t.id) with
      | some key => let f := e.flowEdge key; mk f.1 f.2 7
      | none => []
    else if why = 3 ∨ why = 9 then match t.reqs with | q :: _ => mk (e.reqRef q.tag) 0 why | [] => []
    else if why = 14 then mk (objRef 15 e.selfId 12) 0 14
    else []
  | _ => []

/-- The wait register of a packet's step: a request, a flow, a slow-path queue, a quad's queue or a domain. -/
def Engine.pktWaits (e : Engine) (p : Pkt) : List WaitReg :=
  match p.begun with
  | none => []
  | some at_ =>
    let mk (res holder : Nat) : List WaitReg := [⟨e.pktRef p.ts, res, holder, at_, p.why⟩]
    match p.why with
    | 3 => match p.shf.bind (·.tag) with | some t => mk (e.reqRef t) 0 | none => []
    | 7 =>
      let key := match e.flowWaited (.pkt p.id) with | some k => some k | none => p.shf.map (·.key)
      match key with
      | some k =>
        let f := e.flowEdge k
        mk f.1 (if f.2 = e.pktRef p.ts then 0 else f.2)
      | none => []
    | 10 => if entKind (e.entryOf p) = 12 then mk (objRef 16 e.selfId (spqOf p.port)) 0 else []
    | 14 => mk (objRef 15 e.selfId 12) 0
    | _ => []

/-- The wait registers of requests from other members that wait here (R733). -/
def Engine.msgWaits (e : Engine) (m : FlgMsg) : List WaitReg :=
  if !m.begun then []
  else
    let h := if m.op = 0x13 then Holder.remote m.src (2 ^ 32 + m.tag) else m.holder
    let f := match e.flowWaited h with
      | some key => e.flowEdge key
      | none => e.flowEdge (slice m.data 0 48)
    [⟨objRef 14 e.selfId (m.tag + 2 ^ 16 * m.src), f.1, f.2, m.at_, 7⟩]

/-- The wait registers of a port's credits: requests of this member whose first flit has none. -/
def Engine.creditWaits (e : Engine) (p : Nat) : List WaitReg :=
  (e.fport p).wait.filterMap fun f =>
    if f.first ∧ e.get (Fld.FLG_PORT_CREDIT_FREE p f.k) = 0 ∧ leAt f.body 2 2 = e.selfId then
      (e.flg.reqs.find? fun r => r.tag == leAt f.body 6 2 && r.dst == leAt f.body 0 2).map fun r =>
        ⟨match r.owner with
          | .thread t => e.thrRef t
          | .fetch id | .commit id => e.holderRef (.pkt id), objRef 10 e.selfId (8 * p + f.k), 0, e.time - (e.cyc - r.at_), 2⟩
    else none

/-- The wait registers of rings that are passed over for want of a slot or of quota. -/
def Engine.quotaWaits (e : Engine) : List WaitReg :=
  e.hif.rings.filterMap fun (x : Nat × RingAux) => x.2.quotaAt.map fun t =>
    ⟨objRef 2 e.selfId (x.1 + 2 ^ 12 * ((e.cons x.1 + e.heldLive x.1) % 2 ^ 30)), objRef 8 e.selfId (e.ringPd x.1), 0, t, 11⟩

/-- A wait register in its place by when the wait began. -/
def insertWait (x : WaitReg) (l : List WaitReg) : List WaitReg :=
  match l with
  | [] => [x]
  | y :: r => if x.at_ < y.at_ then x :: y :: r else y :: insertWait x r

/-- Every wait register, in ascending wait start time. -/
def Engine.waitRegs (e : Engine) : List WaitReg :=
  let all := (e.hif.cmds.flatMap fun c => e.cmdWaits c ++ e.cmdFlowWait c) ++
    (e.ril.threads.flatMap fun (x : Nat × Thread) => e.threadWaits x.2) ++ (e.pkts.flatMap e.pktWaits) ++
    (e.flg.inbox.flatMap e.msgWaits) ++ ((List.range 8).flatMap e.creditWaits) ++ e.quotaWaits
  all.foldl (fun l x => insertWait x l) []

/-- HANG_CHECK: waits older than US are suspects, each counted once (R671). -/
def hangCheck (e : Engine) : Engine :=
  let us := e.get Fld.GLN_HANG_US
  if us = 0 then e
  else
    let name (w : WaitReg) : Nat := w.waiter + 2 ^ 64 * w.res + 2 ^ 128 * w.at_
    let old := e.waitRegs.filter fun w => decide (us * usTicks < e.time - w.at_)
    let new := old.filter fun w => !e.gln.suspects.contains (name w)
    let e := { e with gln := { e.gln with suspects := old.map name } }
    if new.isEmpty then e else (e.countN (Reg.GLN_CNT 7) new.length).evt Fld.GLN_EVT_HANG_SUSPECT

/-- HANG_CHECK. -/
def execHangCheck (s : State) : Res := engineStep s hangCheck

/-- What can be reached from a reference along the edges. -/
def reachRefs (ws : List WaitReg) (start : List Nat) : List Nat :=
  (List.range ws.length).foldl (fun (l : List Nat) _ =>
    l ++ ((ws.filter fun w => l.contains w.waiter && w.holder != 0 && !l.contains w.holder).map (·.holder)).eraseDups) start

/-- An edge lies on a cycle. -/
def onCycle (ws : List WaitReg) (w : WaitReg) : Bool := w.holder != 0 && (reachRefs ws [w.holder]).contains w.waiter

/-- The cycles of a graph, each named by the lowest reference on it. -/
def cycleCount (ws : List WaitReg) : Nat :=
  let c := ws.filter (onCycle ws)
  (c.filter fun w => (reachRefs c [w.holder]).all fun r => decide (w.waiter ≤ r)).length

/-- The graph record (Table GLN-9), cut to a number of edges. -/
def Engine.graphRecord (e : Engine) (ws : List WaitReg) (n : Nat) : Bytes :=
  let ends := (ws.filter fun w => w.holder == 0).length
  natLE 8 e.time ++ natLE 8 e.time ++ natLE 4 ws.length ++ natLE 4 n ++ natLE 2 (cycleCount ws) ++ natLE 2 ends ++
    natLE 2 e.selfId ++ List.replicate 34 0 ++
    (ws.take n).flatMap fun w =>
      let c := bit (onCycle ws w)
      natLE 8 w.waiter ++ natLE 8 w.res ++ natLE 8 w.holder ++
        natLE 8 (w.at_ % 2 ^ 48 + 2 ^ 48 * w.why + 2 ^ 56 * c + 2 ^ 57 * c)

/-- HANG_ANALYZE: the registers are read, and read again, at one instant, so every edge of a cycle is confirmed. -/
def hangAnalyze (id : Nat) (e : Engine) : Engine :=
  let eng := if e.domOn 16 then 335 else 331
  withCmd id 0x93 eng (fun c e =>
    if c.len < 64 then e.finish c.id 0x10
    else
      let ws := e.waitRegs.filter fun w => w.waiter != e.cmdRef c
      let n := min ws.length ((c.len - 64) / 32)
      let ends := (ws.filter fun w => w.holder == 0).length
      let e := (((e.cmdWrite c (e.graphRecord ws n)).count (Reg.GLN_CNT 6)).evt Fld.GLN_EVT_HANG_DONE)
      e.complete c.id 0 (ws.length % 2 ^ 16 + 2 ^ 16 * (cycleCount ws) + 2 ^ 32 * (ends % 2 ^ 16) +
        2 ^ 48 * bit (decide (n < ws.length))) 0 none eng) e

/-- HANG_ANALYZE. -/
def execHangAnalyze (cmd : Nat) (s : State) : Res := engineStep s (hangAnalyze cmd)

end Sys2Proof.Machine
end

