-- ==== Sys2Proof/Machine/Numbers.lean ====
section
/-!
DEFINITION. Numbers.lean: the NUM commands and profiles (R359 to R363).
-/
namespace Sys2Proof.Machine

/-- The operands of NUM_CONVERT. -/
structure NumConv where
  sf : Fmt
  df : Fmt
  mode : Nat
  ss : Nat
  sz : Nat
  ds : Nat
  dz : Nat
  ctx : Nat
deriving DecidableEq, Repr

/-- The operands of a command, unless a format code is above 8. -/
def numConv (c : Cmd) : Option NumConv :=
  match Fmt.ofCode (c.arg 32 1), Fmt.ofCode (c.arg 33 1) with
  | some s, some d => some ⟨s, d, c.arg 34 1, c.arg 36 4, c.arg 40 4, c.arg 44 4, c.arg 48 4, c.arg 52 2⟩
  | _, _ => none

/-- The number of source elements in `n` bytes. -/
def NumConv.count (k : NumConv) (n : Nat) : Nat := n * 8 / k.sf.bits

/-- The checks of R362. -/
def NumConv.ok (e : Engine) (k : NumConv) (len : Nat) : Bool :=
  let odd := k.count len % 2 == 1 && k.df == .int4
  let given := k.mode != 0 || (scaleOk k.ds && zpOk k.df k.dz)
  let bound := k.mode != 2 || e.numBound k.ctx
  let fmt := k.ctx == 0xFFFF || (decide (k.ctx < 256) && e.numFmt k.ctx == k.df)
  decide (k.mode ≤ 2) && scaleOk k.ss && zpOk k.sf k.sz && len * 8 % k.sf.bits == 0 && !odd && given && bound && fmt

/-- The least and greatest values of a list of values that are no NaN; 0 and 0 when there is none. -/
def valueRange (xs : List NVal) : Rat × Rat :=
  let qs := (xs.filter fun x => !x.isNan).map NVal.rat
  (qs.foldl min (qs.headD 0), qs.foldl max (qs.headD 0))

/-- NUM_CONVERT: each element's exact value is quantised once; a named context gathers the command as one step (R355, R362). -/
def numConvert (id : Nat) (h : HostRead) (e : Engine) : Engine :=
  withCmd id 0xA0 330 (fun c e =>
    match numConv c with
    | none => e.finish c.id 0x10
    | some k =>
      if !k.ok e c.len then e.finish c.id 0x10
      else
        match e.cmdData c h with
        | (none, e) => e
        | (some d, e) =>
          let vals := (List.range (k.count c.len)).map fun i => codeValue k.sf (elemAt k.sf d i) k.sz (f32q k.ss)
          let xs := vals.map Prod.fst
          let r := valueRange xs
          let (ds, dz) :=
            if k.mode = 0 then (k.ds, k.dz) else if k.mode = 1 then paramsFromRange k.df r.1 r.2 else e.numScale k.ctx
          let qs := xs.map fun x => quantise k.df x (f32q ds) dz
          let fl := (vals.foldl (fun a (v : NVal × Nat) => a ||| v.2) 0) ||| (qs.foldl (fun a (q : Nat × Nat) => a ||| q.2) 0)
          let clips := (qs.filter fun q => bitOf q.2 4).length
          let unfs := (qs.filter fun q => bitOf q.2 1).length
          let e := if k.ctx < 256 then
              ((xs.zip qs).foldl (fun (e : Engine) (x : NVal × Nat × Nat) => e.winAdd k.ctx ds dz x.1 x.2.1 x.2.2) (e.winOpen k.ctx ds)).winClose k.ctx
            else e
          let res := if k.mode = 1 then ds + 2 ^ 32 * (dz % 256) + 2 ^ 40 * min clips 0xFFFF
            else min clips (2 ^ 32 - 1) + 2 ^ 32 * min unfs (2 ^ 24 - 1)
          (e.cmdWrite c (packElems k.df (qs.map Prod.fst))).complete c.id 0 res (fl % 16) none 330) e

/-- NUM_CONVERT. -/
def execNumConvert (cmd : Nat) (src : HostRead) (s : State) : Res := engineStep s (numConvert cmd src)

/-- The 64-byte image of a context's registers. -/
def Engine.numImage (e : Engine) (t : Nat) : Bytes :=
  ([Reg.NUM_TCTRL t, Reg.NUM_TMSE_THR t, Reg.NUM_TCLIP_THR t, Reg.NUM_TSCALE t, Reg.NUM_TZP t, Reg.NUM_TMSE t, Reg.NUM_TLO t,
    Reg.NUM_THI t].flatMap fun r => natLE 4 (e.rd r)) ++
    ([Reg.NUM_TN t, Reg.NUM_TCLIPS t, Reg.NUM_TUNFS t, Reg.NUM_TFLAGS t].flatMap fun r => natLE 8 (e.rd r))

/-- NUM_STATS (R363). -/
def numStats (id : Nat) (e : Engine) : Engine :=
  withCmd id 0xA1 330 (fun c e =>
    let first := c.arg 32 4
    let n := c.len / 64
    if c.len % 64 ≠ 0 ∨ 256 < first + n then e.finish c.id 0x10
    else (e.cmdWrite c ((List.range n).flatMap fun i => e.numImage (first + i))).finishOk c.id 0) e

/-- NUM_STATS. -/
def execNumStats (cmd : Nat) (s : State) : Res := engineStep s (numStats cmd)

/-- A context's statistics and flags are zeroed and its open window is discarded. -/
def Engine.numZero (e : Engine) (t : Nat) : Engine :=
  [Reg.NUM_TMSE t, Reg.NUM_TLO t, Reg.NUM_THI t, Reg.NUM_TN t, Reg.NUM_TCLIPS t, Reg.NUM_TUNFS t, Reg.NUM_TFLAGS t].foldl
    (fun e r => e.wr r 0) (e.setWin t none)

/-- NUM_CLEAR (R363). -/
def numClear (id : Nat) (e : Engine) : Engine :=
  withCmd id 0xA2 330 (fun c e =>
    let first := c.arg 32 4
    let n := c.arg 36 4
    if 256 < first + n then e.finish c.id 0x10
    else ((List.range n).foldl (fun e i => e.numZero (first + i)) e).finishOk c.id 0) e

/-- NUM_CLEAR. -/
def execNumClear (cmd : Nat) (s : State) : Res := engineStep s (numClear cmd)

/-- The NUM profiles (Table NUM-4). -/
def numExpand (v : Nat) : Option (Engine → Engine) :=
  ([(0, 0, 0), (1, 0, 0), (1, 1, 0), (1, 1, 1)][v]?).map fun x e =>
    (List.range 256).foldl (fun e t =>
      (((e.put (Fld.NUM_TCTRL_TRACK t) x.1).put (Fld.NUM_TCTRL_ADAPT t) x.2.1).wr (Reg.NUM_TMSE_THR t) 0x3E000000).wr
        (Reg.NUM_TCLIP_THR t) 66) (e.put Fld.NUM_CFG_MODEL_ADAPT x.2.2)

/-- NUM_PROFILE_SELECT (R359). -/
def execNumProfileSelect (v : Nat) (s : State) : Res :=
  hostStep s (profileWrite 10 Fld.NUM_PROFILE_PROFILE v (numExpand v))

end Sys2Proof.Machine
end

