-- ==== Sys2Proof/Machine/Accept.lean ====
section
/-!
DEFINITION. Accept.lean: descriptors come in and are checked (R185 to R191, Table HIF-6), and the commands NOP and COPY.
-/
namespace Sys2Proof.Machine

/-! ### What each opcode uses -/

/-- A range that a descriptor names: a lattice or a host address, and its length. -/
structure DescRange where
  lattice : Bool
  addr : Nat
  len : Nat
deriving DecidableEq, Repr

/-- What an opcode uses of its descriptor: the lengths at SRC and DST where it uses those words, the ARGS bytes as spans, and further
ranges named in ARGS. -/
structure OpUse where
  src : Option Nat := none
  dst : Option Nat := none
  args : List (Nat × Nat) := []
  more : List DescRange := []

/-- The bytes that NUM_CONVERT writes: the element count times the size of DFMT (R362). -/
def convLen (c : Cmd) : Nat := match numConv c with | some k => ceilDiv (k.count c.len * k.df.bits) 8 | none => 0

/-- The operands of an opcode, or `none` for an undefined one (Tables HIF-5, WNW-4, SHF-7, ORC-7, MIL-7, RIL-11, GFT-10, FLG-10,
GLN-12, NUM-5, GAR-5). -/
def Cmd.uses (c : Cmd) : Option OpUse :=
  let n := c.len
  match c.op with
  | 0x00 => some {}
  | 0x01 => some { src := some n, dst := some n }
  | 0x10 => some { src := some n, args := [(32, 11)] }
  | 0x20 => some { src := some n, args := [(32, 4)] }
  | 0x21 => some { src := some n, args := [(32, 4)] }
  | 0x22 => some { src := some n, args := [(32, 4)] }
  | 0x23 => some { src := some n, args := [(32, 4)] }
  | 0x24 => some { src := some n, args := [(32, 4)] }
  | 0x25 => some { args := [(32, 1)] }
  | 0x26 => some { args := [(32, 1), (40, 8)] }
  | 0x27 => some { dst := some n, args := [(32, 2), (36, 4)] }
  | 0x30 => some { src := some 48, dst := some 640 }
  | 0x31 => some { src := some 48 }
  | 0x32 => some {}
  | 0x33 => some { args := [(32, 24)], more := [⟨false, c.arg 32 8, c.arg 40 8⟩] }
  | 0x34 => some { args := [(32, 1), (36, 4)] }
  | 0x35 => some { src := some n, args := [(32, 6)] }
  | 0x40 => some { src := some 336, dst := some 1024, args := [(32, 2)] }
  | 0x41 => some { src := some 1024, args := [(32, 2), (36, 4)] }
  | 0x50 => some { src := some n, args := [(32, 2)] }
  | 0x51 => some { src := some 1600, dst := some 320, args := [(32, 2)] }
  | 0x60 => some { src := some 256, args := [(32, 5)] }
  | 0x61 => some { args := [(32, 4)] }
  | 0x62 => some { dst := some 8192 }
  | 0x70 => some { src := some n, args := [(32, 1)] }
  | 0x71 => some { args := [(32, 1), (40, 8)] }
  | 0x72 => some {}
  | 0x73 => some { dst := some n, args := [(33, 1)] }
  | 0x74 => some { args := [(40, 8)] }
  | 0x75 => some {}
  | 0x76 => some { args := [(32, 1)] }
  | 0x80 => some { dst := some 262144 }
  | 0x81 => some { args := [(40, 8)] }
  | 0x82 => some { args := [(32, 2)] }
  | 0x83 => some {}
  | 0x90 => some { src := some n, args := [(32, 1), (40, 12)], more := [⟨c.dstLoc, c.arg 40 8, c.arg 48 4⟩] }
  | 0x91 => some { args := [(32, 4)] }
  | 0x92 => some {}
  | 0x93 => some { dst := some n }
  | 0xA0 => some { src := some n, dst := some (convLen c), args := [(32, 3), (36, 18)] }
  | 0xA1 => some { dst := some n, args := [(32, 4)] }
  | 0xA2 => some { args := [(32, 8)] }
  | 0xB0 => some { dst := some 64 }
  | 0xB1 => some { src := some n }
  | 0xB2 => some { args := [(32, 1)] }
  | 0xB3 => some { src := some n, args := [(32, 2)] }
  | _ => none

/-- The ranges that a command touches. -/
def OpUse.ranges (u : OpUse) (c : Cmd) : List DescRange :=
  ((u.src.map fun n => (⟨c.srcLoc, c.src, n⟩ : DescRange)).toList ++ (u.dst.map fun n => (⟨c.dstLoc, c.dst, n⟩ : DescRange)).toList ++
    u.more).filter fun r => r.len != 0

/-! ### Table HIF-6 -/

/-- Step 1: an ACTIVE or DRAINING completion ring of the domain. -/
def Engine.compRingOk (e : Engine) (pd k : Nat) : Bool :=
  e.ringKind k == 3 && (e.ringState k == 1 || e.ringState k == 3) && e.ringPd k == pd

/-- Step 2, what needs no opcode: reserved bits of word 0, and the ends of SRC and DST. -/
def Cmd.wordsOk (c : Cmd) : Bool :=
  let w := descWord c.desc 0
  bitsOf w 15 13 == 0 && bitsOf w 31 28 == 0 && decide (c.src + c.len ≤ 2 ^ 64) && decide (c.dst + c.len ≤ 2 ^ 64)

/-- Step 2, what the opcode decides: unused words and ARGS bytes zero, lattice addresses of 56 bits, a control opcode's LENGTH zero
(R186, R190). -/
def Cmd.unusedOk (c : Cmd) (u : OpUse) : Bool :=
  let word (x : Option Nat) (loc : Bool) (a : Nat) : Bool := if x.isSome then !loc || decide (a < 2 ^ 56) else a == 0
  let more := u.more.all fun r => !r.lattice || decide (r.addr < 2 ^ 56)
  let used (i : Nat) : Bool := u.args.any fun x => decide (x.1 ≤ i) && decide (i < x.1 + x.2)
  let args := (List.range 32).all fun i => used (32 + i) || byteAt c.desc (32 + i) == 0
  word u.src c.srcLoc c.src && word u.dst c.dstLoc c.dst && more && args && (dataOps.contains c.op || c.len == 0)

/-- Step 7: a lattice address carries the module's own ID, and the whole range lies in the populated granary, the rill scratch or the
silo (R187). -/
def Engine.latticeOk (e : Engine) (r : DescRange) : Bool :=
  let a := r.addr % 2 ^ 42
  let inside (lo hi : Nat) : Bool := decide (lo ≤ a) && decide (a + r.len ≤ hi)
  r.addr / 2 ^ 42 == e.selfId &&
    (inside 0 0x0C000000 || inside 0x10000000 0x11000000 || inside 0x04000000000 0x05000000000)

/-- Step 8: what the opcode's chapter refuses in the descriptor itself. -/
def Cmd.operandsOk (c : Cmd) : Bool :=
  let b := c.arg 32 1
  match c.op with
  | 0x01 => c.srcLoc || c.dstLoc
  | 0x10 => decide (c.arg 40 1 < 32) && decide (c.arg 41 1 < 64) && decide (c.arg 42 1 < 4)
  | 0x25 => decide (b ≤ 1)
  | 0x26 => decide (b ≤ 3)
  | 0x27 => decide (b ≤ 4) && decide (c.arg 33 1 ≤ 1)
  | 0x30 => c.len == 640
  | 0x31 => c.len == 48
  | 0x34 => decide (b ≤ 1)
  | 0x35 => c.len % 2 == 0
  | 0x40 => c.len == 336 && decide (c.arg 33 1 ≤ 1)
  | 0x41 => c.len == 1024 && decide (c.arg 33 1 ≤ 1)
  | 0x50 => c.len % 128 == 0 && decide (c.len ≤ 2048) && (decide (b ≤ 3) || b == 0xFF) && decide (c.arg 33 1 ≤ 1)
  | 0x51 => c.len == 1600 && decide (c.arg 33 1 ≤ 1)
  | 0x60 => c.len == 256 && decide (c.arg 34 1 < 8) && (decide (c.arg 35 1 < 32) || c.arg 35 1 == 0xFF) && decide (c.arg 36 1 ≤ 1)
  | 0x62 => c.len == 8192
  | 0x70 => decide (b ≤ 1)
  | 0x71 => b == 0 || b == 1 || b == 3
  | 0x73 => decide (c.arg 33 1 ≤ 1)
  | 0x76 => decide (b ≤ 2)
  | 0x80 => c.len == 262144
  | 0x82 => decide (b ≤ 7) && decide (c.arg 33 1 ≤ 2)
  | 0x90 => c.len % 8 == 0 && decide (b ≤ 1)
  | 0x91 => decide (c.arg 32 4 < 2 ^ 20)
  | 0x93 => decide (64 ≤ c.len)
  | 0xA1 => c.len % 64 == 0
  | 0xA0 => (numConv c).isSome
  | 0xA2 => decide (c.arg 32 4 + c.arg 36 4 ≤ 256)
  | 0xB0 => c.len == 64
  | 0xB1 => decide (c.len ≤ 2 ^ 24)
  | 0xB2 => decide (b ≤ 1)
  | 0xB3 => decide (b < 8) && decide (c.arg 33 1 < 3)
  | _ => true

/-- Steps 2 to 8: the status that a descriptor of ring kind `kind` ends with at acceptance, or `none` for one that may start. -/
def Engine.acceptStatus (e : Engine) (c : Cmd) (kind : Nat) : Option Nat :=
  if c.wordsOk = false then some 0x10
  else match c.uses with
  | none => some 0x11
  | some u =>
    let rs := u.ranges c
    if c.unusedOk u = false then some 0x10
    else if (c.op = 0x10) ≠ (kind = 2) then some 0x11
    else if bitOf (e.get (Fld.HIF_PD_CTRL_OPMASK c.pd)) (c.op / 16) = false then some 0x12
    else if c.empty then some 0x01
    else if rs.any fun r => !r.lattice && !e.inWindow c.pd r.addr r.len then some 0x12
    else if rs.any fun r => r.lattice && !e.latticeOk r then some 0x13
    else if c.operandsOk = false then some 0x10
    else none

/-- A command that no completion ring can take is lost (R191). -/
def Engine.loseCmd (e : Engine) (c : Cmd) : Engine :=
  let e := (e.count (Reg.HIF_CNT 1)).hifEvt Fld.HIF_EVT_CMD_LOST
  if c.ring < 256 then e.errInfo 0x02 2 0 (c.ring + 2 ^ 8 * c.op) c.tag 0
  else
    let (x, e) := e.fresh Config.fLostRing
    e.errInfo 0x02 2 0 (withBits c.ring 15 8 x) c.tag 0

/-- One descriptor is accepted: it holds an in-flight slot, and starts later or ends here (R189 to R192). -/
def Engine.acceptDesc (e : Engine) (k n : Nat) (d : Bytes) : Engine :=
  let pd := e.ringPd k
  let want := bitsOf (descWord d 0) 27 16
  let dflt := e.get (Fld.HIF_PD_CTRL_DEFRING pd)
  let c : Cmd :=
    { id := e.hif.nextId, ring := k, cnt := n % 2 ^ 32, pd := pd, comp := want, desc := d, ph := .accepted, at_ := e.time,
      since := e.time, staged := e.gln.staged, inStage := e.gln.staging.length }
  let hold (c : Cmd) (e : Engine) : Engine :=
    { e with hif := { e.hif with nextId := e.hif.nextId + 1, cmds := e.hif.cmds ++ [c] } }
  if e.compRingOk pd want then
    let e := hold c e
    match e.acceptStatus c (e.ringKind k) with
    | none => e
    | some 0x01 => if e.orderMet c then e.endsUnstarted c 0x01 else e
    | some st => e.endsUnstarted c st
  else if e.is (Fld.HIF_PD_CTRL_DEF_EN pd) && e.compRingOk pd dflt then
    let c := { c with comp := dflt }
    (hold c e).endsUnstarted c 0x14
  else e.loseCmd c

/-- Descriptors of one fetch are accepted in ring order (R201). -/
def Engine.acceptAll (e : Engine) (k n : Nat) (ds : List Bytes) : Engine :=
  match ds with
  | [] => e
  | d :: r => Engine.acceptAll (e.acceptDesc k n d) k (n + 1) r

/-- FETCH_DATA_RETURN: the oldest fetch of a ring returns. HEAD advances and its write-back follows, unless the ring was disabled or
entered ERROR after the fetch was issued (R180, R183, R185, R209). -/
def fetchReturn (k : Nat) (data : Bytes) (e : Engine) : Engine :=
  match (e.ring k).fetches with
  | [] => e
  | f :: rest =>
    let e := e.setRing k fun r => { r with fetches := rest }
    if f.discard then e
    else
      let e := (e.wr (Reg.HIF_RING_CONS k) ((f.start + f.n) % 2 ^ 32)).writeBack k
      e.acceptAll k f.start ((List.range f.n).map fun i => fitTo 64 (slice data (64 * i) 64))

/-- FETCH_DATA_RETURN. -/
def execFetchDataReturn (ring : Nat) (data : Bytes) (s : State) : Res := hostStep s (fetchReturn ring data)

/-! ### NOP and COPY (R186, R187) -/

/-- NOP: no effect; with ORDER it is a fence. -/
def execNop (cmd : Nat) (s : State) : Res := engineStep s (withCmd cmd 0x00 328 fun c e => e.finishOk c.id 0)

/-- A range cut at the boundaries of its protected words: offset, length, and whether the word is poisoned. -/
def Engine.pieces (e : Engine) (a n : Nat) : List (Nat × Nat × Bool) :=
  let m := localMem a
  let sz := if m = 3 then 32 else 8
  (protWords m a n).map fun w =>
    let lo := max w a
    (lo - a, min (w + sz) (a + n) - lo, decide (w ∈ e.poison))

/-- Bytes go to a command's DST with some pieces poisoned: the words they reach hold the poison code, or go in a TLP with EP set
(Table ERR-2). -/
def Engine.copyOut (e : Engine) (c : Cmd) (d : Bytes) (ps : List (Nat × Nat × Bool)) : Engine :=
  let bad := ps.filter fun p => p.2.2
  if c.dstLoc then
    let a := c.dst % 2 ^ 42
    (e.store a d).poisonWords (bad.flatMap fun p => protWords (localMem a) (a + p.1) p.2.1)
  else if bad.isEmpty then e.emit (.hostWrite c.dst d)
  else ps.foldl (fun e p =>
    let x := slice d p.1 p.2.1
    e.emit (if p.2.2 then .hostWriteEp (c.dst + p.1) x else .hostWrite (c.dst + p.1) x)) e

/-- COPY: LENGTH bytes go from SRC to DST. Poisoned source words end it with POISON once what they poison is written. -/
def copyCmd (id : Nat) (h : HostRead) (ecc : Ecc) (e : Engine) : Engine :=
  withCmd id 0x01 328 (fun c e =>
    let fail (e : Engine) : Engine := (e.poisoned 1 c.src (e.cmdRef c)).finish c.id 0x31
    if c.srcLoc then
      let a := c.src % 2 ^ 42
      let (_, e) := e.checkRead (localMem a) a c.len ecc
      let ps := e.pieces a c.len
      let bad := ps.filter fun p => p.2.2
      let e := (bad.drop 1).foldl (fun e p => e.memUe (localMem a) (a + p.1) false) e
      let e := e.copyOut c (e.readMem a c.len) ps
      if bad.isEmpty then e.finishOk c.id 0 else fail e
    else
      match e.hostData h with
      | (.ok d, e) => (e.copyOut c (fitTo c.len d) []).finishOk c.id 0
      | (.ep, e) => fail (e.copyOut c (e.readMem (c.dst % 2 ^ 42) c.len) [(0, c.len, true)])
      | (.err, e) => (e.errRecord 0x20 2 18 6 0 0 (e.cmdRef c) c.ring c.tag 0).finish c.id 0x30) e

/-- COPY. -/
def execCopy (cmd : Nat) (src : HostRead) (ecc : Ecc) (s : State) : Res := engineStep s (copyCmd cmd src ecc)

end Sys2Proof.Machine
end

