-- ==== Sys2Proof/Machine/Domains.lean ====
section
/-!
DEFINITION. Domains.lean: gating, draining and waking of power domains, and the per-block reset of a rill bank or a mill
quad (R104 to R112, R119 to R121, R126 to R130, R396, R431, R432, R471, R472, R507, R508).
-/
namespace Sys2Proof.Machine

/-- A power domain (Table CLK-5). -/
def Engine.dom (e : Engine) (d : Nat) : Dom := Tbl.get {} e.doms d
/-- The engine with a domain changed. -/
def Engine.setDom (e : Engine) (d : Nat) (f : Dom → Dom) : Engine := { e with doms := Tbl.set {} e.doms d (f (e.dom d)) }
/-- The engine with a domain's CLK_DOM_CTRL bit set to a value. -/
def Engine.setReq (e : Engine) (d : Nat) (on : Bool) : Engine :=
  e.wr Reg.CLK_DOM_CTRL (withBits (e.rd Reg.CLK_DOM_CTRL) d d (bit on))

/-- The drain limit, 50 µs in core cycles. -/
def drainLimit : Nat := 62500

/-! ### Remapping (R107) -/

/-- Entries that name a domain that is not ON are rewritten, in ascending order, to the live domains of the kind, taken
round-robin in ascending index. -/
def Engine.remap (e : Engine) (mill : Bool) : Engine :=
  match e.liveOf mill with
  | [] => e
  | l =>
    ((List.range (if mill then 4 else 8)).foldl (fun (x : Engine × Nat) i =>
      if e.remapEntry mill i ∈ l then x else (x.1.setRemap mill i (l.getD (x.2 % l.length) 0), x.2 + 1)) (e, 0)).1

/-- The remap table that a domain is in, if any, after it changed. -/
def Engine.remapFor (e : Engine) (d : Nat) : Engine := if d < 8 then e.remap false else if d < 12 then e.remap true else e

/-! ### Draining (R105, R106) -/

/-- Work already dispatched to a domain is still running. -/
def Engine.domBusy (e : Engine) (d : Nat) : Bool :=
  if d < 8 then e.ril.threads.any fun (x : Nat × Thread) => x.1 / 1024 == d
  else if d < 12 then
    !(e.milQ (d - 8)).isEmpty || (quadMills (d - 8)).any fun m => (e.milRun m).isSome || !(e.milHeld m).isEmpty
  else if d < 14 then decide (e.cyc < Tbl.get 0 e.orc.drain (d - 12))
  else if d = 17 then e.gar.queue.any fun f => f.ph == 1
  else false

/-- An orchard half's admitted trees: 16 cycles and its share of the backlog (R396). -/
def Engine.halfDrains (e : Engine) (h : Nat) : Engine :=
  let n := ceilDiv (ceilDiv e.backlog (max e.halves.length 1)) 64
  { e with orc := { e.orc with drain := Tbl.set 0 e.orc.drain h (e.cyc + n + 16) } }

/-- A domain enters DRAINING: dispatch to it stops (R105). -/
def Engine.startDrain (e : Engine) (d : Nat) (reset : Bool) : Engine :=
  let e := if 12 ≤ d ∧ d < 14 then e.halfDrains (d - 12) else e
  let e := e.setDom d fun x => { x with st := .draining, since := e.cyc, gatePend := false, resetPend := reset }
  let e := e.remapFor d
  if 8 ≤ d ∧ d < 12 then e.quadDrains (d - 8) else e

/-- A domain is ON: its own remap entry names it again (R107), a Felgen block's ports train again, and a gate request that
waited takes effect (R126). -/
def Engine.domainOn (e : Engine) (d : Nat) : Engine :=
  let pend := (e.dom d).gatePend
  let e := e.setDom d fun x => { x with st := .on, gatePend := false, resetPend := false }
  let e := if d < 8 then e.setRemap false d d else if d < 12 then e.setRemap true (d - 8) (d - 8) else e
  let e := e.remapFor d
  let e := if d = 18 then e.restartPorts else e
  if pend then e.startDrain d false else e

/-- Module-local memory of a range reads zero and holds no poison. -/
def Engine.zeroMem (e : Engine) (a n : Nat) : Engine :=
  { e with
    mem := Tbl.clearRange e.mem a (a + n)
    poison := e.poison.filter fun w => !(decide (a ≤ w) && decide (w < a + n)) }

/-- The scratch of a bank's cores reads zero (R112). -/
def Engine.zeroScratch (e : Engine) (b : Nat) : Engine := e.zeroMem (0x10000000 + 0x200000 * b) 0x200000

/-- A confirmed drain: clocks stopped, outputs isolated, power off (R105). -/
def Engine.gated (e : Engine) (d : Nat) : Engine :=
  let e := e.setDom d fun x => { x with st := .gated }
  if d < 8 then e.zeroScratch d
  else if d = 17 then e.custStop
  else if d = 18 then (List.range 8).foldl (fun e p => if e.fstate p = 0 then e else e.dropLink p 0) e
  else e

/-! ### Per-block reset of a bank or a quad (R128, R432, R472, R507) -/

/-- A packet with unfinished work on a reset quad goes on with grade NONE and reason DOMAIN. -/
def Engine.loseItem (e : Engine) (it : MilItem) : Engine :=
  match e.pkt it.pkt with
  | none => e
  | some p =>
    if it.late ∨ !p.onPath then e
    else
      let e := if bitOf p.flags flDOMAIN then e else e.count (Reg.CLK_CNT 2)
      e.setPkt p.id fun p => { p.flag flDOMAIN with items := p.items.filter (· != it.no), seqLost := true }

/-- Unfinished work of a command or a thread on a reset quad ends with RESET. -/
def Engine.loseJob (e : Engine) (q : Nat) (j : MilJob) : Engine :=
  match j.owner with
  | .cmd id => e.complete id 0x22 0 0 none (256 + 8 * q)
  | .thread tid k => (e.traceWork j 3 (256 + 8 * q) 0x22).ticketEnds tid k ⟨0x22, 0, 0, 0⟩
  | .learn => e

/-- A quad's reset: its items and its work are lost; a learning step that waits stays queued (R105). -/
def Engine.resetQuad (e : Engine) (q : Nat) : Engine :=
  let runs := (quadMills q).filterMap e.milRun
  let items := e.milQ q ++ runs.flatMap fun w => match w with | .batch l => l | .job _ => []
  let onMills := (runs.filterMap fun w => match w with | .batch _ => none | .job j => some j) ++ (quadMills q).flatMap e.milHeld
  let gone := onMills ++ e.mil.waiting.filter fun j => j.quad == q
  let back := gone.filter fun j => j.owner == .learn
  let e := (quadMills q).foldl (fun e m => e.setMilRun m none) (e.setMilQ q [])
  let nos := items.map (·.no)
  let e := { e with
    mil := { e.mil with
      suspended := e.mil.suspended.filter fun (x : Nat × List MilJob) => x.1 / 8 != q
      waiting := (e.mil.waiting.filter fun j => j.quad != q) ++ back }
    shf := { e.shf with histReads := e.shf.histReads.filter fun i => !nos.contains i } }
  let e := items.foldl Engine.loseItem e
  (gone.filter fun j => j.owner != .learn).foldl (fun e j => e.loseJob q j) e

/-- A bank's reset: its threads are killed, their tickets and outstanding requests forgotten; commands that wait for them
end with RESET; scratch is zero. -/
def Engine.resetBank (e : Engine) (b : Nat) : Engine :=
  let ts := (e.ril.threads.filter fun (x : Nat × Thread) => x.1 / 1024 == b).map Prod.snd
  let e := ts.foldl (fun e t =>
    let e := ((e.releaseFlow (.thread t.id)).orcLeave (.thr t.id)).count (Reg.RIL_CNT 9)
    let e := { e with flg := { e.flg with reqs := e.flg.reqs.filter fun r => r.owner != ReqOwner.thread t.id } }
    let e := e.freeContext t.id
    (t.waitEnd.toList ++ t.killers).foldl (fun e c => e.complete c 0x22 0 0 none (coreOf t.id)) e) e
  e.zeroScratch b

/-- What a per-block reset of a domain clears. -/
def Engine.clearDomain (e : Engine) (d : Nat) : Engine := if d < 8 then e.resetBank d else e.resetQuad (d - 8)

/-- The reset of a drained domain, or of one whose drain ran out: it is ON afterwards (R128). -/
def Engine.resetDomain (e : Engine) (d : Nat) : Engine := ((e.clearDomain d).setReq d (!(e.dom d).gatePend)).domainOn d

/-- A per-block reset is asked for: an ON domain drains first; a GATED one wakes with its contents clear, but one held under
R693 stays GATED. -/
def Engine.askReset (e : Engine) (d : Nat) : Engine :=
  match (e.dom d).st with
  | .on => e.startDrain d true
  | .draining => if (e.dom d).held then e else e.setDom d fun x => { x with resetPend := true }
  | .gated =>
    if (e.dom d).held then e
    else ((e.clearDomain d).setReq d true).setDom d fun x => { x with st := .waking, gatePend := false }
  | .waking => (e.setReq d true).setDom d fun x => { x with gatePend := false }

/-! ### Requests (R104, R111, R121, R126) -/

/-- A gate request: a domain that wakes or is being reset is gated when it reaches ON. -/
def Engine.gateDom (e : Engine) (d : Nat) : Engine :=
  match (e.dom d).st with
  | .on => e.startDrain d false
  | .waking => e.setDom d fun x => { x with gatePend := true }
  | .draining => if (e.dom d).resetPend then e.setDom d fun x => { x with gatePend := true } else e
  | .gated => e

/-- A wake request: it ends a drain at once; one for a unit held under R693 is ignored. -/
def Engine.wakeDom (e : Engine) (d : Nat) : Engine :=
  if (e.dom d).held then e.setReq d false
  else match (e.dom d).st with
  | .gated => e.setDom d fun x => { x with st := .waking }
  | .draining => if (e.dom d).resetPend then e.setDom d fun x => { x with gatePend := false } else e.domainOn d
  | .waking => e.setDom d fun x => { x with gatePend := false }
  | .on => e

/-- Some Felgen port is trained or training (R111). -/
def Engine.felgenBusy (e : Engine) : Bool := (List.range 8).any fun p => decide (e.fstate p ∈ [2, 3, 4])

/-- CLK_DOM_CTRL.REQ takes a value: each bit that changes is one request, in ascending order. Garner pair 0 reads 1, and a
refused gate of the Felgen block reads back 1 (R111). -/
def Engine.domReq (e : Engine) (v : Nat) : Engine :=
  let old := e.rd Reg.CLK_DOM_CTRL % 2 ^ 19
  let refuse := bitOf old 18 && !bitOf v 18 && e.felgenBusy
  let e := e.evtIf refuse Fld.CLK_DOM_EVT_REFUSED
  let v := withBits (v % 2 ^ 19) 14 14 1
  let v := if refuse then withBits v 18 18 1 else v
  (List.range 19).foldl (fun e d =>
    if bitOf old d = bitOf v d then e else if bitOf v d then e.wakeDom d else e.gateDom d) (e.wr Reg.CLK_DOM_CTRL v)

/-- A CLK_DOM_CTRL write: the profile reads CUSTOM (R120). -/
def domCtrlWrite (v : Nat) (e : Engine) : Engine := (e.domReq v).put Fld.CLK_DOM_PROFILE_PROFILE 7

/-- A write that changes one bit of CLK_DOM_CTRL. -/
def domBitWrite (d : Nat) (on : Bool) (e : Engine) : Engine :=
  if 19 ≤ d then e else domCtrlWrite (withBits (e.rd Reg.CLK_DOM_CTRL) d d (bit on)) e

/-- DOMAIN_GATE (R105). -/
def execDomainGate (dom : Nat) (s : State) : Res := hostStep s (pendWrite 1 (domBitWrite dom false))

/-- DOMAIN_WAKE (R104, R126). -/
def execDomainWake (dom : Nat) (s : State) : Res := hostStep s (pendWrite 1 (domBitWrite dom true))

/-- DRAIN_CONFIRMED: the domain's in-flight count has reached zero (R105); a reset that waited for it is made (R128). -/
def drainConfirmed (d : Nat) (e : Engine) : Engine :=
  if 19 ≤ d ∨ (e.dom d).st ≠ .draining ∨ e.domBusy d = true then e
  else if (e.dom d).resetPend then e.resetDomain d
  else e.gated d

/-- DRAIN_CONFIRMED. -/
def execDrainConfirmed (dom : Nat) (s : State) : Res := engineStep s (drainConfirmed dom)

/-- DRAIN_ABORT: a drain not confirmed 50 µs after its start (R106). A unit held under R693 goes on draining. -/
def drainAbort (d : Nat) (e : Engine) : Engine :=
  let x := e.dom d
  if 19 ≤ d ∨ x.st ≠ .draining ∨ x.resetPend = true ∨ x.held = true ∨ e.domBusy d = false ∨ e.cyc < x.since + drainLimit then e
  else
    let e := (e.wr Reg.CLK_DOM_EVT (e.rd Reg.CLK_DOM_EVT ||| 2 ^ d)).count (Reg.CLK_CNT 0)
    (e.setReq d true).domainOn d

/-- DRAIN_ABORT. -/
def execDrainAbort (dom : Nat) (s : State) : Res := engineStep s (drainAbort dom)

/-- BLOCK_RESET_DRAIN_TIMEOUT: the reset goes ahead 50 µs after the drain began (R128). -/
def blockResetTimeout (d : Nat) (e : Engine) : Engine :=
  let x := e.dom d
  if 19 ≤ d ∨ x.st ≠ .draining ∨ x.resetPend = false ∨ e.cyc < x.since + drainLimit then e else e.resetDomain d

/-- BLOCK_RESET_DRAIN_TIMEOUT. -/
def execBlockResetDrainTimeout (dom : Nat) (s : State) : Res := engineStep s (blockResetTimeout dom)

/-- DOMAIN_ON: a waking domain reaches ON (R104, R107, R112). -/
def domainReachesOn (d : Nat) (e : Engine) : Engine :=
  if 19 ≤ d ∨ (e.dom d).st ≠ .waking then e
  else (if d < 8 then e.zeroScratch d else e).domainOn d

/-- DOMAIN_ON. -/
def execDomainOn (dom : Nat) (s : State) : Res := engineStep s (domainReachesOn dom)

/-- The domain profiles (Table CLK-9). -/
def domExpand (v : Nat) : Option (Engine → Engine) :=
  ([0x7FFFF, 0x7D30F, 0x7F003][v]?).map fun r e => e.domReq r

/-- CLK_DOM_PROFILE_SELECT (R119). -/
def execClkDomProfileSelect (v : Nat) (s : State) : Res :=
  hostStep s (profileWrite 1 Fld.CLK_DOM_PROFILE_PROFILE v (domExpand v))

end Sys2Proof.Machine
end

