-- ==== Sys2Proof/Machine/Errors.lean ====
section
/-!
DEFINITION. Errors.lean: thermal trips, rail loss, bypass by command, the self-test, patrol reads, injection and the error
profiles (R146, R680, R688 to R697).
-/
namespace Sys2Proof.Machine

/-! ### The die's thermal trips (R146, R688) -/

/-- THERMAL_TRIP_105: the hotspot reads 105 °C or more; the engine throttles and bypass cause THERMAL becomes active. The
thermal monitor reads in every power state of the engine; a reset that is in progress leaves the entry to its end (Table ERR-8). -/
def execThermalTrip105 (temp : Int) (s : State) : Res := .next <|
  if temp < 1050 then s
  else
    let s := s.onEng fun e => { e with phys := { e.phys with hotspot := temp } }
    if s.engineUp then s.onEng fun e => e.enterCause 1 else s

/-- THERMAL_HALT_115: every engine clock except the thermal monitor's stops, and the PCIe end point goes absent. -/
def execThermalHalt115 (temp : Int) (s : State) : Res := .next <|
  if temp < 1150 ∨ s.pwr.released = false then s
  else
    { s with
      pwr := { s.pwr with halted := true }
      eng := (Engine.put { s.eng with phys := { s.eng.phys with hotspot := temp } } Fld.STW_STAT_HALT_SEEN 1) }

/-- THERMAL_CLEAR: the hotspot has read 95 °C or less for 10 s, `temp` being its last reading; cause THERMAL ends. -/
def execThermalClear (temp : Int) (s : State) : Res :=
  engineStep s fun e =>
    if 950 < temp then e else Engine.endCause { e with phys := { e.phys with hotspot := temp } } 1

/-! ### Rails (R688) -/

/-- RAIL_LOST: the steward reports that it has lost command of a regulator whose rail is on. -/
def execRailLost (s : State) : Res :=
  stewardStep s fun s =>
    if s.engineUp then
      s.onEng fun e => (Engine.errInfo { e with err := { e.err with railOkAt := none } } 0x50 19 0 2 0 0).enterCause 4
    else s

/-- RAIL_OK: the steward reports command of it again; the 1 s qualification starts. -/
def execRailOk (s : State) : Res :=
  stewardStep s fun s =>
    if s.engineUp then
      s.onEng fun e => Engine.errInfo { e with err := { e.err with railOkAt := some (e.err.railOkAt.getD e.cyc) } } 0x50 19 0 3 0 0
    else s

/-- RAIL_OK_QUALIFIED: RAIL_OK has held for 1 s; cause RAIL ends. -/
def execRailOkQualified (s : State) : Res :=
  engineStep s fun e =>
    match e.err.railOkAt with
    | some t => if t + 1250000000 ≤ e.cyc then Engine.endCause { e with err := { e.err with railOkAt := none } } 4 else e
    | none => e

/-! ### Bypass by command, acknowledgement and the self-test (R688, R690, R693) -/

/-- ERR_BYPASS_CTRL.CMD takes a value. -/
def bypassCmd (v : Nat) (e : Engine) : Engine :=
  let e := e.put Fld.ERR_BYPASS_CTRL_CMD (v % 2)
  if v % 2 = 1 then e.enterCause 5 else e.endCause 5

/-- BYPASS_CMD. -/
def execBypassCmd (v : Nat) (s : State) : Res := hostStep s (pendWrite 18 (bypassCmd v))

/-- ACK while ENGINE_UE is active starts a self-test of every unit that raised the cause. -/
def bypassAck (e : Engine) : Engine :=
  if !e.causeOn 2 then e
  else
    Engine.put { e with err := { e.err with
      testing := e.err.testing ++ (e.err.ueUnits.filter fun u => !e.err.testing.contains u)
      ueUnits := [], ueAgain := false } } Fld.ERR_BYPASS_STAT_SELFTEST 1

/-- ERR_BYPASS_ACK. -/
def execErrBypassAck (s : State) : Res := hostStep s (pendWrite 18 bypassAck)

/-- The power domain of a unit: a mill's quad, or an orchard half. -/
def unitDomain (u : Nat) : Nat := if u < 32 then 8 + u / 8 else 12 + (u - 32) % 2

/-- A unit that failed its self-test: its domain is gated and held GATED until the next cold reset. -/
def Engine.holdUnit (e : Engine) (u : Nat) : Engine :=
  let d := unitDomain u
  let e := (e.setReq d false).setDom d fun x => { x with held := true, gatePend := false }
  match (e.dom d).st with
  | .on => e.startDrain d false
  | .waking => e.setDom d fun x => { x with st := .gated }
  | .draining => e.setDom d fun x => { x with resetPend := false }
  | .gated => e

/-- SELFTEST_COMPLETE: `failed` names the units that failed, as mill m or 32 + orchard half. Unless the error came again during
the test, cause ENGINE_UE ends. -/
def selftestComplete (failed : List Nat) (e : Engine) : Engine :=
  if !e.is Fld.ERR_BYPASS_STAT_SELFTEST then e
  else
    let bad := e.err.testing.filter failed.contains
    let again := e.err.ueAgain
    let e := Engine.put { e with err := { e.err with testing := [], ueAgain := false } } Fld.ERR_BYPASS_STAT_SELFTEST 0
    let e := bad.foldl Engine.holdUnit e
    if again then e else e.endCause 2

/-- SELFTEST_COMPLETE. -/
def execSelftestComplete (failed : List Nat) (s : State) : Res := engineStep s (selftestComplete failed)

/-! ### Patrol reads (R680) -/

/-- PATROL_READ of the word at an address of the granary (0) or the silo (3), while SCRUB_EN is set: a corrected error is
rewritten and counted; an uncorrectable one leaves the poison code, and poisons nothing downstream. -/
def patrolRead (m a : Nat) (ecc : Ecc) (e : Engine) : Engine :=
  let inside : Bool := if m = 0 then decide (a < 0x0C000000) else m == 3 && decide (0x04000000000 ≤ a) && decide (a < 0x05000000000)
  if !e.is Fld.ERR_CFG_SCRUB_EN || !inside then e
  else
    let w := (protWords m a 1).headD a
    if w ∈ e.poison then e.memUe m w true
    else match ecc with
    | .ce => (e.memCe m w).count (Reg.ERR_CNT 6)
    | .ue => e.memUe m w true
    | _ => e

/-- PATROL_READ. -/
def execPatrolRead (mem addr : Nat) (ecc : Ecc) (s : State) : Res := engineStep s (patrolRead mem addr ecc)

/-! ### Injection and set-up (R694 to R696) -/

/-- A write of ERR_INJECT: only one with KEY 0x4160 counts. -/
def errInject (v : Nat) (e : Engine) : Engine :=
  if bitsOf v 31 16 ≠ 0x4160 then e
  else
    let e := (e.put Fld.ERR_INJECT_MEM (bitsOf v 2 0)).put Fld.ERR_INJECT_KIND (bitsOf v 8 8)
    if bitOf v 15 then e.put Fld.ERR_INJECT_ARMED 1 else e

/-- ERR_INJECT. -/
def execErrInject (v : Nat) (s : State) : Res := hostStep s (pendWrite 18 (errInject v))

/-- A write of ERR_CFG, ignored as a whole with a value out of range (R695). -/
def errCfgWrite (v : Nat) (e : Engine) : Engine :=
  if bitsOf v 1 0 = 3 ∨ 4 < bitsOf v 6 4 then e.evt Fld.ERR_EVT_CFG_ERR
  else (e.wr Reg.ERR_CFG (v &&& 0x0FFF3F7F)).put Fld.ERR_PROFILE_PROFILE 7

/-- A write of ERR_SCRUB (R695). -/
def errScrubWrite (v : Nat) (e : Engine) : Engine :=
  if v % 256 = 0 ∨ 168 < v % 256 then e.evt Fld.ERR_EVT_CFG_ERR
  else (e.wr Reg.ERR_SCRUB (v % 256)).put Fld.ERR_PROFILE_PROFILE 7

/-- The expansion of an error profile (Table ERR-7); RING is not part of it. -/
def errExpand (v : Nat) : Option (Engine → Engine) :=
  let mk (ce h vrec : Nat) (e : Engine) : Engine :=
    (e.wr Reg.ERR_CFG (ce + 4 + 8 * vrec + 16 + 2 ^ 16 * e.get Fld.ERR_CFG_RING)).wr Reg.ERR_SCRUB h
  match v with
  | 0 => some (mk 1 24 1)
  | 1 => some (mk 0 24 0)
  | 2 => some (mk 2 4 1)
  | _ => none

/-- ERR_PROFILE_SELECT (R694). -/
def execErrProfileSelect (v : Nat) (s : State) : Res :=
  hostStep s (profileWrite 18 Fld.ERR_PROFILE_PROFILE v (errExpand v))

end Sys2Proof.Machine
end

