-- ==== Sys2Proof/Machine/Intake.lean ====
section
/-!
DEFINITION. Intake.lean: frames from their first byte to their end-of-frame status, handoff, and frames in bypass
(R218, R224 to R233, R241, R249 to R253, R691).
-/
namespace Sys2Proof.Machine

/-! ### The first byte (R227 to R230) -/

/-- The timestamp of a crossing at 16 × time + frac in 1/16 tick, corrected by RX, rounded with ties away from zero and
taken modulo 2^64 (R227, R228). -/
def stampOf (time frac rx : Nat) : Nat :=
  (roundAway (((16 * time + frac % 16 : Nat) : Rat) / 16 + ((sextOf 16 rx : Int) : Rat) / 16) % (2 ^ 64 : Int)).toNat

/-- FRAME_START: a tap or inline port that is up with its link admits the frame by its MAXLEN, or drops it for exhaustion. -/
def frameStart (p frac : Nat) (e : Engine) : Engine :=
  let rx := e.get (Fld.ITK_PORT_TSOFF_RX p)
  let ts := stampOf e.time frac rx
  let early : Bool := match (e.rxOf p).last with | some (r, t) => r == rx && (ts == t || decide (2 ^ 63 ≤ (ts + 2 ^ 64 - t) % 2 ^ 64)) | none => false
  if 32 ≤ p ∨ !e.present p ∨ !e.portLive p ∨ 2 ≤ e.portMode p ∨ (e.rxOf p).cur.isSome = true ∨ early = true then e
  else
    let maxlen := e.get (Fld.ITK_PORT_CFG_MAXLEN p)
    let need := ceilDiv maxlen 256
    let e := e.setRx p fun r => { r with last := some (rx, ts) }
    if e.cellsFree < need then (e.count (Reg.ITK_PCNT p 7)).evt Fld.ITK_EVT_EXHAUST
    else
      let id := e.nextPkt
      let k : Pkt := { id := id, port := p, ts := ts, maxlen := maxlen, need := need }
      Engine.setRx { e with nextPkt := id + 1, pkts := e.pkts ++ [k] } p fun r => { r with cur := some id }

/-- FRAME_START (R227, R230). -/
def execFrameStart (port frac : Nat) (s : State) : Res := engineStep s (frameStart port frac)

/-- EMIT_PORT_FRAME (R218). -/
def execEmitPortFrame (port : Nat) (s : State) : Res :=
  engineStep s fun e => if e.present port ∧ e.portLive port = true ∧ e.portMode port = 2 then e.count (Reg.ITK_PCNT port 9) else e

/-- The port's receiver is free again. -/
def Engine.rxDone (e : Engine) (p : Pkt) : Engine := e.setRx p.port fun r => if r.cur = some p.id then { r with cur := none } else r

/-- Byte 13 of a MAC control frame: counted, and discarded when MACCTL is 0 (R226). -/
def macControl (id : Nat) (e : Engine) : Engine :=
  match e.pkt id with
  | none => e
  | some p =>
    if !p.rx ∨ p.handed ∨ p.macc then e
    else
      let e := e.count (Reg.ITK_PCNT p.port 8)
      if e.is (Fld.ITK_PORT_CFG_MACCTL p.port) then e.setPkt id fun p => { p with macc := true }
      else (e.dropPkt id).rxDone p

/-- MAC_CONTROL_DISCARD (R226). -/
def execMacControlDiscard (pkt : Nat) (s : State) : Res := engineStep s (macControl pkt)

/-! ### Handoff (R31, R232, R241, R257) -/

/-- The counts a completed parse makes (R241). -/
def Engine.parseCounts (e : Engine) (r : Parse) : Engine :=
  let e := r.mals.foldl (fun e k => e.count (Reg.THR_MALCNT (k % 16))) e
  let slow := (r.outcome (e.rd Reg.THR_MAL_ACT)).2.2
  if slow = 0 then e else e.count (Reg.THR_SLOWCNT (slow % 16))

/-- A GOOD frame in bypass: forwarded on an inline port, and its NONE record (R691). -/
def Engine.finishByp (e : Engine) (id : Nat) : Engine :=
  match e.pkt id with
  | none => e
  | some p =>
    let fld (f : Fld) : Nat := bitsOf p.bypCfg f.hi f.lo
    let e := e.setPkt id fun p => { p with ended := true }
    let e := if e.portMode p.port = 1 then
        let q := e.get (Fld.ITK_PORT_CFG_PAIR p.port)
        if e.portLive q then e.txAdmit p (e.txqOf q (fld Fld.ERR_CFG_BYP_QUEUE)) 0 else e.count (Reg.ITK_PCNT q 14)
      else e
    let e := if fld Fld.ERR_CFG_VREC = 1 then
        let p := { p with epoch := some (match e.gft.live with | some m => m.epoch | none => 0), flags := 2 ^ flBYPASS }
        let flow := flowHandle (flowKey p.pv (fld Fld.ERR_CFG_BYP_FORM))
        let r : HRec := { words := e.verdictWords p 5 flow 0, at_ := e.time, pkt := some id }
        (e.pushVerdict (e.verdictQueue flow) r p.ts).2
      else e
    e.settle id

/-- The generation of a packet: the retiring one before the switch time, the live one from it on (R257, R258). -/
def Engine.genOf (e : Engine) (ts : Nat) : Nat :=
  if e.get Fld.WNW_GEN_STAT_STATE = 1 ∧ ts < e.rd Reg.WNW_SWITCH_TIME then e.tab.retGen else e.rd Reg.WNW_GEN

/-- The path starts at the port's start entry (R22); with no live generation the frame ends as DROP (Table CSC-6). -/
def Engine.startPath (e : Engine) (p : Pkt) : Engine :=
  let g := e.genOf p.ts
  let p := { p with handed := true, gen := g }
  let e := (e.setPkt p.id fun _ => p)
  if g = 0 then ((e.count (Reg.CSC_CNT 3)).evt Fld.CSC_EVT_NO_TABLE).endPath p.id
  else
    let e := e.count (Reg.CSC_CNT 0)
    let (bad, e) := e.tableRead p 4 p.port
    if bad then e.tableError p
    else e.setPkt p.id fun p => { p with entry := (e.bankOf p).start p.port }

/-- A switch that takes effect at or before a timestamp is due: its own step comes first (R257). -/
def Engine.switchDue (e : Engine) (ts : Nat) : Bool :=
  match e.tab.pend with
  | some x => (x.due || x.mode == 2) && decide (x.t ≤ ts)
  | none => false

/-- FRAME_HANDOFF: the parse completes; `hdr` is what has been received of a frame still in reception, and `len` the
length L it will have (R224, R232). -/
def frameHandoff (id : Nat) (hdr : Bytes) (len : Nat) (e : Engine) : Engine :=
  match e.pkt id with
  | none => e
  | some p =>
    let d := if p.rx then hdr else p.data.take (p.data.length - 4)
    let r := parseFrame d (!p.rx)
    if p.handed ∨ r.more ∨ e.switchDue p.ts ∨ (beAt d 12 2 = 0x8808 ∧ 14 ≤ d.length ∧ !p.macc) then e
    else
      let e := (e.parseCounts r).busy 291
      let p := { p with pv := r.vector (e.rd Reg.THR_MAL_ACT), data := if p.rx then hdr else p.data, len := if p.rx then len else p.len }
      if e.tsBypass p.ts then
        let e := e.count (Reg.ERR_CNT 3)
        let e := e.setPkt id fun _ => { p with handed := true, byp := true, bypCfg := e.rd Reg.ERR_CFG }
        if p.good then e.finishByp id else e
      else e.startPath p

/-- FRAME_HANDOFF. -/
def execFrameHandoff (pkt : Nat) (hdr : Bytes) (len : Nat) (s : State) : Res := engineStep s (frameHandoff pkt hdr len)

/-! ### The end of a frame (R225, R233) -/

/-- The end-of-frame status: the lowest code that applies (Table ITK-2). -/
def frameStatus (data : Bytes) (maxlen : Nat) (pcsErr : Bool) : Nat :=
  let n := data.length
  let body := data.take (n - 4)
  if pcsErr then 2
  else if n < 64 then 3
  else if maxlen < n then 4
  else if crc32 body ≠ leNat (data.drop (n - 4)) then 5
  else match (parseFrame body true).l3End with
    | some x => if body.length < x then 6 else 0
    | none => 0

/-- The port counter of a failure (Table ITK-2). -/
def statusCounter (st : Nat) : Nat := [0, 5, 5, 3, 4, 2, 6].getD st 5

/-- What a GOOD status releases: a held undo entry, a pending remote request (R314, R538). -/
def Engine.statusGood (e : Engine) (p : Pkt) : Engine :=
  ((e.releaseUndo (.pkt p.id)).resolveRemote p true).settle p.id

/-- A frame's reception ends with a status. -/
def Engine.frameEnds (e : Engine) (id : Nat) (data : Bytes) (st : Nat) : Engine :=
  match e.pkt id with
  | none => e
  | some p =>
    if !p.rx then e
    else
      let n := data.length
      let e := e.rxDone p
      let e := if st = 0 then (e.alwaysN (Reg.ITK_PCNT p.port 0) 1).alwaysN (Reg.ITK_PCNT p.port 1) n
        else e.count (Reg.ITK_PCNT p.port (statusCounter st))
      let p := { p with rx := false, data := data.take p.maxlen, len := n, status := some st }
      let e := e.setPkt id fun _ => p
      if !p.handed then
        if st = 0 then e else (e.parseCounts (parseFrame (data.take (n - 4)) true)).dropPkt id
      else if p.byp then (if st = 0 then e.finishByp id else e.dropPkt id)
      else
        let e := e.txLength id
        if st = 0 then e.statusGood p else e

/-- FRAME_END: `data` is what was received from the first byte of the destination address to the end of the FCS. -/
def frameEnd (id : Nat) (data : Bytes) (pcsErr : Bool) (e : Engine) : Engine :=
  match e.pkt id with
  | none => e
  | some p =>
    let e := if p.rx && !p.handed && !p.macc && decide (14 ≤ data.length) && beAt data 12 2 == 0x8808 then macControl id e else e
    e.frameEnds id data (frameStatus data p.maxlen pcsErr)

/-- FRAME_END (R225, R233). -/
def execFrameEnd (pkt : Nat) (data : Bytes) (pcsErr : Bool) (s : State) : Res := engineStep s (frameEnd pkt data pcsErr)

/-- The frame in reception on a port ends early. -/
def Engine.cutFrame (e : Engine) (p : Nat) (data : Bytes) (st : Nat) : Engine :=
  match (e.rxOf p).cur with
  | some id => e.frameEnds id data st
  | none => e

/-- UP = 0: the frame in reception ends with ABORT, the PCS is held idle and LINK drops (R252, R734). -/
def portDown (p : Nat) (data : Bytes) (e : Engine) : Engine :=
  if 32 ≤ p ∨ !e.is (Fld.ITK_PORT_CTRL_UP p) then e
  else
    let e := (e.put (Fld.ITK_PORT_CTRL_UP p) 0).cutFrame p data 1
    (e.setRx p fun r => { r with aligned := false }).relink p

/-- PORT_DOWN (R252): `data` is what had been received of the frame in reception. -/
def execPortDown (port : Nat) (data : Bytes) (s : State) : Res := hostStep s (pendWrite 3 (portDown port data))

/-- OPTICS_REMOVE (R52, R253): frames in reception end with PCS_ERR, links drop, UP keeps its value. -/
def execOpticsRemove (cage : Nat) (data : List Bytes) (s : State) : Res :=
  .next <| s.onEng fun e =>
    if 8 ≤ cage then e
    else
      let e := { e with phys := { e.phys with cages := modAt e.phys.cages cage fun g => { g with present := false, highPower := false } } }
      (List.range 4).foldl (fun e s =>
        let p := 4 * cage + s
        ((e.cutFrame p (data.getD s []) 2).setRx p fun r => { r with aligned := false }).relink p) e

end Sys2Proof.Machine
end

