-- ==== Sys2Proof/Machine/Power.lean ====
section
/-!
DEFINITION. Power.lean: rail sequencing, wake-up failures, power-down and boot (R94 to R103, R123 to R125, R154).
-/
namespace Sys2Proof.Machine

/-- Power-up enable is present (R94). -/
def Pwr.enable (p : Pwr) : Bool := p.slot12V && p.psuOk && p.enableOn

/-- Rail `k` changed. -/
def Pwr.setRail (p : Pwr) (k : Nat) (f : Rail → Rail) : Pwr := { p with rails := modAt p.rails (k - 1) f }

/-- Rail `k`. -/
def Pwr.rail (p : Pwr) (k : Nat) : Rail := p.rails.getD (k - 1) {}

/-- The highest enabled rail below order number `k`, VSTBY left out. -/
def Pwr.topRail (p : Pwr) (k : Nat) : Option Nat :=
  (List.range k).reverse.find? fun r => decide (2 ≤ r) && (p.rail r).enabled

/-- Where a power-down ends (R98, R99, R103). -/
def AfterDrop.phase (a : AfterDrop) : PwrPhase :=
  match a with
  | .offTime => .offTime
  | .retry => .retryWait
  | .hold => .hold

/-- Disables the highest enabled rail below `k`, or ends the power-down when none is left (R101). -/
def Pwr.dropBelow (p : Pwr) (k : Nat) (a : AfterDrop) : Pwr :=
  match p.topRail k with
  | some r => { (p.setRail r fun x => { x with enabled := false, good := false }) with phase := .dropping r a }
  | none => { p with phase := a.phase }

/-- The field end's power follows VFLD, rail 11 (R83); when it comes back the field end has restarted. -/
def State.followVfld (s : State) : State :=
  let on := (s.pwr.rail 11).good
  if on == s.fld.powered then s
  else if on then { s with fld := { Field.init with out := s.fld.out } }
  else { s with fld := { s.fld with powered := false } }

/-- Starts a power-down (R100, R101): the engine is held in reset, its contents are lost (R103), and the highest
enabled rail is disabled first. -/
def State.startDown (s : State) (a : AfterDrop) : State :=
  State.followVfld { s with
    pwr := { s.pwr with released := false, halted := false }.dropBelow 12 a
    eng := s.eng.cold
    stw := { s.stw with log := s.stw.log ++ [LogEv.powerDown], summary := s.stw.summary ||| 8 } }

/-- The phases a power-down can start from. -/
def PwrPhase.isUp (p : PwrPhase) : Bool :=
  match p with
  | .ready k => decide (2 < k)
  | .raising _ | .pllWait | .running => true
  | _ => false

/-- Starts a power-down unless one runs already or the rails are off (R103, R171). -/
def State.powerDown (s : State) : State :=
  if s.pwr.phase.isUp then s.startDown .offTime
  else match s.pwr.phase with
    | .ready _ => { s with pwr := { s.pwr with phase := .standby } }
    | .retryWait => { s with pwr := { s.pwr with phase := .offTime } }
    | _ => s

/-- Begins a fresh power-up at rail 2 (R95). -/
def Pwr.beginUp (p : Pwr) : Pwr := { p with phase := .ready 2, retries := 0 }

/-- Begins a power-up if enable is present and the eFuse is closed, else waits in standby (R94, R103). -/
def Pwr.upIfEnabled (p : Pwr) : Pwr :=
  if p.enable && !p.efuseOpen then p.beginUp else { p with phase := .standby, retries := 0 }

/-- A wake failure of a part (R98, R99): two retries, and at the third failure the code is kept. -/
def State.wakeFailure (s : State) (code : Nat) : State :=
  if s.pwr.retries < 2 then
    { s with pwr := { s.pwr with retries := s.pwr.retries + 1 } }.startDown .retry
  else
    { s with
      pwr := { s.pwr with wakeFail := some code }
      stw := { s.stw with log := s.stw.log ++ [LogEv.wakeFail code] } }.startDown .hold

/-- A starting steward completes a PENDING label write from the shadow page (R74). -/
def Label.recover (l : Label) : Label :=
  match l.pending with
  | none => { l with queue := [], active := none, waiting := [] }
  | some p => { l with
      mem := Tbl.writeBytes l.mem (256 * p) (fitTo 256 l.shadow)
      crcBad := l.crcBad.filter (· != p)
      pending := none, queue := [], active := none, waiting := [] }

/-- An interface's selections and staging after a restart. -/
def MgmtIf.fresh : MgmtIf := ⟨0, 0, 0, none, none, 0, none, 0⟩

/-- The copy being written by a session is left invalid (R156, R167, R170). -/
def Stw.abortSession (w : Stw) : Stw :=
  match w.session with
  | none => w
  | some x =>
    let inv (p : FwPart) : FwPart :=
      if p.runningB then { p with copyA := { p.copyA with valid := false } }
      else { p with copyB := { p.copyB with valid := false } }
    if x.target = 0 then { w with session := none, engineFw := inv w.engineFw }
    else { w with session := none, stewardFw := inv w.stewardFw }

/-- A steward whose firmware starts: volatile state is fresh, the journal is recovered, the points start over. -/
def Stw.start (w : Stw) : Stw :=
  { w.abortSession with
    run := .running
    points := w.points.map fun p => { ({} : Point) with user := p.user }
    smb := MgmtIf.fresh, mb := MgmtIf.fresh, label := w.label.recover }

/-- SLOT_12V_APPLIED: VSTBY comes up and the steward starts (R94, R74). -/
def execSlot12vApplied (s : State) : Res := .next <|
  match s.pwr.phase with
  | .noSlot =>
    { s with
      pwr := { s.pwr with slot12V := true, phase := .standby }.setRail 1 fun _ => ⟨true, true, true⟩
      stw := s.stw.start }
  | _ => s

/-- SLOT_12V_REMOVED: everything stops; the hold and the eFuse state end, and the enable setting returns to ON
(R99, R102, R162). What the steward keeps in flash and label memory stays; a firmware session leaves its copy invalid (R170). -/
def execSlot12vRemoved (s : State) : Res := .next
  { s with
    pwr := { Pwr.init with
      slot12V := false, psuOk := false, phase := .noSlot, rails := List.replicate 11 {}, released := false
      perst := s.pwr.perst }
    stw := { s.stw.abortSession with
      run := .off, summary := 0, req := none, duePowerDown := false
      fan := { s.stw.fan with duty := 0 }
      label := { s.stw.label with queue := [], active := none, waiting := [] }
      smb := MgmtIf.fresh, mb := MgmtIf.fresh }
    fld := { s.fld with powered := false }
    eng := s.eng.cold }

/-- POWER_ENABLE_QUALIFIED: the inputs have been in range with the 600 W class for 10 ms; with the enable setting
ON, power-up begins (R94). During a power-down it waits for the off time (R123). -/
def execPowerEnableQualified (s : State) : Res :=
  stewardStep s fun s =>
    let p := { s.pwr with psuOk := s.pwr.slot12V }
    match p.phase with
    | .standby => { s with pwr := p.upIfEnabled }
    | _ => { s with pwr := p }

/-- RAIL_ENABLE: the next rail is enabled, 1 ms after the one before it reported power-good (R95). -/
def execRailEnable (s : State) : Res :=
  stewardStep s fun s =>
    match s.pwr.phase with
    | .ready k => { s with pwr := { (s.pwr.setRail k fun _ => ⟨true, false, false⟩) with phase := .raising k } }
    | _ => s

/-- RAIL_POWER_GOOD: the enabled rail reports power-good; after VFLD the PLL is started (R95, R96). -/
def execRailPowerGood (s : State) : Res :=
  stewardStep s fun s =>
    match s.pwr.phase with
    | .raising k =>
      State.followVfld { s with
        pwr := { (s.pwr.setRail k fun _ => ⟨true, true, true⟩) with
          phase := if k < 11 then .ready (k + 1) else .pllWait } }
    | _ => s

/-- RAIL_WAKE_TIMEOUT: 20 ms without power-good is a wake failure of that rail (R98, Table CLK-4). -/
def execRailWakeTimeout (s : State) : Res :=
  stewardStep s fun s =>
    match s.pwr.phase with
    | .raising k => s.wakeFailure k
    | _ => s

/-- PLL_LOCK: the PLL locks and the engine is released with a cold reset (R96). After a PLL loss the cause stays
PLL_LOSS (R125). -/
def execPllLock (s : State) : Res :=
  stewardStep s fun s =>
    match s.pwr.phase with
    | .pllWait => State.coldBoot { s with pwr := { s.pwr with phase := .running, retries := 0 } } s.pwr.cause
    | _ => s

/-- PLL_LOCK_TIMEOUT: 5 ms without lock is a wake failure of part 0x10 (R98, R125). -/
def execPllLockTimeout (s : State) : Res :=
  stewardStep s fun s =>
    match s.pwr.phase with
    | .pllWait => { s with pwr := { s.pwr with cause := 0 } }.wakeFailure 0x10
    | _ => s

/-- WAKE_RETRY: 100 ms after a wake failure the sequence starts again from rail 2 (R98). -/
def execWakeRetry (s : State) : Res :=
  stewardStep s fun s =>
    match s.pwr.phase with
    | .retryWait =>
      { s with pwr := if s.pwr.enable && !s.pwr.efuseOpen then { s.pwr with phase := .ready 2 }
                      else { s.pwr with phase := .standby, retries := 0 } }
    | _ => s

/-- POWER_DOWN_START: a power-down begins (R100, R101). -/
def execPowerDownStart (s : State) : Res := stewardStep s State.powerDown

/-- PWR_UNDERVOLTAGE: PWR has stayed below 10.8 V for 1 ms (R57). A restarting steward acts when it resumes (R166). -/
def execPwrUndervoltage (s : State) : Res := .next <|
  let s := { s with pwr := { s.pwr with psuOk := false } }
  match s.stw.run with
  | .running => s.powerDown
  | .restarting => { s with stw := { s.stw with duePowerDown := true } }
  | .off => s

/-- RAIL_DISABLE_NEXT: the previous rail fell, or 10 ms passed, or it reported a fault; a rail that did not fall is
a failed rail and is logged (R101, R102). The next rail down is disabled. -/
def execRailDisableNext (how : RailFall) (s : State) : Res :=
  stewardStep s fun s =>
    match s.pwr.phase with
    | .dropping k a =>
      let s :=
        if how = .fell then { s with pwr := s.pwr.setRail k fun x => { x with aboveOff := false } }
        else { s with
          pwr := { s.pwr with failedRails := if k ∈ s.pwr.failedRails then s.pwr.failedRails else s.pwr.failedRails ++ [k] }
          stw := { s.stw with log := s.stw.log ++ [LogEv.railFailed k] } }
      State.followVfld { s with pwr := s.pwr.dropBelow k a }
    | _ => s

/-- EFUSE_OPEN: a failed rail is still above its off threshold 100 ms after its disable, so the input eFuse opens
and everything but the standby regulator loses 12 V (R102). -/
def execEfuseOpen (s : State) : Res :=
  stewardStep s fun s =>
    if s.pwr.failedRails.any fun k => (s.pwr.rail k).aboveOff && !(s.pwr.rail k).enabled then
      State.followVfld { s with
        pwr := { s.pwr with
          efuseOpen := true, released := false
          phase := match s.pwr.phase with
            | .dropping _ a => a.phase
            | .retryWait => .retryWait
            | .hold => .hold
            | .standby => .standby
            | _ => .offTime
          rails := ⟨true, true, true⟩ :: List.replicate 10 {} } }
    else s

/-- OFF_TIME_END: the 500 ms off time ends, and a fresh power-up begins if enable is present (R103, R123). -/
def execOffTimeEnd (s : State) : Res :=
  stewardStep s fun s =>
    match s.pwr.phase with
    | .offTime => { s with pwr := s.pwr.upIfEnabled }
    | _ => s

/-- The mailbox protocol versions a release knows: up to 1 for release 1.0, up to 2 for 1.1 (R158, Table STW-6). -/
def protoMax (c : FwCopy) : Nat := if c.major > 1 ∨ c.minor ≥ 1 then 2 else 1

/-- BOOT_OK: the boot ROM has checked the image and the engine reports; the two parts agree on a protocol (R154, R158). -/
def execBootOk (s : State) : Res := .next <|
  if s.pwr.released && !s.pwr.halted && (s.stw.boot == .booting || s.stw.boot == .secondTry) then
    { s with
      stw := { s.stw with boot := .ok, log := s.stw.log ++ [LogEv.boot s.stw.engineFw.runningB true] }
      eng := s.eng.put Fld.STW_STAT_PROTO
        (min (protoMax (s.stw.engineFw.copy s.stw.engineFw.runningB)) (protoMax (s.stw.stewardFw.copy s.stw.stewardFw.runningB))) }
  else s

/-- BOOT_TIMEOUT: no BOOT_OK within 2 s of release. Once, the steward cold-resets with the other copy; if that
fails too the engine stays in boot-ROM recovery (R154). -/
def execBootTimeout (s : State) : Res :=
  stewardStep s fun s =>
    if !s.pwr.released || s.pwr.halted then s
    else match s.stw.boot with
    | .booting =>
      let other := !s.stw.engineFw.runningB
      let s := { s with stw := { s.stw with log := s.stw.log ++ [LogEv.boot s.stw.engineFw.runningB false] } }
      let s := s.coldReset 6 other true
      { s with stw := { s.stw with boot := .secondTry } }
    | .secondTry =>
      { s with
        stw := { s.stw with boot := .recovery, log := s.stw.log ++ [LogEv.boot s.stw.engineFw.runningB false] }
        eng := s.eng.put Fld.GLB_STAT_BOOT 1 }
    | _ => s

/-- PERST_N_ASSERT: PERST_N, a hot reset or a link-down cold-resets the engine (R113, R174). A hot reset or
link-down leaves the PERST_N level as it is. -/
def execPerstNAssert (linkDown : Bool) (s : State) : Res := .next <|
  let s := { s with pwr := { s.pwr with perst := s.pwr.perst || !linkDown } }
  if s.pwr.released then s.coldBoot 1 else s

/-- PERST_N_DEASSERT: the end point leaves reset, so link training can begin (R97). -/
def execPerstNDeassert (s : State) : Res := .next { s with pwr := { s.pwr with perst := false } }

/-- PLL_LOSS: lock lost for more than 1 µs cold-resets the engine with cause PLL_LOSS; it is released again when the
PLL relocks, and a relock that fails is a wake failure of part 0x10 (R125). -/
def execPllLoss (s : State) : Res := .next <|
  if s.pwr.released then
    { s with
      pwr := { s.pwr with released := false, phase := .pllWait, cause := 5 }
      eng := s.eng.cold }
  else s

/-- COLD_RESET: performed only with KEY 0x4160 (R122); ignored while the CLK block's expansion pends (R708). In boot-ROM recovery
CLK_RST_CTRL stays accessible (R712). -/
def execColdReset (key : Nat) (s : State) : Res := .next <|
  if !s.pcieUp || s.eng.is Fld.CLK_RST_STAT_BUSY then s
  else if bitOf (s.eng.rd Reg.GLB_PEND) 1 then s.onEng fun e => (e.evt Fld.GLB_EVT_PEND_WRITE).count (Reg.GLB_CNT 1)
  else if key = 0x4160 then s.coldBoot 2
  else s

end Sys2Proof.Machine
end

