-- ==== Sys2Proof/Machine/Steward.lean ====
section
/-!
DEFINITION. Steward.lean: heartbeat, monitored points, fans, watchdog, the command set on its two interfaces,
label writes, firmware sessions and calibration (R133 to R172, R72 to R77).
-/
namespace Sys2Proof.Machine

/-! ### Monitored points (Table STW-1) -/

/-- What a point's reading means (R148). -/
inductive PtKind where
  | volt (nominal : Nat)      -- millivolts
  | current                   -- units of 10 mA
  | temp                      -- signed, 0.1 °C
deriving DecidableEq, Repr

/-- What a point's fault does (R139). -/
inductive PtAction where
  | shutdown | log | opticsLp
deriving DecidableEq, Repr

/-- A row of Table STW-1: kind, factory limits (warn low, warn high, fault low, fault high, in thousandths of the
reading's unit), action, and the rail whose ON state it needs (R138). -/
structure PtInfo where
  kind : PtKind
  lims : List (Option Int)
  action : PtAction
  rail : Option Nat
deriving DecidableEq, Repr

/-- Nominal voltage and power-good threshold of each rail, in millivolts (Table CLK-2). -/
def railVolts : List (Nat × Nat) :=
  [(3300, 3070), (1800, 1670), (900, 840), (750, 700), (800, 740), (850, 790), (900, 840), (1200, 1120),
   (1100, 1020), (3300, 3070), (3300, 3130)]

/-- A voltage point with limits in percent of nominal. -/
def ptPercent (k wl wh fl fh : Nat) (rail : Option Nat) : PtInfo :=
  let n : Int := (railVolts.getD (k - 1) (0, 0)).1
  ⟨.volt n.toNat, [some (n * wl * 10), some (n * wh * 10), some (n * fl * 10), some (n * fh * 10)], .shutdown, rail⟩

/-- A current point, limits in units of 10 mA. -/
def ptCurrent (w f : Int) (a : PtAction) (rail : Option Nat) : PtInfo :=
  ⟨.current, [none, some (w * 1000), none, some (f * 1000)], a, rail⟩

/-- A temperature point, limits in degrees. -/
def ptTemp (w f : Int) (a : PtAction) : PtInfo :=
  ⟨.temp, [none, some (w * 10000), none, some (f * 10000)], a, none⟩

/-- Table STW-1. -/
def pointInfo (i : Nat) : PtInfo :=
  if i ≤ 1 then ⟨.volt 12000, [some 11400000, some 12600000, some 10800000, some 13200000], .shutdown, none⟩
  else if i = 2 then ⟨.volt 3300, [some 3140000, some 3460000, some 3000000, some 3600000], .log, none⟩
  else if i ≤ 13 then
    let k := i - 2
    let n : Int := (railVolts.getD (k - 1) (0, 0)).1
    let g : Int := (railVolts.getD (k - 1) (0, 0)).2
    ⟨.volt n.toNat, [some (n * 950), some (n * 1050), some (g * 1000), some (n * 1100)],
      if k = 1 ∨ k = 11 then .log else .shutdown, some k⟩
  else if i ≤ 17 then ptPercent 9 95 105 93 110 (some 9)
  else match i with
    | 18 => ptPercent 4 96 104 93 108 (some 4)
    | 19 => ptPercent 5 96 104 93 108 (some 5)
    | 20 => ptPercent 6 96 104 93 108 (some 6)
    | 21 => ptPercent 3 96 104 93 108 (some 3)
    | 22 => ptCurrent 550 600 .shutdown none
    | 23 => ptCurrent 4400 4800 .shutdown none
    | 24 => ptCurrent 26000 29000 .shutdown (some 4)
    | 25 => ptCurrent 20000 22500 .shutdown (some 5)
    | 26 => ptCurrent 4000 4800 .shutdown (some 6)
    | 27 => ptCurrent 4000 4800 .shutdown (some 3)
    | 28 => ptCurrent 3000 3600 .shutdown (some 7)
    | 29 => ptCurrent 1500 1800 .shutdown (some 8)
    | 30 => ptCurrent 4000 4800 .shutdown (some 9)
    | 31 => ptCurrent 3800 4200 .shutdown (some 10)
    | 32 => ptCurrent 25 30 .log none
    | 33 => ptCurrent 360 400 .log none
    | 34 => ptCurrent 90 100 .log none
    | 35 => ptCurrent 90 100 .log none
    | 36 => ptTemp 95 110 .shutdown
    | 37 => ptTemp 95 110 .shutdown
    | 38 => ptTemp 85 95 .shutdown
    | 39 => ptTemp 85 95 .shutdown
    | 40 => ptTemp 85 95 .shutdown
    | 41 => ptTemp 85 95 .shutdown
    | 42 => ⟨.temp, [some 50000, some 350000, none, some 450000], .log, none⟩
    | 43 => ptTemp 70 80 .shutdown
    | 44 => ptTemp 100 115 .shutdown
    | 45 => ptTemp 100 115 .shutdown
    | 46 => ptTemp 100 115 .shutdown
    | 47 => ptTemp 85 100 .shutdown
    | _ => ptTemp 65 75 .opticsLp

/-- The limits in force: the user's where they were tightened, else the factory's (R164). -/
def Point.lims (p : Point) (i : Nat) : List (Option Int) := p.user.getD (pointInfo i).lims

/-- A raw reading as a number in its unit: temperatures are signed. -/
def ptValue (k : PtKind) (raw : Nat) : Int :=
  match k with
  | .temp => sextOf 16 raw
  | _ => (raw : Int)

/-- The margin by which a reading must be within a limit to leave its state (R137), in thousandths. -/
def ptMargin (k : PtKind) (lim : Int) : Int :=
  match k with
  | .volt n => (n : Int) * 10
  | .current => lim * 2 / 100
  | .temp => 30000

/-- One sample against one limit: three consecutive samples set the flag, three within it by the margin clear it. -/
def LimTrack.sample (t : LimTrack) (k : PtKind) (high : Bool) (lim : Option Int) (v : Int) : LimTrack :=
  match lim with
  | none => {}
  | some l =>
    let beyond := if high then decide (l < v) else decide (v < l)
    let inside := if high then decide (v ≤ l - ptMargin k l) else decide (l + ptMargin k l ≤ v)
    let b := if beyond then t.beyond + 1 else 0
    let w := if inside then t.within + 1 else 0
    ⟨if t.flag then decide (w < 3) else decide (3 ≤ b), b, w⟩

/-- The state a point is in (R137): INVALID after three samples without an answer; a fault shows before a warning. -/
def Point.state (p : Point) : PtState :=
  let f (i : Nat) := (p.tracks.getD i {}).flag
  if 3 ≤ p.noAnswer then .invalid
  else if f 3 then .faultHigh
  else if f 2 then .faultLow
  else if f 1 then .warnHigh
  else if f 0 then .warnLow
  else .ok

/-- One sample of a point. -/
def Point.sample (p : Point) (i : Nat) (r : Option Nat) : Point :=
  match r with
  | none => { p with reading := none, noAnswer := p.noAnswer + 1 }
  | some raw =>
    let k := (pointInfo i).kind
    let v := ptValue k raw * 1000
    { p with
      reading := some raw, noAnswer := 0
      tracks := (List.range 4).map fun j => (p.tracks.getD j {}).sample k (j % 2 == 1) ((p.lims i).getD j none) v }

/-- A state is a warning. -/
def PtState.isWarn (s : PtState) : Bool := s == .warnLow || s == .warnHigh

/-- A state is a fault. -/
def PtState.isFault (s : PtState) : Bool := s == .faultLow || s == .faultHigh

/-- A point is evaluated in this sample (R138). -/
def pointLive (s : State) (i : Nat) : Bool :=
  match (pointInfo i).rail with
  | none => true
  | some k => (s.pwr.rail k).enabled && (s.pwr.rail k).good

/-- The action a point's change of state takes (R139). -/
def State.pointChange (s : State) (i : Nat) (old new : PtState) : State :=
  if old = new then s
  else
    let s := s.onStw fun w => { w with log := w.log ++ [LogEv.pointState i new] }
    let s :=
      if new.isWarn then (s.onStw fun w => { w with summary := w.summary ||| 1 }).onEng fun e => e.evtIf s.pwr.released Fld.STW_EVT_ALARM_WARN
      else s
    let s :=
      if new.isFault then
        let s := (s.onStw fun w => { w with summary := w.summary ||| 2 }).onEng fun e => e.evtIf s.pwr.released Fld.STW_EVT_ALARM_FAULT
        match (pointInfo i).action with
        | .shutdown => (s.onStw fun w => { w with log := w.log ++ [LogEv.shutdown i] }).powerDown
        | .log => s
        | .opticsLp =>
          s.onEng fun e => Engine.relinkAll { e with phys := { e.phys with
            cages := (List.range 8).map fun c =>
              let g := e.phys.cages.getD c {}
              if c / 2 = i - 48 then { g with lowPower := true } else g } }
      else s
    if new = .ok ∧ (pointInfo i).action = .opticsLp then
      s.onEng fun e => Engine.relinkAll { e with phys := { e.phys with
        cages := (List.range 8).map fun c =>
          let g := e.phys.cages.getD c {}
          if c / 2 = i - 48 then { g with lowPower := false } else g } }
    else s

/-! ### Fan law (R140 to R142) -/

/-- Start and full temperatures of a point, in 0.1 °C (Table STW-2). -/
def fanCurve (i : Nat) : Option (Int × Int) :=
  if i = 36 ∨ i = 37 then some (600, 950)
  else if 38 ≤ i ∧ i ≤ 41 then some (550, 850)
  else if i = 42 then some (250, 350)
  else if i = 43 then some (450, 700)
  else if 44 ≤ i ∧ i ≤ 46 then some (700, 1000)
  else if i = 47 then some (600, 850)
  else if 48 ≤ i ∧ i ≤ 51 then some (450, 650)
  else none

/-- The demand of one temperature point, in percent (R140). -/
def fanDemand (f : Fan) (i : Nat) (p : Point) : Nat :=
  match fanCurve i, p.reading with
  | some (st, full), some raw =>
    let t := sextOf 16 raw
    let st := st + f.startShift * 10
    if t ≤ st then f.minDuty
    else if full ≤ t then 100
    else f.minDuty + ceilDiv ((100 - f.minDuty) * (t - st).toNat) (full - st).toNat
  | _, _ => f.minDuty

/-- A blower (fan 0 or 1) has failed. -/
def Fan.blowerFailed (f : Fan) : Bool := f.failed % 4 ≠ 0

/-- The duty the law asks for, in percent. -/
def fanTarget (w : Stw) : Nat :=
  let temps := (List.range 52).filter fun i => (fanCurve i).isSome
  if w.fan.blowerFailed || temps.any fun i => (w.points.getD i {}).state != .ok then 100
  else temps.foldl (fun m i => max m (fanDemand w.fan i (w.points.getD i {}))) 0

/-- The duty at the next sample: a rise at once, a fall by at most FALL_RATE percent per second (R141). -/
def Stw.fanStep (w : Stw) : Stw :=
  let t := 100 * fanTarget w
  { w with fan := { w.fan with duty := if w.fan.duty ≤ t then t else max t (w.fan.duty - w.fan.fallRate) } }

/-- POINT_SAMPLE: every point that is evaluated takes its reading, states and actions follow, then the fan duty
(R135 to R141). A point of a rail that is not ON keeps its state (R138). -/
def execPointSample (readings : List (Option Nat)) (speeds : List Nat) (s : State) : Res :=
  stewardStep s fun s =>
    let live := (List.range 52).map (pointLive s)
    let old := s.stw.points
    let new := (List.range 52).map fun i =>
      let p := old.getD i {}
      if live.getD i false then p.sample i (readings.getD i none) else { p with reading := none }
    let s := s.onStw fun w => { w with points := new, fan := { w.fan with speeds := fitSpeeds speeds } }
    let s := s.onEng fun e => match readings.getD 36 none with
      | some raw => { e with phys := { e.phys with hotspot := sextOf 16 raw } }
      | none => e
    let s := (List.range 52).foldl (fun s i => s.pointChange i (old.getD i {}).state (new.getD i {}).state) s
    s.onStw Stw.fanStep
where
  /-- Four tachometer speeds. -/
  fitSpeeds (l : List Nat) : List Nat := (List.range 4).map fun i => l.getD i 0 % 65536

/-- FAN_FAILURE: the fan's bit is set and ALARM_FAULT raised; a tray fan only when its TRAY_MON bit is set; a
failed blower forces the duty to 100 % (R142). -/
def execFanFailure (fan : Nat) (s : State) : Res :=
  stewardStep s fun s =>
    if fan < 2 ∨ (fan < 4 ∧ bitOf s.stw.fan.trayMon (fan - 2)) then
      let s := s.onStw fun w => Stw.fanStep { w with
        fan := { w.fan with failed := w.fan.failed ||| 2 ^ fan }
        summary := w.summary ||| 4
        log := w.log ++ [LogEv.fanFailed fan] }
      s.onEng fun e => e.evtIf s.pwr.released Fld.STW_EVT_ALARM_FAULT
    else s

/-! ### Heartbeat, watchdog, restart (R134, R143 to R145, R157, R165 to R168) -/

/-- HEARTBEAT: counted modulo 256; it clears ABSENT, with an error record (R134, Table ERR-4). -/
def execHeartbeat (s : State) : Res :=
  stewardStep s fun s =>
    if s.engineUp then
      s.onEng fun e =>
        let e := e.put Fld.STW_STAT_HB (e.get Fld.STW_STAT_HB + 1)
        if e.is Fld.STW_STAT_ABSENT then (e.put Fld.STW_STAT_ABSENT 0).errInfo 0x50 19 0 1 0 0 else e
    else s

/-- STEWARD_ABSENT_TIMEOUT: 5 s without a heartbeat (R134). -/
def execStewardAbsentTimeout (s : State) : Res :=
  engineStep s fun e =>
    if e.is Fld.STW_STAT_ABSENT then e
    else ((e.put Fld.STW_STAT_ABSENT 1).evt Fld.STW_EVT_ABSENT_SET).errInfo 0x50 19 0 0 0 0

/-- WATCHDOG_KICK: firmware that runs kicks; the steward has then reached monitoring (R143, R157). -/
def execWatchdogKick (s : State) : Res :=
  stewardStep s fun s => s.onStw fun w => { w with failsToMonitor := 0 }

/-- WATCHDOG_EXPIRY: every fan output to 100 %, the regulators latch as they stand, the steward restarts; the engine
is not touched (R143). The request and session in progress are lost (R167). A second expiry in a row before monitoring
marks the running copy invalid and boots the other (R157). -/
def execWatchdogExpiry (s : State) : Res := .next <|
  if s.stw.run = .off then s
  else
    let n := if s.stw.run = .restarting then s.stw.failsToMonitor + 1 else 1
    let s := s.onStw fun w =>
      let w := w.abortSession
      let w := { w with
        run := .restarting
        fan := { w.fan with duty := 10000 }
        failsToMonitor := n
        req := w.req.map fun r => { r with answer := none, discard := true }
        label := { w.label with queue := [], active := none, waiting := [] } }
      if n = 2 then
        let f := w.stewardFw
        let bad := f.runningB
        let f := if bad then { f with copyB := { f.copyB with valid := false } } else { f with copyA := { f.copyA with valid := false } }
        { w with
          failsToMonitor := 0
          stewardFw := { f with runningB := !bad }
          log := w.log ++ [LogEv.copyInvalid bad] }
      else w
    s.onEng fun e =>
      if s.pwr.released then
        (e.put Fld.STW_STAT_RESTARTING 1).put Fld.STW_STAT_STEWARD_COPY (bit s.stw.stewardFw.runningB)
      else e

/-- STEWARD_RESUME: monitoring resumes, the rails are adopted as found, the restart is logged and counted (R144). A
power-up cut off by the expiry is powered down, a power-down goes on from the first rail still above its off threshold
(R165), and a power-down found due meanwhile begins (R166). -/
def execStewardResume (s : State) : Res := .next <|
  if s.stw.run = .restarting then
    let due := s.stw.duePowerDown
    let s := s.onStw fun w =>
      let w := w.start
      { w with
        restarts := (w.restarts + 1) % 65536, failsToMonitor := 0, duePowerDown := false
        summary := w.summary ||| 16, log := w.log ++ [LogEv.restart] }
    let s := s.onEng fun e =>
      if s.pwr.released then (e.put Fld.STW_STAT_RESTARTING 0).evt Fld.STW_EVT_WDT_RESTART else e
    match s.pwr.phase with
    | .ready _ => s.powerDown
    | .raising _ => s.powerDown
    | .pllWait => s.powerDown
    | .dropping k a => State.followVfld { s with pwr := s.pwr.dropBelow k a }
    | .running => if due then s.powerDown else s
    | _ => s
  else s

/-! ### Serving the command set (Table STW-3) -/

/-- What serving a command gives: the state, the status of Table STW-4, the answer bytes. -/
structure Svc where
  s : State
  status : Nat
  rsp : Bytes
deriving DecidableEq, Repr

/-- Which interface a transaction came by. -/
def Stw.ifc (w : Stw) (mb : Bool) : MgmtIf := if mb then w.mb else w.smb

/-- The steward with an interface changed. -/
def Stw.setIfc (w : Stw) (mb : Bool) (f : MgmtIf → MgmtIf) : Stw :=
  if mb then { w with mb := f w.mb } else { w with smb := f w.smb }

/-- A command done. -/
def svcOk (s : State) (rsp : Bytes) : Svc := ⟨s, 0, rsp⟩
/-- A command ended with a status and no answer. -/
def svcErr (s : State) (status : Nat) : Svc := ⟨s, status, []⟩

/-- A read-only command: a write is the wrong transaction type (BAD_CMD). -/
def svcRead (s : State) (wr : Bool) (rsp : Bytes) : Svc := if wr then svcErr s 2 else svcOk s rsp

/-- PAGE: write or read byte. -/
def svcPage (mb wr : Bool) (d : Bytes) (s : State) : Svc :=
  if wr then
    if d.length = 1 ∧ byteAt d 0 ≤ 51 then svcOk (s.onStw fun w => w.setIfc mb fun i => { i with page := byteAt d 0 }) []
    else svcErr s 3
  else svcOk s (natLE 1 (s.stw.ifc mb).page)

/-- CLEAR_FAULTS: clears the latched summary; a limit still exceeded is found again by the next samples. -/
def svcClearFaults (_mb wr : Bool) (d : Bytes) (s : State) : Svc :=
  if wr ∧ d = [] then svcOk (s.onStw fun w => { w with summary := 0 }) [] else svcErr s 2

/-- The word STATUS_WORD returns: six latched bits, then engine halted and user calibration active. -/
def statusWord (s : State) : Nat :=
  s.stw.summary % 64 + 64 * bit s.pwr.halted +
    128 * bit (s.stw.calUser != [] || s.stw.points.any fun p => p.user.isSome)

/-- STATUS_WORD: read word. -/
def svcStatusWord (_mb wr : Bool) (_d : Bytes) (s : State) : Svc := svcRead s wr (natLE 2 (statusWord s))

/-- An MFR field: ASCII from label page 0, whose layout the specification does not give. -/
def svcMfr (code : Nat) (wr : Bool) (s : State) : Svc :=
  svcRead s wr (freeBytes Config.fMfr code (Config.free Config.fMfr code % 33))

/-- The reading of a point as it is sent: 0xFFFF where there is none (R148). -/
def Point.sent (p : Point) : Nat := p.reading.getD 0xFFFF % 65536

/-- READ_POINT: the reading of the selected point. -/
def svcReadPoint (mb wr : Bool) (_d : Bytes) (s : State) : Svc :=
  svcRead s wr (natLE 2 (s.stw.points.getD (s.stw.ifc mb).page {}).sent)

/-- A limit as a 16-bit word, rounded into the permitted range; a limit the point does not have is a free value. -/
def limWord (i j : Nat) (l : Option Int) : Nat :=
  match l with
  | none => Config.free Config.fNoLimit (4 * i + j) % 65536
  | some v => wrapInt 16 (if j % 2 = 1 then v / 1000 else -((-v) / 1000))

/-- A POINT_LIMITS write is permitted: no limit looser than factory, no warning further out than its fault (R164). -/
def limsAllowed (fac new : List (Option Int)) : Bool :=
  let tight (j : Nat) : Bool :=
    match fac.getD j none, new.getD j none with
    | some f, some n => if j % 2 = 1 then decide (n ≤ f) else decide (f ≤ n)
    | _, _ => true
  let inside (w f : Nat) (high : Bool) : Bool :=
    match new.getD w none, new.getD f none with
    | some a, some b => if high then decide (a ≤ b) else decide (b ≤ a)
    | _, _ => true
  tight 0 && tight 1 && tight 2 && tight 3 && inside 0 2 false && inside 1 3 true

/-- POINT_LIMITS: read or write eight bytes (R164). -/
def svcPointLimits (mb wr : Bool) (d : Bytes) (s : State) : Svc :=
  let i := (s.stw.ifc mb).page
  let p := s.stw.points.getD i {}
  if wr then
    if d.length ≠ 8 then svcErr s 3
    else
      let info := pointInfo i
      let new : List (Option Int) := (List.range 4).map fun j =>
        (info.lims.getD j none).map fun _ => ptValue info.kind (leAt d (2 * j) 2) * 1000
      if limsAllowed info.lims new then
        svcOk (s.onStw fun w => { w with points := modAt w.points i fun p => { p with user := some new } }) []
      else svcErr s 4
  else svcOk s ((List.range 4).flatMap fun j => natLE 2 (limWord i j ((p.lims i).getD j none)))

/-- READ_ALL: points 0 to 51 in order, 104 bytes. -/
def svcReadAll (_mb wr : Bool) (_d : Bytes) (s : State) : Svc :=
  svcRead s wr ((List.range 52).flatMap fun i => natLE 2 (s.stw.points.getD i {}).sent)

/-- The code of a point's state in POINT_STATUS. -/
def PtState.code (p : PtState) : Nat :=
  match p with
  | .ok => 0
  | .warnLow => 1
  | .warnHigh => 2
  | .faultLow => 3
  | .faultHigh => 4
  | .invalid => 5

/-- POINT_STATUS: four bits a point, 26 bytes. -/
def svcPointStatus (_mb wr : Bool) (_d : Bytes) (s : State) : Svc :=
  let c (i : Nat) := (s.stw.points.getD i {}).state.code
  svcRead s wr ((List.range 26).flatMap fun i => natLE 1 (c (2 * i) + 16 * c (2 * i + 1)))

/-- POWER_CTRL value 0, OFF: the enable setting goes OFF, which starts a power-down (R100, R162). -/
def powerCtrlOff (s : State) : State := State.powerDown { s with pwr := { s.pwr with enableOn := false } }

/-- POWER_CTRL value 1, ON: the enable setting goes ON; in standby with enable present power-up begins (R94, R162). -/
def powerCtrlOn (s : State) : State :=
  let p := { s.pwr with enableOn := true }
  match p.phase with
  | .standby => { s with pwr := p.upIfEnabled }
  | _ => { s with pwr := p }

/-- POWER_CTRL value 2, RETRY: ends a wake-fail hold with a fresh count of retries (R99). -/
def powerCtrlRetry (s : State) : State :=
  match s.pwr.phase with
  | .hold => { s with pwr := { s.pwr with wakeFail := none }.upIfEnabled }
  | _ => s

/-- POWER_CTRL value 3, ENGINE_RESET: a cold reset with the steward's cause (R113, Table CLK-11). -/
def powerCtrlEngineReset (s : State) : State := if s.pwr.released then s.coldBoot 6 else s

/-- POWER_CTRL: write byte. -/
def svcPowerCtrl (wr : Bool) (d : Bytes) (s : State) : Svc :=
  if !wr then svcErr s 2
  else if d.length ≠ 1 then svcErr s 3
  else match byteAt d 0 with
    | 0 => svcOk (powerCtrlOff s) []
    | 1 => svcOk (powerCtrlOn s) []
    | 2 => svcOk (powerCtrlRetry s) []
    | 3 => svcOk (powerCtrlEngineReset s) []
    | _ => svcErr s 3

/-- The number of a power phase, the key of its open code. -/
def PwrPhase.index (p : PwrPhase) : Nat :=
  match p with
  | .noSlot => 0
  | .standby => 1
  | .ready _ => 2
  | .raising _ => 3
  | .pllWait => 4
  | .running => 5
  | .dropping _ _ => 6
  | .offTime => 7
  | .retryWait => 8
  | .hold => 9

/-- The number of a boot state, the key of its open code. -/
def BootState.index (b : BootState) : Nat :=
  match b with
  | .booting => 0
  | .ok => 1
  | .secondTry => 2
  | .recovery => 3

/-- POWER_STATE: state, WAKE_FAIL code, failed-rail mask, restart count, boot copy, boot state; the codes of the
states are not given. Rail k is bit k of the mask. -/
def svcPowerState (_mb wr : Bool) (_d : Bytes) (s : State) : Svc :=
  svcRead s wr <|
    natLE 1 (Config.free Config.fPowerState (s.pwr.phase.index + 16 * bit s.pwr.psuOk)) ++
    natLE 1 (s.pwr.wakeFail.getD 0) ++
    natLE 2 (s.pwr.failedRails.foldl (fun m k => m ||| 2 ^ k) 0) ++
    natLE 2 s.stw.restarts ++
    natLE 1 (bit s.stw.engineFw.runningB) ++
    natLE 1 (Config.free Config.fPowerState (64 + s.stw.boot.index))

/-- The expansion of a fan profile (Table STW-7). -/
def fanProfile (v : Nat) (f : Fan) : Option Fan :=
  match v with
  | 0 => some { f with profile := 0, minDuty := 30, startShift := 0, fallRate := 2, trayMon := 0 }
  | 1 => some { f with profile := 1, minDuty := 20, startShift := 5, fallRate := 1, trayMon := 0 }
  | 2 => some { f with profile := 2, minDuty := 100, startShift := 0, fallRate := 2, trayMon := 3 }
  | _ => none

/-- FAN_PROFILE: write or read byte; a value that names no profile is ignored whole (R17, R161). -/
def svcFanProfile (_mb wr : Bool) (d : Bytes) (s : State) : Svc :=
  if wr then
    if d.length ≠ 1 then svcErr s 3
    else match fanProfile (byteAt d 0) s.stw.fan with
      | some f => svcOk (s.onStw fun w => { w with fan := f }) []
      | none => svcErr s 3
  else svcOk s (natLE 1 s.stw.fan.profile)

/-- FAN_CONFIG: MIN_DUTY, START_SHIFT, FALL_RATE, TRAY_MON; a value out of range changes nothing, and a write sets
the readback to CUSTOM (R163). -/
def svcFanConfig (_mb wr : Bool) (d : Bytes) (s : State) : Svc :=
  let f := s.stw.fan
  if wr then
    let sh := sextOf 8 (byteAt d 1)
    if d.length = 4 ∧ 20 ≤ byteAt d 0 ∧ byteAt d 0 ≤ 100 ∧ -10 ≤ sh ∧ sh ≤ 5 ∧ 1 ≤ byteAt d 2 ∧ byteAt d 2 ≤ 20 ∧ byteAt d 3 ≤ 3 then
      svcOk (s.onStw fun w => { w with fan := { w.fan with
        profile := 7, minDuty := byteAt d 0, startShift := sh, fallRate := byteAt d 2, trayMon := byteAt d 3 } }) []
    else svcErr s 3
  else svcOk s (natLE 1 f.minDuty ++ natLE 1 (wrapInt 8 f.startShift) ++ natLE 1 f.fallRate ++ natLE 1 f.trayMon)

/-- FAN_STATUS: duty, four speeds, fault mask, profile readback, 11 bytes. -/
def svcFanStatus (_mb wr : Bool) (_d : Bytes) (s : State) : Svc :=
  let f := s.stw.fan
  svcRead s wr (natLE 1 (ceilDiv f.duty 100) ++ (List.range 4).flatMap (fun i => natLE 2 (f.speeds.getD i 0)) ++
    natLE 1 f.failed ++ natLE 1 f.profile)

/-- LAST_STATUS: the status of the last command on this interface. -/
def svcLastStatus (mb wr : Bool) (_d : Bytes) (s : State) : Svc := svcRead s wr (natLE 1 (s.stw.ifc mb).lastStatus)

/-- LABEL_SEL: page and half. -/
def svcLabelSel (mb wr : Bool) (d : Bytes) (s : State) : Svc :=
  if !wr then svcErr s 2
  else if d.length = 2 ∧ byteAt d 1 ≤ 1 then
    svcOk (s.onStw fun w => w.setIfc mb fun i => { i with labelPage := byteAt d 0, labelHalf := byteAt d 1 }) []
  else svcErr s 3

/-- A whole page as it stands. -/
def Label.page (l : Label) (p : Nat) : Bytes := Tbl.readBytes l.mem (256 * p) 256

/-- What a LABEL_DATA read sends: one half on SMBus, the whole page through the mailbox (R152). -/
def labelAnswer (mb : Bool) (half : Nat) (page : Bytes) : Bytes := if mb then page else slice page (128 * half) 128

/-- A label page the host may read (Table MOD-6). -/
def labelReadable (p : Nat) : Bool := decide (p ≤ 251)

/-- LABEL_DATA read: a snapshot of the selected page; a read of the page being written waits (R75, R76). `none` is
an answer that comes when the write commits. A page whose checksum fails gives FAULT (R681). -/
def svcLabelRead (mb : Bool) (s : State) : Svc × Bool :=
  let i := s.stw.ifc mb
  if !labelReadable i.labelPage then (svcErr s 4, false)
  else if (s.stw.label.active.map (·.page)) = some i.labelPage then
    (⟨s.onStw fun w => { w with label := { w.label with
        waiting := w.label.waiting ++ [if mb then .mailbox i.labelHalf else .smb i.labelHalf] } }, 0, []⟩, true)
  else if i.labelPage ∈ s.stw.label.crcBad then (svcErr s 6, false)
  else (svcOk s (labelAnswer mb i.labelHalf (s.stw.label.page i.labelPage)), false)

/-- LABEL_DATA write: one half into this interface's staging, tagged with its selected page; 256 bytes through the
mailbox stage both halves (R152). -/
def svcLabelWrite (mb : Bool) (d : Bytes) (s : State) : Svc :=
  let i := s.stw.ifc mb
  if d.length = 128 then
    svcOk (s.onStw fun w => w.setIfc mb fun i =>
      if i.labelHalf = 0 then { i with stage0 := some (i.labelPage, d) } else { i with stage1 := some (i.labelPage, d) }) []
  else if d.length = 256 ∧ mb then
    svcOk (s.onStw fun w => w.setIfc mb fun i =>
      { i with stage0 := some (i.labelPage, d.take 128), stage1 := some (i.labelPage, d.drop 128) }) []
  else svcErr { s with stw := s.stw.setIfc mb fun _ => i } 3

/-- LABEL_COMMIT: queues this interface's staging for page n and empties it; a page differing from a staged half's
gets BAD_ARG and keeps the staging; a page outside 128 to 251 gets DENIED (R152, Table STW-4). -/
def svcLabelCommit (mb wr : Bool) (d : Bytes) (s : State) : Svc :=
  let i := s.stw.ifc mb
  let n := byteAt d 0
  if !wr then svcErr s 2
  else if d.length ≠ 1 then svcErr s 3
  else if n < 128 ∨ 251 < n then svcErr s 4
  else if (i.stage0.any fun x => x.1 ≠ n) || (i.stage1.any fun x => x.1 ≠ n) then svcErr s 3
  else
    svcOk (s.onStw fun w =>
      let w := { w with label := { w.label with
        queue := w.label.queue ++ [LabelWrite.mk n (i.stage0.map Prod.snd) (i.stage1.map Prod.snd) mb] } }
      w.setIfc mb fun i => { i with stage0 := none, stage1 := none }) []

/-- LABEL_VIS: a user page becomes field-visible or not (Table MOD-6). -/
def svcLabelVis (_mb wr : Bool) (d : Bytes) (s : State) : Svc :=
  let p := byteAt d 0
  if !wr then svcErr s 2
  else if d.length ≠ 2 ∨ 1 < byteAt d 1 then svcErr s 3
  else if p < 128 ∨ 251 < p then svcErr s 4
  else svcOk (s.onStw fun w => { w with label := { w.label with vis := withBits w.label.vis p p (byteAt d 1) } }) []

/-- The firmware part a target number names. -/
def Stw.part (w : Stw) (t : Nat) : FwPart := if t = 0 then w.engineFw else w.stewardFw

/-- The steward with a firmware part changed. -/
def Stw.setPart (w : Stw) (t : Nat) (f : FwPart → FwPart) : Stw :=
  if t = 0 then { w with engineFw := f w.engineFw } else { w with stewardFw := f w.stewardFw }

/-- The copy that is not running, changed. -/
def FwPart.setSpare (p : FwPart) (f : FwCopy → FwCopy) : FwPart :=
  if p.runningB then { p with copyA := f p.copyA } else { p with copyB := f p.copyB }

/-- FW_BEGIN: opens a session on the copy that is not running and marks it invalid; a second session gets BUSY (R156). -/
def svcFwBegin (_mb wr : Bool) (d : Bytes) (s : State) : Svc :=
  let t := byteAt d 0
  let n := leAt d 1 4
  if !wr then svcErr s 2
  else if s.stw.session.isSome then svcErr s 1
  else if d.length ≠ 5 ∨ 1 < t ∨ (t = 0 ∧ 2 ^ 26 < n) then svcErr s 3
  else svcOk (s.onStw fun w =>
    { w.setPart t fun p => p.setSpare fun c => { c with valid := false } with session := some ⟨t, n, [], 0⟩ }) []

/-- FW_DATA: an offset and a block of the image, at most 128 bytes on SMBus and 248 through the mailbox, 120 under
protocol 1 with an engine of release 1.1 (Tables STW-3 and STW-6). -/
def svcFwData (mb wr : Bool) (d : Bytes) (s : State) : Svc :=
  let off := leAt d 0 4
  let b := d.drop 4
  let lim :=
    if !mb then 128
    else if s.eng.get Fld.STW_STAT_PROTO = 1 ∧ protoMax (s.stw.engineFw.copy s.stw.engineFw.runningB) = 2 then 120
    else 248
  if !wr then svcErr s 2
  else match s.stw.session with
    | none => svcErr s 3
    | some x =>
      if d.length < 4 ∨ lim < b.length ∨ x.len < off + b.length then svcErr s 3
      else svcOk (s.onStw fun w =>
        { w with session := some { x with data := Tbl.writeBytes x.data off b, received := x.received + b.length } }) []

/-- FW_END: the CRC-32 of the whole image validates it; only then is the copy marked valid, with its version (R156). -/
def svcFwEnd (_mb wr : Bool) (d : Bytes) (s : State) : Svc :=
  if !wr then svcErr s 2
  else match s.stw.session with
    | none => svcErr s 3
    | some x =>
      if d.length ≠ 4 then svcErr s 3
      else
        let img := Tbl.readBytes x.data 0 x.len
        if crc32 img = leNat d then
          let v := Config.free Config.fStewardVersion (leNat d)
          svcOk (s.onStw fun w =>
            { w.setPart x.target fun p => p.setSpare fun _ =>
                if x.target = 0 then ⟨true, byteAt img 5, byteAt img 4, some img⟩ else ⟨true, v / 256 % 256, v % 256, some img⟩
              with session := none }) []
        else svcErr (s.onStw fun w => w.abortSession) 3

/-- FW_ACTIVATE: a valid copy that is not running becomes preferred; an invalid one is refused. A steward image
takes effect at once through a controlled restart (R155, R156). -/
def svcFwActivate (_mb wr : Bool) (d : Bytes) (s : State) : Svc :=
  let t := byteAt d 0
  let p := s.stw.part t
  if !wr then svcErr s 2
  else if d.length ≠ 1 ∨ 1 < t ∨ !(p.copy (!p.runningB)).valid then svcErr s 3
  else
    let s := s.onStw fun w => w.setPart t fun p => { p with preferB := !p.runningB }
    if t = 0 then svcOk s []
    else
      let s := s.onStw fun w => { w.abortSession with
        run := .restarting
        fan := { w.fan with duty := 10000 }
        stewardFw := { w.stewardFw with runningB := w.stewardFw.preferB } }
      svcOk (s.onEng fun e =>
        if s.pwr.released then (e.put Fld.STW_STAT_RESTARTING 1).put Fld.STW_STAT_STEWARD_COPY (bit s.stw.stewardFw.runningB) else e) []

/-- FW_STATUS: 24 bytes; which byte holds what is not given. -/
def svcFwStatus (_mb wr : Bool) (_d : Bytes) (s : State) : Svc :=
  let x := (s.stw.session.map fun x => x.received + 1).getD 0
  svcRead s wr (freeBytes Config.fFwStatus x 24)

/-- FW_ABORT: ends the session; the copy stays invalid (R156). -/
def svcFwAbort (_mb wr : Bool) (d : Bytes) (s : State) : Svc :=
  if wr ∧ d = [] then svcOk (s.onStw Stw.abortSession) [] else svcErr s 2

/-- CAL_WRITE: length 2 selects a record for reading; longer writes a user record of up to 64 bytes (R159). -/
def svcCalWrite (mb wr : Bool) (d : Bytes) (s : State) : Svc :=
  let id := leAt d 0 2
  if !wr then svcErr s 2
  else if d.length < 2 ∨ 66 < d.length then svcErr s 3
  else if d.length = 2 then svcOk (s.onStw fun w => w.setIfc mb fun i => { i with calSel := some id }) []
  else svcOk (s.onStw fun w => { w with calUser := (w.calUser.filter fun r => r.1 ≠ id) ++ [(id, d.drop 2)] }) []

/-- CAL_READ: the effective record selected: the user's where one exists, else the factory's, whose bytes the
specification does not give (R159). -/
def svcCalRead (mb wr : Bool) (_d : Bytes) (s : State) : Svc :=
  match (s.stw.ifc mb).calSel with
  | none => if wr then svcErr s 2 else svcErr s 3
  | some id =>
    match s.stw.calUser.find? fun r => r.1 == id with
    | some r => svcRead s wr r.2
    | none => svcRead s wr (freeBytes Config.fFactoryCal id (Config.free Config.fFactoryCal (2 ^ 32 + id) % 65))

/-- CAL_RESTORE_FACTORY: with the key 0x4160, every user record is invalid; the tightened limits are user records
too (R160, R164). -/
def svcCalRestore (_mb wr : Bool) (d : Bytes) (s : State) : Svc :=
  if !wr then svcErr s 2
  else if d.length ≠ 2 then svcErr s 3
  else if leNat d ≠ 0x4160 then svcErr s 4
  else svcOk (s.onStw fun w => { w with calUser := [], points := w.points.map fun p => { p with user := none } }) []

/-- LOG_READ: event log entry n counting back from the newest as 0; the entry's format is not given. -/
def svcLogRead (mb wr : Bool) (d : Bytes) (s : State) : Svc :=
  let n := if wr then leAt d 0 2 else (s.stw.ifc mb).logSel
  if wr ∧ d.length ≠ 2 then svcErr s 3
  else if s.stw.log.length ≤ n then svcErr s 3
  else
    let s := if wr then s.onStw fun w => w.setIfc mb fun i => { i with logSel := n } else s
    svcOk s (if wr ∧ !mb then [] else freeBytes Config.fEventLog (s.stw.log.length - 1 - n) 16)

/-- The service of a command code (Table STW-3); the flag says that the answer waits for a label write. -/
def serve (code : Nat) (mb wr : Bool) (d : Bytes) (s : State) : Svc × Bool :=
  match code with
  | 0x00 => (svcPage mb wr d s, false)
  | 0x03 => (svcClearFaults mb wr d s, false)
  | 0x79 => (svcStatusWord mb wr d s, false)
  | 0x99 => (svcMfr 0x99 wr s, false)
  | 0x9A => (svcMfr 0x9A wr s, false)
  | 0x9B => (svcMfr 0x9B wr s, false)
  | 0x9E => (svcMfr 0x9E wr s, false)
  | 0xD0 => (svcReadPoint mb wr d s, false)
  | 0xD1 => (svcPointLimits mb wr d s, false)
  | 0xD2 => (svcReadAll mb wr d s, false)
  | 0xD3 => (svcPointStatus mb wr d s, false)
  | 0xD8 => (svcPowerCtrl wr d s, false)
  | 0xD9 => (svcPowerState mb wr d s, false)
  | 0xDA => (svcFanProfile mb wr d s, false)
  | 0xDB => (svcFanConfig mb wr d s, false)
  | 0xDC => (svcFanStatus mb wr d s, false)
  | 0xDF => (svcLastStatus mb wr d s, false)
  | 0xE0 => (svcLabelSel mb wr d s, false)
  | 0xE1 => if wr then (svcLabelWrite mb d s, false) else svcLabelRead mb s
  | 0xE2 => (svcLabelCommit mb wr d s, false)
  | 0xE3 => (svcLabelVis mb wr d s, false)
  | 0xE8 => (svcFwBegin mb wr d s, false)
  | 0xE9 => (svcFwData mb wr d s, false)
  | 0xEA => (svcFwEnd mb wr d s, false)
  | 0xEB => (svcFwActivate mb wr d s, false)
  | 0xEC => (svcFwStatus mb wr d s, false)
  | 0xED => (svcFwAbort mb wr d s, false)
  | 0xF0 => (svcCalWrite mb wr d s, false)
  | 0xF1 => (svcCalRead mb wr d s, false)
  | 0xF2 => (svcCalRestore mb wr d s, false)
  | 0xF8 => (svcLogRead mb wr d s, false)
  | _ => (svcErr s 2, false)

/-- A command with no data that is sent and not read: in the mailbox it looks like a read of length 0. -/
def sendByteCode (code : Nat) : Bool := code == 0x03 || code == 0xED

/-- The end of a command on SMBus: LAST_STATUS, the latched command-error bit, the answer sent (Table STW-4). The
status LAST_STATUS itself returns is the one before it. -/
def endSmb (code : Nat) (v : Svc) (waits : Bool) : State :=
  v.s.onStw fun w =>
    { w with
      smb := if code = 0xDF then w.smb else { w.smb with lastStatus := v.status }
      summary := if v.status = 0 then w.summary else w.summary ||| 32
      out := if waits then w.out else w.out ++ [v.rsp] }

/-- The end of a command in the mailbox: its answer waits for MAILBOX_ANSWER. -/
def endMb (code : Nat) (v : Svc) (waits : Bool) : State :=
  v.s.onStw fun w =>
    { w with
      mb := if code = 0xDF then w.mb else { w.mb with lastStatus := v.status }
      req := if waits then w.req else w.req.map fun r => { r with answer := some (v.status, v.rsp) } }

/-- Serves the outstanding mailbox request if it carries this code and has no answer yet (R149, R151). -/
def serveMailbox (code : Nat) (s : State) : State :=
  match s.stw.req with
  | none => s
  | some r =>
    if r.code = code ∧ r.answer = none then
      let wr := r.payload ≠ [] || sendByteCode code
      let v := serve code true wr r.payload s
      endMb code v.1 v.2
    else s

/-- One row of the command set: an SMBus transaction whose packet error code, if sent, is right (R147), or the
service of the outstanding mailbox request. -/
def stewardRow (code : Nat) (tr : StwTr) (s : State) : Res :=
  stewardStep s fun s =>
    match tr with
    | .smb wr d ok =>
      if ok then
        let v := serve code false wr d s
        endSmb code v.1 v.2
      else s
    | .mailbox => serveMailbox code s

/-- POWER_CTRL rows: the transaction must carry the row's value. -/
def powerCtrlRow (value : Nat) (tr : StwTr) (s : State) : Res :=
  match tr with
  | .smb _ _ ok => stewardRow 0xD8 (.smb true (natLE 1 value) ok) s
  | .mailbox => if (s.stw.req.map (·.payload)) = some (natLE 1 value) then stewardRow 0xD8 .mailbox s else .next s

/-- A row served in one direction only (the two LABEL_DATA rows). -/
def directedRow (code : Nat) (write : Bool) (tr : StwTr) (s : State) : Res :=
  match tr with
  | .smb _ d ok => stewardRow code (.smb write d ok) s
  | .mailbox => if (s.stw.req.map fun r => r.payload != []) = some write then stewardRow code .mailbox s else .next s

/-- PAGE: selects the point for READ_POINT and POINT_LIMITS (R151). -/
def execPage (tr : StwTr) (s : State) : Res := stewardRow 0x00 tr s
/-- CLEAR_FAULTS (R151). -/
def execClearFaults (tr : StwTr) (s : State) : Res := stewardRow 0x03 tr s
/-- STATUS_WORD (R151). -/
def execStatusWord (tr : StwTr) (s : State) : Res := stewardRow 0x79 tr s
/-- MFR_ID (R151). -/
def execMfrId (tr : StwTr) (s : State) : Res := stewardRow 0x99 tr s
/-- MFR_MODEL (R151). -/
def execMfrModel (tr : StwTr) (s : State) : Res := stewardRow 0x9A tr s
/-- MFR_REVISION (R151). -/
def execMfrRevision (tr : StwTr) (s : State) : Res := stewardRow 0x9B tr s
/-- MFR_SERIAL (R151). -/
def execMfrSerial (tr : StwTr) (s : State) : Res := stewardRow 0x9E tr s
/-- READ_POINT (R148). -/
def execReadPoint (tr : StwTr) (s : State) : Res := stewardRow 0xD0 tr s
/-- POINT_LIMITS (R164). -/
def execPointLimits (tr : StwTr) (s : State) : Res := stewardRow 0xD1 tr s
/-- READ_ALL (R148). -/
def execReadAll (tr : StwTr) (s : State) : Res := stewardRow 0xD2 tr s
/-- POINT_STATUS (R137). -/
def execPointStatus (tr : StwTr) (s : State) : Res := stewardRow 0xD3 tr s
/-- POWER_CTRL OFF (R162). -/
def execPowerCtrlOff (tr : StwTr) (s : State) : Res := powerCtrlRow 0 tr s
/-- POWER_CTRL ON (R162). -/
def execPowerCtrlOn (tr : StwTr) (s : State) : Res := powerCtrlRow 1 tr s
/-- POWER_CTRL RETRY (R99). -/
def execPowerCtrlRetry (tr : StwTr) (s : State) : Res := powerCtrlRow 2 tr s
/-- POWER_CTRL ENGINE_RESET (R113). -/
def execPowerCtrlEngineReset (tr : StwTr) (s : State) : Res := powerCtrlRow 3 tr s
/-- POWER_STATE (R151). -/
def execPowerState (tr : StwTr) (s : State) : Res := stewardRow 0xD9 tr s
/-- FAN_PROFILE (R161). -/
def execFanProfile (tr : StwTr) (s : State) : Res := stewardRow 0xDA tr s
/-- FAN_CONFIG (R163). -/
def execFanConfig (tr : StwTr) (s : State) : Res := stewardRow 0xDB tr s
/-- FAN_STATUS (R151). -/
def execFanStatus (tr : StwTr) (s : State) : Res := stewardRow 0xDC tr s
/-- LAST_STATUS (R151). -/
def execLastStatus (tr : StwTr) (s : State) : Res := stewardRow 0xDF tr s
/-- LABEL_SEL (R152). -/
def execLabelSel (tr : StwTr) (s : State) : Res := stewardRow 0xE0 tr s
/-- LABEL_DATA read (R152, R75, R76). -/
def execSmbLabelDataRead (tr : StwTr) (s : State) : Res := directedRow 0xE1 false tr s
/-- LABEL_DATA write (R152). -/
def execSmbLabelDataWrite (tr : StwTr) (s : State) : Res := directedRow 0xE1 true tr s
/-- LABEL_COMMIT (R152, R76). -/
def execLabelCommit (tr : StwTr) (s : State) : Res := stewardRow 0xE2 tr s
/-- LABEL_VIS (R72). -/
def execLabelVis (tr : StwTr) (s : State) : Res := stewardRow 0xE3 tr s
/-- FW_BEGIN (R156). -/
def execFwBegin (tr : StwTr) (s : State) : Res := stewardRow 0xE8 tr s
/-- FW_DATA (R156). -/
def execFwData (tr : StwTr) (s : State) : Res := stewardRow 0xE9 tr s
/-- FW_END (R156). -/
def execFwEnd (tr : StwTr) (s : State) : Res := stewardRow 0xEA tr s
/-- FW_ACTIVATE (R156). -/
def execFwActivate (tr : StwTr) (s : State) : Res := stewardRow 0xEB tr s
/-- FW_STATUS (R151). -/
def execFwStatus (tr : StwTr) (s : State) : Res := stewardRow 0xEC tr s
/-- FW_ABORT (R156). -/
def execFwAbort (tr : StwTr) (s : State) : Res := stewardRow 0xED tr s
/-- CAL_WRITE (R160). -/
def execCalWrite (tr : StwTr) (s : State) : Res := stewardRow 0xF0 tr s
/-- CAL_READ (R159). -/
def execCalRead (tr : StwTr) (s : State) : Res := stewardRow 0xF1 tr s
/-- CAL_RESTORE_FACTORY (R160). -/
def execCalRestoreFactory (tr : StwTr) (s : State) : Res := stewardRow 0xF2 tr s
/-- LOG_READ (R151). -/
def execLogRead (tr : StwTr) (s : State) : Res := stewardRow 0xF8 tr s

/-- FW_SESSION_TIMEOUT: a session with no FW_DATA for 60 s is aborted as if by FW_ABORT (R156). -/
def execFwSessionTimeout (s : State) : Res := stewardStep s fun s => s.onStw Stw.abortSession

/-! ### Label writes (R73, R76) -/

/-- The page a queued write makes: staged halves over the page as it stands. -/
def LabelWrite.merged (x : LabelWrite) (l : Label) : Bytes :=
  let old := l.page x.page
  (x.half0.getD (old.take 128)) ++ (x.half1.getD (old.drop 128))

/-- LABEL_WRITE_START: the next queued write goes to the shadow page and its journal record is PENDING (R73). -/
def execLabelWriteStart (s : State) : Res :=
  stewardStep s fun s => s.onStw fun w =>
    match w.label.active, w.label.queue with
    | none, x :: r => { w with label := { w.label with
        shadow := x.merged w.label, pending := some x.page, active := some x, queue := r } }
    | _, _ => w

/-- The Kolber CRC-16 of R62: polynomial 0x1021, initial 0xFFFF, no reflection. -/
def crc16Byte (c : Nat) (b : Byte) : Nat :=
  (List.range 8).foldl (fun c _ => if 0x8000 ≤ c then ((c * 2) ^^^ 0x1021) % 65536 else c * 2) (c ^^^ (b.toNat * 256))

/-- The CRC-16 of a byte string. -/
def crc16 (bs : Bytes) : Nat := bs.foldl crc16Byte 0xFFFF

/-- Host end: a frame sent, with the next SEQ and its CRC (R62, R63). -/
def Engine.kolSend (e : Engine) (typ : Nat) (payload : Bytes) : Engine :=
  let n := e.kol.txSeq
  let body := natLE 1 typ ++ natLE 1 n ++ natLE 1 payload.length ++ payload
  Engine.emit { e with kol := { e.kol with txSeq := (n + 1) % 256 } } (Out.kolber ⟨typ, n, payload.length, payload, crc16 body⟩)

/-- Host end: the eight LABEL_DATA frames of one snapshot, in chunk order (R75, R77, R681). -/
def Engine.sendLabel (e : Engine) (page status : Nat) (data : Bytes) : Engine :=
  (List.range 8).foldl (fun e c =>
    e.kolSend 0x31 (natLE 1 page ++ natLE 1 c ++ natLE 1 status ++
      if status = 0 then fitTo 32 (slice data (32 * c) 32) else List.replicate 32 0)) e

/-- A page visible to the field (Table MOD-6). -/
def Label.visible (l : Label) (p : Nat) : Bool := decide (p ≤ 1) || (decide (128 ≤ p) && decide (p ≤ 251) && bitOf l.vis p)

/-- Sends a field read's answer: NOT_VISIBLE, FAULT for a page whose checksum fails, else the page. -/
def Engine.answerLabel (e : Engine) (l : Label) (p : Nat) : Engine :=
  if !l.visible p then e.sendLabel p 1 []
  else if p ∈ l.crcBad then e.sendLabel p 2 []
  else e.sendLabel p 0 (l.page p)

/-- Serves one read that waited for a page write. -/
def State.serveWaiting (s : State) (p : Nat) (r : LabelReader) : State :=
  match r with
  | .field => if s.engineUp then s.onEng fun e => e.answerLabel s.stw.label p else s
  | .smb h => s.onStw fun w => { w with out := w.out ++ [labelAnswer false h (w.label.page p)] }
  | .mailbox h => s.onStw fun w =>
      { w with req := w.req.map fun q => { q with answer := some (0, labelAnswer true h (w.label.page p)) } }

/-- LABEL_WRITE_COMMIT: target page, its CRC, journal DONE; the reads that waited are served with the new page (R73, R76). -/
def execLabelWriteCommit (s : State) : Res :=
  stewardStep s fun s =>
    match s.stw.label.active with
    | none => s
    | some x =>
      let readers := s.stw.label.waiting
      let s := s.onStw fun w => { w with label := { w.label with
        mem := Tbl.writeBytes w.label.mem (256 * x.page) (fitTo 256 w.label.shadow)
        crcBad := w.label.crcBad.filter (· != x.page)
        pending := none, active := none, waiting := [] } }
      readers.foldl (fun s r => s.serveWaiting x.page r) s

/-! ### The mailbox (R149, R150, R167 to R169) -/

/-- A write to STW_MB_CTRL: CMD and LEN are held; with GO = 1 and BUSY = 0 the request is sent (R149). -/
def mailboxGo (ctrl : Nat) (s : State) : State :=
  let s := s.onEng fun e => (e.put Fld.STW_MB_CTRL_CMD (bitsOf ctrl 7 0)).put Fld.STW_MB_CTRL_LEN (bitsOf ctrl 24 16)
  if bitOf ctrl 31 && !s.eng.is Fld.STW_MB_STAT_BUSY then
    let data := Tbl.readBytes s.eng.mbData 0 (min (bitsOf ctrl 24 16) 256)
    { s with
      stw := { s.stw with req := some ⟨bitsOf ctrl 7 0, data, none, decide (s.stw.run ≠ .running)⟩ }
      eng := s.eng.put Fld.STW_MB_STAT_BUSY 1 }
  else s

/-- MAILBOX_GO: a GO while BUSY is 1 is ignored (R149). -/
def execMailboxGo (ctrl : Nat) (s : State) : Res := .next <|
  if s.pcieUp && !s.eng.is Fld.CLK_RST_STAT_BUSY then
    if bitOf ctrl 31 && s.eng.is Fld.STW_MB_STAT_BUSY then s else mailboxGo ctrl s
  else s

/-- The engine ends the outstanding request with a status and an answer. -/
def Engine.mbEnd (e : Engine) (status : Nat) (rsp : Bytes) : Engine :=
  let e := { e with mbData := Tbl.writeBytes e.mbData 0 (rsp.take 256) }
  let e := ((e.put Fld.STW_MB_STAT_BUSY 0).put Fld.STW_MB_STAT_DONE 1).put Fld.STW_MB_STAT_STATUS status
  (e.put Fld.STW_MB_STAT_RSP_LEN (min rsp.length 256)).evt Fld.STW_EVT_MB_DONE

/-- MAILBOX_TIMEOUT: the steward has not answered within its limit plus 100 ms: NOT_READY (R150, R167, R168). -/
def execMailboxTimeout (s : State) : Res := .next <|
  if s.eng.is Fld.STW_MB_STAT_BUSY && s.pwr.released && !s.pwr.halted then
    { s with eng := Engine.mbEnd s.eng 5 [], stw := { s.stw with req := none } }
  else s

/-- A label commit that came by the mailbox is still queued or being written, so its answer waits (R150). -/
def Stw.commitWaits (w : Stw) (code : Nat) : Bool :=
  code == 0xE2 && (w.label.queue.any (·.fromMailbox) || (w.label.active.map (·.fromMailbox)).getD false)

/-- MAILBOX_ANSWER: the steward serves the request if it has not, and its answer is delivered (R149). An answer to a
request from before a warm reset or a restart is discarded (R167, R169). -/
def execMailboxAnswer (s : State) : Res :=
  stewardStep s fun s =>
    match s.stw.req with
    | none => s
    | some r =>
      if r.discard then { s with stw := { s.stw with req := none } }
      else
        let s := serveMailbox r.code s
        match s.stw.req.bind (·.answer) with
        | none => s
        | some a =>
          if s.stw.commitWaits r.code || !s.pwr.released then s
          else { s with eng := s.eng.mbEnd a.1 a.2, stw := { s.stw with req := none } }

end Sys2Proof.Machine
end

