-- ==== Sys2Proof/Machine/Kolber.lean ====
section
/-!
DEFINITION. Kolber.lean: the Kolber channel's host end and field end, edges, triggers, optics and cables
(R50 to R54, R60 to R90).
-/
namespace Sys2Proof.Machine

/-- The payload length of each message (Table KOL-1); `none` for a TYPE not in the table. -/
def kolLen (typ : Nat) : Option Nat :=
  match typ with
  | 0x01 => some 2
  | 0x10 => some 3
  | 0x11 => some 3
  | 0x20 => some 3
  | 0x21 => some 5
  | 0x30 => some 1
  | 0x31 => some 35
  | 0x40 => some 17
  | 0x50 => some 1
  | _ => none

/-- The bytes of a frame that its CRC covers (R62). -/
def kolBody (f : KolFrame) : Bytes := natLE 1 f.typ ++ natLE 1 f.seq ++ natLE 1 f.len ++ f.payload

/-- What receiving a frame finds (R64). -/
inductive KolCheck where
  | crcFail | bad | ok
deriving DecidableEq, Repr

/-- The receive checks of R64: CRC, then LEN and TYPE. -/
def kolCheck (f : KolFrame) : KolCheck :=
  if crc16 (kolBody f) ≠ f.crc then .crcFail
  else if 35 < f.len ∨ f.payload.length ≠ f.len ∨ kolLen f.typ ≠ some f.len then .bad
  else .ok

/-- The frames missing before `seq`, given the one expected (R63). -/
def kolMissing (expected : Option Nat) (seq : Nat) : Nat :=
  match expected with
  | none => 0
  | some x => (seq + 256 - x % 256) % 256

/-- The host end receives a frame meant as TYPE `typ`: `none` leaves the frame without effect beyond its count (R63, R64). -/
def Engine.kolReceive (e : Engine) (typ : Nat) (f : KolFrame) : Engine × Option Bytes :=
  if !e.is Fld.KOL_CTRL_EN then (e, none)
  else match kolCheck f with
    | .crcFail => (e.count (Reg.KOL_CNT 0), none)
    | .bad => (e.count (Reg.KOL_CNT 1), none)
    | .ok =>
      if f.typ ≠ typ then (e, none)
      else
        let m := kolMissing e.kol.rxSeq f.seq
        ({ (if m = 0 then e else e.countN (Reg.KOL_CNT 2) m) with kol := { e.kol with rxSeq := some ((f.seq + 1) % 256) } }, some f.payload)

/-- The field end sends a frame (R62, R63). -/
def Field.send (d : Field) (typ : Nat) (payload : Bytes) : Field :=
  if !d.powered then d
  else
    let body := natLE 1 typ ++ natLE 1 d.txSeq ++ natLE 1 payload.length ++ payload
    { d with
      txSeq := (d.txSeq + 1) % 256
      out := d.out ++ [⟨typ, d.txSeq, payload.length, payload, crc16 body⟩] }

/-- The field end receives a frame meant as TYPE `typ`. -/
def Field.receive (d : Field) (typ : Nat) (f : KolFrame) : Field × Option Bytes :=
  if !d.powered then (d, none)
  else match kolCheck f with
    | .crcFail => ({ d with crcFail := d.crcFail + 1 }, none)
    | .bad => ({ d with badFrame := d.badFrame + 1 }, none)
    | .ok =>
      if f.typ ≠ typ then (d, none)
      else ({ d with lost := d.lost + kolMissing d.rxSeq f.seq, rxSeq := some ((f.seq + 1) % 256) }, some f.payload)

/-! ### Set-up -/

/-- A KOL_CTRL write: the fields change, the profile reads CUSTOM, and EN = 0 disarms without an event (R80, R81). -/
def kolCtrlWrite (v : Nat) (e : Engine) : Engine :=
  let m := 0xFF1F
  let e := (e.wr Reg.KOL_CTRL (v &&& m)).put Fld.KOL_PROFILE_PROFILE 7
  if v % 2 = 0 then { e with kol := { e.kol with armed := none } } else e

/-- KOL_CTRL_WRITE. A write while KOL's expansion pends is ignored (R708). -/
def execKolCtrlWrite (v : Nat) (s : State) : Res :=
  hostStep s fun e =>
    if bitOf (e.rd Reg.GLB_PEND) 17 then (e.evt Fld.GLB_EVT_PEND_WRITE).count (Reg.GLB_CNT 1) else kolCtrlWrite v e

/-- The expansion of a Kolber profile into KOL_CTRL (Table KOL-2). -/
def kolProfile (v : Nat) : Option Nat :=
  match v with
  | 0 => some 0x0A00
  | 1 => some 0x0A01
  | 2 => some 0x0A03
  | _ => none

/-- The engine after a Kolber profile's expansion (EN = 0 disarms, R81). -/
def kolProfileExpand (v : Nat) : Option (Engine → Engine) :=
  (kolProfile v).map fun c e =>
    let e := e.wr Reg.KOL_CTRL c
    if c % 2 = 0 then { e with kol := { e.kol with armed := none } } else e

/-- KOL_PROFILE_SELECT (R79). -/
def execKolProfileSelect (v : Nat) (s : State) : Res :=
  hostStep s (profileWrite 17 Fld.KOL_PROFILE_PROFILE v (kolProfileExpand v))

/-! ### The trigger output (R68, R81 to R85) -/

/-- The trigger fires: with WIDTH 0 no pulse and ZERO_WIDTH; with TRIGDIR 1 the pulse on E1 is followed by TRIGGER_OUT
mode 0, with TRIGDIR 0 TRIGGER_OUT mode 1 makes the field end emit it (R68, R69, R84, R85). -/
def Engine.fireTrigger (e : Engine) : Engine :=
  let w := e.get Fld.KOL_CTRL_TRIGOUT_WIDTH
  let n := (e.kol.outCtr + 1) % 65536
  if w = 0 then e.evt Fld.KOL_EVT_ZERO_WIDTH
  else
    let e := { e with kol := { e.kol with outCtr := n } }
    if e.is Fld.KOL_CTRL_TRIGDIR then
      (e.emit (.e1Pulse e.time w (e.is Fld.KOL_CTRL_TRIGOUT_POL))).kolSend 0x11 (natLE 2 n ++ [0])
    else e.kolSend 0x11 (natLE 2 n ++ [1])

/-- ARM (R81, R83, R85): ignored with EN 0; it captures the time; a time already past fires at once with TRIG_LATE, or
is discarded with TRIG_LATE while the link is down. -/
def kolArm (e : Engine) : Engine :=
  if !e.is Fld.KOL_CTRL_EN then e
  else
    let t := e.rd Reg.KOL_TRIGOUT_TIME
    if t < e.time then
      let e := { e with kol := { e.kol with armed := none } }.evt Fld.KOL_EVT_TRIG_LATE
      if e.is Fld.KOL_STAT_LINK_UP then e.fireTrigger else e
    else { e with kol := { e.kol with armed := some t } }

/-- CANCEL (R81). -/
def kolCancel (e : Engine) : Engine := { e with kol := { e.kol with armed := none } }

/-- A KOL block write that is ignored while the block's expansion pends (R708). -/
def kolWrite (f : Engine → Engine) (e : Engine) : Engine :=
  if bitOf (e.rd Reg.GLB_PEND) 17 then (e.evt Fld.GLB_EVT_PEND_WRITE).count (Reg.GLB_CNT 1) else f e

/-- KOL_TRIGOUT_ARM. -/
def execKolTrigoutArm (s : State) : Res := hostStep s (kolWrite kolArm)

/-- KOL_TRIGOUT_CANCEL. -/
def execKolTrigoutCancel (s : State) : Res := hostStep s (kolWrite kolCancel)

/-- TRIGGER_FIRE: lattice time has reached the armed time (R68); with the link down it is discarded with TRIG_LATE alone
(R83, R85). -/
def execTriggerFire (s : State) : Res :=
  engineStep s fun e =>
    match e.kol.armed with
    | none => e
    | some t =>
      if e.time < t then e
      else
        let e := { e with kol := { e.kol with armed := none } }
        if e.is Fld.KOL_STAT_LINK_UP then e.fireTrigger else e.evt Fld.KOL_EVT_TRIG_LATE

/-! ### Messages the host end receives -/

/-- LINK_HELLO_SEND: each end sends version 1 and its role every 10 ms (R65). -/
def execLinkHelloSend (fromField : Bool) (s : State) : Res :=
  if fromField then .next { s with fld := s.fld.send 0x01 [1, 1] }
  else engineStep s fun e => if e.is Fld.KOL_CTRL_EN then e.kolSend 0x01 [1, 0] else e

/-- LINK_HELLO: two consecutive valid frames of version 1 set LINK_UP (R65). -/
def execLinkHello (fr : KolFrame) (s : State) : Res :=
  engineStep s fun e =>
    let r := e.kolReceive 0x01 fr
    match r.2 with
    | none => r.1
    | some p =>
      let n := if byteAt p 0 = 1 then r.1.kol.helloRun + 1 else 0
      let e := { r.1 with kol := { r.1.kol with helloRun := n } }
      let e := e.put Fld.KOL_STAT_FIELD_VER (byteAt p 0)
      if 2 ≤ n then e.put Fld.KOL_STAT_LINK_UP 1 else e

/-- KOL_LINK_LOST: 30 ms without a valid frame (R65). -/
def execKolLinkLost (s : State) : Res :=
  engineStep s fun e =>
    if e.is Fld.KOL_STAT_LINK_UP then
      { (e.put Fld.KOL_STAT_LINK_UP 0).evt Fld.KOL_EVT_LINK_LOST with kol := { e.kol with helloRun := 0 } }
    else e

/-- A trigger edge is a tally boundary source when the period is set to trigger (R71). -/
def Engine.triggerBoundary (e : Engine) : Engine :=
  if e.is Fld.GLN_TALLY_CFG_MODE then { e with gln := { e.gln with trigDue := true } } else e

/-- TRIGGER_IN: confirms an edge (R69, R86), or with TRIGDIR 1 is itself the coarse edge (R84). -/
def execTriggerIn (fr : KolFrame) (s : State) : Res :=
  engineStep s fun e =>
    let r := e.kolReceive 0x10 fr
    match r.2 with
    | none => r.1
    | some p =>
      let e := r.1
      if e.is Fld.KOL_CTRL_TRIGDIR then
        if e.is Fld.KOL_STAT_LINK_UP then
          (((e.wr Reg.KOL_TRIG_TS e.time).wr Reg.KOL_TRIG_SEQ (leAt p 0 2 + 65536)).count (Reg.KOL_CNT 6)).triggerBoundary
        else e
      else e.evtIf (leAt p 0 2 != e.kol.trigCtr) Fld.KOL_EVT_TRIG_SEQ_MISMATCH

/-- PPS_EDGE: confirms a PPS edge and says whether its width is valid (R69, R86). -/
def execPpsEdge (fr : KolFrame) (s : State) : Res :=
  engineStep s fun e =>
    let r := e.kolReceive 0x20 fr
    match r.2 with
    | none => r.1
    | some p =>
      let e := r.1.evtIf (leAt p 0 2 != r.1.kol.ppsCtr) Fld.KOL_EVT_TRIG_SEQ_MISMATCH
      let ok := byteAt p 2 = 1
      (e.evtIf (!ok) Fld.KOL_EVT_PPS_BADWIDTH).put Fld.KOL_PPS_SEQ_VALID (bit ok)

/-- REF_STATE: REF presence and frequency offset (R66). -/
def execRefState (fr : KolFrame) (s : State) : Res :=
  engineStep s fun e =>
    let r := e.kolReceive 0x21 fr
    match r.2 with
    | none => r.1
    | some p =>
      let on := byteAt p 0 = 1
      let e := r.1.evtIf (r.1.is Fld.KOL_STAT_REF_PRES != decide on) Fld.KOL_EVT_REF_CHANGE
      (e.put Fld.KOL_STAT_REF_PRES (bit on)).wr Reg.KOL_REF (leAt p 1 4)

/-- LABEL_READ: a field read of a label page, counted; it waits only for a write of that page (R75 to R77). The
steward serves it, so without the steward it stays unanswered and the field end retries (R89). -/
def execLabelRead (fr : KolFrame) (s : State) : Res := .next <|
  let s := { s with fld := if s.fld.powered && s.fld.labelReq.isNone then
    { s.fld with labelReq := some (byteAt fr.payload 0, 0, 0) } else s.fld }
  if !s.engineUp then s
  else
    let r := s.eng.kolReceive 0x30 fr
    match r.2 with
    | none => { s with eng := r.1 }
    | some p =>
      let s := { s with eng := r.1.count (Reg.KOL_CNT 4) }
      let page := byteAt p 0
      if s.stw.run ≠ .running then s
      else if s.stw.label.active.map LabelWrite.page = some page then
        s.onStw fun w => { w with label := { w.label with waiting := w.label.waiting ++ [.field] } }
      else s.onEng fun e => e.answerLabel s.stw.label page

/-- FIXTURE_ID: presence and identity (R87, Table KOL-6). -/
def execFixtureId (fr : KolFrame) (s : State) : Res :=
  engineStep s fun e =>
    let r := e.kolReceive 0x40 fr
    match r.2 with
    | none => r.1
    | some p =>
      let e := (r.1.put Fld.KOL_STAT_FIXTURE_PRES (byteAt p 0)).evt Fld.KOL_EVT_FIXTURE_CHANGE
      (List.range 4).foldl (fun e i => e.wr (Reg.KOL_FIXTURE i) (leAt p (1 + 4 * i) 4)) e

/-- FIELD_ALARM: KOL_ALARM takes the message's bits (R88). -/
def execFieldAlarm (fr : KolFrame) (s : State) : Res :=
  engineStep s fun e =>
    let r := e.kolReceive 0x50 fr
    match r.2 with
    | none => r.1
    | some p =>
      let v := byteAt p 0 % 32
      let e := r.1.evtIf (r.1.rd Reg.KOL_ALARM != v) Fld.KOL_EVT_ALARM_CHANGE
      (e.wr Reg.KOL_ALARM v).put Fld.KOL_STAT_ALARM_ACTIVE (bit (v ≠ 0))

/-! ### Edges (R67, R70, R83) -/

/-- One microsecond in 1/16 tick; it is measured in core cycles, which a new lattice time leaves as they are. -/
def edgeGap : Nat := 16 * usTicks

/-- The lattice time of an edge: its arrival less the line's delay, to whole ticks (R67). -/
def edgeTime (t16 delay : Nat) : Nat := (t16 - delay) / 16

/-- A root on PPS steers so that its edges fall at PPS_PHASE modulo 1,250,000,000 ticks, and is no longer without PPS (R640). -/
def Engine.steerPps (e : Engine) (ts : Nat) : Engine :=
  if e.is Fld.FLG_TIME_CFG_ROOT && e.get Fld.FLG_TIME_CFG_SRC == 1 then
    let n : Nat := 1250000000
    let err : Int := (((ts + n + n / 2 - e.get Fld.FLG_TIME_CFG_PPS_PHASE % n) % n : Nat) : Int) - (n / 2 : Nat)
    { e with flg := { e.flg with ppsAt := e.cyc, ppsLost := false, slew := -err } }
  else e

/-- E0_EDGE: a PPS edge of the polarity set, with the link up (R67, R70, R83). `frac` is the arrival's sixteenth of a tick. -/
def execE0Edge (rising : Bool) (frac : Nat) (s : State) : Res :=
  engineStep s fun e =>
    let t := 16 * e.time + frac % 16
    let c := 16 * e.cyc + frac % 16
    if !e.is Fld.KOL_CTRL_EN || !e.is Fld.KOL_STAT_LINK_UP || rising == e.is Fld.KOL_CTRL_PPS_POL then e
    else if e.kol.lastE0.any fun p => decide (c < p + edgeGap) then (e.evt Fld.KOL_EVT_EDGE_TOOFAST).count (Reg.KOL_CNT 3)
    else
      let n := (e.kol.ppsCtr + 1) % 65536
      let e := { e with kol := { e.kol with ppsCtr := n, lastE0 := some c } }
      let ts := edgeTime t (e.get Fld.KOL_CAL_PPS_DELAY)
      (((e.wr Reg.KOL_PPS_TS ts).wr Reg.KOL_PPS_SEQ n).count (Reg.KOL_CNT 5)).steerPps ts

/-- E1_TRIGGER_IN_EDGE: a trigger edge when TRIGDIR is 0; it may be a tally boundary (R67, R70, R71, R83). -/
def execE1TriggerInEdge (rising : Bool) (frac : Nat) (s : State) : Res :=
  engineStep s fun e =>
    let t := 16 * e.time + frac % 16
    let c := 16 * e.cyc + frac % 16
    if !e.is Fld.KOL_CTRL_EN || !e.is Fld.KOL_STAT_LINK_UP || e.is Fld.KOL_CTRL_TRIGDIR ||
        rising == e.is Fld.KOL_CTRL_TRIGIN_POL then e
    else if e.kol.lastE1.any fun p => decide (c < p + edgeGap) then (e.evt Fld.KOL_EVT_EDGE_TOOFAST).count (Reg.KOL_CNT 3)
    else
      let n := (e.kol.trigCtr + 1) % 65536
      let e := { e with kol := { e.kol with trigCtr := n, lastE1 := some c } }
      (((e.wr Reg.KOL_TRIG_TS (edgeTime t (e.get Fld.KOL_CAL_TRIG_DELAY))).wr Reg.KOL_TRIG_SEQ n).count (Reg.KOL_CNT 6)).triggerBoundary

/-! ### The field end -/

/-- TRIGGER_OUT: the message reaches the field end, which emits the pulse in mode 1 (R84). -/
def execTriggerOut (fr : KolFrame) (s : State) : Res :=
  let r := s.fld.receive 0x11 fr
  .next { s with fld := match r.2 with
    | some p => if byteAt p 2 = 1 then { r.1 with pulses := r.1.pulses ++ [leAt p 0 2] } else r.1
    | none => r.1 }

/-- LABEL_DATA: a chunk reaches the field end; with the eighth the read is answered (R75). -/
def execLabelData (fr : KolFrame) (s : State) : Res :=
  let r := s.fld.receive 0x31 fr
  .next { s with fld := match r.2 with
    | none => r.1
    | some p =>
      let d := { r.1 with labelBuf := Tbl.writeBytes r.1.labelBuf (32 * (byteAt p 1)) (slice p 3 32) }
      match d.labelReq with
      | none => d
      | some (page, tries, got) =>
        if byteAt p 0 ≠ page then d
        else
          let got := got ||| 2 ^ byteAt p 1
          { d with labelReq := if got % 256 = 255 then none else some (page, tries, got) } }

/-- LABEL_READ_RETRY: an unanswered LABEL_READ is sent again after 10 ms, at most three times (R89). -/
def execLabelReadRetry (s : State) : Res := .next
  { s with fld := match s.fld.labelReq with
    | some (page, tries, _) =>
      if tries < 3 then Field.send { s.fld with labelReq := some (page, tries + 1, 0) } 0x30 (natLE 1 page)
      else { s.fld with labelReq := none }
    | none => s.fld }

/-- The field end sends its REF_STATE (R66). -/
def Field.sendRef (d : Field) (ppb : Int) : Field := d.send 0x21 (natLE 1 (bit d.refPresent) ++ natLE 4 (wrapInt 32 ppb))

/-- REF_GATE_END: after each gate the measured offset is sent (R66). -/
def execRefGateEnd (ppb : Int) (s : State) : Res := .next { s with fld := s.fld.sendRef ppb }

/-- REF_PRESENCE_CHANGE: sent at once, with no offset measured yet (R66). -/
def execRefPresenceChange (present : Bool) (s : State) : Res := .next
  { s with fld := if s.fld.refPresent = present then s.fld else Field.sendRef { s.fld with refPresent := present } 0 }

/-- FID_PRES_SETTLED: presence and the identity read, zero when absent (R87). -/
def execFidPresSettled (present : Bool) (ident : Bytes) (s : State) : Res := .next
  { s with fld :=
      let id := if present then fitTo 16 ident else List.replicate 16 0
      Field.send { s.fld with fixture := present, fixtureId := id } 0x40 (natLE 1 (bit present) ++ id) }

/-- FIELD_ALARM as the field end sends it; FIELD_RESET has then been reported (Table KOL-5). -/
def Field.sendAlarm (d : Field) : Field :=
  if d.powered then { d.send 0x50 (natLE 1 d.alarm) with alarm := withBits d.alarm 4 4 0 } else d

/-- VFLD_OVERCURRENT: VFLD_OUT is switched off and VFLD_OC reported (R88). -/
def execVfldOvercurrent (s : State) : Res := .next
  { s with fld := Field.sendAlarm { s.fld with vfldOn := false, alarm := s.fld.alarm ||| 1 } }

/-- VFLD_RETRY: the switched-off output is tried again; when it holds, VFLD_OC ends (R88). -/
def execVfldRetry (ok : Bool) (s : State) : Res := .next
  { s with fld := if s.fld.vfldOn || !s.fld.powered then s.fld
      else if ok then Field.sendAlarm { s.fld with vfldOn := true, alarm := withBits s.fld.alarm 0 0 0 } else s.fld }

/-- FIELD_ALARM_REPEAT: repeated every 100 ms while any alarm bit is set (R88). -/
def execFieldAlarmRepeat (s : State) : Res := .next
  { s with fld := if s.fld.alarm = 0 then s.fld else s.fld.sendAlarm }

/-- FALM_N_CHANGE: FALM_IN follows the input, and FIELD_ALARM is sent (R88). -/
def execFalmNChange (low : Bool) (s : State) : Res := .next
  { s with fld := Field.sendAlarm { s.fld with alarm := withBits s.fld.alarm 2 2 (bit low) } }

/-! ### Optics and cables (R50 to R54) -/

/-- The engine with a cage changed. -/
def Engine.setCage (e : Engine) (c : Nat) (f : Cage → Cage) : Engine :=
  { e with phys := { e.phys with cages := modAt e.phys.cages c f } }

/-- OPTICS_INSERT: a module of more than 15 W is kept in low-power mode and counted (R51); else CMIS brings it up (R52). -/
def execOpticsInsert (cage deciWatts : Nat) (s : State) : Res :=
  .next <| s.onEng fun e =>
    let hp := decide (150 < deciWatts)
    let e := (e.setCage cage fun g => { g with present := true, highPower := hp }).relinkCage cage
    if hp then { e with phys := { e.phys with highPowerEvents := e.phys.highPowerEvents + 1 } } else e

/-- CBL_PRES_CHANGE: V3P3_CBL is on only while CBL_PRES_N is low (R54). -/
def execCblPresChange (conn : Nat) (low : Bool) (s : State) : Res := .next
  (s.onEng fun e => { e with phys := { e.phys with cable := setAt e.phys.cable conn low } })

end Sys2Proof.Machine
end

