-- ==== Sys2Proof/Machine/Reset.lean ====
section
/-!
DEFINITION. Reset.lean: warm, lattice-coordinated and per-block resets (R113 to R118, R122, R128, R129, R290, R334, R335, R367,
R398, R577, R609, R649, R659, R677, R697, R705, R724).
-/
namespace Sys2Proof.Machine

/-! ### Registers (Table CLK-7) -/

/-- The engine with only those registers kept that a predicate names, by row and offset; the others take their Reset values. -/
def Engine.keepRegs (e : Engine) (keep : RegRow → Nat → Bool) : Engine :=
  { e with regs := e.regs.filter fun (x : Nat × Word) => match regFind x.1 with | some (r, _) => keep r x.1 | none => true }

/-- Registers that a warm reset leaves: the always-on counters, FLG set-up, CLK_STAT and CLK_RST_CAUSE, and those that report what
the reset does not touch: the steward, TIME_VALID, the time servo, and the boundary count (R659, R714). -/
def warmKeeps (r : RegRow) (off : Nat) : Bool :=
  r.kind == .always || (r.blk == 15 && r.kind == .setup && r.rw != 0) ||
    decide (off ∈ [Reg.CLK_STAT, Reg.CLK_RST_CAUSE, Reg.STW_STAT, Reg.GLB_STAT, Reg.FLG_TIME_STAT, Reg.FLG_STAT,
      Reg.GLN_TALLY_STAT, Reg.GLN_TALLY_TIME])

/-- Registers that a block's own reset leaves beside its always-on counters: what follows from the partition sizes, the boundary
count, the edge-line delays (R82), and live scales and zero points (R367). -/
def blockKeeps (blk : Nat) (r : RegRow) (off : Nat) : Bool :=
  r.blk != blk || r.kind == .always ||
    decide (off ∈ [Reg.ITK_CELLS, Reg.SHF_CAP 0, Reg.GLN_TALLY_STAT, Reg.GLN_TALLY_TIME, Reg.KOL_CAL]) ||
    (blk == 10 && (r.base == Reg.NUM_TSCALE 0 || r.base == Reg.NUM_TZP 0))

/-- A block's set-up registers at their Reset values, its event and tally counters zero. -/
def Engine.blockRegs (e : Engine) (blk : Nat) : Engine := e.keepRegs (blockKeeps blk)

/-- The first periodic boundary after now, as GLN_TALLY_CFG stands. -/
def Engine.nextBoundary (e : Engine) : Engine :=
  { e with gln := { e.gln with nextT := (e.time / e.tallyPeriod + 1) * e.tallyPeriod } }

/-! ### Warm reset (R116, R334, R609, R705) -/

/-- Every held undo entry is undone, and every granary hot part goes to its silo slot; loft sheaves are lost (R334). A poisoned hot
part deletes its sheaf (Table ERR-2 row 9). -/
def Engine.sheavesToSilo (e : Engine) : Engine :=
  let hs := e.shf.sheaves.flatMap fun s => (s.undo0.map (·.1)).toList ++ (s.undo1.map (·.1)).toList
  let e := hs.foldl Engine.undoSheafOf e
  let bad (s : Sheaf) : Bool := s.tier == 0 && (protWords 0 (e.hotAddr s) 128).any fun w => decide (w ∈ e.poison)
  let keep := e.shf.sheaves.filter fun s => s.tier != 2 && !bad s
  let e := (keep.filter fun s => s.tier == 0).foldl (fun e s =>
    match s.sWay with
    | some w => e.store (e.wayAddr 1 (e.shfSet 1 s.key) w) (e.hotOf s)
    | none => e) e
  let moved (s : Sheaf) : Sheaf := { key := s.key, tier := 1, gWay := none, sWay := s.sWay, lWay := none }
  { e with shf := { sheaves := keep.map moved, rec1 := e.shf.rec1 } }

/-- Frames in flight are lost, counted per port (Table CLK-7). -/
def Engine.framesLost (e : Engine) : Engine := e.pkts.foldl (fun e p => e.alwaysN (Reg.ITK_PCNT p.port 15) 1) e

/-- A domain after a cold or warm reset: ON, but GATED where a failed unit holds it (R693). -/
def Dom.restart (d : Dom) : Dom := if d.held then { st := .gated, held := true } else {}

/-- What the lattice manager and the links keep: their sequence numbers and the time servo. Routes are computed again, holding no LSA
(R638). -/
def Flg.restart (g : Flg) (cyc : Nat) (lattice : Bool) : Flg :=
  { nextMsg := g.nextMsg, nextTag := g.nextTag, lsaSeq := g.lsaSeq, lsaAt := g.lsaAt, lsaDue := true, routesDue := some cyc
    stepOk := g.stepOk, synced := g.synced, outRun := g.outRun, inRun := g.inRun, rspAt := g.rspAt, syncAt := g.syncAt
    slew := g.slew, slewAt := g.slewAt, ppsAt := g.ppsAt, ppsLost := g.ppsLost
    resetAt := if lattice then none else g.resetAt }

/-- The engine as a warm reset leaves it, with BUSY set. -/
def Engine.warm (e : Engine) (cause : Nat) : Engine :=
  let e := e.framesLost.sheavesToSilo
  let late := e.get Fld.FLG_STAT_LATE_RESET
  let e := e.keepRegs warmKeeps
  let e : Engine :=
    { regs := e.regs, time := e.time, cyc := e.cyc, freeCtr := e.freeCtr, out := e.out, phys := e.phys, glnKeep := e.glnKeep
      mem := Tbl.clearRange e.mem 0 0x11000000
      poison := e.poison.filter fun w => decide (0x11000000 ≤ w)
      doms := (List.range 19).foldl (fun t d => Tbl.set {} t d (e.dom d).restart) []
      rx := e.rx.map fun (x : Nat × Rx) => (x.1, { aligned := x.2.aligned })
      tab := { switches := e.tab.switches }
      shf := e.shf
      err := { aerCe := e.err.aerCe, aerUe := e.err.aerUe }
      flg := e.flg.restart e.cyc (cause == 4) }
  let e := ((e.wr Reg.FLG_STAT 0).put Fld.FLG_STAT_LATE_RESET late).restartPorts
  (e.nextBoundary.put Fld.CLK_RST_CAUSE_CAUSE cause).put Fld.CLK_RST_STAT_BUSY 1

/-- The module after a warm reset: KOL_CAL is loaded again (R82), and a mailbox request that is outstanding is forgotten. -/
def State.warmReset (s : State) (cause : Nat) : State :=
  { s with
    eng := (s.eng.warm cause).loadCal s.stw
    stw := { s.stw with req := s.stw.req.map fun r => { r with discard := true } } }

/-- WARM_RESET: performed only with KEY 0x4160 (R122), in boot-ROM recovery too (R712). -/
def execWarmReset (key : Nat) (s : State) : Res := .next <|
  if !s.pcieUp || s.eng.is Fld.CLK_RST_STAT_BUSY then s
  else if bitOf (s.eng.rd Reg.GLB_PEND) 1 then s.onEng (pendWrite 1 id)
  else if key = 0x4160 then s.warmReset 3
  else s

/-- WARM_RESET_COMPLETE: BUSY reads 0; THERMAL is entered again where the hotspot still asks for it (Table ERR-8). -/
def execWarmResetComplete (s : State) : Res := .next <|
  if s.pwr.released && !s.pwr.halted && s.eng.is Fld.CLK_RST_STAT_BUSY then
    s.onEng fun e => (e.put Fld.CLK_RST_STAT_BUSY 0).hotAgain
  else s

/-- LATTICE_RESET_TIME: lattice time has reached that of a lattice-coordinated reset (R118, R649). -/
def execLatticeResetTime (s : State) : Res := .next <|
  if s.engineUp then
    match s.eng.flg.resetAt with
    | some t => if t ≤ s.eng.time then s.warmReset 4 else s
    | none => s
  else s

/-! ### Per-block resets (R117, Tables CLK-7 and CLK-8) -/

/-- Every field port is administratively down. -/
def Engine.portsDown (e : Engine) : Bool := (List.range 32).all fun p => !e.is (Fld.ITK_PORT_CTRL_UP p)

/-- A block reset is accepted (Table CLK-8). -/
def Engine.resetAllowed (e : Engine) (mask : Nat) : Bool :=
  let any (l : List Nat) : Bool := l.any fun b => bitOf mask b
  let voting : Bool := e.gft.sst == .locked || (match e.gft.coord with | some c => c.decision.isNone | none => false)
  (!any [12, 13, 14, 15, 22] || e.causeOn 5) && (!any [16, 20] || e.portsDown) && (!any [21] || !voting)

/-- The tables are empty and LIVE_GEN reads 0; a switch that pends never completes (R290). -/
def Engine.emptyTables (e : Engine) : Engine :=
  let e := { e with tab := { switches := e.tab.switches } }
  [Reg.WNW_GEN, Reg.WNW_GEN_STAT, Reg.WNW_PEND_TIME].foldl (fun e r => e.wr r (regReset r).toNat) e

/-- Commands of an opcode group that are under way end with RESET. -/
def Engine.groupReset (e : Engine) (group : Nat) : Engine :=
  (e.hif.cmds.filter fun c => c.op / 16 == group && c.ph == .running).foldl (fun e c => e.finish c.id 0x22) e

/-- ORC: the node store, every resident ensemble and every grader set are cleared; no model is usable until a graft loads one
(R398). -/
def Engine.resetOrc (e : Engine) : Engine :=
  let g := e.gft
  let cmds := g.loading.toList ++ (match g.arm with | some a => a.cmd.toList | none => [])
  let e := ((e.blockRegs 8).zeroMem (e.partBase 2) (e.partSize 2)).groupReset 4
  let e := { e with
    orc := { drain := e.orc.drain }
    gft := { g with shadow := none, retiring := none, sst := .empty, arm := none, lock := none, loading := none } }
  let e := cmds.foldl (fun e c => e.finish c 0x22) e
  e.loseModel

/-- SHF: every sheaf is deleted, the set table is fresh and the loft is disabled (R335). -/
def Engine.deleteSheaves (e : Engine) : Engine :=
  let e := (e.zeroMem (e.partBase 1) (e.partSize 1)).groupReset 3
  { e with shf := {} }

/-- SLC: queues, shapers, policers and gate lists start over; the frames queued are released, EMIT commands that wait end with RESET,
and host-bound records are lost with no GAP (R577). -/
def Engine.resetSlc (e : Engine) : Engine :=
  let ids := (e.pkts.filter fun p => p.inTx).map (·.id)
  let slow := (e.gar.queue.filter fun f => f.ph == 2).map (·.pkt)
  let emits := e.slc.emits.map (·.cmd)
  let e := { e.blockRegs 13 with slc := {} }
  let e := ids.foldl (fun e i => (e.setPkt i fun p => { p with inTx := false }).settle i) e
  let e := slow.foldl (fun e i => e.slowRelease i) e
  emits.foldl (fun e c => e.finish c 0x22) e

/-- GLN: trace set-up and event counters start over, and staged records are lost (Table GLN-14). -/
def Engine.resetGln (e : Engine) : Engine :=
  let e := e.blockRegs 16
  Engine.nextBoundary { e with gln := { nextT := e.gln.nextT, staged := e.gln.staged, drained := e.gln.staged, busy := e.gln.busy } }

/-- NUM: statistics, flags, open windows and staged values go; bindings, live scales and zero points stay (R367). -/
def Engine.resetNum (e : Engine) : Engine :=
  let keep := (List.range 256).map fun t => e.rd (Reg.NUM_TCTRL t) / 4 * 4
  let e := e.blockRegs 10
  let e := keep.zipIdx.foldl (fun e (x : Nat × Nat) => e.wr (Reg.NUM_TCTRL x.2) x.1) e
  { e with num := [], gft := { e.gft with learn := { e.gft.learn with staged := [] } } }

/-- KOL: the host end restarts; KOL_CAL and CAL_VALID stay (R82). -/
def Engine.resetKol (e : Engine) : Engine :=
  let v := e.get Fld.KOL_STAT_CAL_VALID
  Engine.put { e.blockRegs 17 with kol := {} } Fld.KOL_STAT_CAL_VALID v

/-- ITK: cells are freed and the frames in them lost; ports stay down. Undo entries of frames that were not reported GOOD are undone,
their flows are free, and the slow path holds nothing (Table GAR-6). -/
def Engine.resetItk (e : Engine) : Engine :=
  let e := e.pkts.foldl (fun e p =>
    (if p.good then e else (e.undoSheafOf (.pkt p.id)).undoSheafOf (.pkt p.id)).releaseFlow (.pkt p.id)) e
  let own (r : HRec) : Bool := r.slow.isSome
  { e.blockRegs 3 with
    pkts := []
    gar := { e.gar with queue := [] }
    rx := e.rx.map fun (x : Nat × Rx) => (x.1, { aligned := x.2.aligned })
    slc := { e.slc with
      hq := e.slc.hq.map fun (x : Nat × HQ) => (x.1, { x.2 with recs := x.2.recs.filter fun r => !own r }) } }

/-- FLG: set-up at its Reset values, so every port is DISABLED; the lattice is this member alone. -/
def Engine.resetFlg (e : Engine) : Engine :=
  let was := e.inLattice
  let e := e.blockRegs 15
  let e := (List.range 8).foldl (fun e p => e.dropLink p 0) e
  let e := e.setFlg fun g => { g with lsas := [], routes := [], mgmt := [], reach := [], routesDue := some e.cyc }
  e.suspectCheck was

/-- One block's reset, by its bit of CLK_RST_BLOCK. -/
def Engine.resetBlock (e : Engine) (b : Nat) : Engine :=
  match b with
  | 12 => e.blockRegs 4
  | 13 => (e.blockRegs 5).emptyTables
  | 14 => (e.blockRegs 6).emptyTables
  | 15 => e.resetOrc
  | 16 => e.resetSlc
  | 17 => e.resetGln
  | 18 => e.resetNum
  | 19 => e.resetKol
  | 20 => e.resetItk
  | 21 => e.resetFlg
  | 22 => (e.blockRegs 7).deleteSheaves
  | _ => e

/-- A write of CLK_RST_BLOCK: all of its bits are performed together, or none when one is refused (R117). -/
def blockReset (mask : Nat) (e : Engine) : Engine :=
  if !e.resetAllowed mask then e.evt Fld.CLK_RST_STAT_REFUSED
  else
    let bits (lo n : Nat) : List Nat := ((List.range n).map (· + lo)).filter fun b => bitOf mask b
    (bits 0 12).foldl Engine.askReset ((bits 12 11).foldl Engine.resetBlock e)

/-- BLOCK_RESET. -/
def execBlockReset (mask : Nat) (s : State) : Res := hostStep s (pendWrite 1 (blockReset mask))

end Sys2Proof.Machine
end

