-- ==== Sys2Proof/Machine/SluiceCmds.lean ====
section
/-!
DEFINITION. SluiceCmds.lean: ENQUEUE_TX, transmission, EMIT, gate lists, samples and the sluice's profiles
(R188, R221, R222, R275, R539, R551 to R576).
-/
namespace Sys2Proof.Machine

/-! ### ENQUEUE_TX (R221, R222, R275, R551 to R555) -/

/-- The frame of an ENQUEUE_TX step goes to its partner port: policed, then admitted by its transmit colour. -/
def Engine.enqueueTx (e : Engine) (p : Pkt) : Engine :=
  let q := e.get (Fld.ITK_PORT_CFG_PAIR p.port)
  if !e.portLive q then e.count (Reg.ITK_PCNT q 14)
  else
    let t := e.txqOf q p.que
    if e.is (Fld.SLC_POL_CFG_EN p.cls) then
      let (col, e) := e.police p.cls p.col p.len
      if col = 2 ∧ e.is (Fld.SLC_POL_CFG_RED_ACT p.cls) = false then (e.tally (Reg.SLC_TXQ_TALLY t 3)).count (Reg.SLC_CNT 4)
      else e.txAdmit p t col
    else e.txAdmit p t p.col

/-- ENQUEUE_TX: once for a packet; on a tap port the frame counts as transmitted at once; with CUT 0, or a policed class, the
step waits for GOOD. -/
def enqueueTxStep (p : Pkt) (_arg : Nat) (e : Engine) : Engine :=
  if p.txStep then (e.count (Reg.CSC_CNT 6)).advance p.id
  else
    let taken (e : Engine) : Engine := (e.setPkt p.id fun p => { p with txStep := true }).advance p.id
    if e.portMode p.port = 0 then taken (e.count (Reg.CSC_CNT 5))
    else if !p.good ∧ (e.is (Fld.ITK_PORT_CFG_CUT p.port) = false ∨ e.is (Fld.SLC_POL_CFG_EN p.cls) = true) then e.wait p.id 15
    else taken (e.enqueueTx p)

/-- ENQUEUE_TX. -/
def execEnqueueTx (pkt : Nat) (s : State) : Res := engineStep s fun e => e.dispatch pkt 11 enqueueTxStep

/-! ### Transmission (R227, R536, R539, R550, R556, R558, R560) -/

/-- Whether a read of a frame for transmission meets poison (Table ERR-2). -/
def Engine.txPoison (e : Engine) (s : TxSrc) (ecc : Ecc) (cell : Nat) : Bool × Engine :=
  match s with
  | .pkt id => match e.pkt id with
    | none => (false, e)
    | some p =>
      let (bad, e) := e.cellRead p p.cells ecc cell
      if bad.isSome then (true, e.poisoned 11 0 (e.pktRef p.ts)) else (false, e)
  | .emit c =>
    let (x, e) := e.takeInject 0 ecc
    match x with
    | .ue => (true, e.cellUe.poisoned 11 0 (match e.cmd c with | some k => e.cmdRef k | none => 0))
    | .ce => let (a, e) := e.fresh Config.fCellAddr; (false, e.memCe 0 (e.partBase 0 + a % max (e.partSize 0) 1))
    | _ => (false, e)

/-- The selected frame starts: V moves on, its sojourn is noted, the queue's next head takes its tag, and the shaper is charged. -/
def Engine.txStart (e : Engine) (p t frac : Nat) (f : TxFrame) (ecc : Ecc) (cell : Nat) : Engine :=
  let fin := e.get (Fld.SLC_TXQ_TAG_F t)
  let v := (e.txp p).v
  let e := e.setTxp p fun x => { x with v := if 0 < tagDist fin v then fin else v }
  let soj := e.time - f.at_
  let e := (e.setTxq t fun q => { q with lastSojourn := soj }).highWater (Fld.SLC_TXQ_HWM_DELAY_HWM t) (min soj (2 ^ 40 - 1))
  let e := e.txTake t f.src
  let e := match e.frameLen f.src with
    | some n => if e.is (Fld.SLC_TXQ_CFG_SHAPE_EN t) then
        e.setTxq t fun q => { q with tokens := q.tokens - (((n + 20) * 2 ^ 20 : Nat) : Int) } else e
    | none => e
  let (bad, e) := e.txPoison f.src ecc cell
  let e := if bad then e.count (Reg.CSC_ERV_CNT 4) else e
  let c : TxCur :=
    { q := t, fr := f, startAt := e.cyc, stamp := stampOf e.time frac (e.get (Fld.ITK_PORT_TSOFF_TX p)),
      cut := (e.frameLen f.src).isNone, stomp := bad }
  (e.setTxp p fun x => { x with cur := some c }).busy (295 + p)

/-- TX_FRAME_START: an idle port starts the eligible head with the least tag. -/
def txFrameStart (p frac : Nat) (ecc : Ecc) (cell : Nat) (e : Engine) : Engine :=
  if !e.present p ∨ (e.txp p).cur.isSome = true then e
  else
    let e := e.txClamp p
    match e.txSelect p with
    | none => e
    | some t => match (e.txq t).frames with
      | f :: _ => e.txStart p t frac f ecc cell
      | [] => e

/-- TX_FRAME_START (R558). -/
def execTxFrameStart (port frac : Nat) (ecc : Ecc) (cell : Nat) (s : State) : Res := engineStep s (txFrameStart port frac ecc cell)

/-- A frame with its DEI bit set and its FCS computed again (R556). -/
def deiMarked (d : Bytes) : Bytes :=
  let b := (modAt d 14 fun x => x ||| 0x10).take (d.length - 4)
  b ++ natLE 4 (crc32 b)

/-- A stomped frame: its stored bytes without the FCS, then the inverted check (R539). -/
def stomped (d : Bytes) (dei : Bool) : Bytes :=
  let b := (if dei then modAt d 14 fun x => x ||| 0x10 else d).take (d.length - 4)
  b ++ natLE 4 (crc32 b ^^^ 0xFFFFFFFF)

/-- The bytes a source holds. -/
def Engine.frameBytes (e : Engine) (s : TxSrc) : Bytes :=
  match s with
  | .pkt id => ((e.pkt id).map (·.data)).getD []
  | .emit c => ((e.emitOf c).map (·.data)).getD []

/-- A transmission ends: the frame has left, its cells are released under R24, and an EMIT completes. -/
def Engine.txDone (e : Engine) (p : Nat) (c : TxCur) : Engine :=
  let d := e.frameBytes c.fr.src
  let out := if c.stomp then stomped d c.fr.dei else if c.fr.dei then deiMarked d else d
  let e := if c.fr.dei then e.count (Reg.SLC_CNT 5) else e
  let e := (e.tally (Reg.SLC_TXQ_TALLY c.q 0)).tallyN (Reg.SLC_TXQ_TALLY c.q 1) out.length
  let e := (e.alwaysN (Reg.ITK_PCNT p 10) 1).alwaysN (Reg.ITK_PCNT p 11) out.length
  let e := ((e.emit (.frame p out)).setTxp p fun x => { x with cur := none }).busy (295 + p)
  match c.fr.src with
  | .pkt id => (e.setPkt id fun p => { p with inTx := false }).settle id
  | .emit id =>
    let stamp := match e.emitOf id with | some m => if m.stamp then some c.stamp else none | none => none
    Engine.complete { e with slc := { e.slc with emits := e.slc.emits.filter fun m => m.cmd != id } } id 0 0 0 stamp (295 + p)

/-- TX_FRAME_END: the frame's last byte is due once its length is known (R540) and its duration has passed (R565). -/
def txFrameEnd (p : Nat) (e : Engine) : Engine :=
  match (e.txp p).cur with
  | none => e
  | some c => match e.frameLen c.fr.src with
    | none => e
    | some n => if e.cyc < c.startAt + e.txDuration p n then e else e.txDone p c

/-- TX_FRAME_END (R536, R563). -/
def execTxFrameEnd (port : Nat) (s : State) : Res := engineStep s (txFrameEnd port)

/-- LAUNCH_TIME_REACHED (R562): eligibility follows lattice time itself (`Engine.txEligible`), so the instant changes nothing else. -/
def execLaunchTimeReached (_txq : Nat) (s : State) : Res := engineStep s fun e => e

/-! ### EMIT (R188, R222, R224, R562, R563) -/

/-- What EMIT's operands are refused with, if anything. -/
def Engine.emitRefuse (e : Engine) (c : Cmd) : Option Nat :=
  let p := c.arg 40 1
  let fcs := bitOf (c.arg 42 1) 0
  let maxlen := e.get (Fld.ITK_PORT_CFG_MAXLEN p)
  if 32 ≤ p ∨ 64 ≤ c.arg 41 1 ∨ 4 ≤ c.arg 42 1 ∨ c.arg 43 8 ≠ 0 ∨ c.arg 51 8 ≠ 0 ∨ c.arg 59 5 ≠ 0 then some 0x10
  else if e.present p = false ∨ e.portMode p ≠ 2 then some 0x20
  else if c.len < (if fcs then 60 else 64) ∨ maxlen < c.len + (if fcs then 4 else 0) then some 0x10
  else if e.is (Fld.ITK_PORT_CTRL_UP p) = false then some 0x20
  else none

/-- An EMIT frame enters its queue once the queue admits it as green, after the earlier ones for that queue (R563). -/
def Engine.emitAdmit (e : Engine) (id : Nat) : Engine :=
  match e.emitOf id with
  | none => e
  | some m =>
    let t := e.txqOf m.port m.queue
    let out (x : Emit) : Bool := (e.txFind (.emit x.cmd)).isNone && (e.txSending (.emit x.cmd)).isNone
    let c := ceilDiv m.data.length 256
    if !out m then e
    else if e.is (Fld.ITK_PORT_CTRL_UP m.port) = false then
      Engine.finish { e with slc := { e.slc with emits := e.slc.emits.filter fun x => x.cmd != id } } id 0x20
    else if (e.slc.emits.takeWhile fun x => x.cmd != id).any (fun x => e.txqOf x.port x.queue == t && out x) = true ∨
        e.txLimit t 0 < (e.txq t).depth + c then e
    else e.txPush t ⟨.emit id, c, 0, e.time, e.time, m.launch, false⟩

/-- EMIT: it waits for free cells, fetches its data, and waits for admission. -/
def emitCmd (id : Nat) (h : HostRead) (e : Engine) : Engine :=
  let e := match e.startable id 0x10 with
    | none => e
    | some c =>
      match e.emitRefuse c with
      | some st => withCmd id 0x10 295 (fun c e => e.finish c.id st) e
      | none =>
        if e.cellsFree < ceilDiv c.len 256 then e
        else withCmd id 0x10 (295 + c.arg 40 1) (fun c e =>
          match e.cmdData c h with
          | (none, e) => e
          | (some d, e) =>
            let d := if bitOf (c.arg 42 1) 0 then d ++ natLE 4 (crc32 d) else d
            let m : Emit :=
              { cmd := c.id, data := d, port := c.arg 40 1, queue := c.arg 41 1, launch := c.arg 32 8,
                stamp := bitOf (c.arg 42 1) 1, cells := ceilDiv c.len 256 }
            { e with slc := { e.slc with emits := e.slc.emits ++ [m] } }) e
  e.emitAdmit id

/-- EMIT. -/
def execEmit (cmd : Nat) (src : HostRead) (s : State) : Res := engineStep s (emitCmd cmd src)

/-! ### Gate control lists (R564 to R567) -/

/-- The administrative bank is sound (R573). -/
def Engine.gclOk (e : Engine) (p : Nat) : Bool :=
  let n := e.get (Fld.SLC_GCL_CTRL_NENT p)
  let c := e.get (Fld.SLC_GCL_CYCLE_TICKS p)
  decide (1 ≤ n) && decide (n ≤ 256) && decide (1 ≤ c) && decide (c ≤ 1250000000)

/-- COMMIT: the administrative bank becomes the pending list, to act at the first BASE + k × CYCLE from now on. -/
def gclCommit (p : Nat) (e : Engine) : Engine :=
  if !e.present p then e
  else if !e.gclOk p then e.evt Fld.SLC_EVT_CFG_ERR
  else
    let base := e.rd (Reg.SLC_GCL_BASE p)
    let cycle := e.get (Fld.SLC_GCL_CYCLE_TICKS p)
    let act := base + ceilDiv (e.time - base) cycle * cycle
    let es := (List.range (e.get (Fld.SLC_GCL_CTRL_NENT p))).map fun i =>
      (e.rd (Reg.SLC_GCL_GATES p i), e.get (Fld.SLC_GCL_INT_INTERVAL p i))
    let e := e.setTxp p fun x => { x with pendGcl := some ⟨es, cycle, base, act⟩ }
    (e.wr (Reg.SLC_GCL_ACT p) act).put (Fld.SLC_GCL_CTRL_PEND p) 1

/-- A BAR0 write of the SLC block: ignored while an expansion of the block pends (R708); a port's profile reads CUSTOM (R573). -/
def slcPortWrite (p : Nat) (f : Engine → Engine) : Engine → Engine :=
  pendWrite 13 fun e => if 32 ≤ p then e else (f e).put (Fld.SLC_PPROFILE_PROFILE p) 7

/-- GCL_COMMIT (R567). -/
def execGclCommit (port : Nat) (s : State) : Res :=
  hostStep s <| pendWrite 13 fun e =>
    if e.present port && e.gclOk port then (gclCommit port e).put (Fld.SLC_PPROFILE_PROFILE port) 7 else gclCommit port e

/-- EN 0: every gate is open, and a pending list is discarded. -/
def gclDisable (p : Nat) (e : Engine) : Engine :=
  ((e.put (Fld.SLC_GCL_CTRL_EN p) 0).put (Fld.SLC_GCL_CTRL_PEND p) 0).setTxp p fun x => { x with pendGcl := none }

/-- GCL_DISABLE (R567). -/
def execGclDisable (port : Nat) (s : State) : Res := hostStep s (slcPortWrite port (gclDisable port))

/-- GCL_ACTIVATION: at A the pending list becomes operative and the head timers restart. -/
def gclActivation (p : Nat) (e : Engine) : Engine :=
  match (e.txp p).pendGcl with
  | none => e
  | some g =>
    if e.time < g.act then e
    else
      let e := (e.setTxp p fun x => { x with oper := some g, pendGcl := none }).put (Fld.SLC_GCL_CTRL_PEND p) 0
      let e := (e.count (Reg.SLC_CNT 6)).evt Fld.SLC_EVT_GCL_ACTIVE
      (e.portQueues p).foldl (fun e t =>
        if (e.txq t).frames.isEmpty then e
        else e.setTxq t fun q => { q with frames := modAt q.frames 0 fun f => { f with headAt := e.time } }) e

/-- GCL_ACTIVATION (R567). -/
def execGclActivation (port : Nat) (s : State) : Res := engineStep s (gclActivation port)

/-- GATE_ENTRY_CHANGE (R564): the entry in effect follows lattice time itself (`Gcl.spanAt`), so the instant changes nothing else. -/
def execGateEntryChange (_port : Nat) (s : State) : Res := engineStep s fun e => e

/-- A frame is dropped by R566: a packet's is released, an EMIT completes with ABORTED and RESULT 1. -/
def Engine.winDrop (e : Engine) (t : Nat) (f : TxFrame) : Engine :=
  let e := (((e.txTake t f.src).tally (Reg.SLC_TXQ_TALLY t 4)).count (Reg.SLC_CNT 1)).evt Fld.SLC_EVT_WIN_DROP
  match f.src with
  | .pkt id => (e.setPkt id fun p => { p with inTx := false }).settle id
  | .emit c =>
    Engine.complete { e with slc := { e.slc with emits := e.slc.emits.filter fun m => m.cmd != c } } c 0x23 1 0 none (295 + e.txPortOf t)

/-- WINDOW_OVERSIZE_DROP: a head longer than its queue's longest window, that has been head for CYCLE. -/
def windowOversize (t : Nat) (e : Engine) : Engine :=
  let p := e.txPortOf t
  match (e.txp p).oper, (e.txq t).frames with
  | some g, f :: _ =>
    match g.longest (e.localQueue t) with
    | none => e
    | some w =>
      if e.is (Fld.SLC_GCL_CTRL_EN p) && decide (w < e.txDuration p (e.frameLenMax f.src)) && decide (f.headAt + g.cycle ≤ e.time) then
        e.winDrop t f
      else e
  | _, _ => e

/-- WINDOW_OVERSIZE_DROP (R566). -/
def execWindowOversizeDrop (txq : Nat) (s : State) : Res := engineStep s (windowOversize txq)

/-! ### Samples (R569, Table SLC-2) -/

/-- A sample record: queue number, depth, frames, head delay and last sojourn. -/
def sampleWords (time q depth frames delay soj : Nat) : List Nat :=
  [time, q + 2 ^ 12 * (depth % 2 ^ 20) + 2 ^ 32 * (frames % 2 ^ 20), min delay (2 ^ 40 - 1), min soj (2 ^ 40 - 1) + 7 * 2 ^ 56]

/-- The records of one instant, in ascending queue number. -/
def Engine.samples (e : Engine) : List (List Nat) :=
  let tx := ((List.range 512).filter fun t => e.is (Fld.SLC_TXQ_CFG_SAMP_EN t)).map fun t =>
    let q := e.txq t
    sampleWords e.time t q.depth q.frames.length (match q.frames with | f :: _ => e.time - f.at_ | [] => 0) q.lastSojourn
  let hb := ((List.range 256).filter fun h => e.is (Fld.SLC_HBQ_CFG_SAMP_EN h)).map fun h =>
    let q := e.hq h
    sampleWords e.time (512 + h) q.recs.length q.recs.length (match q.recs with | r :: _ => e.time - r.at_ | [] => 0) q.lastSojourn
  tx ++ hb

/-- SAMPLE_INSTANT: lattice time is a multiple of the interval; each such instant is taken once. -/
def sampleInstant (e : Engine) : Engine :=
  let k := e.get Fld.SLC_SAMPLE_RING
  if e.is Fld.SLC_SAMPLE_EN = false ∨ e.time % (e.get Fld.SLC_SAMPLE_INTERVAL_US * usTicks) ≠ 0 ∨ e.slc.sampledAt = some e.time then e
  else
    let e := { e with slc := { e.slc with sampledAt := some e.time } }
    if e.ringState k ≠ 1 ∨ e.ringKind k ≠ 5 then e.evt Fld.SLC_EVT_CFG_ERR
    else e.samples.foldl (fun e ws => e.recordOrGap k e.time ws) e

/-- SAMPLE_INSTANT (R569). -/
def execSampleInstant (s : State) : Res := hostStep s sampleInstant

/-! ### Profiles (R571, R572) -/

/-- SHAPE_EN of a queue: setting it fills the token bucket (R560). -/
def Engine.setShape (e : Engine) (t on_ : Nat) : Engine :=
  let was := e.is (Fld.SLC_TXQ_CFG_SHAPE_EN t)
  let e := e.put (Fld.SLC_TXQ_CFG_SHAPE_EN t) on_
  if on_ = 1 ∧ was = false then
    e.setTxq t fun q => { q with tokens := ((e.get (Fld.SLC_TXQ_BURST_BURST t) * 2 ^ 20 : Nat) : Int) }
  else e

/-- The gate list of TIMED (Table SLC-4). -/
def Engine.timedGcl (e : Engine) (p : Nat) : Engine :=
  let cycle := e.get (Fld.SLC_PBASIC_CYCLE_US p) * 1250
  let first := cycle * e.get (Fld.SLC_PBASIC_SPLIT p) / 100
  let n := 64 / e.subPorts (p / 4)
  let e := ((e.put (Fld.SLC_GCL_CTRL_EN p) 1).put (Fld.SLC_GCL_CTRL_NENT p) 2).wr (Reg.SLC_GCL_BASE p) 0
  let e := (e.put (Fld.SLC_GCL_CYCLE_TICKS p) cycle).wr (Reg.SLC_GCL_GATES p 0) 1
  let e := (e.put (Fld.SLC_GCL_INT_INTERVAL p 0) first).wr (Reg.SLC_GCL_GATES p 1) (2 ^ n - 2)
  gclCommit p (e.put (Fld.SLC_GCL_INT_INTERVAL p 1) (cycle - first))

/-- The expansion of a port profile (Table SLC-4). -/
def slcPortExpand (p v : Nat) (e : Engine) : Engine :=
  let rate := if v = 1 then e.get (Fld.SLC_PBASIC_RATE_MBPS p) * 1048576 / 10000 else 0
  let e := (e.portQueues p).foldl (fun e t =>
    let e := ((e.put (Fld.SLC_TXQ_CFG_WEIGHT t) 1024).put (Fld.SLC_TXQ_CFG_DEI_MARK t) 0).put (Fld.SLC_TXQ_CFG_SAMP_EN t) 0
    let e := ((e.put (Fld.SLC_TXQ_LIMIT_CELLS t) 4096).put (Fld.SLC_TXQ_YLIM_CELLS t) 3072).put (Fld.SLC_TXQ_RLIM_CELLS t) 2048
    ((e.put (Fld.SLC_TXQ_RATE_RATE t) rate).put (Fld.SLC_TXQ_BURST_BURST t) 16384).setShape t (bit (v == 1))) e
  if v = 2 then e.timedGcl p else gclDisable p e

/-- SLC_PPROFILE: SHAPED with a rate of zero, or TIMED with a cycle out of range, breaks R573 and is ignored as a whole. -/
def slcPprofile (p v : Nat) (e : Engine) : Engine :=
  let cycle := e.get (Fld.SLC_PBASIC_CYCLE_US p) * 1250
  let bad := (v == 1 && e.get (Fld.SLC_PBASIC_RATE_MBPS p) == 0) || (v == 2 && (cycle == 0 || decide (1250000000 < cycle)))
  if !e.present p then e
  else if bad && !bitOf (e.rd Reg.GLB_PEND) 13 then e.evt Fld.SLC_EVT_CFG_ERR
  else profileWrite 13 (Fld.SLC_PPROFILE_PROFILE p) v (if v ≤ 2 then some (slcPortExpand p v) else none) e

/-- SLC_PPROFILE_SELECT (R571). -/
def execSlcPprofileSelect (port v : Nat) (s : State) : Res := hostStep s (slcPprofile port v)

/-- The expansion of a host profile. -/
def slcHostExpand (v : Nat) : Option (Engine → Engine) :=
  let mk (n : Nat) (e : Engine) : Engine :=
    let e := (e.put Fld.SLC_VSEL_BASE 0).put Fld.SLC_VSEL_COUNT n
    (List.range 256).foldl (fun e h =>
      ((e.put (Fld.SLC_HBQ_CFG_WEIGHT h) 1024).put (Fld.SLC_HBQ_LIMIT_HLIMIT h) 4096).put (Fld.SLC_HBQ_CFG_SAMP_EN h) 0) e
  match v with
  | 0 => some (mk 248)
  | 1 => some (mk 1)
  | _ => none

/-- SLC_HPROFILE_SELECT (R572). -/
def execSlcHprofileSelect (v : Nat) (s : State) : Res := hostStep s (profileWrite 13 Fld.SLC_HPROFILE_PROFILE v (slcHostExpand v))

end Sys2Proof.Machine
end

