-- ==== Sys2Proof/Machine/Verdicts.lean ====
section
/-!
DEFINITION. Verdicts.lean: verdict steps, failing frames, undo at a home by timeout, and the run-ahead profile
(R274, R532 to R546).
-/
namespace Sys2Proof.Machine

/-! ### EARLY_VERDICT and VERDICT (R274, R532, R533) -/

/-- A verdict step that writes: the first one, else counted in CSC_CNT4 (R274). -/
def Engine.verdictOnce (e : Engine) (p : Pkt) (early : Bool) : Engine :=
  if p.ver.isSome then e.count (Reg.CSC_CNT 4)
  else if early then (e.count (Reg.CSC_ERV_CNT 0)).writeVerdict p.id p.flow true
  else e.writeVerdict p.id p.flow false

/-- VERDICT waits for the status, then writes the final record (Table ERV-1). -/
def verdictStep (p : Pkt) (_arg : Nat) (e : Engine) : Engine :=
  if !p.good then e.wait p.id 15 else (e.verdictOnce p false).advance p.id

/-- VERDICT. -/
def execVerdict (pkt : Nat) (s : State) : Res := engineStep s fun e => e.dispatch pkt 10 verdictStep

/-- EARLY_VERDICT: with MODE 1 it waits and acts as VERDICT; else it writes an early record while the status is unknown,
and a final one, counted in CSC_ERV_CNT3, when it finds the status GOOD (R533). -/
def earlyVerdictStep (p : Pkt) (arg : Nat) (e : Engine) : Engine :=
  let e := if p.good && p.ver.isNone && p.why == 0 then e.count (Reg.CSC_ERV_CNT 3) else e
  if p.good ∨ e.is Fld.CSC_ERV_CFG_MODE = true then verdictStep p arg e
  else (e.verdictOnce p true).advance p.id

/-- EARLY_VERDICT. -/
def execEarlyVerdict (pkt : Nat) (s : State) : Res := engineStep s fun e => e.dispatch pkt 5 earlyVerdictStep

/-! ### Frames that fail (R534 to R539) -/

/-- The undo, the retraction and the stomp of a failed packet, in the order of R534. -/
def Engine.failFrame (e : Engine) (p : Pkt) : Engine :=
  let e := (e.undoSheafOf (.pkt p.id)).resolveRemote p false
  let e := e.setPkt p.id fun p => { p with joinClosed := true, failDone := true }
  (e.retract p.id).txFail p.id

/-- FRAME_FAIL_ON_PATH: the engine ends the path itself (R534). -/
def frameFailOnPath (id : Nat) (e : Engine) : Engine :=
  match e.pkt id with
  | none => e
  | some p =>
    if !p.onPath ∨ !p.failed then e
    else (((e.failFrame p).count (Reg.CSC_ERV_CNT 2)).evt Fld.CSC_ERV_EVT_ABORT).endPath id

/-- FRAME_FAIL_ON_PATH. -/
def execFrameFailOnPath (pkt : Nat) (s : State) : Res := engineStep s (frameFailOnPath pkt)

/-- FRAME_FAIL_AFTER_PATH: the path had already ended (R535). -/
def frameFailAfterPath (id : Nat) (e : Engine) : Engine :=
  match e.pkt id with
  | none => e
  | some p => if !p.ended ∨ !p.failed ∨ p.failDone ∨ p.byp then e else (e.failFrame p).settle id

/-- FRAME_FAIL_AFTER_PATH. -/
def execFrameFailAfterPath (pkt : Nat) (s : State) : Res := engineStep s (frameFailAfterPath pkt)

/-! ### A home's pending entries (R541) -/

/-- REMOTE_UNDO_TIMEOUT: an entry without a resolution RESOLVE_US after it was pushed is released as if GOOD, with the
flow its packet held. A hold without an entry is released when the row says so. -/
def remoteUndoTimeout (src ptag : Nat) (e : Engine) : Engine :=
  let h := Holder.remote src ptag
  match e.undoSheaf h with
  | some (s, o) =>
    let at_ := ((if o = 96 then s.undo0 else s.undo1).map (·.2)).getD 0
    if e.cyc < at_ + e.get Fld.CSC_ERV_CFG_RESOLVE_US * usTicks then e
    else (((e.releaseUndo h).releaseFlow h).count (Reg.CSC_ERV_CNT 6)).evt Fld.CSC_ERV_EVT_UNRESOLVED
  | none => if e.shf.holds.any fun x => x.2 == h then e.releaseFlow h else e

/-- REMOTE_UNDO_TIMEOUT. -/
def execRemoteUndoTimeout (src ptag : Nat) (s : State) : Res := engineStep s (remoteUndoTimeout src ptag)

/-- CSC_ERV_PROFILE_SELECT: RUNAHEAD or HOLD (Table ERV-3). -/
def execCscErvProfileSelect (v : Nat) (s : State) : Res :=
  hostStep s (profileWrite 6 Fld.CSC_ERV_PROFILE_PROFILE v (if v ≤ 1 then some fun e => e.put Fld.CSC_ERV_CFG_MODE v else none))

end Sys2Proof.Machine
end

