-- ==== Sys2Proof/Machine/Regs.lean ====
section
/-!
DEFINITION. Regs.lean: BAR0 and BAR4 as the host writes them: bad accesses, write conditions, the CUSTOM readbacks, lattice time,
granary partitions (R17, R18, R205, R207, R211, R701 to R727, and each block's expert control).
-/
namespace Sys2Proof.Machine

/-! ### Bad accesses (R701 to R703, R712) -/

/-- Offsets accessible in boot-ROM recovery (R712): GLB_ID, GLB_STAT, GLB_SCRATCH, GLB_EVT, GLB_BAD_ADDR, the three reset registers,
the STW block, the MSI-X table and pending-bit array. -/
def recoveryOk (off : Nat) : Bool :=
  decide (off ∈ [0x00, 0x0C, 0x20, 0x2C, 0x30, 0x10030, 0x10038, 0x1003C]) || decide (0x1200000 ≤ off ∧ off < 0x1300000)

/-- The width of the register that starts at an offset, where it is populated. -/
def regWidth (recovery : Bool) (off : Nat) : Option Nat :=
  if recovery && !recoveryOk off then none else (regFind off).map fun x => x.1.width

/-- An access of `n` bytes at an offset is no bad access. -/
def accessOk (recovery : Bool) (off n : Nat) : Bool :=
  if 0x1200100 ≤ off ∧ off < 0x1200200 then decide (off % 4 = 0 ∧ n % 4 = 0 ∧ 4 ≤ n ∧ off + n ≤ 0x1200200)
  else if (n ≠ 4 ∧ n ≠ 8) ∨ off % n ≠ 0 then false
  else if (0x140000 ≤ off ∧ off < 0x148000) ∨ (0x148000 ≤ off ∧ off < 0x148100) then true
  else if n = 4 then regWidth recovery off == some 32
  else (regWidth recovery off).isSome || regWidth recovery (off + 4) == some 32

/-- A bad access is recorded (R701). -/
def Engine.badAccess (e : Engine) (write : Bool) (off : Nat) : Engine :=
  ((e.evt Fld.GLB_EVT_BAD_ACCESS).wr Reg.GLB_BAD_ADDR (off % 2 ^ 25 + 2 ^ 31 * bit write)).count (Reg.GLB_CNT 0)

/-- BAR0 is there: over PCIe, and not in a warm reset (R116). -/
def State.bar0Up (s : State) : Bool := s.pcieUp && !s.eng.is Fld.CLK_RST_STAT_BUSY

/-- BAD_ACCESS: a read returns zero in every byte, a write changes nothing. -/
def execBadAccess (write : Bool) (off width : Nat) (s : State) : Res := .next <|
  if !s.bar0Up || accessOk (s.stw.boot == .recovery) off width then s
  else
    let s := s.onEng fun e => e.badAccess write off
    if write then s else s.onEng fun e => e.emit (.readData (List.replicate width 0) false)

/-! ### Lattice time and partitions (R715 to R727) -/

/-- GLB_TIME_SET: accepted on a root or outside a lattice (R715), else ignored (R642). -/
def glbTimeSet (v : Nat) (e : Engine) : Engine :=
  if e.is Fld.FLG_TIME_CFG_ROOT || !e.inLattice then
    (((e.setTime (v % 2 ^ 64)).put Fld.GLB_STAT_TIME_VALID 1).evt Fld.GLB_EVT_EPOCH_SET).count (Reg.GLB_CNT 3)
  else e.evt Fld.FLG_EVT_EPOCH_IGNORED

/-- GLB_TIME_SET. -/
def execGlbTimeSet (v : Nat) (s : State) : Res := hostStep s (glbTimeSet v)

/-- The staged sizes in MiB, in the order of R716. -/
def Engine.staged (e : Engine) : List Nat :=
  [e.get Fld.GLB_PART_A_INTAKE, e.get Fld.GLB_PART_A_SHEAF, e.get Fld.GLB_PART_A_ORCHARD, e.get Fld.GLB_PART_A_MW,
    e.get Fld.GLB_PART_B_LEARN, e.get Fld.GLB_PART_B_TRACE]

/-- The limits of Table GLB-2. -/
def partLimits : List (Nat × Nat) := [(4, 179), (1, 179), (1, 8), (2, 64), (8, 179), (1, 8)]

/-- Sizes meet R717. -/
def sizesOk (l : List Nat) : Bool := l.sum == 192 && (l.zip partLimits).all fun x => decide (x.2.1 ≤ x.1) && decide (x.1 ≤ x.2.2)

/-- The first failing reason of Table GLB-3; 0 when every check passes. -/
def Engine.applyRefusal (e : Engine) : Nat :=
  if e.is Fld.GLB_PART_STAT_BUSY then 7
  else if !sizesOk e.staged then 1
  else if !e.portsDown then 2
  else if e.gft.live.isSome ∨ e.gft.sst ≠ .empty ∨ e.gft.retiring.isSome then 3
  else if e.is Fld.GLN_TRACE_CFG_EN then 4
  else if !e.ril.threads.isEmpty then 5
  else if e.inflight ≠ 0 then 6
  else 0

/-- PART_APPLY: a GLB_PART_CTRL write with APPLY 1 and the key (R718). -/
def partApply (v : Nat) (e : Engine) : Engine :=
  if bitOf v 0 = false ∨ bitsOf v 31 16 ≠ 0x4160 then e
  else
    let r := e.applyRefusal
    if r ≠ 0 then (e.put Fld.GLB_PART_STAT_REASON r).evt Fld.GLB_EVT_PART_REFUSED
    else (e.put Fld.GLB_PART_STAT_BUSY 1).wr Reg.GLB_PEND (e.rd Reg.GLB_PEND ||| 1)

/-- PART_APPLY. -/
def execPartApply (v : Nat) (s : State) : Res := hostStep s (partApply v)

/-- The bytes of six sizes as GLB_PART_LIVE holds them. -/
def packSizes (l : List Nat) : Nat := leNat (l.map fun x => BitVec.ofNat 8 x)

/-- Where each partition starts (R716). -/
def partBases (l : List Nat) : List Nat := (List.range l.length).map fun i => (l.take i).sum

/-- The apply (R719): sizes live, granary zero, every sheaf deleted and the loft disabled (R335), trace staging empty. -/
def Engine.applyParts (e : Engine) : Engine :=
  let l := e.staged
  let e := (e.wr Reg.GLB_PART_LIVE (packSizes l)).wr Reg.GLB_PART_BASE (packSizes (partBases l))
  let e := (e.deleteSheaves.zeroMem 0 0x0C000000)
  let e := ((e.wr Reg.SHF_LOFT 0).wr (Reg.SHF_CAP 2) 0).wr (Reg.SHF_CAP 0) (l.getD 1 0 * 8192)
  let e := e.put Fld.ITK_CELLS_TOTAL (l.getD 0 0 * 4096)
  { e with gln := { e.gln with staging := [] } }

/-- PART_APPLY_COMPLETE. -/
def partApplyComplete (e : Engine) : Engine :=
  if !e.is Fld.GLB_PART_STAT_BUSY then e
  else
    let e := (e.applyParts.put Fld.GLB_PART_STAT_BUSY 0)
    ((e.wr Reg.GLB_PEND (withBits (e.rd Reg.GLB_PEND) 0 0 0)).evt Fld.GLB_EVT_PART_DONE).count (Reg.GLB_CNT 2)

/-- PART_APPLY_COMPLETE. -/
def execPartApplyComplete (s : State) : Res := engineStep s partApplyComplete

/-- GLB_PART_PROFILE: the expansion is staged whole by the write (R708, R725). -/
def partProfile (v : Nat) : Engine → Engine :=
  pendWrite 0 fun e =>
    match [0x28086020, 0x10087820, 0x40084820][v]? with
    | some a => ((e.wr Reg.GLB_PART_A a).wr Reg.GLB_PART_B 0x0808).put Fld.GLB_PART_PROFILE_PROFILE v
    | none => e

/-- GLB_PART_PROFILE_SELECT. -/
def execGlbPartProfileSelect (v : Nat) (s : State) : Res := hostStep s (partProfile v)

/-- PROFILE_EXPANSION_COMPLETE: a block's expansion is written; HIF's has an end of its own (R206, R708). -/
def execProfileExpansionComplete (blk : Nat) (s : State) : Res :=
  engineStep s fun e =>
    if blk = 0 ∨ blk = 2 ∨ 19 < blk then e else e.wr Reg.GLB_PEND (withBits (e.rd Reg.GLB_PEND) blk blk 0)

/-! ### Writes of one register -/

/-- A register after a write by its access codes: RW bits set, W1C bits cleared, the others kept (Table SCP-3). -/
def Engine.plainWrite (e : Engine) (r : RegRow) (off v : Nat) : Engine :=
  let keep := (2 ^ 64 - 1) ^^^ (r.rw ||| (v &&& r.w1c))
  e.wr off ((e.rd off &&& keep) ||| (v &&& r.rw))

/-- A write that meets its condition, and the profile readback it makes CUSTOM; else it is ignored and an event is set. -/
def Engine.condWrite (e : Engine) (r : RegRow) (off v : Nat) (ok : Bool) (err : Fld) (profile : Option Fld) : Engine :=
  if !ok then e.evt err
  else
    let e := e.plainWrite r off v
    match profile with
    | some f => e.put f 7
    | none => e

/-- An enabled ring of a domain lies inside its windows (R711). -/
def Engine.ringsInside (e : Engine) (pd : Nat) : Bool :=
  (e.ringsTouched 4096).all fun k => e.ringState k == 0 || e.ringPd k != pd ||
    (e.inWindow pd (e.rd (Reg.HIF_RING_BASE k)) (e.ringSize k * entrySize (e.ringKind k)) && e.inWindow pd (e.rd (Reg.HIF_RING_WB k)) 4)

/-- A HIF register (R205 to R211, R711); CUSTOM for the fields of an expansion (R207). -/
def hifReg (r : RegRow) (i j off v : Nat) (e : Engine) : Engine :=
  let plain := e.plainWrite r off v
  let single := decide (i ≤ 5) || (decide (8 ≤ i) && decide (i ≤ 15))
  let bad (ok : Bool) : Engine := if ok then plain else e.hifEvt Fld.HIF_EVT_CFG_ERR
  let window : Engine :=
    if plain.ringsInside i then (if i = 0 ∧ j = 0 then plain.hifCustom else plain) else e.hifEvt Fld.HIF_EVT_CFG_ERR
  match r.base with
  | 0x100010 => bad (decide (12 ≤ bitsOf v 4 0) && decide (bitsOf v 4 0 ≤ 16))
  | 0x10001C => bad (decide (1 ≤ bitsOf v 4 0) && decide (bitsOf v 4 0 ≤ 16))
  | 0x100020 => plain.hifCustom
  | 0x100028 => plain.hifCustom
  | 0x100030 =>
    let b := bitsOf v 41 36
    if (16 ≤ b ∧ b ≤ 31) ∨ b = 63 then plain.put Fld.HIF_BAR4_EN 0 else plain
  | 0x101000 => plain.hifCustom
  | 0x102000 => if i = 0 then plain.hifCustom else plain
  | 0x110000 => window
  | 0x110008 => window
  | 0x180000 => if e.ringState i ≠ 0 then e else if single then plain.hifCustom else plain
  | 0x180008 => if e.ringState i ≠ 0 then e else if single then plain.hifCustom else plain
  | 0x180010 => if e.ringState i ≠ 0 then e else if single then plain.hifCustom else plain
  | 0x180014 => if e.ringState i ≠ 0 then e else if single then plain.hifCustom else plain
  | 0x180018 => (if bitOf v 0 then ringEnable i e else ringDisable i e).hifCustom
  | _ => plain

/-- Two ranges in MiB overlap. -/
def overlap (a n b m : Nat) : Bool := decide (n ≠ 0 ∧ m ≠ 0 ∧ a < b + m ∧ b < a + n)

/-- RIL_GWIN lies clear of the intake, sheaf, orchard and model/weights partitions (R466). -/
def Engine.gwinOk (e : Engine) (v : Nat) : Bool :=
  (List.range 4).all fun p => !overlap (bitsOf v 7 0) (bitsOf v 15 8) (e.partBase p / 2 ^ 20) (e.partSize p / 2 ^ 20)

/-- RIL_SWIN lies clear of the sheaf region, the set table and the gleaning region (R317, R318, R466, R668). -/
def Engine.swinOk (e : Engine) (v : Nat) : Bool :=
  let a := bitsOf v 15 0
  let n := bitsOf v 31 16
  !overlap a n 0 40960 && !overlap a n 0xA000 32 && !overlap a n 0xD000 (e.get Fld.GLN_REGION_SIZE_64M * 64)

/-- GLN_TRACE_CFG (R675). -/
def traceCfgWrite (r : RegRow) (off v : Nat) (e : Engine) : Engine :=
  let v := v &&& r.rw
  let dest := bitsOf v 6 5
  let was := e.is Fld.GLN_TRACE_CFG_EN
  let rise := !was && bitOf v 0
  let pc := bitsOf v 12 8
  let lk := bitsOf v 19 16
  let hbuf := e.inWindow (e.get Fld.GLN_HBUF_PD) (e.rd Reg.GLN_HBUF_BASE) (e.get Fld.GLN_HBUF_SIZE * 4096)
  let bad := decide (pc < 12 ∨ 24 < pc ∨ lk < 6 ∨ 12 < lk ∨ dest = 3) || (was && dest != e.get Fld.GLN_TRACE_CFG_DEST) ||
    (rise && dest == 1 && !hbuf) || (rise && dest == 2 && e.get Fld.GLN_COLLECT_ID == e.selfId)
  if bad then e.evt Fld.GLN_EVT_CFG_ERR
  else (e.setTraceCfg ((e.rd off &&& ((2 ^ 64 - 1) ^^^ r.rw)) ||| v)).put Fld.GLN_PROFILE_PROFILE 7

/-- A GLN register (R660, R675). -/
def glnReg (r : RegRow) (off v : Nat) (e : Engine) : Engine :=
  match r.base with
  | 0xF00004 => traceCfgWrite r off v e
  | 0xF00008 =>
    e.condWrite r off v (!e.is Fld.GLN_TRACE_CFG_EN && decide (1 ≤ bitsOf v 7 0) && decide (bitsOf v 7 0 ≤ 128)) Fld.GLN_EVT_CFG_ERR none
  | 0xF00028 =>
    let p := bitsOf v 31 8
    if p = 0 ∨ 3600000 < p then e.evt Fld.GLN_EVT_CFG_ERR else (e.plainWrite r off v).nextBoundary
  | _ => e.plainWrite r off v

/-- FLG_TIME_CFG: a root is never time-suspect, and one that starts to run from PPS waits for its first edge (R640, R643). -/
def timeCfgWrite (r : RegRow) (off v : Nat) (e : Engine) : Engine :=
  let pps (e : Engine) : Bool := e.is Fld.FLG_TIME_CFG_ROOT && e.get Fld.FLG_TIME_CFG_SRC == 1
  let was := pps e
  let e := (e.plainWrite r off v).suspectCheck e.inLattice
  if pps e && !was then e.setFlg fun g => { g with ppsAt := e.cyc, ppsLost := false } else e

/-- A transmit queue's limits keep RLIM ≤ YLIM ≤ LIMIT. -/
def Engine.limitsOk (e : Engine) (t : Nat) : Bool :=
  decide (e.get (Fld.SLC_TXQ_RLIM_CELLS t) ≤ e.get (Fld.SLC_TXQ_YLIM_CELLS t)) &&
    decide (e.get (Fld.SLC_TXQ_YLIM_CELLS t) ≤ e.get (Fld.SLC_TXQ_LIMIT_CELLS t))

/-- SLC_GCL_CTRL: EN 0 opens every gate and discards a pending list; with EN 1, COMMIT makes the list pend (R567, R573). -/
def gclCtrlWrite (r : RegRow) (p off v : Nat) (e : Engine) : Engine :=
  let n := bitsOf v 16 8
  if n = 0 ∨ 256 < n then e.evt Fld.SLC_EVT_CFG_ERR
  else
    let e := e.plainWrite r off v
    let e := if bitOf v 0 then (if bitOf v 1 then gclCommit p e else e) else gclDisable p e
    e.put (Fld.SLC_PPROFILE_PROFILE p) 7

/-- A SLC register (R573, R575, R578). -/
def slcReg (r : RegRow) (i off v : Nat) (e : Engine) : Engine :=
  let plain := e.plainWrite r off v
  let err := Fld.SLC_EVT_CFG_ERR
  let queue := some (Fld.SLC_PPROFILE_PROFILE (e.txPortOf i))
  let port := some (Fld.SLC_PPROFILE_PROFILE i)
  let host := some Fld.SLC_HPROFILE_PROFILE
  if e.portGone r.base i then e
  else match r.base with
  | 0xC00008 => e.condWrite r off v (decide (1 ≤ bitsOf v 16 8) && decide (bitsOf v 7 0 + bitsOf v 16 8 ≤ 248)) err host
  | 0xC00010 => e.condWrite r off v (bitsOf v 19 0 != 0) err none
  | 0xC10000 =>
    let ok := bitsOf v 15 0 != 0 && (!bitOf v 16 || e.get (Fld.SLC_TXQ_RATE_RATE i) != 0)
    if !ok then e.evt err
    else
      let keep := withBits v 16 16 (e.get (Fld.SLC_TXQ_CFG_SHAPE_EN i))
      ((e.plainWrite r off keep).setShape i (bit (bitOf v 16))).put (Fld.SLC_PPROFILE_PROFILE (e.txPortOf i)) 7
  | 0xC10004 => e.condWrite r off v (plain.limitsOk i) err queue
  | 0xC10008 => e.condWrite r off v (plain.limitsOk i) err queue
  | 0xC1000C => e.condWrite r off v (plain.limitsOk i) err queue
  | 0xC10010 => e.condWrite r off v (!e.is (Fld.SLC_TXQ_CFG_SHAPE_EN i) || bitsOf v 31 0 != 0) err queue
  | 0xC10014 => e.condWrite r off v true err queue
  | 0xC20000 => e.condWrite r off v (bitsOf v 15 0 != 0) err host
  | 0xC20004 => e.condWrite r off v true err host
  | 0xC40000 => e.condWrite r off v (decide (bitsOf v 31 0 ≤ e.get (Fld.SLC_POL_PIR_RATE i))) err none
  | 0xC40004 => e.condWrite r off v (decide (e.get (Fld.SLC_POL_CIR_RATE i) ≤ bitsOf v 31 0)) err none
  | 0xC40008 => e.condWrite r off v (bitsOf v 23 0 != 0) err none
  | 0xC4000C => e.condWrite r off v (bitsOf v 23 0 != 0) err none
  | 0xC40010 => if bitOf v 0 && !e.is (Fld.SLC_POL_CFG_EN i) then plain.polFill i else plain
  | 0xC80000 => gclCtrlWrite r i off v e
  | 0xC80008 => e.condWrite r off v true err port
  | 0xC80010 => e.condWrite r off v (decide (1 ≤ bitsOf v 30 0) && decide (bitsOf v 30 0 ≤ 1250000000)) err port
  | 0xC81000 => e.condWrite r off v true err port
  | 0xC81008 => e.condWrite r off v true err port
  | _ => plain

/-- What is stored of the frame that a port receives. -/
def Engine.rxData (e : Engine) (p : Nat) : Bytes :=
  match (e.rxOf p).cur.bind e.pkt with
  | some p => p.data
  | none => []

/-- A register of another block (R219, R248, R328, R360, R393, R426, R465, R466, R527, R544, R605, R695, Tables SHF-9, GAR-7). -/
def blockReg (r : RegRow) (i off v : Nat) (e : Engine) : Engine :=
  let within (x lo hi : Nat) : Bool := decide (lo ≤ x) && decide (x ≤ hi)
  match r.base with
  | 0x200080 => cageCfgWrite i v e
  | 0x200100 => if bitOf v 0 then portUp i e else portDown i (e.rxData i) e
  | 0x200104 => portCfgWrite i v e
  | 0x300004 => thrMalActWrite v e
  | 0x500204 => e.condWrite r off v (bitsOf v 31 16 != 0) Fld.CSC_EVT_PROFILE_REFUSED (some Fld.CSC_ERV_PROFILE_PROFILE)
  | 0x600004 => e.condWrite r off v true Fld.SHF_EVT_CFG_ERR (some Fld.SHF_PROFILE_PROFILE)
  | 0x600008 =>
    e.condWrite r off v (within (bitsOf v 13 0) 1 8192 && within (bitsOf v 25 16) 16 1023) Fld.SHF_EVT_CFG_ERR (some Fld.SHF_PROFILE_PROFILE)
  | 0x60000C => e.condWrite r off v (bitsOf v 15 0 != 0) Fld.SHF_EVT_CFG_ERR (some Fld.SHF_PROFILE_PROFILE)
  | 0x700004 => e.condWrite r off v (within (bitsOf v 19 0) 128 524288) Fld.ORC_EVT_CFG_ERR (some Fld.ORC_PROFILE_PROFILE)
  | 0x710000 => e.condWrite r off v true Fld.ORC_EVT_CFG_ERR (some Fld.ORC_PROFILE_PROFILE)
  | 0x800004 =>
    e.condWrite r off v (within (bitsOf v 12 0) 64 4096 && within (bitsOf v 22 16) 1 64) Fld.MIL_EVT_CFG_ERR (some Fld.MIL_PROFILE_PROFILE)
  | 0x900004 => (e.plainWrite r off v).put Fld.NUM_PROFILE_PROFILE 7
  | 0x910000 => (e.plainWrite r off v).put Fld.NUM_PROFILE_PROFILE 7
  | 0x910004 => (e.plainWrite r off v).put Fld.NUM_PROFILE_PROFILE 7
  | 0x910008 => (e.plainWrite r off v).put Fld.NUM_PROFILE_PROFILE 7
  | 0xA00004 =>
    e.condWrite r off v (bitsOf v 15 0 != 0 && within (bitsOf v 19 16) 1 8) Fld.RIL_EVT_CFG_ERR (some Fld.RIL_PROFILE_PROFILE)
  | 0xA00008 => pendWrite 0 (fun e => e.condWrite r off v (e.gwinOk v) Fld.RIL_EVT_CFG_ERR none) e
  | 0xA00010 => e.condWrite r off v (e.swinOk v) Fld.RIL_EVT_CFG_ERR none
  | 0xB00010 =>
    e.condWrite r off v (within (bitsOf v 14 0) 64 16384 && decide (bitsOf v 29 16 ≤ 9728)) Fld.GAR_EVT_CFG_ERR (some Fld.GAR_PROFILE_PROFILE)
  | 0xB00014 =>
    e.condWrite r off v ((List.range 13).all fun k => bitsOf v (2 * k + 1) (2 * k) != 3) Fld.GAR_EVT_CFG_ERR (some Fld.GAR_PROFILE_PROFILE)
  | 0xB00040 => e.condWrite r off v (within (bitsOf v 3 0) 8 14) Fld.GAR_EVT_CFG_ERR (some Fld.GAR_PROFILE_PROFILE)
  | 0xD00004 => e.condWrite r off v (bitsOf v 15 4 != 0 && bitsOf v 23 16 != 0) Fld.GFT_EVT_CFG_ERR (some Fld.GFT_PROFILE_PROFILE)
  | 0xD00008 => e.condWrite r off v (bitsOf v 15 0 != 0 && bitsOf v 31 16 != 0) Fld.GFT_EVT_CFG_ERR none
  | 0xE00020 => timeCfgWrite r off v e
  | 0xE00004 => flgConfig off v e
  | 0xE00008 => flgConfig off v e
  | 0xE00010 => flgConfig off v e
  | 0xE00100 => flgConfig off v e
  | 0x1000000 => kolCtrlWrite v e
  | 0x1000014 => (e.plainWrite r off v).put Fld.KOL_STAT_CAL_VALID 1
  | 0x1000048 => if bitOf v 1 then kolCancel e else if bitOf v 0 then kolArm e else e
  | 0x1100004 => errCfgWrite v e
  | 0x1100008 => errScrubWrite v e
  | 0x110000C => bypassCmd v e
  | 0x1100028 => errInject v e
  | _ => e.plainWrite r off v

/-- A write of one register, by the operation that its offset names; a profile field or a reset register is the command of that
register's own row. -/
def regWrite (off v : Nat) (s : State) : Res :=
  match regFind off with
  | none => .next s
  | some (r, i, j) =>
    let on (f : Engine → Engine) : Res := .next (s.onEng (pendWrite r.blk f))
    match r.base with
    | 0x000018 => execGlbTimeSet v s
    | 0x000040 => execGlbPartProfileSelect (v % 8) s
    | 0x000044 => on fun e => (e.plainWrite r off v).put Fld.GLB_PART_PROFILE_PROFILE 7
    | 0x000048 => on fun e => (e.plainWrite r off v).put Fld.GLB_PART_PROFILE_PROFILE 7
    | 0x00004C => execPartApply v s
    | 0x010008 => execClkDomProfileSelect (v % 8) s
    | 0x010010 => on (domCtrlWrite v)
    | 0x010030 =>
      let key := bitsOf v 31 16
      if bitOf v 0 then execColdReset key s else if bitOf v 1 then execWarmReset key s else .next s
    | 0x010034 => execBlockReset v s
    | 0x100000 => execHifProfileSelect (v % 8) s
    | 0x200000 => execItkProfileSelect (v % 8) s
    | 0x300000 => execThrProfileSelect (v % 8) s
    | 0x500000 => execCscProfileSelect (v % 8) s
    | 0x500200 => execCscErvProfileSelect (v % 8) s
    | 0x600000 => execShfProfileSelect (v % 8) s
    | 0x700000 => execOrcProfileSelect (v % 8) s
    | 0x800000 => execMilProfileSelect (v % 8) s
    | 0x900000 => execNumProfileSelect (v % 8) s
    | 0xA00000 => execRilProfileSelect (v % 8) s
    | 0xB00000 => execGarProfileSelect (v % 8) s
    | 0xC00004 => execSlcHprofileSelect (v % 8) s
    | 0xC01000 => execSlcPprofileSelect i (v % 8) s
    | 0xD00000 => execGftProfileSelect (v % 8) s
    | 0xE00000 => execFlgProfileSelect (v % 8) s
    | 0xF00000 => execGlnProfileSelect (v % 8) s
    | 0x1000004 => execKolProfileSelect (v % 8) s
    | 0x1100000 => execErrProfileSelect (v % 8) s
    | 0x1200004 => execMailboxGo v s
    | _ =>
      match r.blk with
      | 0 => .next (s.onEng fun e => e.plainWrite r off v)
      | 2 => on (hifReg r i j off v)
      | 13 => on (slcReg r i off v)
      | 16 => on (glnReg r off v)
      | 19 => .next (s.onEng fun e => e.plainWrite r off v)
      | _ => on (blockReg r i off v)

/-- An access's write: two 32-bit registers are written at the lower address first (R703); an unpopulated half changes nothing. -/
def barWrite (recovery : Bool) (off : Nat) (d : Bytes) (s : State) : Res :=
  if d.length = 8 ∧ regWidth recovery off ≠ some 64 then
    let low : Res := if (regWidth recovery off).isSome then regWrite off (leAt d 0 4) s else .next s
    match low with
    | .next s => if (regWidth recovery (off + 4)).isSome then regWrite (off + 4) (leAt d 4 4) s else .next s
    | r => r
  else regWrite off (leNat d) s

/-- REGISTER_WRITE: any BAR0 write; one that is a bad access is recorded (R701), and in a warm reset every write is ignored. -/
def execRegisterWrite (off : Nat) (data : Bytes) (s : State) : Res :=
  let recovery := s.stw.boot == .recovery
  if !s.bar0Up then .next s
  else if !accessOk recovery off data.length then .next (s.onEng fun e => e.badAccess true off)
  else if 0x1200100 ≤ off ∧ off < 0x1200200 then
    .next (s.onEng fun e => { e with mbData := Tbl.writeBytes e.mbData (off - 0x1200100) data })
  else if 0x140000 ≤ off ∧ off < 0x148000 then .next (s.onEng fun e => e.msixWrite (off - 0x140000) data)
  else if 0x148000 ≤ off ∧ off < 0x148100 then .next s
  else barWrite recovery off data s

/-! ### BAR4 (R205) -/

/-- `n` bytes from a module-local address lie in populated memory: the granary, the rill scratch or the silo. -/
def localPopulated (a n : Nat) : Bool :=
  decide (a + n ≤ 0x0C000000) || (decide (0x10000000 ≤ a) && decide (a + n ≤ 0x11000000)) ||
    (decide (0x04000000000 ≤ a) && decide (a + n ≤ 0x05000000000))

/-- BAR4_ACCESS: through the window, or a miss: EN is 0 or the address is unpopulated. A read of poisoned data comes back poisoned. -/
def bar4Access (write : Bool) (off : Nat) (d : Bytes) (e : Engine) : Engine :=
  let a := e.get Fld.HIF_BAR4_BASE * 2 ^ 36 + off
  let n := d.length
  if e.is Fld.HIF_BAR4_EN = false ∨ localPopulated a n = false then
    let e := (e.count (Reg.HIF_CNT 4)).hifEvt Fld.HIF_EVT_BAR4_MISS
    if write then e else e.emit (.readData (List.replicate n 0) false)
  else if write then e.store a d
  else
    let (bad, e) := e.checkRead (localMem a) a n .clean
    if bad then e.emit (.readData [] true) else e.emit (.readData (e.readMem a n) false)

/-- BAR4_ACCESS: `off` within the 64 GiB window; the window is there where label page 1 enables it. -/
def execBar4Access (write : Bool) (off : Nat) (data : Bytes) (s : State) : Res :=
  hostStep s fun e => if 2 ^ 36 ≤ off ∨ e.is Fld.GLB_CAP_BAR4 = false then e else bar4Access write off data e

end Sys2Proof.Machine
end

