-- ==== Sys2Proof/Machine/Dispatch.lean ====
section
/-!
DEFINITION. Dispatch.lean: exec, one arm per command.
-/
namespace Sys2Proof.Machine

def exec (i : Instr) (s : State) : Host.Outcome State Fault Refusal :=
  match i with
  | .slot12vApplied => Sys2Proof.Machine.execSlot12vApplied s
  | .slot12vRemoved => Sys2Proof.Machine.execSlot12vRemoved s
  | .powerEnableQualified => Sys2Proof.Machine.execPowerEnableQualified s
  | .railEnable => Sys2Proof.Machine.execRailEnable s
  | .railPowerGood => Sys2Proof.Machine.execRailPowerGood s
  | .railWakeTimeout => Sys2Proof.Machine.execRailWakeTimeout s
  | .pllLock => Sys2Proof.Machine.execPllLock s
  | .pllLockTimeout => Sys2Proof.Machine.execPllLockTimeout s
  | .wakeRetry => Sys2Proof.Machine.execWakeRetry s
  | .powerDownStart => Sys2Proof.Machine.execPowerDownStart s
  | .pwrUndervoltage => Sys2Proof.Machine.execPwrUndervoltage s
  | .railDisableNext how => Sys2Proof.Machine.execRailDisableNext how s
  | .efuseOpen => Sys2Proof.Machine.execEfuseOpen s
  | .offTimeEnd => Sys2Proof.Machine.execOffTimeEnd s
  | .bootOk => Sys2Proof.Machine.execBootOk s
  | .bootTimeout => Sys2Proof.Machine.execBootTimeout s
  | .perstNAssert linkDown => Sys2Proof.Machine.execPerstNAssert linkDown s
  | .pllLoss => Sys2Proof.Machine.execPllLoss s
  | .coldReset key => Sys2Proof.Machine.execColdReset key s
  | .warmReset key => Sys2Proof.Machine.execWarmReset key s
  | .warmResetComplete => Sys2Proof.Machine.execWarmResetComplete s
  | .blockReset mask => Sys2Proof.Machine.execBlockReset mask s
  | .blockResetDrainTimeout dom => Sys2Proof.Machine.execBlockResetDrainTimeout dom s
  | .latticeResetTime => Sys2Proof.Machine.execLatticeResetTime s
  | .domainGate dom => Sys2Proof.Machine.execDomainGate dom s
  | .domainWake dom => Sys2Proof.Machine.execDomainWake dom s
  | .drainConfirmed dom => Sys2Proof.Machine.execDrainConfirmed dom s
  | .drainAbort dom => Sys2Proof.Machine.execDrainAbort dom s
  | .domainOn dom => Sys2Proof.Machine.execDomainOn dom s
  | .clkDomProfileSelect v => Sys2Proof.Machine.execClkDomProfileSelect v s
  | .heartbeat => Sys2Proof.Machine.execHeartbeat s
  | .stewardAbsentTimeout => Sys2Proof.Machine.execStewardAbsentTimeout s
  | .pointSample readings speeds => Sys2Proof.Machine.execPointSample readings speeds s
  | .fanFailure fan => Sys2Proof.Machine.execFanFailure fan s
  | .watchdogKick => Sys2Proof.Machine.execWatchdogKick s
  | .watchdogExpiry => Sys2Proof.Machine.execWatchdogExpiry s
  | .stewardResume => Sys2Proof.Machine.execStewardResume s
  | .thermalTrip105 temp => Sys2Proof.Machine.execThermalTrip105 temp s
  | .thermalHalt115 temp => Sys2Proof.Machine.execThermalHalt115 temp s
  | .mailboxGo ctrl => Sys2Proof.Machine.execMailboxGo ctrl s
  | .mailboxTimeout => Sys2Proof.Machine.execMailboxTimeout s
  | .page tr => Sys2Proof.Machine.execPage tr s
  | .clearFaults tr => Sys2Proof.Machine.execClearFaults tr s
  | .statusWord tr => Sys2Proof.Machine.execStatusWord tr s
  | .mfrId tr => Sys2Proof.Machine.execMfrId tr s
  | .mfrModel tr => Sys2Proof.Machine.execMfrModel tr s
  | .mfrRevision tr => Sys2Proof.Machine.execMfrRevision tr s
  | .mfrSerial tr => Sys2Proof.Machine.execMfrSerial tr s
  | .readPoint tr => Sys2Proof.Machine.execReadPoint tr s
  | .pointLimits tr => Sys2Proof.Machine.execPointLimits tr s
  | .readAll tr => Sys2Proof.Machine.execReadAll tr s
  | .pointStatus tr => Sys2Proof.Machine.execPointStatus tr s
  | .powerCtrlOff tr => Sys2Proof.Machine.execPowerCtrlOff tr s
  | .powerCtrlOn tr => Sys2Proof.Machine.execPowerCtrlOn tr s
  | .powerCtrlRetry tr => Sys2Proof.Machine.execPowerCtrlRetry tr s
  | .powerCtrlEngineReset tr => Sys2Proof.Machine.execPowerCtrlEngineReset tr s
  | .powerState tr => Sys2Proof.Machine.execPowerState tr s
  | .fanProfile tr => Sys2Proof.Machine.execFanProfile tr s
  | .fanConfig tr => Sys2Proof.Machine.execFanConfig tr s
  | .fanStatus tr => Sys2Proof.Machine.execFanStatus tr s
  | .lastStatus tr => Sys2Proof.Machine.execLastStatus tr s
  | .labelSel tr => Sys2Proof.Machine.execLabelSel tr s
  | .smbLabelDataRead tr => Sys2Proof.Machine.execSmbLabelDataRead tr s
  | .smbLabelDataWrite tr => Sys2Proof.Machine.execSmbLabelDataWrite tr s
  | .labelCommit tr => Sys2Proof.Machine.execLabelCommit tr s
  | .labelVis tr => Sys2Proof.Machine.execLabelVis tr s
  | .labelWriteStart => Sys2Proof.Machine.execLabelWriteStart s
  | .labelWriteCommit => Sys2Proof.Machine.execLabelWriteCommit s
  | .fwBegin tr => Sys2Proof.Machine.execFwBegin tr s
  | .fwData tr => Sys2Proof.Machine.execFwData tr s
  | .fwEnd tr => Sys2Proof.Machine.execFwEnd tr s
  | .fwActivate tr => Sys2Proof.Machine.execFwActivate tr s
  | .fwStatus tr => Sys2Proof.Machine.execFwStatus tr s
  | .fwAbort tr => Sys2Proof.Machine.execFwAbort tr s
  | .fwSessionTimeout => Sys2Proof.Machine.execFwSessionTimeout s
  | .calWrite tr => Sys2Proof.Machine.execCalWrite tr s
  | .calRead tr => Sys2Proof.Machine.execCalRead tr s
  | .calRestoreFactory tr => Sys2Proof.Machine.execCalRestoreFactory tr s
  | .logRead tr => Sys2Proof.Machine.execLogRead tr s
  | .kolProfileSelect v => Sys2Proof.Machine.execKolProfileSelect v s
  | .kolCtrlWrite v => Sys2Proof.Machine.execKolCtrlWrite v s
  | .kolTrigoutArm => Sys2Proof.Machine.execKolTrigoutArm s
  | .kolTrigoutCancel => Sys2Proof.Machine.execKolTrigoutCancel s
  | .triggerFire => Sys2Proof.Machine.execTriggerFire s
  | .linkHelloSend fromField => Sys2Proof.Machine.execLinkHelloSend fromField s
  | .linkHello fr => Sys2Proof.Machine.execLinkHello fr s
  | .kolLinkLost => Sys2Proof.Machine.execKolLinkLost s
  | .triggerIn fr => Sys2Proof.Machine.execTriggerIn fr s
  | .triggerOut fr => Sys2Proof.Machine.execTriggerOut fr s
  | .ppsEdge fr => Sys2Proof.Machine.execPpsEdge fr s
  | .refState fr => Sys2Proof.Machine.execRefState fr s
  | .labelRead fr => Sys2Proof.Machine.execLabelRead fr s
  | .labelData fr => Sys2Proof.Machine.execLabelData fr s
  | .fixtureId fr => Sys2Proof.Machine.execFixtureId fr s
  | .fieldAlarm fr => Sys2Proof.Machine.execFieldAlarm fr s
  | .e0Edge rising frac => Sys2Proof.Machine.execE0Edge rising frac s
  | .e1TriggerInEdge rising frac => Sys2Proof.Machine.execE1TriggerInEdge rising frac s
  | .refGateEnd ppb => Sys2Proof.Machine.execRefGateEnd ppb s
  | .fidPresSettled present ident => Sys2Proof.Machine.execFidPresSettled present ident s
  | .vfldOvercurrent => Sys2Proof.Machine.execVfldOvercurrent s
  | .vfldRetry ok => Sys2Proof.Machine.execVfldRetry ok s
  | .fieldAlarmRepeat => Sys2Proof.Machine.execFieldAlarmRepeat s
  | .labelReadRetry => Sys2Proof.Machine.execLabelReadRetry s
  | .opticsInsert cage deciWatts => Sys2Proof.Machine.execOpticsInsert cage deciWatts s
  | .opticsRemove cage data => Sys2Proof.Machine.execOpticsRemove cage data s
  | .doorbell off width v => Sys2Proof.Machine.execDoorbell off width v s
  | .descriptorFetch => Sys2Proof.Machine.execDescriptorFetch s
  | .fetchDataReturn ring data => Sys2Proof.Machine.execFetchDataReturn ring data s
  | .nop cmd => Sys2Proof.Machine.execNop cmd s
  | .copy cmd src ecc => Sys2Proof.Machine.execCopy cmd src ecc s
  | .emit cmd src => Sys2Proof.Machine.execEmit cmd src s
  | .completionWrite ring => Sys2Proof.Machine.execCompletionWrite ring s
  | .writeBackRefresh ring => Sys2Proof.Machine.execWriteBackRefresh ring s
  | .msixCoalesceTimeout ring => Sys2Proof.Machine.execMsixCoalesceTimeout ring s
  | .hostRecordWrite => Sys2Proof.Machine.execHostRecordWrite s
  | .ringEnable ring => Sys2Proof.Machine.execRingEnable ring s
  | .ringDisable ring => Sys2Proof.Machine.execRingDisable ring s
  | .ringDrainComplete ring => Sys2Proof.Machine.execRingDrainComplete ring s
  | .hifProfileSelect v => Sys2Proof.Machine.execHifProfileSelect v s
  | .hifProfileExpansion => Sys2Proof.Machine.execHifProfileExpansion s
  | .bar4Access write off data => Sys2Proof.Machine.execBar4Access write off data s
  | .frameStart port frac => Sys2Proof.Machine.execFrameStart port frac s
  | .emitPortFrame port => Sys2Proof.Machine.execEmitPortFrame port s
  | .macControlDiscard pkt => Sys2Proof.Machine.execMacControlDiscard pkt s
  | .frameHandoff pkt hdr len => Sys2Proof.Machine.execFrameHandoff pkt hdr len s
  | .frameEnd pkt data pcsErr => Sys2Proof.Machine.execFrameEnd pkt data pcsErr s
  | .portUp port => Sys2Proof.Machine.execPortUp port s
  | .portDown port data => Sys2Proof.Machine.execPortDown port data s
  | .linkChange port aligned => Sys2Proof.Machine.execLinkChange port aligned s
  | .itkPortCfgWrite port v => Sys2Proof.Machine.execItkPortCfgWrite port v s
  | .itkCageCfgWrite cage v => Sys2Proof.Machine.execItkCageCfgWrite cage v s
  | .itkProfileSelect v => Sys2Proof.Machine.execItkProfileSelect v s
  | .thrProfileSelect v => Sys2Proof.Machine.execThrProfileSelect v s
  | .thrMalActWrite v => Sys2Proof.Machine.execThrMalActWrite v s
  | .parse pkt => Sys2Proof.Machine.execParse pkt s
  | .classify pkt => Sys2Proof.Machine.execClassify pkt s
  | .sheafFetch pkt ecc => Sys2Proof.Machine.execSheafFetch pkt ecc s
  | .sheafCommit pkt => Sys2Proof.Machine.execSheafCommit pkt s
  | .grade pkt ecc => Sys2Proof.Machine.execGrade pkt ecc s
  | .orchard pkt ecc => Sys2Proof.Machine.execOrchard pkt ecc s
  | .orchardAdmit => Sys2Proof.Machine.execOrchardAdmit s
  | .earlyVerdict pkt => Sys2Proof.Machine.execEarlyVerdict pkt s
  | .sprout pkt => Sys2Proof.Machine.execSprout pkt s
  | .millEnqueue pkt ecc => Sys2Proof.Machine.execMillEnqueue pkt ecc s
  | .join pkt => Sys2Proof.Machine.execJoin pkt s
  | .joinDeadline pkt => Sys2Proof.Machine.execJoinDeadline pkt s
  | .verdict pkt => Sys2Proof.Machine.execVerdict pkt s
  | .enqueueTx pkt => Sys2Proof.Machine.execEnqueueTx pkt s
  | .slowPath pkt => Sys2Proof.Machine.execSlowPath pkt s
  | .drop pkt => Sys2Proof.Machine.execDrop pkt s
  | .invalid pkt => Sys2Proof.Machine.execInvalid pkt s
  | .pathLimitEnd pkt => Sys2Proof.Machine.execPathLimitEnd pkt s
  | .tblLoadRules cmd src => Sys2Proof.Machine.execTblLoadRules cmd src s
  | .tblLoadRanges cmd src => Sys2Proof.Machine.execTblLoadRanges cmd src s
  | .tblLoadLayouts cmd src => Sys2Proof.Machine.execTblLoadLayouts cmd src s
  | .tblLoadCascade cmd src => Sys2Proof.Machine.execTblLoadCascade cmd src s
  | .tblLoadStarts cmd src => Sys2Proof.Machine.execTblLoadStarts cmd src s
  | .tblPrepare cmd => Sys2Proof.Machine.execTblPrepare cmd s
  | .tblSwitch cmd => Sys2Proof.Machine.execTblSwitch cmd s
  | .tblRead cmd => Sys2Proof.Machine.execTblRead cmd s
  | .tableSwitchEffect => Sys2Proof.Machine.execTableSwitchEffect s
  | .generationRetired => Sys2Proof.Machine.execGenerationRetired s
  | .cscProfileSelect v => Sys2Proof.Machine.execCscProfileSelect v s
  | .sheafMigrationStart => Sys2Proof.Machine.execSheafMigrationStart s
  | .sheafMigrationComplete key => Sys2Proof.Machine.execSheafMigrationComplete key s
  | .remoteHomeTimeout pkt => Sys2Proof.Machine.execRemoteHomeTimeout pkt s
  | .shfRead cmd src => Sys2Proof.Machine.execShfRead cmd src s
  | .shfDelete cmd src => Sys2Proof.Machine.execShfDelete cmd src s
  | .shfFlush cmd => Sys2Proof.Machine.execShfFlush cmd s
  | .shfLoftMap cmd => Sys2Proof.Machine.execShfLoftMap cmd s
  | .shfLoftEnable cmd => Sys2Proof.Machine.execShfLoftEnable cmd s
  | .shfHomeSet cmd src => Sys2Proof.Machine.execShfHomeSet cmd src s
  | .shfProfileSelect v => Sys2Proof.Machine.execShfProfileSelect v s
  | .numConvert cmd src => Sys2Proof.Machine.execNumConvert cmd src s
  | .numStats cmd => Sys2Proof.Machine.execNumStats cmd s
  | .numClear cmd => Sys2Proof.Machine.execNumClear cmd s
  | .numProfileSelect v => Sys2Proof.Machine.execNumProfileSelect v s
  | .orcGrade cmd src => Sys2Proof.Machine.execOrcGrade cmd src s
  | .orcEval cmd src => Sys2Proof.Machine.execOrcEval cmd src s
  | .orcProfileSelect v => Sys2Proof.Machine.execOrcProfileSelect v s
  | .millBatchStart mill => Sys2Proof.Machine.execMillBatchStart mill s
  | .millBatchComplete mill ecc => Sys2Proof.Machine.execMillBatchComplete mill ecc s
  | .millYield mill => Sys2Proof.Machine.execMillYield mill s
  | .millResume mill => Sys2Proof.Machine.execMillResume mill s
  | .milRun cmd src ends => Sys2Proof.Machine.execMilRun cmd src ends s
  | .milTemplate cmd src ends => Sys2Proof.Machine.execMilTemplate cmd src ends s
  | .milProfileSelect v => Sys2Proof.Machine.execMilProfileSelect v s
  | .thrStart cmd src => Sys2Proof.Machine.execThrStart cmd src s
  | .thrKill cmd => Sys2Proof.Machine.execThrKill cmd s
  | .thrStatus cmd => Sys2Proof.Machine.execThrStatus cmd s
  | .rvInstruction tid => Sys2Proof.Machine.execRvInstruction tid s
  | .load tid ecc => Sys2Proof.Machine.execLoad tid ecc s
  | .store tid => Sys2Proof.Machine.execStore tid s
  | .amo tid ecc => Sys2Proof.Machine.execAmo tid ecc s
  | .lr tid => Sys2Proof.Machine.execLr tid s
  | .sc tid => Sys2Proof.Machine.execSc tid s
  | .fence tid => Sys2Proof.Machine.execFence tid s
  | .csrAccess tid => Sys2Proof.Machine.execCsrAccess tid s
  | .remoteRequestTimeout tag => Sys2Proof.Machine.execRemoteRequestTimeout tag s
  | .threadEndFree tid => Sys2Proof.Machine.execThreadEndFree tid s
  | .rilProfileSelect v => Sys2Proof.Machine.execRilProfileSelect v s
  | .xEnd tid => Sys2Proof.Machine.execXEnd tid s
  | .xSpawn tid => Sys2Proof.Machine.execXSpawn tid s
  | .xSleep tid => Sys2Proof.Machine.execXSleep tid s
  | .xSleepWake tid => Sys2Proof.Machine.execXSleepWake tid s
  | .xWaitne tid => Sys2Proof.Machine.execXWaitne tid s
  | .xWaitneWake tid => Sys2Proof.Machine.execXWaitneWake tid s
  | .xWaitc tid => Sys2Proof.Machine.execXWaitc tid s
  | .xmillSubmissionComplete tid ticket => Sys2Proof.Machine.execXmillSubmissionComplete tid ticket s
  | .xShkey tid => Sys2Proof.Machine.execXShkey tid s
  | .xShrd tid => Sys2Proof.Machine.execXShrd tid s
  | .xShwu tid => Sys2Proof.Machine.execXShwu tid s
  | .xOrcg tid => Sys2Proof.Machine.execXOrcg tid s
  | .xOrce tid => Sys2Proof.Machine.execXOrce tid s
  | .xMill tid => Sys2Proof.Machine.execXMill tid s
  | .xEmitv tid => Sys2Proof.Machine.execXEmitv tid s
  | .gleanMark tid => Sys2Proof.Machine.execGleanMark tid s
  | .xCasW tid => Sys2Proof.Machine.execXCasW tid s
  | .xCasD tid => Sys2Proof.Machine.execXCasD tid s
  | .xSaddD tid => Sys2Proof.Machine.execXSaddD tid s
  | .xNrw tid => Sys2Proof.Machine.execXNrw tid s
  | .xQnt tid => Sys2Proof.Machine.execXQnt tid s
  | .xDqt tid => Sys2Proof.Machine.execXDqt tid s
  | .xFadd tid => Sys2Proof.Machine.execXFadd tid s
  | .xFmul tid => Sys2Proof.Machine.execXFmul tid s
  | .slowPathProcess => Sys2Proof.Machine.execSlowPathProcess s
  | .slowPathRecordWrite ecc cell => Sys2Proof.Machine.execSlowPathRecordWrite ecc cell s
  | .customerHandler pkt deliver user => Sys2Proof.Machine.execCustomerHandler pkt deliver user s
  | .customerFault pkt => Sys2Proof.Machine.execCustomerFault pkt s
  | .garnerWatchdogRestart pair => Sys2Proof.Machine.execGarnerWatchdogRestart pair s
  | .garnerPairOn pair => Sys2Proof.Machine.execGarnerPairOn pair s
  | .garInfo cmd => Sys2Proof.Machine.execGarInfo cmd s
  | .garCustLoad cmd src => Sys2Proof.Machine.execGarCustLoad cmd src s
  | .garCustCtrl cmd => Sys2Proof.Machine.execGarCustCtrl cmd s
  | .garCmisFw cmd src status => Sys2Proof.Machine.execGarCmisFw cmd src status s
  | .garProfileSelect v => Sys2Proof.Machine.execGarProfileSelect v s
  | .frameFailOnPath pkt => Sys2Proof.Machine.execFrameFailOnPath pkt s
  | .frameFailAfterPath pkt => Sys2Proof.Machine.execFrameFailAfterPath pkt s
  | .remoteUndoTimeout src ptag => Sys2Proof.Machine.execRemoteUndoTimeout src ptag s
  | .cscErvProfileSelect v => Sys2Proof.Machine.execCscErvProfileSelect v s
  | .txFrameStart port frac ecc cell => Sys2Proof.Machine.execTxFrameStart port frac ecc cell s
  | .txFrameEnd port => Sys2Proof.Machine.execTxFrameEnd port s
  | .launchTimeReached txq => Sys2Proof.Machine.execLaunchTimeReached txq s
  | .gclCommit port => Sys2Proof.Machine.execGclCommit port s
  | .gclDisable port => Sys2Proof.Machine.execGclDisable port s
  | .gclActivation port => Sys2Proof.Machine.execGclActivation port s
  | .gateEntryChange port => Sys2Proof.Machine.execGateEntryChange port s
  | .windowOversizeDrop txq => Sys2Proof.Machine.execWindowOversizeDrop txq s
  | .sampleInstant => Sys2Proof.Machine.execSampleInstant s
  | .slcPprofileSelect port v => Sys2Proof.Machine.execSlcPprofileSelect port v s
  | .slcHprofileSelect v => Sys2Proof.Machine.execSlcHprofileSelect v s
  | .gftLoad cmd src ends => Sys2Proof.Machine.execGftLoad cmd src ends s
  | .gftGraft cmd => Sys2Proof.Machine.execGftGraft cmd s
  | .graftTakesEffect => Sys2Proof.Machine.execGraftTakesEffect s
  | .retiringModelReleased => Sys2Proof.Machine.execRetiringModelReleased s
  | .gftDiscard cmd => Sys2Proof.Machine.execGftDiscard cmd s
  | .gftExport cmd => Sys2Proof.Machine.execGftExport cmd s
  | .gftLprepare cmd => Sys2Proof.Machine.execGftLprepare cmd s
  | .gftLabort cmd => Sys2Proof.Machine.execGftLabort cmd s
  | .gftLearn cmd => Sys2Proof.Machine.execGftLearn cmd s
  | .gPrepare msg => Sys2Proof.Machine.execGPrepare msg s
  | .gVote msg => Sys2Proof.Machine.execGVote msg s
  | .voteDeadline => Sys2Proof.Machine.execVoteDeadline s
  | .gDecide msg => Sys2Proof.Machine.execGDecide msg s
  | .gDone msg => Sys2Proof.Machine.execGDone msg s
  | .indoubtTimeout => Sys2Proof.Machine.execIndoubtTimeout s
  | .learningStepStart => Sys2Proof.Machine.execLearningStepStart s
  | .learningStepComplete => Sys2Proof.Machine.execLearningStepComplete s
  | .learnedPreparation => Sys2Proof.Machine.execLearnedPreparation s
  | .gftProfileSelect v => Sys2Proof.Machine.execGftProfileSelect v s
  | .flitReceive port frac group => Sys2Proof.Machine.execFlitReceive port frac group s
  | .nakReceive port => Sys2Proof.Machine.execNakReceive port s
  | .retrainStart port lossOfLock => Sys2Proof.Machine.execRetrainStart port lossOfLock s
  | .retrainComplete port => Sys2Proof.Machine.execRetrainComplete port s
  | .trainingStart port => Sys2Proof.Machine.execTrainingStart port s
  | .trainingTimeout port => Sys2Proof.Machine.execTrainingTimeout port s
  | .trainingRetry port => Sys2Proof.Machine.execTrainingRetry port s
  | .train port => Sys2Proof.Machine.execTrain port s
  | .trainResend port => Sys2Proof.Machine.execTrainResend port s
  | .flgConfigWrite off v => Sys2Proof.Machine.execFlgConfigWrite off v s
  | .lsaFloodTimer => Sys2Proof.Machine.execLsaFloodTimer s
  | .lsa msg info => Sys2Proof.Machine.execLsa msg info s
  | .routeRecompute => Sys2Proof.Machine.execRouteRecompute s
  | .syncSend frac => Sys2Proof.Machine.execSyncSend frac s
  | .sync port frac => Sys2Proof.Machine.execSync port frac s
  | .syncRsp port => Sys2Proof.Machine.execSyncRsp port s
  | .timeSuspectTimeout => Sys2Proof.Machine.execTimeSuspectTimeout s
  | .ppsLost => Sys2Proof.Machine.execPpsLost s
  | .rd msg ecc => Sys2Proof.Machine.execRd msg ecc s
  | .wr msg => Sys2Proof.Machine.execWr msg s
  | .amoRequest msg ecc => Sys2Proof.Machine.execAmoRequest msg ecc s
  | .shFetch msg ecc => Sys2Proof.Machine.execShFetch msg ecc s
  | .shCommit msg => Sys2Proof.Machine.execShCommit msg s
  | .shResolve msg => Sys2Proof.Machine.execShResolve msg s
  | .shResolveHoldTimeout src ptag => Sys2Proof.Machine.execShResolveHoldTimeout src ptag s
  | .shInsn msg => Sys2Proof.Machine.execShInsn msg s
  | .rdRsp msg => Sys2Proof.Machine.execRdRsp msg s
  | .wrAck msg => Sys2Proof.Machine.execWrAck msg s
  | .amoRsp msg => Sys2Proof.Machine.execAmoRsp msg s
  | .shFetchRsp msg => Sys2Proof.Machine.execShFetchRsp msg s
  | .shAck msg => Sys2Proof.Machine.execShAck msg s
  | .shInsnRsp msg => Sys2Proof.Machine.execShInsnRsp msg s
  | .nack msg => Sys2Proof.Machine.execNack msg s
  | .lReset msg => Sys2Proof.Machine.execLReset msg s
  | .trace msg => Sys2Proof.Machine.execTrace msg s
  | .latTopology cmd => Sys2Proof.Machine.execLatTopology cmd s
  | .latticeReset cmd => Sys2Proof.Machine.execLatticeReset cmd s
  | .latLink cmd => Sys2Proof.Machine.execLatLink cmd s
  | .latResync cmd => Sys2Proof.Machine.execLatResync cmd s
  | .flgProfileSelect v => Sys2Proof.Machine.execFlgProfileSelect v s
  | .tallyBoundary => Sys2Proof.Machine.execTallyBoundary s
  | .cntSnap cmd src => Sys2Proof.Machine.execCntSnap cmd src s
  | .cntClear cmd => Sys2Proof.Machine.execCntClear cmd s
  | .traceFlush cmd => Sys2Proof.Machine.execTraceFlush cmd s
  | .hangAnalyze cmd => Sys2Proof.Machine.execHangAnalyze cmd s
  | .hangCheck => Sys2Proof.Machine.execHangCheck s
  | .pcSample => Sys2Proof.Machine.execPcSample s
  | .traceDrain => Sys2Proof.Machine.execTraceDrain s
  | .glnProfileSelect v => Sys2Proof.Machine.execGlnProfileSelect v s
  | .patrolRead mem addr ecc => Sys2Proof.Machine.execPatrolRead mem addr ecc s
  | .thermalClear temp => Sys2Proof.Machine.execThermalClear temp s
  | .errBypassAck => Sys2Proof.Machine.execErrBypassAck s
  | .selftestComplete failed => Sys2Proof.Machine.execSelftestComplete failed s
  | .railLost => Sys2Proof.Machine.execRailLost s
  | .railOkQualified => Sys2Proof.Machine.execRailOkQualified s
  | .bypassCmd v => Sys2Proof.Machine.execBypassCmd v s
  | .errInject v => Sys2Proof.Machine.execErrInject v s
  | .errProfileSelect v => Sys2Proof.Machine.execErrProfileSelect v s
  | .badAccess write off width => Sys2Proof.Machine.execBadAccess write off width s
  | .glbTimeSet v => Sys2Proof.Machine.execGlbTimeSet v s
  | .partApply v => Sys2Proof.Machine.execPartApply v s
  | .partApplyComplete => Sys2Proof.Machine.execPartApplyComplete s
  | .glbPartProfileSelect v => Sys2Proof.Machine.execGlbPartProfileSelect v s
  | .profileExpansionComplete blk => Sys2Proof.Machine.execProfileExpansionComplete blk s
  | .registerWrite off data => Sys2Proof.Machine.execRegisterWrite off data s
  | .mailboxAnswer => Sys2Proof.Machine.execMailboxAnswer s
  | .perstNDeassert => Sys2Proof.Machine.execPerstNDeassert s
  | .lsaAgeExpiry member => Sys2Proof.Machine.execLsaAgeExpiry member s
  | .railOk => Sys2Proof.Machine.execRailOk s
  | .falmNChange low => Sys2Proof.Machine.execFalmNChange low s
  | .refPresenceChange present => Sys2Proof.Machine.execRefPresenceChange present s
  | .lprepareIndoubtExpiry => Sys2Proof.Machine.execLprepareIndoubtExpiry s
  | .cblPresChange conn low => Sys2Proof.Machine.execCblPresChange conn low s

end Sys2Proof.Machine
end

