-- ==== Sys2Proof/Machine/Tick.lean ====
section
/-!
DEFINITION. Tick.lean: one core cycle with no command waiting (log entry 1): lattice time and its slew, the orchard's pipelines,
the shapers, the counters of waiting cycles, and the cycle classes of the engines (R93, R266, R305, R377, R386, R391, R513, R560,
R616, R620, R642, R655, R656).
-/
namespace Sys2Proof.Machine

/-! ### Time (R14, R93, R642) -/

/-- One core cycle of lattice time: one tick, and while the servo slews one more or none, at most once in 4,096 cycles. -/
def Engine.tickTime (e : Engine) : Engine :=
  let e := { e with cyc := e.cyc + 1 }
  if e.flg.slew ≠ 0 ∧ e.flg.slewAt + 4096 ≤ e.cyc then
    let up := decide (0 < e.flg.slew)
    { e with time := (e.time + if up then 2 else 0) % 2 ^ 64
             flg := { e.flg with slew := if up then e.flg.slew - 1 else e.flg.slew + 1, slewAt := e.cyc } }
  else { e with time := (e.time + 1) % 2 ^ 64 }

/-! ### Why engines stall (R655, R656) -/

/-- The reasons of the packets' steps that wait, of the kinds given. -/
def Engine.stepWhys (e : Engine) (kinds : List Nat) : List Nat :=
  (e.pkts.filter fun p => p.onPath && p.begun.isSome && p.why != 0 && decide (entKind (e.entryOf p) ∈ kinds)).map (·.why)

/-- The reason of a context that does not issue: one that is READY waits for nothing that Table GLN-4 names. -/
def Thread.stallWhy (t : Thread) : Option Nat :=
  match t.st with
  | .ready => some 15
  | .ending => none
  | .waiting (.retry why) => some why
  | .waiting (.remote _) => some 3
  | .waiting _ => some 13

/-- The power domain of an engine of Table GLN-3. -/
def engDomain (i : Nat) : Option Nat :=
  if i < 256 then some (i / 32)
  else if i < 288 then some (8 + (i - 256) / 8)
  else if i < 290 then some (12 + (i - 288))
  else if 330 ≤ i ∧ i < 338 then some (14 + (i - 330) / 2)
  else if 338 ≤ i ∧ i < 346 then some 18
  else none

/-- The engine's domain is ON, or it has none (R655). -/
def Engine.engOn (e : Engine) (i : Nat) : Bool := match engDomain i with | some d => e.domOn d | none => true

/-- A DATA flit waits for want of a credit on a port that carries its channel (R616). -/
def Engine.creditStall (e : Engine) (p : Nat) : Bool :=
  (e.fport p).wait.any fun f => e.fcarries p f.vc && e.get (Fld.FLG_PORT_CREDIT_FREE p f.k) == 0

/-- Each reason that applies to an engine that has not been busy, the engine first (Table GLN-3, Table GLN-4). -/
def Engine.stallReasons (e : Engine) : List (Nat × Nat) :=
  (e.ril.threads.filterMap fun (x : Nat × Thread) => x.2.stallWhy.map fun w => (coreOf x.1, w)) ++
  (e.mil.suspended.filterMap fun (x : Nat × List MilJob) =>
    if x.2.isEmpty || (e.milRun x.1).isSome then none else some (256 + x.1, 15)) ++
  ([288, 289].filterMap fun i => if e.orc.queued ≠ 0 then some (i, 15) else if e.orcWaiters.isEmpty then none else some (i, 10)) ++
  ((e.stepWhys [3, 7]).map fun w => (290, w)) ++
  ((e.stepWhys [1]).map fun w => (292, w)) ++
  (if e.pkts.any fun p => p.onPath && !p.failed && p.begun.isNone && decide (p.steps < 16) then [(293, 15)] else []) ++
  ((e.stepWhys [2, 9]).map fun w => (294, w)) ++
  (if e.shf.waits.isEmpty then [] else [(294, 7)]) ++
  ((e.slc.txq.filter fun x => !x.2.frames.isEmpty).filterMap fun (x : Nat × TxQ) =>
    let p := e.txPortOf x.1
    if (e.portQueues p).any e.txEligible then none else some (295 + p, 10)) ++
  (if !e.hqBusy.isEmpty && !e.hqBusy.any e.hqEligible then [(327, 12)] else []) ++
  (e.hif.rings.filterMap fun (x : Nat × RingAux) => if x.2.quotaAt.isSome then some (328, 11) else none) ++
  (if e.hif.rings.any fun (x : Nat × RingAux) => !x.2.queue.isEmpty then [(329, 12)] else []) ++
  (e.flg.ports.filterMap fun (x : Nat × FlgPort) =>
    if x.2.wait.isEmpty then none else some (338 + x.1, if e.creditStall x.1 then 2 else 15))

/-- Engines busy in this core cycle: those marked since the last one, a mill with work, a port that sends a frame, and the fetch
engine with a fetch in flight. -/
def Engine.busyNow (e : Engine) : List Nat :=
  let work := (e.mil.running.filter fun x => x.2.isSome).map (256 + ·.1)
  let ports := (e.slc.ports.filter fun x => x.2.cur.isSome).map (295 + ·.1)
  let fetch := if e.hif.rings.any fun (x : Nat × RingAux) => !x.2.fetches.isEmpty then [328] else []
  let all := work ++ ports ++ fetch
  e.gln.busy ++ all.filter fun i => !e.gln.busy.contains i

/-- The least reason of each engine that stalls and is not in the list of busy ones. -/
def leastReasons (busy : List Nat) (rs : List (Nat × Nat)) : Tbl Nat :=
  rs.foldl (fun t r =>
    if busy.contains r.1 then t
    else Tbl.put t r.1 (match Tbl.find t r.1 with | some w => min w r.2 | none => r.2)) []

/-- The engines' cycle classes of this cycle (R655, R656); an engine that is neither busy nor stalled is idle. -/
def Engine.classes (e : Engine) : Engine :=
  let busy := e.busyNow
  let stall := leastReasons busy e.stallReasons
  let e := (busy.filter e.engOn).foldl (fun e i => e.alwaysN (Reg.GLN_BUSY i) 1) e
  let e := (stall.filter fun x => e.engOn x.1).foldl (fun e (x : Nat × Nat) =>
    ((e.alwaysN (Reg.GLN_STALL x.1) 1).alwaysN (Reg.GLN_STALLR x.1 x.2) 1).put (Fld.GLN_REASON_REASON x.1) x.2) e
  { e with gln := { e.gln with busy := [] } }

/-! ### Counters of waiting cycles -/

/-- A counter of cycles in which something waits. -/
def Engine.countIf (e : Engine) (c : Bool) (off : Nat) : Engine := if c then e.count off else e

/-- Counters of waiting cycles: lookups (R266), grader steps (R377), backpressure (R391), flow holds and undo depth (R305, R315),
the slow path (R513), credits and replay room (Table FLG-8). -/
def Engine.waitCounts (e : Engine) : Engine :=
  let e := e.countIf (!(e.stepWhys [1]).isEmpty) (Reg.WNW_CNT 2)
  let e := e.countIf ((e.stepWhys [3]).contains 1 || (e.stepWhys [7]).contains 1) (Reg.ORC_CNT 6)
  let e := e.countIf ((e.stepWhys [4]).contains 10) (Reg.ORC_CNT 5)
  let held := ((e.stepWhys [2, 9]).filter (· == 7)).length
  let e := if held = 0 then e else e.countN (Reg.SHF_CNT 14) held
  let e := e.countIf ((e.stepWhys [12]).contains 10) (Reg.GAR_CNT 4)
  e.flg.ports.foldl (fun e (x : Nat × FlgPort) =>
    (e.countIf (e.creditStall x.1) (Reg.FLG_PCNT x.1 8)).countIf (decide (1024 ≤ x.2.replay.length)) (Reg.FLG_PCNT x.1 9)) e

/-! ### The orchard's pipelines (R386) and the shapers (R560) -/

/-- The halves that take trees: those ON, and one that drains. -/
def Engine.halvesRun (e : Engine) : List Nat :=
  [0, 1].filter fun h => (Tbl.get {} e.doms (12 + h)).st == .on || (Tbl.get {} e.doms (12 + h)).st == .draining

/-- Each half takes up to 64 trees in a cycle (under THERMAL, one tree in eight cycles, R692); a tree leaves after 16 stages. -/
def Engine.orcPipes (e : Engine) : Engine :=
  let pipe := e.orc.pipe.filter fun x => decide (e.cyc < x.1)
  let hs := e.halvesRun
  let n := if e.is Fld.ERR_BYPASS_STAT_THROTTLE then (if e.cyc % 8 = 0 ∧ hs ≠ [] then min 1 e.orc.queued else 0)
    else min (64 * hs.length) e.orc.queued
  let e := { e with orc := { e.orc with queued := e.orc.queued - n, pipe := if n = 0 then pipe else pipe ++ [(e.cyc + 16, n)] } }
  (hs.take (ceilDiv n 64)).foldl (fun e h => e.busy (288 + h)) e

/-- Queues with SHAPE_EN set: only a queue whose set-up is listed can have it. -/
def Engine.shapedQueues (e : Engine) : List Nat :=
  ((e.regs.filter fun r => decide (0xC10000 ≤ r.1) && decide (r.1 < 0xC10000 + 64 * 512) && r.1 % 64 == 0).map
    fun r => (r.1 - 0xC10000) / 64).filter fun t => e.is (Fld.SLC_TXQ_CFG_SHAPE_EN t)

/-- Each shaper's tokens grow by RATE, up to BURST. -/
def Engine.shapers (e : Engine) : Engine :=
  e.shapedQueues.foldl (fun e t => e.setTxq t fun q =>
    { q with tokens := min (q.tokens + (e.get (Fld.SLC_TXQ_RATE_RATE t) : Int)) ((e.get (Fld.SLC_TXQ_BURST_BURST t) * 2 ^ 20 : Nat) : Int) }) e

/-! ### The cycle -/

/-- One core cycle of an engine that runs. -/
def Engine.tick (e : Engine) : Engine :=
  let e := e.orcPipes.waitCounts.classes.shapers
  Engine.tickTime { e with used := [] }

/-- The block with no command waiting: one core cycle. The counters of time go on through a warm reset, when every engine is
idle (R93, R655); with the engine in reset or halted nothing happens. -/
def State.tick (s : State) : State :=
  if s.engineUp then s.onEng Engine.tick
  else if s.pwr.released && !s.pwr.halted then s.onEng Engine.tickTime
  else s

end Sys2Proof.Machine
end

