-- ==== Sys2Proof/WellFormed.lean ====
section
/-!
DEFINITION. WellFormed.lean: the values that the operands of each command can take. A command outside them cannot be sent:
the port, ring, domain or register it names does not exist.
-/
namespace Sys2Proof

/-- A steward transaction: an SMBus block has at most 255 bytes (R147). -/
def StwTr.wf (t : StwTr) : Bool :=
  match t with
  | .smb _ d _ => decide (d.length ≤ 255)
  | .mailbox => true

/-- A Kolber frame: every field has the width R62 gives it. -/
def KolFrame.wf (f : KolFrame) : Bool :=
  decide (f.typ < 256) && decide (f.seq < 256) && decide (f.len < 256) && decide (f.payload.length < 256) && decide (f.crc < 65536)

/-- An LSA speaks of eight ports (R638). -/
def LsaInfo.wf (i : LsaInfo) : Bool := i.ports.length == 8

/-- The operands of a command have values that exist. -/
def Instr.wf (i : Instr) : Bool :=
  match i with
  | .slot12vApplied | .slot12vRemoved | .powerEnableQualified | .railEnable
  | .railPowerGood | .railWakeTimeout | .pllLock | .pllLockTimeout
  | .wakeRetry | .powerDownStart | .pwrUndervoltage | .railDisableNext _
  | .efuseOpen | .offTimeEnd | .bootOk | .bootTimeout
  | .perstNAssert _ | .pllLoss | .warmResetComplete | .latticeResetTime
  | .heartbeat | .stewardAbsentTimeout | .watchdogKick | .watchdogExpiry
  | .stewardResume | .thermalTrip105 _ | .thermalHalt115 _ | .mailboxTimeout
  | .labelWriteStart | .labelWriteCommit | .fwSessionTimeout | .kolTrigoutArm
  | .kolTrigoutCancel | .triggerFire | .linkHelloSend _ | .kolLinkLost
  | .refGateEnd _ | .vfldOvercurrent | .vfldRetry _ | .fieldAlarmRepeat
  | .labelReadRetry | .descriptorFetch | .nop _ | .copy _ _ _
  | .emit _ _ | .hostRecordWrite | .hifProfileExpansion | .macControlDiscard _
  | .frameHandoff _ _ _ | .frameEnd _ _ _ | .parse _ | .classify _
  | .sheafFetch _ _ | .sheafCommit _ | .grade _ _ | .orchard _ _
  | .orchardAdmit | .earlyVerdict _ | .sprout _ | .millEnqueue _ _
  | .join _ | .joinDeadline _ | .verdict _ | .enqueueTx _
  | .slowPath _ | .drop _ | .invalid _ | .pathLimitEnd _
  | .tblLoadRules _ _ | .tblLoadRanges _ _ | .tblLoadLayouts _ _ | .tblLoadCascade _ _
  | .tblLoadStarts _ _ | .tblPrepare _ | .tblSwitch _ | .tblRead _
  | .tableSwitchEffect | .generationRetired | .sheafMigrationStart | .remoteHomeTimeout _
  | .shfRead _ _ | .shfDelete _ _ | .shfFlush _ | .shfLoftMap _
  | .shfLoftEnable _ | .shfHomeSet _ _ | .numConvert _ _ | .numStats _
  | .numClear _ | .orcGrade _ _ | .orcEval _ _ | .milRun _ _ _
  | .milTemplate _ _ _ | .thrStart _ _ | .thrKill _ | .thrStatus _
  | .slowPathProcess | .slowPathRecordWrite _ _ | .customerFault _ | .garInfo _
  | .garCustLoad _ _ | .garCustCtrl _ | .frameFailOnPath _ | .frameFailAfterPath _
  | .sampleInstant | .gftLoad _ _ _ | .gftGraft _ | .graftTakesEffect
  | .retiringModelReleased | .gftDiscard _ | .gftExport _ | .gftLprepare _
  | .gftLabort _ | .gftLearn _ | .gPrepare _ | .gVote _
  | .voteDeadline | .gDecide _ | .gDone _ | .indoubtTimeout
  | .learningStepStart | .learningStepComplete | .learnedPreparation | .lsaFloodTimer
  | .routeRecompute | .timeSuspectTimeout | .ppsLost | .rd _ _
  | .wr _ | .amoRequest _ _ | .shFetch _ _ | .shCommit _
  | .shResolve _ | .shInsn _ | .rdRsp _ | .wrAck _
  | .amoRsp _ | .shFetchRsp _ | .shAck _ | .shInsnRsp _
  | .nack _ | .lReset _ | .trace _ | .latTopology _
  | .latticeReset _ | .latLink _ | .latResync _ | .tallyBoundary
  | .cntSnap _ _ | .cntClear _ | .traceFlush _ | .hangAnalyze _
  | .hangCheck | .pcSample | .traceDrain | .thermalClear _
  | .errBypassAck | .railLost | .railOkQualified | .partApplyComplete
  | .mailboxAnswer | .perstNDeassert | .railOk | .falmNChange _
  | .refPresenceChange _ | .lprepareIndoubtExpiry => true
  | .coldReset key | .warmReset key => decide (key < 2 ^ 16)
  | .blockReset mask => decide (mask < 2 ^ 32)
  | .blockResetDrainTimeout dom | .domainGate dom | .domainWake dom | .drainConfirmed dom
  | .drainAbort dom | .domainOn dom => decide (dom < 19)
  | .clkDomProfileSelect v | .kolProfileSelect v | .kolCtrlWrite v | .hifProfileSelect v
  | .itkProfileSelect v | .thrProfileSelect v | .thrMalActWrite v | .cscProfileSelect v
  | .shfProfileSelect v | .numProfileSelect v | .orcProfileSelect v | .milProfileSelect v
  | .rilProfileSelect v | .garProfileSelect v | .cscErvProfileSelect v | .slcHprofileSelect v
  | .gftProfileSelect v | .flgProfileSelect v | .glnProfileSelect v | .bypassCmd v
  | .errInject v | .errProfileSelect v | .partApply v | .glbPartProfileSelect v => decide (v < 2 ^ 32)
  | .pointSample readings speeds => readings.length == 52 && speeds.length == 4 && speeds.all fun x => decide (x < 65536)
  | .fanFailure fan => decide (fan < 4)
  | .mailboxGo ctrl => decide (ctrl < 2 ^ 32)
  | .page tr | .clearFaults tr | .statusWord tr | .mfrId tr
  | .mfrModel tr | .mfrRevision tr | .mfrSerial tr | .readPoint tr
  | .pointLimits tr | .readAll tr | .pointStatus tr | .powerCtrlOff tr
  | .powerCtrlOn tr | .powerCtrlRetry tr | .powerCtrlEngineReset tr | .powerState tr
  | .fanProfile tr | .fanConfig tr | .fanStatus tr | .lastStatus tr
  | .labelSel tr | .smbLabelDataRead tr | .smbLabelDataWrite tr | .labelCommit tr
  | .labelVis tr | .fwBegin tr | .fwData tr | .fwEnd tr
  | .fwActivate tr | .fwStatus tr | .fwAbort tr | .calWrite tr
  | .calRead tr | .calRestoreFactory tr | .logRead tr => tr.wf
  | .linkHello fr | .triggerIn fr | .triggerOut fr | .ppsEdge fr
  | .refState fr | .labelRead fr | .labelData fr | .fixtureId fr
  | .fieldAlarm fr => fr.wf
  | .e0Edge _ frac | .e1TriggerInEdge _ frac | .syncSend frac => decide (frac < 16)
  | .fidPresSettled _ ident => ident.length == 16
  | .opticsInsert cage _ | .opticsRemove cage _ => decide (cage < 8)
  | .doorbell off width v => decide (off < 2 ^ 25) && decide (width ≤ 8) && decide (v < 2 ^ 32)
  | .fetchDataReturn ring _ | .completionWrite ring | .writeBackRefresh ring | .msixCoalesceTimeout ring
  | .ringEnable ring | .ringDisable ring | .ringDrainComplete ring => decide (ring < 4096)
  | .bar4Access _ off data => decide (off < 2 ^ 42) && decide (0 < data.length)
  | .frameStart port frac | .txFrameStart port frac _ _ => decide (port < 32) && decide (frac < 16)
  | .emitPortFrame port | .portUp port | .portDown port _ | .linkChange port _
  | .txFrameEnd port | .gclCommit port | .gclDisable port | .gclActivation port
  | .gateEntryChange port => decide (port < 32)
  | .itkPortCfgWrite port v | .slcPprofileSelect port v => decide (port < 32) && decide (v < 2 ^ 32)
  | .itkCageCfgWrite cage v => decide (cage < 8) && decide (v < 2 ^ 32)
  | .sheafMigrationComplete key => key.length == 48
  | .millBatchStart mill | .millBatchComplete mill _ | .millYield mill | .millResume mill => decide (mill < 32)
  | .rvInstruction tid | .load tid _ | .store tid | .amo tid _
  | .lr tid | .sc tid | .fence tid | .csrAccess tid
  | .threadEndFree tid | .xEnd tid | .xSpawn tid | .xSleep tid
  | .xSleepWake tid | .xWaitne tid | .xWaitneWake tid | .xWaitc tid
  | .xShkey tid | .xShrd tid | .xShwu tid | .xOrcg tid
  | .xOrce tid | .xMill tid | .xEmitv tid | .gleanMark tid
  | .xCasW tid | .xCasD tid | .xSaddD tid | .xNrw tid
  | .xQnt tid | .xDqt tid | .xFadd tid | .xFmul tid => decide (tid < 2 ^ 32)
  | .remoteRequestTimeout tag => decide (tag < 2 ^ 32)
  | .xmillSubmissionComplete tid ticket => decide (tid < 2 ^ 32) && decide (ticket < 2 ^ 32)
  | .customerHandler _ _ user => decide (user < 2 ^ 32)
  | .garnerWatchdogRestart pair | .garnerPairOn pair => decide (pair < 4)
  | .garCmisFw _ _ status => decide (status < 256)
  | .remoteUndoTimeout src ptag | .shResolveHoldTimeout src ptag => decide (src < 2 ^ 14) && decide (ptag < 2 ^ 32)
  | .launchTimeReached txq | .windowOversizeDrop txq => decide (txq < 512)
  | .flitReceive port frac group => decide (port < 8) && decide (frac < 16) && group.length == 2304
  | .nakReceive port | .retrainStart port _ | .retrainComplete port | .trainingStart port
  | .trainingTimeout port | .trainingRetry port | .train port | .trainResend port
  | .syncRsp port => decide (port < 8)
  | .flgConfigWrite off v => decide (off < 2 ^ 25) && decide (v < 2 ^ 32)
  | .lsa _ info => info.wf
  | .sync port frac => decide (port < 8) && decide (frac < 16)
  | .patrolRead mem addr _ => decide (mem < 8) && decide (addr < 2 ^ 42)
  | .selftestComplete failed => failed.all fun u => decide (u < 34)
  | .badAccess _ off _ => decide (off < 2 ^ 25)
  | .glbTimeSet v => decide (v < 2 ^ 64)
  | .profileExpansionComplete blk => decide (blk < 20)
  | .registerWrite off data => decide (off < 2 ^ 25) && decide (0 < data.length) && decide (data.length ≤ 256)
  | .lsaAgeExpiry member => decide (member < 2 ^ 14)
  | .cblPresChange conn _ => decide (conn < 8)

end Sys2Proof
end

