-- ==== Sys2Proof/Safety.lean ====
section
/-!
DEFINITION. Safety.lean: what claims about the block are stated in: that a command completes with an effect, the order of the
rails, and the canonical form of memory.
-/
namespace Sys2Proof.Machine

/-- The command `c` in state `s` answers a next state, and `P` holds of that state. -/
def Runs (c : Instr) (s : State) (P : State → Prop) : Prop := ∃ t, exec c s = .next t ∧ P t

/-- The command `c` answers a next state in which `f` has been done to the engine, and nothing else. -/
def Does (c : Instr) (s : State) (f : Engine → Engine) : Prop := exec c s = .next (s.onEng f)

/-- The answer of a steward command that succeeds on SMBus: LAST_STATUS reads OK and the answer is sent (R151, Table STW-4). -/
def State.smbAnswer (s : State) (rsp : Bytes) : State :=
  s.onStw fun w => { w with smb := { w.smb with lastStatus := 0 }, out := w.out ++ [rsp] }

/-- The steward's command rows with their codes (Table STW-3), POWER_CTRL and LABEL_DATA, which have a row for each of their
values or directions, left out. -/
def stewardRows : List (Nat × (StwTr → Instr)) :=
  [(0x00, .page), (0x03, .clearFaults), (0x79, .statusWord), (0x99, .mfrId), (0x9A, .mfrModel), (0x9B, .mfrRevision),
   (0x9E, .mfrSerial), (0xD0, .readPoint), (0xD1, .pointLimits), (0xD2, .readAll), (0xD3, .pointStatus), (0xD9, .powerState),
   (0xDA, .fanProfile), (0xDB, .fanConfig), (0xDC, .fanStatus), (0xDF, .lastStatus), (0xE0, .labelSel), (0xE2, .labelCommit),
   (0xE3, .labelVis), (0xE8, .fwBegin), (0xE9, .fwData), (0xEA, .fwEnd), (0xEB, .fwActivate), (0xEC, .fwStatus),
   (0xED, .fwAbort), (0xF0, .calWrite), (0xF1, .calRead), (0xF2, .calRestoreFactory), (0xF8, .logRead)]

/-- A frame that the host end takes as a message of TYPE `typ`: the channel is enabled, the frame passes the checks of R64, and no
frame is missing before it (R63). -/
abbrev Engine.kolTakes (e : Engine) (typ : Nat) (f : KolFrame) : Prop :=
  e.is Fld.KOL_CTRL_EN = true ∧ kolCheck f = .ok ∧ f.typ = typ ∧ kolMissing e.kol.rxSeq f.seq = 0

/-- The host end once it has taken a frame: the sequence number it expects next (R63). -/
def Engine.kolTook (e : Engine) (f : KolFrame) : Engine := { e with kol := { e.kol with rxSeq := some ((f.seq + 1) % 256) } }

/-- The field end as it takes a message of TYPE `typ`. -/
abbrev Field.takes (d : Field) (typ : Nat) (f : KolFrame) : Prop :=
  d.powered = true ∧ kolCheck f = .ok ∧ f.typ = typ ∧ kolMissing d.rxSeq f.seq = 0

/-- The field end once it has taken a frame. -/
def Field.took (d : Field) (f : KolFrame) : Field := { d with rxSeq := some ((f.seq + 1) % 256) }

/-- The engine once the command `c` has started: its CMD_BEGIN record names an engine of Table GLN-3 (R201, R665). -/
def Engine.started (e : Engine) (c : Cmd) (engine : Nat) : Engine :=
  (e.setCmd c.id fun c => { c with ph := .running, since := e.time }).traceCmd c 2 engine 0

/-- The step that CASCADE dispatches, or takes up again, for a packet, of kind `kind`: the packet, the entry's ARG, and the engine once
the step has been counted (R267, R268, R278, R279). None where the packet is on no path, its frame has failed, its entry has another
kind, its 16 steps are used, CASCADE has no slot this cycle, or its entry is poisoned. -/
def Engine.dispatched (e : Engine) (id kind : Nat) : Option (Pkt × Nat × Engine) :=
  (e.pkt id).bind fun p =>
    if !p.onPath ∨ p.failed ∨ entKind (e.entryOf p) ≠ kind then none
    else if p.begun.isSome then some (p, entArg (e.entryOf p), e)
    else if 16 ≤ p.steps then none
    else (e.takeRate 2 64 8).bind fun e' =>
      let r := e'.tableRead p 3 p.entry
      if r.1 then none
      else
        let e' := (r.2.tally (Reg.CSC_ENTCNT p.entry)).busy 293
        let q := { p with steps := p.steps + 1, begun := some e'.time }
        some (q, entArg (e.entryOf p), e'.setPkt id fun _ => q)

/-- A rule holds for a key under a layout: its LAYOUT, its ternary comparison, and every range unit it uses (R263). -/
def Bank.ruleHolds (b : Bank) (key : List Nat) (k r : Nat) : Bool :=
  byteAt (b.item 0 r) 172 % 8 == k && ruleMatches (b.item 0 r) key && (ruleUnits (b.item 0 r)).all fun u => b.unitHolds key u

/-- The rows of a path's steps, with the entry kind of each (Table CSC-3). -/
def stepRow : Instr → Option (Nat × Nat)
  | .parse id => some (id, 0)
  | .classify id => some (id, 1)
  | .sheafFetch id _ => some (id, 2)
  | .grade id _ => some (id, 3)
  | .orchard id _ => some (id, 4)
  | .earlyVerdict id => some (id, 5)
  | .millEnqueue id _ => some (id, 7)
  | .join id => some (id, 8)
  | .sheafCommit id => some (id, 9)
  | .verdict id => some (id, 10)
  | .enqueueTx id => some (id, 11)
  | .drop id => some (id, 13)
  | .invalid id => some (id, 15)
  | _ => none

/-- The instruction of a class that a thread issues: the thread, the word at its pc, and the engine once it has been fetched (R437,
R448, R451). None where there is no such thread, it cannot issue, its core is throttled in this cycle, the fetch faults, or the word is
of another class. -/
def Engine.issued (e : Engine) (tid : Nat) (cls : RvCls) : Option (Thread × Nat × Engine) :=
  (e.thread tid).bind fun t =>
    if !t.st.issues then none
    else (e.issueRate (coreOf tid)).bind fun e' =>
      match e'.fetchWord t with
      | (.ok w, e') => if rvClass w = cls then some (t, w, e'.busy (coreOf tid)) else none
      | (.error _, _) => none

/-- The instruction rows, with the thread and the class of each (R448, Table XMR-1). -/
def insnRow : Instr → Option (Nat × RvCls)
  | .rvInstruction t => some (t, .plain)
  | .load t _ => some (t, .load)
  | .store t => some (t, .store)
  | .amo t _ => some (t, .amo)
  | .lr t => some (t, .lr)
  | .sc t => some (t, .sc)
  | .fence t => some (t, .fence)
  | .csrAccess t => some (t, .csr)
  | .xEnd t => some (t, .xm .xend)
  | .xSpawn t => some (t, .xm .spawn)
  | .xSleep t => some (t, .xm .sleep)
  | .xWaitne t => some (t, .xm .waitne)
  | .xWaitc t => some (t, .xm .waitc)
  | .xShkey t => some (t, .xm .shkey)
  | .xShrd t => some (t, .xm .shrd)
  | .xShwu t => some (t, .xm .shwu)
  | .xOrcg t => some (t, .xm .orcg)
  | .xOrce t => some (t, .xm .orce)
  | .xMill t => some (t, .xm .mill)
  | .xEmitv t => some (t, .xm .emitv)
  | .gleanMark t => some (t, .xm .mark)
  | .xCasW t => some (t, .xm .casW)
  | .xCasD t => some (t, .xm .casD)
  | .xSaddD t => some (t, .xm .saddD)
  | .xNrw t => some (t, .xm .nrw)
  | .xQnt t => some (t, .xm .qnt)
  | .xDqt t => some (t, .xm .dqt)
  | .xFadd t => some (t, .xm .fadd)
  | .xFmul t => some (t, .xm .fmul)
  | _ => none

/-- The rows that act on the power, the resets, the steward or the field end, and those the optics cages and the host's access paths
carry out whatever the engine does; every other row is an engine's or the host's and needs a running engine. -/
def besideEngine : Instr → Bool
  | .slot12vApplied | .slot12vRemoved | .powerEnableQualified | .railEnable | .railPowerGood | .railWakeTimeout | .pllLock
  | .pllLockTimeout | .wakeRetry | .powerDownStart | .pwrUndervoltage | .railDisableNext _ | .efuseOpen | .offTimeEnd
  | .bootOk | .bootTimeout | .perstNAssert _ | .pllLoss | .coldReset _ | .warmReset _ | .warmResetComplete
  | .latticeResetTime | .heartbeat | .pointSample _ _ | .fanFailure _ | .watchdogKick | .watchdogExpiry | .stewardResume
  | .thermalTrip105 _ | .thermalHalt115 _ | .mailboxGo _ | .mailboxTimeout | .page _ | .clearFaults _ | .statusWord _
  | .mfrId _ | .mfrModel _ | .mfrRevision _ | .mfrSerial _ | .readPoint _ | .pointLimits _ | .readAll _ | .pointStatus _
  | .powerCtrlOff _ | .powerCtrlOn _ | .powerCtrlRetry _ | .powerCtrlEngineReset _ | .powerState _ | .fanProfile _
  | .fanConfig _ | .fanStatus _ | .lastStatus _ | .labelSel _ | .smbLabelDataRead _ | .smbLabelDataWrite _ | .labelCommit _
  | .labelVis _ | .labelWriteStart | .labelWriteCommit | .fwBegin _ | .fwData _ | .fwEnd _ | .fwActivate _ | .fwStatus _
  | .fwAbort _ | .fwSessionTimeout | .calWrite _ | .calRead _ | .calRestoreFactory _ | .logRead _ | .linkHelloSend _
  | .triggerOut _ | .labelRead _ | .labelData _ | .refGateEnd _ | .fidPresSettled _ _ | .vfldOvercurrent | .vfldRetry _
  | .fieldAlarmRepeat | .labelReadRetry | .opticsInsert _ _ | .opticsRemove _ _ | .railLost | .badAccess _ _ _
  | .registerWrite _ _ | .mailboxAnswer | .perstNDeassert | .railOk | .falmNChange _ | .refPresenceChange _
  | .cblPresChange _ _ => true
  | _ => false

/-- A profile row of one field: the value it selects, the field, the block's bit of GLB_PEND and the number of its profiles. The intake, cascade,
host-interface, port and partition rows have conditions of their own. -/
def profileOf : Instr → Option (Nat × Fld × Nat × Nat)
  | .clkDomProfileSelect v => some (v, Fld.CLK_DOM_PROFILE_PROFILE, 1, 3)
  | .thrProfileSelect v => some (v, Fld.THR_PROFILE_PROFILE, 4, 4)
  | .cscErvProfileSelect v => some (v, Fld.CSC_ERV_PROFILE_PROFILE, 6, 2)
  | .shfProfileSelect v => some (v, Fld.SHF_PROFILE_PROFILE, 7, 3)
  | .orcProfileSelect v => some (v, Fld.ORC_PROFILE_PROFILE, 8, 3)
  | .milProfileSelect v => some (v, Fld.MIL_PROFILE_PROFILE, 9, 3)
  | .numProfileSelect v => some (v, Fld.NUM_PROFILE_PROFILE, 10, 4)
  | .rilProfileSelect v => some (v, Fld.RIL_PROFILE_PROFILE, 11, 3)
  | .garProfileSelect v => some (v, Fld.GAR_PROFILE_PROFILE, 12, 3)
  | .slcHprofileSelect v => some (v, Fld.SLC_HPROFILE_PROFILE, 13, 2)
  | .gftProfileSelect v => some (v, Fld.GFT_PROFILE_PROFILE, 14, 3)
  | .flgProfileSelect v => some (v, Fld.FLG_PROFILE_PROFILE, 15, 3)
  | .glnProfileSelect v => some (v, Fld.GLN_PROFILE_PROFILE, 16, 4)
  | .kolProfileSelect v => some (v, Fld.KOL_PROFILE_PROFILE, 17, 3)
  | .errProfileSelect v => some (v, Fld.ERR_PROFILE_PROFILE, 18, 3)
  | _ => none

/-- The row that loads table `t`: rules, ranges, layouts, cascade entries, start entries. -/
def tblLoadRow (t id : Nat) (h : HostRead) : Instr :=
  match t with
  | 0 => .tblLoadRules id h
  | 1 => .tblLoadRanges id h
  | 2 => .tblLoadLayouts id h
  | 3 => .tblLoadCascade id h
  | _ => .tblLoadStarts id h

/-- Module-local memory in its canonical form: addresses strictly rising, no byte listed that reads as an unlisted one. -/
abbrev Memory.wf (m : Tbl Byte) : Prop := Tbl.wf (fun _ => (0 : Byte)) m = true

/-- The first `n` rails are enabled and the others are not (Table CLK-2: rails come up in order and go down in reverse, R95, R101). -/
def railsUpTo (rs : List Rail) (n : Nat) : Bool :=
  rs.length == 11 && (rs.take n).all (·.enabled) && (rs.drop n).all fun r => !r.enabled

/-- How many rails are enabled in a phase. -/
def PwrPhase.count (p : PwrPhase) : Nat :=
  match p with
  | .noSlot => 0
  | .standby | .offTime | .retryWait | .hold => 1
  | .ready k => k - 1
  | .raising k => k
  | .pllWait | .running => 11
  | .dropping k _ => k - 1

/-- The rail that a phase names is one of rails 2 to 11. -/
def PwrPhase.inRange (p : PwrPhase) : Bool :=
  match p with
  | .ready k | .raising k | .dropping k _ => decide (2 ≤ k) && decide (k ≤ 11)
  | _ => true

/-- Power is in order: the rails enabled are those the phase says, a rail is good only while it is enabled, the engine is out of
reset only with the PLL running on every rail (R95, R96, R100, R101), and the steward does not run without slot 12 V (R94). -/
def State.powerInOrder (s : State) : Bool :=
  railsUpTo s.pwr.rails s.pwr.phase.count && s.pwr.phase.inRange && s.pwr.rails.all (fun r => !r.good || r.enabled) &&
    (!s.pwr.released || s.pwr.phase == .running) && (s.pwr.phase != .noSlot || s.stw.run == .off)

end Sys2Proof.Machine
end

