-- ==== Sys2Proof/Certificates/Slice0/Obligations.lean ====
section
/-!
DEFINITION. Obligations.lean: the statements about the block for the provers. Each is a conjunction of clauses, one for each
row or case it names; the clauses of an engine's row ask for a running engine (log entry 8).
-/
open Sys2Proof Machine

/-! ### Power, boot and resets (R94 to R103, R113, R122, R125, R154) -/

/-- O1. Power (R57, R94 to R103, R125, R154). Coming up: slot 12 V brings VSTBY and the steward; enable starts the rails at rail 2; each
rail is enabled and reports good in turn; after the last the PLL locks and the engine is released with a cold reset; the boot ROM
reports. Going down: a power-down or a wake failure holds the engine in reset and disables the highest enabled rail first; the off time
and the wait after a wake failure end in a fresh start. -/
def Obligations.PowerFollowsItsOrder : Prop :=
  (∀ s, s.pwr.phase = .noSlot →
    Runs .slot12vApplied s fun t => t.pwr.phase = .standby ∧ t.pwr.slot12V = true ∧ t.stw.run = .running ∧ t.eng = s.eng) ∧
  (∀ s, s.stw.run = .running → s.pwr.phase = .standby → s.pwr.slot12V = true → s.pwr.enableOn = true → s.pwr.efuseOpen = false →
    exec .powerEnableQualified s = .next { s with pwr := { s.pwr with psuOk := true, phase := .ready 2, retries := 0 } }) ∧
  (∀ s k, s.stw.run = .running → s.pwr.phase = .ready k →
    exec .railEnable s = .next { s with pwr := { s.pwr with
      phase := .raising k, rails := modAt s.pwr.rails (k - 1) fun _ => ⟨true, false, false⟩ } }) ∧
  (∀ s k, s.stw.run = .running → s.pwr.phase = .raising k →
    Runs .railPowerGood s fun t => t.pwr = { s.pwr with
        phase := if k < 11 then .ready (k + 1) else .pllWait
        rails := modAt s.pwr.rails (k - 1) fun _ => ⟨true, true, true⟩ } ∧ t.eng = s.eng ∧ t.stw = s.stw) ∧
  (∀ s, s.stw.run = .running → s.pwr.phase = .pllWait →
    Runs .pllLock s fun t => t.pwr.phase = .running ∧ t.pwr.released = true ∧ t.pwr.retries = 0 ∧ t.pwr.rails = s.pwr.rails ∧
      t.eng.time = 0 ∧ t.eng.mem = [] ∧ t.stw.boot = .booting) ∧
  (∀ s, s.pwr.released = true → s.pwr.halted = false → (s.stw.boot = .booting ∨ s.stw.boot = .secondTry) →
    Runs .bootOk s fun t => t.stw.boot = .ok ∧ t.pwr = s.pwr ∧ t.eng.time = s.eng.time ∧
      t.stw.log = s.stw.log ++ [LogEv.boot s.stw.engineFw.runningB true]) ∧
  (∀ s, s.stw.run = .running → s.pwr.phase = .offTime → s.pwr.enable = true → s.pwr.efuseOpen = false →
    exec .offTimeEnd s = .next { s with pwr := { s.pwr with phase := .ready 2, retries := 0 } }) ∧
  (∀ s, s.stw.run = .running → s.pwr.phase = .retryWait → s.pwr.enable = true → s.pwr.efuseOpen = false →
    exec .wakeRetry s = .next { s with pwr := { s.pwr with phase := .ready 2 } }) ∧
  (∀ s, s.stw.run = .running → s.pwr.phase = .running → (s.pwr.rail 11).enabled = true →
    Runs .powerDownStart s fun t => t.pwr.phase = .dropping 11 .offTime ∧ t.pwr.released = false ∧ t.eng.regs = [] ∧ t.eng.mem = []) ∧
  (∀ s, s.stw.run = .running → s.pwr.phase = .running → (s.pwr.rail 11).enabled = true →
    Runs .pwrUndervoltage s fun t => t.pwr.phase = .dropping 11 .offTime ∧ t.pwr.psuOk = false ∧ t.pwr.released = false) ∧
  (∀ s k a, s.stw.run = .running → s.pwr.phase = .dropping k a → 2 < k → (s.pwr.rail (k - 1)).enabled = true →
    Runs (.railDisableNext .fell) s fun t => t.pwr.phase = .dropping (k - 1) a ∧ t.pwr.failedRails = s.pwr.failedRails ∧ t.eng = s.eng) ∧
  (∀ s k a how, s.stw.run = .running → s.pwr.phase = .dropping k a → how ≠ .fell → k ∉ s.pwr.failedRails →
    Runs (.railDisableNext how) s fun t => t.pwr.failedRails = s.pwr.failedRails ++ [k] ∧
      t.stw.log = s.stw.log ++ [LogEv.railFailed k]) ∧
  (∀ s k, s.stw.run = .running → s.pwr.phase = .raising k → s.pwr.retries < 2 →
    Runs .railWakeTimeout s fun t => t.pwr.retries = s.pwr.retries + 1 ∧ t.pwr.wakeFail = s.pwr.wakeFail ∧ t.pwr.released = false) ∧
  (∀ s k, s.stw.run = .running → s.pwr.phase = .raising k → 2 ≤ s.pwr.retries →
    Runs .railWakeTimeout s fun t => t.pwr.wakeFail = some k ∧ t.pwr.released = false) ∧
  (∀ s, s.stw.run = .running → s.pwr.phase = .pllWait → 2 ≤ s.pwr.retries →
    Runs .pllLockTimeout s fun t => t.pwr.wakeFail = some 0x10 ∧ t.pwr.released = false) ∧
  (∀ s k, s.stw.run = .running → k ∈ s.pwr.failedRails → (s.pwr.rail k).aboveOff = true → (s.pwr.rail k).enabled = false →
    Runs .efuseOpen s fun t => t.pwr.efuseOpen = true ∧ t.pwr.released = false ∧
      t.pwr.rails = ⟨true, true, true⟩ :: List.replicate 10 {}) ∧
  (∀ s, Runs .slot12vRemoved s fun t => t.pwr.phase = .noSlot ∧ t.pwr.released = false ∧ t.pwr.wakeFail = none ∧
    t.pwr.efuseOpen = false ∧ t.pwr.enableOn = true ∧ t.stw.run = .off ∧ t.eng.regs = [])

/-- O2. The engine's cold resets (R93, R113, R114, R122, R125, R154): every register that the reset itself does not report in reads its
Reset value, lattice time is zero and memory lists nothing, for the host's reset with its key, for PERST_N and for a boot
that does not report; a lost PLL lock and a released PERST_N do what R125 and R97 say. -/
def Obligations.ColdResetLeavesResetValues : Prop :=
  (∀ s, s.pcieUp = true → s.eng.is Fld.CLK_RST_STAT_BUSY = false → bitOf (s.eng.rd Reg.GLB_PEND) 1 = false → s.eng.phys.hotspot < 1050 →
    Runs (.coldReset 0x4160) s fun t => t.eng.time = 0 ∧ t.eng.mem = [] ∧ t.eng.get Fld.CLK_RST_CAUSE_CAUSE = 2 ∧
      (∀ off, off ∉ [Reg.CLK_RST_CAUSE, Reg.KOL_CAL, Reg.KOL_STAT, Reg.STW_STAT, Reg.STW_EVT] → t.eng.rd off = (regReset off).toNat)) ∧
  (∀ s ld, s.pwr.released = true → s.eng.phys.hotspot < 1050 →
    Runs (.perstNAssert ld) s fun t => t.pwr.perst = (s.pwr.perst || !ld) ∧ t.pwr.released = true ∧ t.eng.time = 0 ∧
      t.eng.get Fld.CLK_RST_CAUSE_CAUSE = 1) ∧
  (∀ s, s.stw.run = .running → s.pwr.released = true → s.pwr.halted = false → s.stw.boot = .booting →
    Runs .bootTimeout s fun t => t.stw.boot = .secondTry ∧ t.stw.engineFw.runningB = !s.stw.engineFw.runningB ∧ t.eng.time = 0) ∧
  (∀ s, s.stw.run = .running → s.pwr.released = true → s.pwr.halted = false → s.stw.boot = .secondTry →
    Runs .bootTimeout s fun t => t.stw.boot = .recovery ∧ t.eng.get Fld.GLB_STAT_BOOT = 1 ∧ t.engineUp = false) ∧
  (∀ s, s.pwr.released = true →
    exec .pllLoss s = .next { s with pwr := { s.pwr with released := false, phase := .pllWait, cause := 5 }, eng := s.eng.cold }) ∧
  (∀ s, exec .perstNDeassert s = .next { s with pwr := { s.pwr with perst := false } })

/-! ### The steward (R133 to R172) -/

/-- O3. What the steward's read commands answer on SMBus (R137, R147, R148, R151, R152, R159, R161): the answer is sent, LAST_STATUS
reads OK, and nothing else changes. The bytes that the tables leave open are free values (log entry 9). -/
def Obligations.StewardReadsAnswer : Prop :=
  ∀ s : State, s.stw.run = .running →
    exec (.statusWord (.smb false [] true)) s = .next (s.smbAnswer (natLE 2 (Machine.statusWord s))) ∧
    exec (.readPoint (.smb false [] true)) s = .next (s.smbAnswer (natLE 2 (s.stw.points.getD s.stw.smb.page {}).sent)) ∧
    exec (.readAll (.smb false [] true)) s =
      .next (s.smbAnswer ((List.range 52).flatMap fun i => natLE 2 (s.stw.points.getD i {}).sent)) ∧
    exec (.pointStatus (.smb false [] true)) s =
      .next (s.smbAnswer ((List.range 26).flatMap fun i => natLE 1
        ((s.stw.points.getD (2 * i) {}).state.code + 16 * (s.stw.points.getD (2 * i + 1) {}).state.code))) ∧
    exec (.fanStatus (.smb false [] true)) s =
      .next (s.smbAnswer (natLE 1 (ceilDiv s.stw.fan.duty 100) ++ ((List.range 4).flatMap fun i => natLE 2 (s.stw.fan.speeds.getD i 0)) ++
        natLE 1 s.stw.fan.failed ++ natLE 1 s.stw.fan.profile)) ∧
    exec (.lastStatus (.smb false [] true)) s =
      .next (s.onStw fun w => { w with out := w.out ++ [natLE 1 w.smb.lastStatus] }) ∧
    (∃ b, exec (.powerState (.smb false [] true)) s = .next (s.smbAnswer b) ∧ b.length = 8 ∧ slice b 4 2 = natLE 2 s.stw.restarts) ∧
    (∃ b, exec (.fwStatus (.smb false [] true)) s = .next (s.smbAnswer b) ∧ b.length = 24) ∧
    (∃ b, exec (.mfrId (.smb false [] true)) s = .next (s.smbAnswer b) ∧ b.length ≤ 32) ∧
    (∃ b, exec (.mfrModel (.smb false [] true)) s = .next (s.smbAnswer b) ∧ b.length ≤ 32) ∧
    (∃ b, exec (.mfrRevision (.smb false [] true)) s = .next (s.smbAnswer b) ∧ b.length ≤ 32) ∧
    (∃ b, exec (.mfrSerial (.smb false [] true)) s = .next (s.smbAnswer b) ∧ b.length ≤ 32) ∧
    (∀ i b, s.stw.smb.calSel = some i → s.stw.calUser.find? (fun r => r.1 == i) = some (i, b) →
      exec (.calRead (.smb false [] true)) s = .next (s.smbAnswer b)) ∧
    (s.stw.smb.logSel < s.stw.log.length →
      ∃ b, exec (.logRead (.smb false [] true)) s = .next (s.smbAnswer b) ∧ b.length = 16) ∧
    (s.stw.smb.labelPage ≤ 251 → s.stw.label.active = none → s.stw.smb.labelPage ∉ s.stw.label.crcBad →
      exec (.smbLabelDataRead (.smb false [] true)) s =
        .next (s.smbAnswer (slice (s.stw.label.page s.stw.smb.labelPage) (128 * s.stw.smb.labelHalf) 128)))

/-- O4. What the steward's write commands change (R72, R99, R100, R113, R151, R152, R156, R159 to R164): each with operands its rule
takes, on SMBus; the answer is empty, LAST_STATUS reads OK. -/
def Obligations.StewardWritesTakeEffect : Prop :=
  ∀ s : State, s.stw.run = .running →
    (∀ b : Byte, b.toNat ≤ 51 →
      exec (.page (.smb true [b] true)) s = .next ((s.onStw fun w => { w with smb := { w.smb with page := b.toNat } }).smbAnswer [])) ∧
    exec (.clearFaults (.smb true [] true)) s = .next ((s.onStw fun w => { w with summary := 0 }).smbAnswer []) ∧
    (∀ b : Byte, b.toNat < 3 → ∃ f, Machine.fanProfile b.toNat s.stw.fan = some f ∧ f.profile = b.toNat ∧
      exec (.fanProfile (.smb true [b] true)) s = .next ((s.onStw fun w => { w with fan := f }).smbAnswer [])) ∧
    (∀ a b c d : Byte, 20 ≤ a.toNat → a.toNat ≤ 100 → -10 ≤ sextOf 8 b.toNat → sextOf 8 b.toNat ≤ 5 → 1 ≤ c.toNat → c.toNat ≤ 20 →
        d.toNat ≤ 3 →
      exec (.fanConfig (.smb true [a, b, c, d] true)) s = .next ((s.onStw fun w => { w with fan := { w.fan with
        profile := 7, minDuty := a.toNat, startShift := sextOf 8 b.toNat, fallRate := c.toNat, trayMon := d.toNat } }).smbAnswer [])) ∧
    (∀ p h : Byte, h.toNat ≤ 1 →
      exec (.labelSel (.smb true [p, h] true)) s =
        .next ((s.onStw fun w => { w with smb := { w.smb with labelPage := p.toNat, labelHalf := h.toNat } }).smbAnswer [])) ∧
    (∀ d : Bytes, d.length = 128 → s.stw.smb.labelHalf = 0 →
      exec (.smbLabelDataWrite (.smb true d true)) s =
        .next ((s.onStw fun w => { w with smb := { w.smb with stage0 := some (w.smb.labelPage, d) } }).smbAnswer [])) ∧
    (∀ (n : Byte) (d : Bytes), 128 ≤ n.toNat → n.toNat ≤ 251 → s.stw.smb.stage0 = some (n.toNat, d) → s.stw.smb.stage1 = none →
      exec (.labelCommit (.smb true [n] true)) s = .next ((s.onStw fun w => { w with
        label := { w.label with queue := w.label.queue ++ [⟨n.toNat, some d, none, false⟩] }
        smb := { w.smb with stage0 := none, stage1 := none } }).smbAnswer [])) ∧
    (∀ p v : Byte, 128 ≤ p.toNat → p.toNat ≤ 251 → v.toNat ≤ 1 →
      exec (.labelVis (.smb true [p, v] true)) s = .next ((s.onStw fun w => { w with
        label := { w.label with vis := withBits w.label.vis p.toNat p.toNat v.toNat } }).smbAnswer [])) ∧
    (∀ b : Byte, b.toNat < 3 → ∀ c, exec (.calWrite (.smb true (natLE 2 c ++ [b]) true)) s =
      .next ((s.onStw fun w => { w with calUser := (w.calUser.filter fun r => r.1 ≠ c % 65536) ++ [(c % 65536, [b])] }).smbAnswer [])) ∧
    exec (.calRestoreFactory (.smb true (natLE 2 0x4160) true)) s =
      .next ((s.onStw fun w => { w with calUser := [], points := w.points.map fun p => { p with user := none } }).smbAnswer []) ∧
    (∀ d : Bytes, d.length = 8 → limsAllowed (pointInfo s.stw.smb.page).lims ((List.range 4).map fun j =>
        ((pointInfo s.stw.smb.page).lims.getD j none).map fun _ => ptValue (pointInfo s.stw.smb.page).kind (leAt d (2 * j) 2) * 1000) = true →
      Runs (.pointLimits (.smb true d true)) s fun t => t.stw.points = modAt s.stw.points s.stw.smb.page fun p => { p with
        user := some ((List.range 4).map fun j => ((pointInfo s.stw.smb.page).lims.getD j none).map fun _ =>
          ptValue (pointInfo s.stw.smb.page).kind (leAt d (2 * j) 2) * 1000) }) ∧
    (s.pwr.phase = .running → (s.pwr.rail 11).enabled = true →
      Runs (.powerCtrlOff (.smb true [] true)) s fun t => t.pwr.enableOn = false ∧ t.pwr.released = false ∧ t.pwr.phase = .dropping 11 .offTime) ∧
    (s.pwr.phase = .standby → s.pwr.slot12V = true → s.pwr.psuOk = true → s.pwr.efuseOpen = false →
      Runs (.powerCtrlOn (.smb true [] true)) s fun t => t.pwr.enableOn = true ∧ t.pwr.phase = .ready 2) ∧
    (s.pwr.phase = .hold → s.pwr.enable = true → s.pwr.efuseOpen = false →
      Runs (.powerCtrlRetry (.smb true [] true)) s fun t => t.pwr.wakeFail = none ∧ t.pwr.retries = 0 ∧ t.pwr.phase = .ready 2) ∧
    (s.pwr.released = true →
      Runs (.powerCtrlEngineReset (.smb true [] true)) s fun t => t.eng.time = 0 ∧ t.eng.mem = [] ∧ t.stw.boot = .booting)

/-- O5. Firmware sessions (R155, R156): a session opens on the copy that is not running and marks it invalid; blocks are kept; the image
counts as valid only once its CRC-32 fits; a valid copy becomes preferred; an abort and the 60 s limit leave the copy invalid. -/
def Obligations.FirmwareSessions : Prop :=
  ∀ s : State, s.stw.run = .running →
    (∀ n, n < 2 ^ 26 → s.stw.session = none →
      Runs (.fwBegin (.smb true (natLE 1 0 ++ natLE 4 n) true)) s fun t => t.stw.session = some ⟨0, n, [], 0⟩ ∧
        (t.stw.engineFw.copy (!s.stw.engineFw.runningB)).valid = false ∧
        t.stw.engineFw.copy s.stw.engineFw.runningB = s.stw.engineFw.copy s.stw.engineFw.runningB) ∧
    (∀ x off b, s.stw.session = some x → b.length ≤ 128 → off + b.length ≤ x.len → off < 2 ^ 32 →
      exec (.fwData (.smb true (natLE 4 off ++ b) true)) s = .next ((s.onStw fun w => { w with
        session := some { x with data := Tbl.writeBytes x.data off b, received := x.received + b.length } }).smbAnswer [])) ∧
    (∀ x d, s.stw.session = some x → x.target = 0 → d.length = 4 → crc32 (Tbl.readBytes x.data 0 x.len) = leNat d →
      Runs (.fwEnd (.smb true d true)) s fun t => t.stw.session = none ∧
        (t.stw.engineFw.copy (!s.stw.engineFw.runningB)).valid = true) ∧
    ((s.stw.engineFw.copy (!s.stw.engineFw.runningB)).valid = true →
      exec (.fwActivate (.smb true [0] true)) s =
        .next ((s.onStw fun w => { w with engineFw := { w.engineFw with preferB := !w.engineFw.runningB } }).smbAnswer [])) ∧
    exec (.fwAbort (.smb true [] true)) s = .next ((s.onStw Stw.abortSession).smbAnswer []) ∧
    exec .fwSessionTimeout s = .next (s.onStw Stw.abortSession) ∧
    (∀ x, s.stw.session = some x → x.target = 0 →
      s.stw.abortSession.session = none ∧ (s.stw.abortSession.engineFw.copy (!s.stw.engineFw.runningB)).valid = false)

/-- O6. The two interfaces (R147, R149, R150): an SMBus transaction whose packet error code is wrong changes nothing; the mailbox form of
a command is served from the outstanding request and leaves its answer there; GO sends a request and sets BUSY; the answer ends
it with BUSY 0 and DONE 1, and so does the time limit, with NOT_READY. -/
def Obligations.StewardInterfaces : Prop :=
  (∀ r ∈ stewardRows, ∀ s wr d, exec (r.2 (.smb wr d false)) s = .next s) ∧
  (∀ r ∈ stewardRows, ∀ s q, s.stw.run = .running → s.stw.req = some q → q.code = r.1 → q.answer = none →
    exec (r.2 .mailbox) s = .next (endMb r.1 (serve r.1 true (q.payload ≠ [] || sendByteCode r.1) q.payload s).1
      (serve r.1 true (q.payload ≠ [] || sendByteCode r.1) q.payload s).2)) ∧
  (∀ s code len, s.pcieUp = true → s.eng.is Fld.CLK_RST_STAT_BUSY = false → s.eng.is Fld.STW_MB_STAT_BUSY = false → code < 256 → len ≤ 256 →
    Runs (.mailboxGo (code + 2 ^ 16 * len + 2 ^ 31)) s fun t => t.eng.is Fld.STW_MB_STAT_BUSY = true ∧
      t.stw.req = some ⟨code, Tbl.readBytes s.eng.mbData 0 len, none, decide (s.stw.run ≠ .running)⟩) ∧
  (∀ s q a, s.stw.run = .running → s.pwr.released = true → s.stw.req = some q → q.discard = false → q.answer = some a → q.code ≠ 0xE2 →
    a.1 < 8 → Runs .mailboxAnswer s fun t => t.stw.req = none ∧ t.eng.is Fld.STW_MB_STAT_BUSY = false ∧
      t.eng.is Fld.STW_MB_STAT_DONE = true ∧ t.eng.get Fld.STW_MB_STAT_STATUS = a.1 ∧
      t.eng.mbData = Tbl.writeBytes s.eng.mbData 0 (a.2.take 256)) ∧
  (∀ s, s.pwr.released = true → s.pwr.halted = false → s.eng.is Fld.STW_MB_STAT_BUSY = true →
    Runs .mailboxTimeout s fun t => t.stw.req = none ∧ t.eng.is Fld.STW_MB_STAT_BUSY = false ∧
      t.eng.is Fld.STW_MB_STAT_DONE = true ∧ t.eng.get Fld.STW_MB_STAT_STATUS = 5)

/-- O7. What the steward does on its own (R73 to R76, R134, R137, R138, R142 to R144): samples, heartbeats, the watchdog and the journalled
write of a label page. -/
def Obligations.StewardActs : Prop :=
  (∀ s rs sp, s.stw.run = .running →
    Runs (.pointSample rs sp) s fun t => ∀ i, i < 52 → pointLive s i = true →
      t.stw.points.getD i {} = (s.stw.points.getD i {}).sample i (rs.getD i none)) ∧
  (∀ s fan, s.stw.run = .running → fan < 2 → s.stw.fan.duty ≤ 10000 →
    Runs (.fanFailure fan) s fun t => t.stw.fan.failed = s.stw.fan.failed ||| 2 ^ fan ∧ t.stw.fan.duty = 10000 ∧
      t.stw.log = s.stw.log ++ [LogEv.fanFailed fan]) ∧
  (∀ s, s.stw.run = .running → s.engineUp = true → s.eng.is Fld.STW_STAT_ABSENT = false →
    Does .heartbeat s fun e => e.put Fld.STW_STAT_HB (e.get Fld.STW_STAT_HB + 1)) ∧
  (∀ s, s.engineUp = true → s.eng.is Fld.STW_STAT_ABSENT = false →
    Does .stewardAbsentTimeout s fun e => ((e.put Fld.STW_STAT_ABSENT 1).evt Fld.STW_EVT_ABSENT_SET).errInfo 0x50 19 0 0 0 0) ∧
  (∀ s, s.stw.run = .running → exec .watchdogKick s = .next (s.onStw fun w => { w with failsToMonitor := 0 })) ∧
  (∀ s, s.stw.run = .running →
    Runs .watchdogExpiry s fun t => t.stw.run = .restarting ∧ t.stw.fan.duty = 10000 ∧ t.pwr = s.pwr ∧ t.eng.mem = s.eng.mem ∧
      t.eng.time = s.eng.time) ∧
  (∀ s, s.stw.run = .restarting → s.pwr.phase = .running → s.stw.duePowerDown = false →
    Runs .stewardResume s fun t => t.stw.run = .running ∧ t.stw.restarts = (s.stw.restarts + 1) % 65536 ∧ t.pwr = s.pwr ∧
      t.stw.label.pending = none) ∧
  (∀ s x r, s.stw.run = .running → s.stw.label.active = none → s.stw.label.queue = x :: r →
    exec .labelWriteStart s = .next (s.onStw fun w => { w with label := { w.label with
      shadow := x.merged w.label, pending := some x.page, active := some x, queue := r } })) ∧
  (∀ s x, s.stw.run = .running → s.stw.label.active = some x → s.stw.label.waiting = [] →
    exec .labelWriteCommit s = .next (s.onStw fun w => { w with label := { w.label with
      mem := Tbl.writeBytes w.label.mem (256 * x.page) (fitTo 256 w.label.shadow)
      crcBad := w.label.crcBad.filter (· != x.page), pending := none, active := none, waiting := [] } }))

/-! ### The Kolber channel, the field end, optics and cables (R50 to R90) -/

/-- O8. R64, for the messages that the host end receives and those that the field end receives: a frame whose CRC fails, whose LEN exceeds
35 or whose TYPE is not in the table is discarded and counted, and has no other effect. -/
def Obligations.KolberDiscardsBadFrames : Prop :=
  (∀ s fr, s.engineUp = true → s.eng.is Fld.KOL_CTRL_EN = true → ∀ c ∈ [Instr.linkHello, .triggerIn, .ppsEdge, .refState, .fixtureId, .fieldAlarm],
    (crc16 (kolBody fr) ≠ fr.crc → Does (c fr) s fun e => e.count (Reg.KOL_CNT 0)) ∧
    (crc16 (kolBody fr) = fr.crc → (35 < fr.len ∨ kolLen fr.typ = none) → Does (c fr) s fun e => e.count (Reg.KOL_CNT 1))) ∧
  (∀ s fr, s.fld.powered = true → ∀ c ∈ [Instr.triggerOut, .labelData],
    (crc16 (kolBody fr) ≠ fr.crc → exec (c fr) s = .next { s with fld := { s.fld with crcFail := s.fld.crcFail + 1 } }) ∧
    (crc16 (kolBody fr) = fr.crc → (35 < fr.len ∨ kolLen fr.typ = none) →
      exec (c fr) s = .next { s with fld := { s.fld with badFrame := s.fld.badFrame + 1 } })) ∧
  (∀ s fr, s.engineUp = true → s.eng.is Fld.KOL_CTRL_EN = true → s.fld.labelReq.isSome = true →
    (crc16 (kolBody fr) ≠ fr.crc → Does (.labelRead fr) s fun e => e.count (Reg.KOL_CNT 0)) ∧
    (crc16 (kolBody fr) = fr.crc → (35 < fr.len ∨ kolLen fr.typ = none) → Does (.labelRead fr) s fun e => e.count (Reg.KOL_CNT 1)))

/-- O9. What each Kolber message does where it arrives (R65, R66, R69, R75 to R77, R84, R86 to R88). -/
def Obligations.KolberMessagesTakeEffect : Prop :=
  (∀ s fr, s.engineUp = true → s.eng.kolTakes 0x01 fr → byteAt fr.payload 0 = 1 → 1 ≤ s.eng.kol.helloRun →
    Runs (.linkHello fr) s fun t => t.eng.is Fld.KOL_STAT_LINK_UP = true ∧ t.eng.kol.helloRun = s.eng.kol.helloRun + 1) ∧
  (∀ s fr, s.engineUp = true → s.eng.kolTakes 0x10 fr → s.eng.is Fld.KOL_CTRL_TRIGDIR = true → s.eng.is Fld.KOL_STAT_LINK_UP = true →
    Does (.triggerIn fr) s fun e => ((((e.kolTook fr).wr Reg.KOL_TRIG_TS e.time).wr Reg.KOL_TRIG_SEQ (leAt fr.payload 0 2 + 65536)).count
      (Reg.KOL_CNT 6)).triggerBoundary) ∧
  (∀ s fr, s.engineUp = true → s.eng.kolTakes 0x10 fr → s.eng.is Fld.KOL_CTRL_TRIGDIR = false →
    Does (.triggerIn fr) s fun e => (e.kolTook fr).evtIf (leAt fr.payload 0 2 != e.kol.trigCtr) Fld.KOL_EVT_TRIG_SEQ_MISMATCH) ∧
  (∀ s fr, s.engineUp = true → s.eng.kolTakes 0x20 fr → leAt fr.payload 0 2 = s.eng.kol.ppsCtr → byteAt fr.payload 2 = 1 →
    Does (.ppsEdge fr) s fun e => (e.kolTook fr).put Fld.KOL_PPS_SEQ_VALID 1) ∧
  (∀ s fr, s.engineUp = true → s.eng.kolTakes 0x20 fr → byteAt fr.payload 2 ≠ 1 →
    Does (.ppsEdge fr) s fun e => (((e.kolTook fr).evtIf (leAt fr.payload 0 2 != e.kol.ppsCtr) Fld.KOL_EVT_TRIG_SEQ_MISMATCH).evt
      Fld.KOL_EVT_PPS_BADWIDTH).put Fld.KOL_PPS_SEQ_VALID 0) ∧
  (∀ s fr, s.engineUp = true → s.eng.kolTakes 0x21 fr → byteAt fr.payload 0 = 1 →
    Does (.refState fr) s fun e => (((e.kolTook fr).evtIf (e.is Fld.KOL_STAT_REF_PRES != true) Fld.KOL_EVT_REF_CHANGE).put
      Fld.KOL_STAT_REF_PRES 1).wr Reg.KOL_REF (leAt fr.payload 1 4)) ∧
  (∀ s fr, s.engineUp = true → s.eng.kolTakes 0x40 fr →
    Does (.fixtureId fr) s fun e => (List.range 4).foldl (fun e i => e.wr (Reg.KOL_FIXTURE i) (leAt fr.payload (1 + 4 * i) 4))
      (((e.kolTook fr).put Fld.KOL_STAT_FIXTURE_PRES (byteAt fr.payload 0)).evt Fld.KOL_EVT_FIXTURE_CHANGE)) ∧
  (∀ s fr, s.engineUp = true → s.eng.kolTakes 0x50 fr →
    Runs (.fieldAlarm fr) s fun t => t.eng.rd Reg.KOL_ALARM = byteAt fr.payload 0 % 32 ∧
      t.eng.is Fld.KOL_STAT_ALARM_ACTIVE = decide (byteAt fr.payload 0 % 32 ≠ 0)) ∧
  (∀ s fr, s.engineUp = true → s.eng.kolTakes 0x30 fr → s.stw.run = .running → s.stw.label.active = none → s.fld.labelReq.isSome = true →
    Does (.labelRead fr) s fun e => ((e.kolTook fr).count (Reg.KOL_CNT 4)).answerLabel s.stw.label (byteAt fr.payload 0)) ∧
  (∀ s fr, s.fld.takes 0x11 fr → byteAt fr.payload 2 = 1 →
    exec (.triggerOut fr) s = .next { s with fld := { s.fld.took fr with pulses := s.fld.pulses ++ [leAt fr.payload 0 2] } }) ∧
  (∀ s fr, s.fld.takes 0x31 fr → s.fld.labelReq = none →
    exec (.labelData fr) s = .next { s with fld := { s.fld.took fr with
      labelBuf := Tbl.writeBytes s.fld.labelBuf (32 * byteAt fr.payload 1) (slice fr.payload 3 32) } })

/-- O10. Set-up, edges and triggers at the host end (R65, R67, R68, R70, R71, R79 to R81, R83, R85, R640). A module that is the root on PPS
also steers by the edge. -/
def Obligations.KolberEdgesAndTriggers : Prop :=
  (∀ s v, s.engineUp = true → s.pcieUp = true → s.eng.pends 17 = false → bitOf (s.eng.rd Reg.GLB_PEND) 17 = false → v % 2 = 1 →
    Does (.kolCtrlWrite v) s fun e => (e.wr Reg.KOL_CTRL (v &&& 0xFF1F)).put Fld.KOL_PROFILE_PROFILE 7) ∧
  (∀ s v c, s.engineUp = true → s.pcieUp = true → s.eng.pends 17 = false → kolProfile v = some c → c % 2 = 1 →
    Does (.kolProfileSelect v) s fun e => ((e.wr Reg.KOL_CTRL c).put Fld.KOL_PROFILE_PROFILE v).wr Reg.GLB_PEND
      (((e.wr Reg.KOL_CTRL c).put Fld.KOL_PROFILE_PROFILE v).rd Reg.GLB_PEND ||| 2 ^ 17)) ∧
  (∀ s, s.engineUp = true → s.pcieUp = true → bitOf (s.eng.rd Reg.GLB_PEND) 17 = false → s.eng.is Fld.KOL_CTRL_EN = true →
    s.eng.time ≤ s.eng.rd Reg.KOL_TRIGOUT_TIME →
    Does .kolTrigoutArm s fun e => { e with kol := { e.kol with armed := some (e.rd Reg.KOL_TRIGOUT_TIME) } }) ∧
  (∀ s, s.engineUp = true → s.pcieUp = true → bitOf (s.eng.rd Reg.GLB_PEND) 17 = false →
    Does .kolTrigoutCancel s fun e => { e with kol := { e.kol with armed := none } }) ∧
  (∀ s t, s.engineUp = true → s.eng.kol.armed = some t → t ≤ s.eng.time → s.eng.is Fld.KOL_STAT_LINK_UP = false →
    Does .triggerFire s fun e => Engine.evt { e with kol := { e.kol with armed := none } } Fld.KOL_EVT_TRIG_LATE) ∧
  (∀ s t, s.engineUp = true → s.eng.kol.armed = some t → t ≤ s.eng.time → s.eng.is Fld.KOL_STAT_LINK_UP = true →
    s.eng.get Fld.KOL_CTRL_TRIGOUT_WIDTH ≠ 0 → s.eng.is Fld.KOL_CTRL_TRIGDIR = true →
    Does .triggerFire s fun e =>
      (Engine.emit { e with kol := { e.kol with armed := none, outCtr := (e.kol.outCtr + 1) % 65536 } }
        (.e1Pulse e.time (e.get Fld.KOL_CTRL_TRIGOUT_WIDTH) (e.is Fld.KOL_CTRL_TRIGOUT_POL))).kolSend 0x11
          (natLE 2 ((e.kol.outCtr + 1) % 65536) ++ [0])) ∧
  (∀ s up frac, s.engineUp = true → s.eng.is Fld.KOL_CTRL_EN = true → s.eng.is Fld.KOL_STAT_LINK_UP = true →
    s.eng.is Fld.KOL_CTRL_PPS_POL = !up → s.eng.kol.lastE0 = none → s.eng.is Fld.FLG_TIME_CFG_ROOT = false →
    Runs (.e0Edge up frac) s fun t => t.eng.kol.ppsCtr = (s.eng.kol.ppsCtr + 1) % 65536 ∧
      t.eng.rd Reg.KOL_PPS_TS = edgeTime (16 * s.eng.time + frac % 16) (s.eng.get Fld.KOL_CAL_PPS_DELAY) % 2 ^ 64) ∧
  (∀ s up frac, s.engineUp = true → s.eng.is Fld.KOL_CTRL_EN = true → s.eng.is Fld.KOL_STAT_LINK_UP = true →
    s.eng.is Fld.KOL_CTRL_TRIGDIR = false → s.eng.is Fld.KOL_CTRL_TRIGIN_POL = !up → s.eng.kol.lastE1 = none →
    s.eng.is Fld.GLN_TALLY_CFG_MODE = true →
    Runs (.e1TriggerInEdge up frac) s fun t => t.eng.kol.trigCtr = (s.eng.kol.trigCtr + 1) % 65536 ∧ t.eng.gln.trigDue = true) ∧
  (∀ s up frac p, s.engineUp = true → s.eng.is Fld.KOL_CTRL_EN = true → s.eng.is Fld.KOL_STAT_LINK_UP = true →
    s.eng.is Fld.KOL_CTRL_PPS_POL = !up → s.eng.kol.lastE0 = some p → 16 * s.eng.cyc + frac % 16 < p + 20000 →
    Does (.e0Edge up frac) s fun e => (e.evt Fld.KOL_EVT_EDGE_TOOFAST).count (Reg.KOL_CNT 3)) ∧
  (∀ s, exec (.linkHelloSend true) s = .next { s with fld := s.fld.send 0x01 [1, 1] }) ∧
  (∀ s, s.engineUp = true → s.eng.is Fld.KOL_CTRL_EN = true → Does (.linkHelloSend false) s fun e => e.kolSend 0x01 [1, 0]) ∧
  (∀ s, s.engineUp = true → s.eng.is Fld.KOL_STAT_LINK_UP = true →
    Runs .kolLinkLost s fun t => t.eng.is Fld.KOL_STAT_LINK_UP = false ∧ t.eng.is Fld.KOL_EVT_LINK_LOST = true ∧ t.eng.kol.helloRun = 0)

/-- O11. The field end, the optical modules and the cables (R50 to R54, R66, R87 to R89): what each event sends and changes; nothing else
changes. -/
def Obligations.FieldEndActs : Prop :=
  (∀ s ppb, s.fld.powered = true → Runs (.refGateEnd ppb) s fun t => t.eng = s.eng ∧ t.fld.refPresent = s.fld.refPresent ∧
    (t.fld.out.map (·.payload)) = (s.fld.out.map (·.payload)) ++ [natLE 1 (bit s.fld.refPresent) ++ natLE 4 (wrapInt 32 ppb)]) ∧
  (∀ s p, s.fld.powered = true → s.fld.refPresent ≠ p → Runs (.refPresenceChange p) s fun t => t.eng = s.eng ∧ t.fld.refPresent = p ∧
    (t.fld.out.map (·.typ)) = (s.fld.out.map (·.typ)) ++ [0x21]) ∧
  (∀ s ident, s.fld.powered = true → Runs (.fidPresSettled true ident) s fun t => t.fld.fixture = true ∧ t.fld.fixtureId = fitTo 16 ident ∧
    (t.fld.out.map (·.payload)) = (s.fld.out.map (·.payload)) ++ [natLE 1 1 ++ fitTo 16 ident]) ∧
  (∀ s, s.fld.powered = true → Runs .vfldOvercurrent s fun t => t.fld.vfldOn = false ∧
    (t.fld.out.map (·.payload)) = (s.fld.out.map (·.payload)) ++ [natLE 1 (s.fld.alarm ||| 1)]) ∧
  (∀ s, s.fld.powered = true → s.fld.vfldOn = false → Runs (.vfldRetry true) s fun t => t.fld.vfldOn = true ∧
    t.fld.out.length = s.fld.out.length + 1) ∧
  (∀ s, s.fld.powered = true → s.fld.alarm ≠ 0 → Runs .fieldAlarmRepeat s fun t => t.fld.vfldOn = s.fld.vfldOn ∧
    (t.fld.out.map (·.payload)) = (s.fld.out.map (·.payload)) ++ [natLE 1 s.fld.alarm]) ∧
  (∀ s low, s.fld.powered = true → Runs (.falmNChange low) s fun t =>
    (t.fld.out.map (·.payload)) = (s.fld.out.map (·.payload)) ++ [natLE 1 (withBits s.fld.alarm 2 2 (bit low))]) ∧
  (∀ s page n g, s.fld.powered = true → s.fld.labelReq = some (page, n, g) → n < 3 → Runs .labelReadRetry s fun t =>
    t.fld.labelReq = some (page, n + 1, 0) ∧ (t.fld.out.map (·.payload)) = (s.fld.out.map (·.payload)) ++ [natLE 1 page]) ∧
  (∀ s page n g, s.fld.labelReq = some (page, n, g) → 3 ≤ n →
    exec .labelReadRetry s = .next { s with fld := { s.fld with labelReq := none } }) ∧
  (∀ s c w, 150 < w → Runs (.opticsInsert c w) s fun t => t.eng.phys.highPowerEvents = s.eng.phys.highPowerEvents + 1 ∧
    t.pwr = s.pwr ∧ t.stw = s.stw) ∧
  (∀ s conn low, exec (.cblPresChange conn low) s =
    .next (s.onEng fun e => { e with phys := { e.phys with cable := setAt e.phys.cable conn low } })) ∧
  (∀ s c, c < 8 → (∀ p, (s.eng.rxOf p).cur = none) → Runs (.opticsRemove c []) s fun t =>
    t.eng.phys.cages = modAt s.eng.phys.cages c (fun g => { g with present := false, highPower := false }) ∧ t.pwr = s.pwr)

/-! ### Domains, block resets and warm resets (R104 to R130) -/

/-- O12. A power domain through its four states (R104 to R107, R111, R112, R120, R126). Garner pair 0's REQ bit reads 1, so the host's whole
value is shown with it set. A domain held after a failed self-test (R693) is not the subject here. -/
def Obligations.DomainsDrainGateAndWake : Prop :=
  (∀ s d, s.engineUp = true → s.pcieUp = true → bitOf (s.eng.rd Reg.GLB_PEND) 1 = false → d < 19 → d ≠ 14 →
    s.eng.rd Reg.CLK_DOM_CTRL < 2 ^ 19 → bitOf (s.eng.rd Reg.CLK_DOM_CTRL) 14 = true → bitOf (s.eng.rd Reg.CLK_DOM_CTRL) d = true →
    (s.eng.dom d).st = .on → (d = 18 → s.eng.felgenBusy = false) →
    Runs (.domainGate d) s fun t => (t.eng.dom d).st = .draining ∧ (t.eng.dom d).since = s.eng.cyc ∧
      bitOf (t.eng.rd Reg.CLK_DOM_CTRL) d = false ∧ t.eng.get Fld.CLK_DOM_PROFILE_PROFILE = 7 ∧ t.eng.mem = s.eng.mem ∧
      ∀ d', d' ≠ d → t.eng.dom d' = s.eng.dom d') ∧
  (∀ s, s.engineUp = true → s.pcieUp = true → bitOf (s.eng.rd Reg.GLB_PEND) 1 = false → s.eng.rd Reg.CLK_DOM_CTRL < 2 ^ 19 →
    bitOf (s.eng.rd Reg.CLK_DOM_CTRL) 14 = true → bitOf (s.eng.rd Reg.CLK_DOM_CTRL) 18 = true → s.eng.felgenBusy = true →
    Does (.domainGate 18) s fun e =>
      ((e.evt Fld.CLK_DOM_EVT_REFUSED).wr Reg.CLK_DOM_CTRL (e.rd Reg.CLK_DOM_CTRL)).put Fld.CLK_DOM_PROFILE_PROFILE 7) ∧
  (∀ s d, s.engineUp = true → d < 8 → (s.eng.dom d).st = .draining → (s.eng.dom d).resetPend = false → s.eng.domBusy d = false →
    Does (.drainConfirmed d) s fun e => (e.setDom d fun x => { x with st := .gated }).zeroScratch d) ∧
  (∀ s d, s.engineUp = true → 8 ≤ d → d < 17 → (s.eng.dom d).st = .draining → (s.eng.dom d).resetPend = false →
    s.eng.domBusy d = false → Does (.drainConfirmed d) s fun e => e.setDom d fun x => { x with st := .gated }) ∧
  (∀ s d, s.engineUp = true → 17 ≤ d → d < 19 → (s.eng.dom d).st = .draining → (s.eng.dom d).resetPend = false →
    s.eng.domBusy d = false → Runs (.drainConfirmed d) s fun t => (t.eng.dom d).st = .gated ∧ t.eng.mem = s.eng.mem) ∧
  (∀ s d, s.engineUp = true → d < 19 → (s.eng.dom d).st = .draining → (s.eng.dom d).resetPend = false →
    (s.eng.dom d).held = false → (s.eng.dom d).gatePend = false → s.eng.domBusy d = true → (s.eng.dom d).since + 62500 ≤ s.eng.cyc →
    Runs (.drainAbort d) s fun t => (t.eng.dom d).st = .on ∧ bitOf (t.eng.rd Reg.CLK_DOM_CTRL) d = true ∧
      bitOf (t.eng.rd Reg.CLK_DOM_EVT) d = true ∧ t.eng.rd (Reg.CLK_CNT 0) = satCount 48 (s.eng.rd (Reg.CLK_CNT 0)) 1 ∧
      ∀ d', d' ≠ d → t.eng.dom d' = s.eng.dom d') ∧
  (∀ s d, s.engineUp = true → s.pcieUp = true → bitOf (s.eng.rd Reg.GLB_PEND) 1 = false → d < 19 →
    s.eng.rd Reg.CLK_DOM_CTRL < 2 ^ 19 → bitOf (s.eng.rd Reg.CLK_DOM_CTRL) 14 = true → bitOf (s.eng.rd Reg.CLK_DOM_CTRL) d = false →
    (s.eng.dom d).st = .gated → (s.eng.dom d).held = false →
    Runs (.domainWake d) s fun t => (t.eng.dom d).st = .waking ∧ bitOf (t.eng.rd Reg.CLK_DOM_CTRL) d = true ∧
      t.eng.get Fld.CLK_DOM_PROFILE_PROFILE = 7 ∧ t.eng.mem = s.eng.mem ∧ ∀ d', d' ≠ d → t.eng.dom d' = s.eng.dom d') ∧
  (∀ s d, s.engineUp = true → d < 19 → (s.eng.dom d).st = .waking → (s.eng.dom d).gatePend = false →
    Runs (.domainOn d) s fun t => (t.eng.dom d).st = .on ∧ t.eng.rd Reg.CLK_DOM_CTRL = s.eng.rd Reg.CLK_DOM_CTRL ∧
      (8 ≤ d → t.eng.mem = s.eng.mem) ∧ ∀ d', d' ≠ d → t.eng.dom d' = s.eng.dom d')

/-- O13. Resets short of a cold one: the domain resets of Table CLK-8 drain first and go ahead after 50 µs; a reset refused does nothing
else; a warm reset holds BUSY, loses the frames in flight and the host commands and keeps lattice time; BUSY ends; a
lattice-coordinated reset is a warm reset at its time (R116 to R118, R122, R128, R649). -/
def Obligations.WarmAndBlockResets : Prop :=
  (∀ s mask, s.engineUp = true → s.pcieUp = true → bitOf (s.eng.rd Reg.GLB_PEND) 1 = false → s.eng.resetAllowed mask = false →
    Does (.blockReset mask) s fun e => e.evt Fld.CLK_RST_STAT_REFUSED) ∧
  (∀ s, s.engineUp = true → s.pcieUp = true → bitOf (s.eng.rd Reg.GLB_PEND) 1 = false → s.eng.causeOn 5 = true →
    Does (.blockReset (2 ^ 12)) s fun e => e.blockRegs 4) ∧
  (∀ s d, s.engineUp = true → s.pcieUp = true → bitOf (s.eng.rd Reg.GLB_PEND) 1 = false → d < 12 → (s.eng.dom d).st = .on →
    Does (.blockReset (2 ^ d)) s fun e => e.startDrain d true) ∧
  (∀ s d, s.engineUp = true → d < 12 → (s.eng.dom d).st = .draining → (s.eng.dom d).resetPend = true →
    (s.eng.dom d).since + 62500 ≤ s.eng.cyc → Does (.blockResetDrainTimeout d) s fun e =>
      ((e.clearDomain d).setReq d (!(e.dom d).gatePend)).domainOn d) ∧
  (∀ s, s.pcieUp = true → s.eng.is Fld.CLK_RST_STAT_BUSY = false → bitOf (s.eng.rd Reg.GLB_PEND) 1 = false →
    Runs (.warmReset 0x4160) s fun t => t.eng.is Fld.CLK_RST_STAT_BUSY = true ∧ t.eng.get Fld.CLK_RST_CAUSE_CAUSE = 3 ∧
      t.eng.time = s.eng.time ∧ t.eng.pkts = [] ∧ t.eng.hif.cmds = [] ∧ t.pwr = s.pwr ∧ t.engineUp = false) ∧
  (∀ s key, key ≠ 0x4160 → bitOf (s.eng.rd Reg.GLB_PEND) 1 = false → exec (.warmReset key) s = .next s) ∧
  (∀ s, s.pwr.released = true → s.pwr.halted = false → s.eng.is Fld.CLK_RST_STAT_BUSY = true → s.eng.phys.hotspot < 1050 →
    Does .warmResetComplete s fun e => e.put Fld.CLK_RST_STAT_BUSY 0) ∧
  (∀ s t0, s.engineUp = true → s.eng.flg.resetAt = some t0 → t0 ≤ s.eng.time →
    Runs .latticeResetTime s fun t => t.eng.is Fld.CLK_RST_STAT_BUSY = true ∧ t.eng.get Fld.CLK_RST_CAUSE_CAUSE = 4 ∧
      t.eng.time = s.eng.time ∧ t.eng.flg.resetAt = none ∧ t.pwr = s.pwr)

/-! ### Errors and bypass (R146, R680, R684, R688 to R697) -/

/-- O14. Bypass causes, the self-test, patrol reads and injection: which register bits each event sets and clears (R146, R680,
R688 to R690, R693, R694, R696). -/
def Obligations.BypassCausesFollowEvents : Prop :=
  (∀ s x, s.engineUp = true → 1050 ≤ x → s.eng.causeOn 1 = false →
    Runs (.thermalTrip105 x) s fun t => t.eng.causeOn 1 = true ∧ t.eng.is Fld.ERR_BYPASS_STAT_THROTTLE = true ∧
      t.eng.phys.hotspot = x ∧ t.eng.mem = s.eng.mem ∧ t.pwr = s.pwr) ∧
  (∀ s x, s.pwr.released = true → 1150 ≤ x → Runs (.thermalHalt115 x) s fun t => t.engineUp = false ∧ t.pcieUp = false ∧
    t.eng.is Fld.STW_STAT_HALT_SEEN = true ∧ t.pwr.released = true ∧ t.eng.mem = s.eng.mem) ∧
  (∀ s x, s.engineUp = true → x ≤ 950 → s.eng.get Fld.ERR_BYPASS_STAT_CAUSES = 1 →
    Runs (.thermalClear x) s fun t => t.eng.get Fld.ERR_BYPASS_STAT_CAUSES = 0 ∧ t.eng.inBypass = false ∧
      t.eng.is Fld.ERR_BYPASS_STAT_THROTTLE = false ∧ t.eng.phys.hotspot = x ∧ t.pwr = s.pwr) ∧
  (∀ s, s.engineUp = true → s.stw.run = .running → s.eng.causeOn 4 = false →
    Runs .railLost s fun t => t.eng.causeOn 4 = true ∧ t.eng.err.railOkAt = none ∧ t.stw = s.stw ∧ t.pwr = s.pwr) ∧
  (∀ s, s.engineUp = true → s.stw.run = .running → s.eng.err.railOkAt = none →
    Runs .railOk s fun t => t.eng.err.railOkAt = some s.eng.cyc ∧ t.eng.causeOn 4 = s.eng.causeOn 4 ∧ t.pwr = s.pwr) ∧
  (∀ s t0, s.engineUp = true → s.eng.err.railOkAt = some t0 → t0 + 1250000000 ≤ s.eng.cyc → s.eng.causeOn 4 = true →
    Runs .railOkQualified s fun t => t.eng.causeOn 4 = false ∧ t.eng.err.railOkAt = none ∧ t.stw = s.stw) ∧
  (∀ s, s.engineUp = true → s.pcieUp = true → bitOf (s.eng.rd Reg.GLB_PEND) 18 = false → s.eng.causeOn 5 = false →
    s.eng.inBypass = false →
    Runs (.bypassCmd 1) s fun t => t.eng.causeOn 5 = true ∧ t.eng.inBypass = true ∧ t.eng.rd Reg.ERR_BYPASS_TIME = s.eng.time % 2 ^ 64 ∧
      t.eng.is Fld.ERR_EVT_BYPASS_ENTER = true ∧ t.eng.pkts = s.eng.pkts) ∧
  (∀ s, s.engineUp = true → s.pcieUp = true → bitOf (s.eng.rd Reg.GLB_PEND) 18 = false → s.eng.causeOn 5 = true →
    s.eng.inBypass = true → s.eng.gft.live = none →
    Runs (.bypassCmd 0) s fun t => t.eng.causeOn 5 = false ∧ t.eng.causeOn 3 = true ∧ t.eng.inBypass = true) ∧
  (∀ s, s.engineUp = true → s.pcieUp = true → bitOf (s.eng.rd Reg.GLB_PEND) 18 = false → s.eng.causeOn 2 = true →
    s.eng.err.testing = [] → Runs .errBypassAck s fun t => t.eng.is Fld.ERR_BYPASS_STAT_SELFTEST = true ∧
      t.eng.err.testing = s.eng.err.ueUnits ∧ t.eng.causeOn 2 = true) ∧
  (∀ s, s.engineUp = true → s.eng.is Fld.ERR_BYPASS_STAT_SELFTEST = true → s.eng.err.ueAgain = false → s.eng.causeOn 2 = true →
    Runs (.selftestComplete []) s fun t => t.eng.is Fld.ERR_BYPASS_STAT_SELFTEST = false ∧ t.eng.causeOn 2 = false ∧
      t.eng.doms = s.eng.doms) ∧
  (∀ s a, s.engineUp = true → s.eng.is Fld.ERR_CFG_SCRUB_EN = true → a < 0x0C000000 → (a / 8 * 8) ∉ s.eng.poison →
    Does (.patrolRead 0 a .ue) s (fun e => e.memUe 0 (a / 8 * 8) true) ∧
    Does (.patrolRead 0 a .ce) s (fun e => (e.memCe 0 (a / 8 * 8)).count (Reg.ERR_CNT 6)) ∧
    exec (.patrolRead 0 a .clean) s = .next s) ∧
  (∀ s v, s.engineUp = true → s.pcieUp = true → bitOf (s.eng.rd Reg.GLB_PEND) 18 = false → bitsOf v 31 16 = 0x4160 →
    Runs (.errInject v) s fun t => t.eng.get Fld.ERR_INJECT_MEM = bitsOf v 2 0 ∧ t.eng.get Fld.ERR_INJECT_KIND = bitsOf v 8 8 ∧
      (bitOf v 15 = true → t.eng.is Fld.ERR_INJECT_ARMED = true))

/-! ### Basic profiles (R16 to R18, R119, R206, R245, R246, R280, R327, R359, R392, R425, R464, R526, R544, R571, R572, R604, R646, R674,
R694, R708, R725) -/

/-- O15. Selecting a profile (R17, R708): with nothing pending the readback shows the value and GLB_PEND the block's bit; a value that names
no profile is ignored whole; while the bit is set a selection is ignored and counted; PROFILE_EXPANSION_COMPLETE clears it. -/
def Obligations.ProfilesReadBack : Prop :=
  (∀ s c v f b n, s.engineUp = true → s.pcieUp = true → s.eng.rd Reg.GLB_PEND = 0 → profileOf c = some (v, f, b, n) → v < n →
    Runs c s fun t => t.eng.get f = v ∧ t.eng.rd Reg.GLB_PEND = 2 ^ b ∧ t.eng.time = s.eng.time ∧ t.pwr = s.pwr ∧ t.stw = s.stw) ∧
  (∀ s c v f b n, s.engineUp = true → s.pcieUp = true → s.eng.rd Reg.GLB_PEND = 0 → profileOf c = some (v, f, b, n) → n ≤ v →
    exec c s = .next s) ∧
  (∀ s c v f b n, s.engineUp = true → s.pcieUp = true → profileOf c = some (v, f, b, n) → bitOf (s.eng.rd Reg.GLB_PEND) b = true →
    Does c s fun e => (e.evt Fld.GLB_EVT_PEND_WRITE).count (Reg.GLB_CNT 1)) ∧
  (∀ s b, s.engineUp = true → b ∈ [1, 3, 4, 6, 7, 8, 9, 10, 11, 12, 13, 14, 15, 16, 17, 18] →
    Runs (.profileExpansionComplete b) s fun t => bitOf (t.eng.rd Reg.GLB_PEND) b = false ∧
      ∀ off, off ≠ Reg.GLB_PEND → t.eng.rd off = s.eng.rd off)

/-- O16. What the profiles write (R16, R17 and the profile tables), and the rows that have conditions of their own: the intake's
while a port is up, the cascade's while its shadow generation is in use, a port's with a rate or a cycle out of range, and the host
interface's, which waits until every ring it names is disabled. -/
def Obligations.ProfilesExpand : Prop :=
  (∀ s v, s.engineUp = true → s.pcieUp = true → s.eng.rd Reg.GLB_PEND = 0 → v < 4 →
    Runs (.thrProfileSelect v) s fun t =>
      t.eng.rd Reg.THR_MAL_ACT = [0x96AA6A98, 0x00000000, 0xAAAAAAA8, 0x55555554].getD v 0) ∧
  (∀ s v, s.engineUp = true → s.pcieUp = true → s.eng.rd Reg.GLB_PEND = 0 → v < 3 →
    Runs (.milProfileSelect v) s (fun t => t.eng.rd Reg.MIL_CFG = [0x80400400, 0x00400400, 0x80100100].getD v 0) ∧
    Runs (.rilProfileSelect v) s (fun t => t.eng.rd Reg.RIL_CFG = [0x380064, 0x280064, 0x3807D0].getD v 0) ∧
    Runs (.gftProfileSelect v) s (fun t => t.eng.rd Reg.GFT_CFG = [0x100400, 0x100401, 0x040081].getD v 0) ∧
    Runs (.errProfileSelect v) s (fun t => t.eng.rd Reg.ERR_SCRUB = [24, 24, 4].getD v 0 ∧
      t.eng.get Fld.ERR_CFG_RING = s.eng.get Fld.ERR_CFG_RING ∧ t.eng.get Fld.ERR_CFG_VREC = [1, 0, 1].getD v 0) ∧
    Runs (.shfProfileSelect v) s (fun t => t.eng.get Fld.SHF_CFG_AGE_MS = [60000, 10000, 0].getD v 0 ∧
      t.eng.get Fld.SHF_LIMIT_MIG_MAX = [256, 512, 256].getD v 0)) ∧
  (∀ s v, s.engineUp = true → s.pcieUp = true → s.eng.rd Reg.GLB_PEND = 0 → v < 4 →
    (∀ p < 32, s.eng.is (Fld.ITK_PORT_CTRL_UP p) = false) →
    Runs (.itkProfileSelect v) s fun t => t.eng.get Fld.ITK_PROFILE_PROFILE = v ∧
      ∀ p < 32, t.eng.get (Fld.ITK_PORT_CFG_MODE p) = [0, 1, 0, 2].getD v 0 ∧ t.eng.get (Fld.ITK_PORT_CFG_PAIR p) = p ^^^ 4) ∧
  (∀ s v p, s.engineUp = true → s.pcieUp = true → s.eng.rd Reg.GLB_PEND = 0 → v < 4 → p < 32 → s.eng.is (Fld.ITK_PORT_CTRL_UP p) = true →
    Does (.itkProfileSelect v) s fun e => e.evt Fld.ITK_EVT_CFG_REFUSED) ∧
  (∀ s v, s.engineUp = true → s.pcieUp = true → s.eng.rd Reg.GLB_PEND = 0 → v = 1 ∨ v = 2 → s.eng.genState = 0 → s.eng.hif.cmds = [] →
    Runs (.cscProfileSelect v) s fun t => t.eng.get Fld.CSC_PROFILE_PROFILE = v ∧ t.eng.rd Reg.GLB_PEND = 2 ^ 6 ∧
      t.eng.genState = 1 ∧ t.eng.tab.shadow = s.eng.tab.live ∧ t.eng.rd Reg.WNW_SWITCH_TIME = s.eng.time % 2 ^ 64 ∧
      t.eng.tab.retGen = s.eng.rd Reg.WNW_GEN) ∧
  (∀ s v, s.engineUp = true → s.pcieUp = true → s.eng.rd Reg.GLB_PEND = 0 → v = 1 ∨ v = 2 → s.eng.genState ≠ 0 →
    Does (.cscProfileSelect v) s fun e => e.evt Fld.CSC_EVT_PROFILE_REFUSED) ∧
  (∀ s p, s.engineUp = true → s.pcieUp = true → s.eng.rd Reg.GLB_PEND = 0 → p < 32 → s.eng.present p = true →
    Runs (.slcPprofileSelect p 0) s fun t => t.eng.get (Fld.SLC_PPROFILE_PROFILE p) = 0 ∧ t.eng.rd Reg.GLB_PEND = 2 ^ 13 ∧
      t.eng.is (Fld.SLC_GCL_CTRL_EN p) = false) ∧
  (∀ s p, s.engineUp = true → s.pcieUp = true → s.eng.rd Reg.GLB_PEND = 0 → p < 32 → s.eng.present p = true →
    s.eng.get (Fld.SLC_PBASIC_RATE_MBPS p) = 0 → Does (.slcPprofileSelect p 1) s fun e => e.evt Fld.SLC_EVT_CFG_ERR) ∧
  (∀ s v, s.engineUp = true → s.pcieUp = true → s.eng.rd Reg.GLB_PEND = 0 → v < 3 →
    Does (.glbPartProfileSelect v) s fun e =>
      ((e.wr Reg.GLB_PART_A ([0x28086020, 0x10087820, 0x40084820].getD v 0)).wr Reg.GLB_PART_B 0x0808).put
        Fld.GLB_PART_PROFILE_PROFILE v) ∧
  (∀ s v, s.engineUp = true → s.pcieUp = true → s.eng.rd Reg.GLB_PEND = 0 → v ≤ 1 → s.eng.ringsTouched 4096 = [] →
    Runs (.hifProfileSelect v) s fun t => t.eng.get Fld.HIF_PROFILE_PROFILE = v ∧ t.eng.rd Reg.GLB_PEND = 4 ∧
      t.eng.hif.expanding = some v) ∧
  (∀ s, s.engineUp = true → s.eng.rd Reg.GLB_PEND = 4 → s.eng.hif.expanding = some 0 →
    (∀ k, k ∈ s.eng.ringsTouched 16 → s.eng.ringState k = 0) →
    Runs .hifProfileExpansion s fun t => t.eng.hif.expanding = none ∧ t.eng.rd Reg.GLB_PEND = 0 ∧
      t.eng.is Fld.HIF_TALLY_EN = false ∧ ∀ q < 256, t.eng.is (Fld.HIF_HBQ_MAP_EN q) = false)

/-! ### The host interface (R176 to R215, R701 to R727) -/

/-- O17. Accesses by the host (R11, R12, R205, R642, R701, R715, R717 to R720): a scratch register takes what is written and no other
register changes; a written 1 clears an event bit; a bad access is recorded and has no other effect; BAR4 reads and writes module
memory through its window; lattice time is set; granary partitions are applied. -/
def Obligations.HostRegisterAccesses : Prop :=
  (∀ s v, s.engineUp = true → s.pcieUp = true → v < 2 ^ 64 →
    Runs (.registerWrite 0x20 (natLE 8 v)) s fun t => t.eng.rd Reg.GLB_SCRATCH = v ∧ t.eng.mem = s.eng.mem ∧
      ∀ off, off ≠ Reg.GLB_SCRATCH → t.eng.rd off = s.eng.rd off) ∧
  (∀ s v i, s.engineUp = true → s.pcieUp = true → v < 2 ^ 32 → i < 4 →
    Runs (.registerWrite 0x2C (natLE 4 v)) s fun t => bitOf (t.eng.rd Reg.GLB_EVT) i = (bitOf (s.eng.rd Reg.GLB_EVT) i && !bitOf v i)) ∧
  (∀ s off w, s.engineUp = true → s.pcieUp = true → accessOk false off w = false →
    Does (.badAccess true off w) s (fun e => ((e.evt Fld.GLB_EVT_BAD_ACCESS).wr Reg.GLB_BAD_ADDR (off % 2 ^ 25 + 2 ^ 31)).count
      (Reg.GLB_CNT 0)) ∧
    Does (.badAccess false off w) s (fun e => (((e.evt Fld.GLB_EVT_BAD_ACCESS).wr Reg.GLB_BAD_ADDR (off % 2 ^ 25)).count
      (Reg.GLB_CNT 0)).emit (.readData (List.replicate w 0) false))) ∧
  (∀ s off d, s.engineUp = true → s.pcieUp = true → s.eng.is Fld.GLB_CAP_BAR4 = true → s.eng.is Fld.HIF_BAR4_EN = true → off < 2 ^ 36 →
    s.eng.get Fld.HIF_BAR4_BASE = 0 → off + d.length ≤ 0x0C000000 →
    Runs (.bar4Access true off d) s fun t => t.eng.readMem off d.length = d ∧ t.eng.regs = s.eng.regs ∧
      ∀ a, a < off ∨ off + d.length ≤ a → t.eng.readMem a 1 = s.eng.readMem a 1) ∧
  (∀ s off d, s.engineUp = true → s.pcieUp = true → s.eng.is Fld.GLB_CAP_BAR4 = true → s.eng.is Fld.HIF_BAR4_EN = true →
    s.eng.get Fld.HIF_BAR4_BASE = 0 → off + d.length ≤ 0x0C000000 → s.eng.poison = [] → s.eng.is Fld.ERR_INJECT_ARMED = false →
    Does (.bar4Access false off d) s fun e => e.emit (.readData (e.readMem off d.length) false)) ∧
  (∀ s off d, s.engineUp = true → s.pcieUp = true → s.eng.is Fld.GLB_CAP_BAR4 = true → s.eng.is Fld.HIF_BAR4_EN = false → off < 2 ^ 36 →
    Runs (.bar4Access true off d) s fun t => t.eng.mem = s.eng.mem ∧
      t.eng.rd (Reg.HIF_CNT 4) = satCount 48 (s.eng.rd (Reg.HIF_CNT 4)) 1 ∧ t.eng.is Fld.HIF_EVT_BAR4_MISS = true) ∧
  (∀ s v, s.engineUp = true → s.pcieUp = true → s.eng.inLattice = false →
    Runs (.glbTimeSet v) s fun t => t.eng.time = v % 2 ^ 64 ∧ t.eng.is Fld.GLB_STAT_TIME_VALID = true ∧
      t.eng.is Fld.GLB_EVT_EPOCH_SET = true) ∧
  (∀ s v, s.engineUp = true → s.pcieUp = true → s.eng.inLattice = true → s.eng.is Fld.FLG_TIME_CFG_ROOT = false →
    Does (.glbTimeSet v) s fun e => e.evt Fld.FLG_EVT_EPOCH_IGNORED) ∧
  (∀ s, s.engineUp = true → s.pcieUp = true → s.eng.applyRefusal = 0 →
    Does (.partApply 0x41600001) s fun e => (e.put Fld.GLB_PART_STAT_BUSY 1).wr Reg.GLB_PEND (e.rd Reg.GLB_PEND ||| 1)) ∧
  (∀ s, s.engineUp = true → s.pcieUp = true → s.eng.applyRefusal ≠ 0 →
    Does (.partApply 0x41600001) s fun e => (e.put Fld.GLB_PART_STAT_REASON e.applyRefusal).evt Fld.GLB_EVT_PART_REFUSED) ∧
  (∀ s, s.engineUp = true → s.eng.is Fld.GLB_PART_STAT_BUSY = true → Memory.wf s.eng.mem →
    Runs .partApplyComplete s fun t => t.eng.is Fld.GLB_PART_STAT_BUSY = false ∧ bitOf (t.eng.rd Reg.GLB_PEND) 0 = false ∧
      t.eng.rd Reg.GLB_PART_LIVE = packSizes s.eng.staged ∧ t.eng.shf.sheaves = [] ∧
      (∀ a, a < 0x0C000000 → Tbl.get 0 t.eng.mem a = 0) ∧
      ∀ a, 0x20000000 ≤ a → Tbl.get 0 t.eng.mem a = Tbl.get 0 s.eng.mem a)

/-- O18. Doorbells and rings (R179 to R181, R183, R204, R208, R209): a doorbell in range moves the ring's count, one out of range puts the
ring in ERROR, one that is no doorbell write is counted; enabling, disabling, draining; write-backs and messages. -/
def Obligations.RingsAndDoorbells : Prop :=
  (∀ s k v, s.engineUp = true → s.pcieUp = true → k < 4096 → v < 2 ^ 32 → s.eng.ringState k = 1 → s.eng.hostRing k = true →
    cntSub v (s.eng.cons k) ≤ s.eng.ringSize k → cntSub (s.eng.prod k) (s.eng.cons k) ≤ cntSub v (s.eng.cons k) →
    Does (.doorbell (0x1000 * k) 4 v) s fun e => e.wr (Reg.HIF_RING_PROD k) v) ∧
  (∀ s k v, s.engineUp = true → s.pcieUp = true → k < 4096 → v < 2 ^ 32 → s.eng.ringState k = 1 → s.eng.hostRing k = true →
    s.eng.ringSize k < cntSub v (s.eng.cons k) →
    Runs (.doorbell (0x1000 * k) 4 v) s fun t => t.eng.prod k = s.eng.prod k ∧ t.eng.ringState k = 2 ∧
      t.eng.is (Fld.HIF_RING_STAT_DB_ERR k) = true ∧ t.eng.is Fld.HIF_EVT_DB_ERR = true) ∧
  (∀ s k v, s.engineUp = true → s.pcieUp = true → k < 4096 → v < 2 ^ 32 → s.eng.ringState k = 1 → s.eng.hostRing k = false →
    cntSub v (s.eng.cons k) ≤ cntSub (s.eng.prod k) (s.eng.cons k) →
    Does (.doorbell (0x1000 * k) 4 v) s fun e => e.wr (Reg.HIF_RING_CONS k) v) ∧
  (∀ s off w v, s.engineUp = true → s.pcieUp = true → w ≠ 4 → Does (.doorbell off w v) s fun e => e.count (Reg.HIF_CNT 0)) ∧
  (∀ s k, s.engineUp = true → s.pcieUp = true → bitOf (s.eng.rd Reg.GLB_PEND) 2 = false → k < 4096 → s.eng.ringState k = 0 →
    s.eng.ringOk k = true →
    Runs (.ringEnable k) s fun t => t.eng.ringState k = 1 ∧ t.eng.prod k = 0 ∧ t.eng.cons k = 0 ∧
      t.eng.is (Fld.HIF_RING_CTRL_EN k) = true ∧ t.eng.get Fld.HIF_PROFILE_PROFILE = 7 ∧
      ∀ k', k' < 4096 → k' ≠ k → t.eng.ringState k' = s.eng.ringState k' ∧ t.eng.prod k' = s.eng.prod k') ∧
  (∀ s k, s.engineUp = true → s.pcieUp = true → bitOf (s.eng.rd Reg.GLB_PEND) 2 = false → k < 4096 → s.eng.ringState k = 0 →
    s.eng.ringOk k = false →
    Runs (.ringEnable k) s fun t => t.eng.ringState k = 0 ∧ t.eng.is (Fld.HIF_RING_STAT_CFG_ERR k) = true) ∧
  (∀ s k, s.engineUp = true → s.pcieUp = true → bitOf (s.eng.rd Reg.GLB_PEND) 2 = false → k < 4096 → s.eng.ringState k = 1 →
    Runs (.ringDisable k) s fun t => t.eng.ringState k = (if s.eng.ringKind k = 3 then 3 else 0) ∧ t.eng.prod k = s.eng.prod k ∧
      t.eng.cons k = s.eng.cons k ∧ t.eng.hif.cmds = s.eng.hif.cmds) ∧
  (∀ s k, s.engineUp = true → k < 4096 → s.eng.ringState k = 3 → s.eng.cplIdle k = true →
    Runs (.ringDrainComplete k) s fun t => t.eng.ringState k = 0 ∧ t.eng.hif.cmds = s.eng.hif.cmds) ∧
  (∀ s k, s.engineUp = true → s.pcieUp = true → (s.eng.ring k).stale = true → s.eng.hostRing k = false →
    Runs (.writeBackRefresh k) s fun t => t.eng.out = s.eng.out ++ [.hostWrite (s.eng.rd (Reg.HIF_RING_WB k)) (natLE 4 (s.eng.prod k))] ∧
      (t.eng.ring k).stale = false ∧ t.eng.regs = s.eng.regs) ∧
  (∀ s k v, s.engineUp = true → s.pcieUp = true → (s.eng.ring k).unsignalled ≠ 0 → (s.eng.ring k).stale = false →
    s.eng.get (Fld.HIF_RING_COAL_COAL_TIME k) ≠ 0 → s.eng.get (Fld.HIF_RING_CFG_VECTOR k) = v → s.eng.msixMasked v = false →
    Runs (.msixCoalesceTimeout k) s fun t => (t.eng.ring k).unsignalled = 0 ∧
      t.eng.out = s.eng.out ++ [.msix v (s.eng.msixField v 0 8) (s.eng.msixField v 8 4)]) ∧
  (∀ s k v, s.engineUp = true → s.pcieUp = true → (s.eng.ring k).unsignalled ≠ 0 → (s.eng.ring k).stale = false →
    s.eng.get (Fld.HIF_RING_COAL_COAL_TIME k) ≠ 0 → s.eng.get (Fld.HIF_RING_CFG_VECTOR k) = v → s.eng.msixMasked v = true →
    Runs (.msixCoalesceTimeout k) s fun t => v ∈ t.eng.hif.pba ∧ t.eng.out = s.eng.out)

/-- O19. Descriptors, NOP, COPY and completions (R185 to R193, R201, R212, R213): a fetch takes a burst within the quota; its data
moves HEAD and is accepted in order; a command without a completion ring is lost; NOP only completes; COPY moves its bytes; a
completion is written and frees its slot. -/
def Obligations.CommandsFlowThroughRings : Prop :=
  (∀ s k, s.engineUp = true → s.pcieUp = true → s.eng.ringsTouched 4096 = [k] → s.eng.ringState k = 1 → s.eng.hostRing k = true →
    s.eng.hif.rings = [] → s.eng.hif.cmds = [] → s.eng.inTransit k ≠ 0 → s.eng.get Fld.HIF_FETCH_BURST ≠ 0 →
    s.eng.quota (s.eng.ringPd k) ≠ 0 →
    Runs .descriptorFetch s fun t => t.eng.prod k = s.eng.prod k ∧ t.eng.cons k = s.eng.cons k ∧ (t.eng.ring k).fetches =
      [⟨s.eng.cons k % 2 ^ 32, min (min (s.eng.get Fld.HIF_FETCH_BURST) (s.eng.inTransit k)) (min (s.eng.quota (s.eng.ringPd k)) 127), false⟩]) ∧
  (∀ s k f r d, s.engineUp = true → s.pcieUp = true → (s.eng.ring k).fetches = f :: r → f.discard = true →
    Does (.fetchDataReturn k d) s fun e => e.setRing k fun x => { x with fetches := r }) ∧
  (∀ s k st comp tag, s.engineUp = true → s.pcieUp = true → (s.eng.ring k).fetches = [⟨st, 1, false⟩] → s.eng.ringKind k = 1 →
    comp < 4096 → s.eng.compRingOk (s.eng.ringPd k) comp = true → bitOf (s.eng.get (Fld.HIF_PD_CTRL_OPMASK (s.eng.ringPd k))) 0 = true →
    Runs (.fetchDataReturn k (natLE 8 (2 ^ 16 * comp) ++ natLE 8 tag ++ List.replicate 48 0)) s fun t =>
      t.eng.cons k = (st + 1) % 2 ^ 32 ∧ (t.eng.ring k).fetches = [] ∧
      (t.eng.hif.cmds.map fun c => (c.ring, c.cnt, c.op, c.tag, c.comp, c.ph)) =
        (s.eng.hif.cmds.map fun c => (c.ring, c.cnt, c.op, c.tag, c.comp, c.ph)) ++ [(k, st % 2 ^ 32, 0, tag % 2 ^ 64, comp, .accepted)]) ∧
  (∀ s k st d, s.engineUp = true → s.pcieUp = true → (s.eng.ring k).fetches = [⟨st, 1, false⟩] →
    s.eng.compRingOk (s.eng.ringPd k) (bitsOf (descWord d 0) 27 16) = false → s.eng.is (Fld.HIF_PD_CTRL_DEF_EN (s.eng.ringPd k)) = false →
    d.length = 64 → Runs (.fetchDataReturn k d) s fun t => t.eng.hif.cmds = s.eng.hif.cmds ∧ t.eng.is Fld.HIF_EVT_CMD_LOST = true ∧
      t.eng.rd (Reg.HIF_CNT 1) = satCount 48 (s.eng.rd (Reg.HIF_CNT 1)) 1) ∧
  (∀ s id c, s.engineUp = true → s.eng.startable id 0x00 = some c → Does (.nop id) s fun e => (e.started c 328).finishOk id 0) ∧
  (∀ s id c d ecc, s.engineUp = true → s.eng.startable id 0x01 = some c → c.srcLoc = false → c.dstLoc = true →
    s.eng.is Fld.ERR_INJECT_ARMED = false →
    Does (.copy id (.ok d) ecc) s (fun e => ((e.started c 328).store (c.dst % 2 ^ 42) (fitTo c.len d)).finishOk id 0)) ∧
  (∀ s id c src, s.engineUp = true → s.eng.startable id 0x01 = some c → c.srcLoc = true → c.dstLoc = false →
    s.eng.is Fld.ERR_INJECT_ARMED = false → s.eng.poison = [] →
    Does (.copy id src .clean) s (fun e =>
      ((e.started c 328).emit (.hostWrite c.dst (e.readMem (c.src % 2 ^ 42) c.len))).finishOk id 0)) ∧
  (∀ s id src ecc, s.engineUp = true → s.eng.startable id 0x01 = none → exec (.copy id src ecc) s = .next s) ∧
  (∀ s k x r c, s.engineUp = true → s.pcieUp = true → s.eng.ringKind k = 3 → s.eng.ringState k = 1 → (s.eng.ring k).queue = x :: r →
    x.tally = none → s.eng.cmd x.cmd = some c → s.eng.ringRoom k = true →
    Runs (.completionWrite k) s fun t => t.eng.prod k = (s.eng.prod k + 1) % 2 ^ 32 ∧ t.eng.cmd x.cmd = none ∧ t.eng.mem = s.eng.mem ∧
      (Out.hostWrite (s.eng.rd (Reg.HIF_RING_BASE k) + s.eng.prod k % s.eng.ringSize k * 32)
        (slotBytes 3 (s.eng.prod k) (s.eng.ringSize k) (s.eng.cplWords c x))) ∈ t.eng.out) ∧
  (∀ s k, s.engineUp = true → s.pcieUp = true → s.eng.ringRoom k = false → s.eng.ringKind k = 3 → s.eng.ringState k = 1 →
    (∀ x ∈ (s.eng.ring k).queue, x.tally = none ∧ s.eng.cmd x.cmd ≠ none) → exec (.completionWrite k) s = .next s)

/-! ### Ports, intake and parsing (R218 to R233, R241, R245 to R253, R734) -/

/-- O20. Ports (R219, R220, R247, R248, R252, R734): UP is set where R220 allows it and refused elsewhere, LINK follows its conditions, set-up
is refused while a port is up or a value is out of range. -/
def Obligations.PortsFollowTheirRules : Prop :=
  (∀ s p, s.engineUp = true → s.pcieUp = true → s.eng.pends 3 = false → p < 32 → s.eng.is (Fld.ITK_PORT_CTRL_UP p) = false →
    s.eng.upAllowed p = true → Runs (.portUp p) s fun t => t.eng.is (Fld.ITK_PORT_CTRL_UP p) = true ∧ t.eng.mem = s.eng.mem ∧
      ∀ q, q < 32 → q ≠ p → t.eng.get (Fld.ITK_PORT_CTRL_UP q) = s.eng.get (Fld.ITK_PORT_CTRL_UP q)) ∧
  (∀ s p, s.engineUp = true → s.pcieUp = true → s.eng.pends 3 = false → p < 32 → s.eng.is (Fld.ITK_PORT_CTRL_UP p) = false →
    s.eng.upAllowed p = false → Does (.portUp p) s fun e => e.evt Fld.ITK_EVT_UP_REFUSED) ∧
  (∀ s p d, s.engineUp = true → s.pcieUp = true → s.eng.pends 3 = false → p < 32 → s.eng.is (Fld.ITK_PORT_CTRL_UP p) = true →
    (s.eng.rxOf p).cur = none → Runs (.portDown p d) s fun t => t.eng.is (Fld.ITK_PORT_CTRL_UP p) = false ∧
      t.eng.is (Fld.ITK_PORT_STAT_LINK p) = false ∧ t.eng.mem = s.eng.mem) ∧
  (∀ s p a, s.engineUp = true → p < 32 → Runs (.linkChange p a) s fun t =>
    t.eng.is (Fld.ITK_PORT_STAT_LINK p) = (s.eng.present p && s.eng.is (Fld.ITK_PORT_CTRL_UP p) &&
      (s.eng.phys.cages.getD (p / 4) {}).present && !(s.eng.phys.cages.getD (p / 4) {}).highPower &&
      !(s.eng.phys.cages.getD (p / 4) {}).lowPower && a) ∧
    t.eng.get (Fld.ITK_PORT_CTRL_UP p) = s.eng.get (Fld.ITK_PORT_CTRL_UP p)) ∧
  (∀ s p v, s.engineUp = true → s.pcieUp = true → s.eng.pends 3 = false → p < 32 → s.eng.is (Fld.ITK_PORT_CTRL_UP p) = false →
    v % 4 ≠ 3 → 1518 ≤ bitsOf v 23 10 → bitsOf v 23 10 ≤ 9728 →
    Does (.itkPortCfgWrite p v) s fun e => (e.wr (Reg.ITK_PORT_CFG p) (v &&& 0xFFFDFF)).put Fld.ITK_PROFILE_PROFILE 7) ∧
  (∀ s p v, s.engineUp = true → s.pcieUp = true → s.eng.pends 3 = false → p < 32 →
    (s.eng.is (Fld.ITK_PORT_CTRL_UP p) = true ∨ v % 4 = 3 ∨ bitsOf v 23 10 < 1518 ∨ 9728 < bitsOf v 23 10) →
    Does (.itkPortCfgWrite p v) s fun e => e.evt Fld.ITK_EVT_CFG_REFUSED) ∧
  (∀ s c v, s.engineUp = true → s.pcieUp = true → s.eng.pends 3 = false → c < 8 → v < 3 →
    (∀ k < 4, s.eng.is (Fld.ITK_PORT_CTRL_UP (4 * c + k)) = false) →
    Runs (.itkCageCfgWrite c v) s fun t => t.eng.rd (Reg.ITK_CAGE_CFG c) = v ∧ t.eng.get Fld.ITK_PROFILE_PROFILE = 7 ∧
      ∀ k < 4, t.eng.is (Fld.ITK_PORT_STAT_PRESENT (4 * c + k)) = t.eng.present (4 * c + k)) ∧
  (∀ s c k v, s.engineUp = true → s.pcieUp = true → s.eng.pends 3 = false → c < 8 → k < 4 →
    s.eng.is (Fld.ITK_PORT_CTRL_UP (4 * c + k)) = true → Does (.itkCageCfgWrite c v) s fun e => e.evt Fld.ITK_EVT_CFG_REFUSED) ∧
  (∀ s v, s.engineUp = true → s.pcieUp = true → s.eng.pends 4 = false → v < 2 ^ 32 → v % 4 = 0 →
    (∀ k < 16, bitsOf v (2 * k + 1) (2 * k) ≠ 3) →
    Does (.thrMalActWrite v) s fun e => (e.wr Reg.THR_MAL_ACT v).put Fld.THR_PROFILE_PROFILE 7) ∧
  (∀ s v, s.engineUp = true → s.pcieUp = true → s.eng.pends 4 = false → v % 4 ≠ 0 →
    Does (.thrMalActWrite v) s fun e => e.evt Fld.THR_EVT_CFG_ERR)

/-- O21. A frame's reception (R218, R225 to R233, R241): its first byte earmarks cells or drops it for exhaustion, MAC control frames are
counted and discarded, the end sets the status and its counter, and a frame that failed before handoff is freed. -/
def Obligations.FramesAreReceived : Prop :=
  (∀ s p frac, s.engineUp = true → p < 32 → s.eng.present p = true → s.eng.portLive p = true → s.eng.portMode p < 2 →
    s.eng.rxOf p = { s.eng.rxOf p with cur := none, last := none } →
    ceilDiv (s.eng.get (Fld.ITK_PORT_CFG_MAXLEN p)) 256 ≤ s.eng.cellsFree →
    Runs (.frameStart p frac) s fun t => (t.eng.rxOf p).cur = some s.eng.nextPkt ∧ t.eng.nextPkt = s.eng.nextPkt + 1 ∧
      t.eng.pkts = s.eng.pkts ++ [{
        id := s.eng.nextPkt, port := p
        ts := stampOf s.eng.time frac (s.eng.get (Fld.ITK_PORT_TSOFF_RX p))
        maxlen := s.eng.get (Fld.ITK_PORT_CFG_MAXLEN p)
        need := ceilDiv (s.eng.get (Fld.ITK_PORT_CFG_MAXLEN p)) 256 }] ∧
      t.eng.regs = s.eng.regs) ∧
  (∀ s p frac, s.engineUp = true → p < 32 → s.eng.present p = true → s.eng.portLive p = true → s.eng.portMode p < 2 →
    s.eng.rxOf p = { s.eng.rxOf p with cur := none, last := none } →
    s.eng.cellsFree < ceilDiv (s.eng.get (Fld.ITK_PORT_CFG_MAXLEN p)) 256 →
    Runs (.frameStart p frac) s fun t => t.eng.pkts = s.eng.pkts ∧ t.eng.is Fld.ITK_EVT_EXHAUST = true ∧
      t.eng.rd (Reg.ITK_PCNT p 7) = satCount 48 (s.eng.rd (Reg.ITK_PCNT p 7)) 1) ∧
  (∀ s p, s.engineUp = true → s.eng.present p = true → s.eng.portLive p = true → s.eng.portMode p = 2 →
    Does (.emitPortFrame p) s fun e => e.count (Reg.ITK_PCNT p 9)) ∧
  (∀ s id p, s.engineUp = true → s.eng.pkt id = some p → p.rx = true → p.handed = false → p.macc = false →
    s.eng.is (Fld.ITK_PORT_CFG_MACCTL p.port) = false →
    Runs (.macControlDiscard id) s fun t => t.eng.pkt id = none ∧
      t.eng.rd (Reg.ITK_PCNT p.port 8) = satCount 48 (s.eng.rd (Reg.ITK_PCNT p.port 8)) 1) ∧
  (∀ s id p d, s.engineUp = true → s.eng.pkt id = some p → p.rx = true → p.handed = false → d.length < 14 →
    Runs (.frameEnd id d false) s fun t => t.eng.pkt id = none ∧ t.eng.mem = s.eng.mem) ∧
  (∀ s id p d, s.engineUp = true → s.eng.pkt id = some p → p.rx = true → p.handed = false → p.macc = true →
    frameStatus d p.maxlen false = 0 → p.port < 32 →
    Runs (.frameEnd id d false) s fun t => (t.eng.pkt id).map (fun q => (q.rx, q.status, q.len)) = some (false, some 0, d.length) ∧
      t.eng.rd (Reg.ITK_PCNT p.port 0) = (s.eng.rd (Reg.ITK_PCNT p.port 0) + 1) % 2 ^ 64 ∧
      t.eng.rd (Reg.ITK_PCNT p.port 1) = (s.eng.rd (Reg.ITK_PCNT p.port 1) + d.length) % 2 ^ 64) ∧
  (∀ s id p hdr len, s.engineUp = true → s.eng.pkt id = some p → p.rx = true → p.handed = false → p.macc = true →
    p.byp = false → (parseFrame hdr false).more = false → s.eng.switchDue p.ts = false → s.eng.tsBypass p.ts = false → s.eng.genOf p.ts ≠ 0 →
    s.eng.is Fld.ERR_INJECT_ARMED = false → (∀ b ∈ [s.eng.tab.live, s.eng.tab.shadow], b.bad = []) →
    Runs (.frameHandoff id hdr len) s fun t => (t.eng.pkt id).map (fun q => (q.handed, q.byp, q.gen, q.len)) =
        some (true, false, s.eng.genOf p.ts, len) ∧
      (t.eng.pkt id).map (·.pv) = some ((parseFrame hdr false).vector (s.eng.rd Reg.THR_MAL_ACT))) ∧
  (∀ s id p hdr len, s.engineUp = true → s.eng.pkt id = some p → p.rx = true → p.handed = false → p.macc = true →
    p.status = none → (parseFrame hdr false).more = false → s.eng.switchDue p.ts = false → s.eng.tsBypass p.ts = true →
    Runs (.frameHandoff id hdr len) s fun t =>
      (t.eng.pkt id).map (fun q => (q.handed, q.byp, q.bypCfg)) = some (true, true, s.eng.rd Reg.ERR_CFG)) ∧
  (∀ s id p hdr len, s.engineUp = true → s.eng.pkt id = some p → p.handed = true → exec (.frameHandoff id hdr len) s = .next s)

/-! ### Paths through the cascade (R228, R241, R263, R264, R267 to R279) -/

/-- O22. A step row acts only on a packet that is on its path, whose frame has not failed and whose entry has that kind (R267, R534); a
new step is counted for its entry; DROP and INVALID end the path; after 16 steps the engine ends it (R272, R278, R279, R288); a poisoned
entry ends it with no verdict. PARSE records the outcome and the epoch (R241, R243, R273, R585), then the next entry follows NEXT, or
NEXT and a result field modulo 1,024 (R268, R269). -/
def Obligations.StepsAreDispatched : Prop :=
  (∀ s c id k p, s.engineUp = true → stepRow c = some (id, k) → s.eng.pkt id = some p →
    p.onPath = false ∨ p.failed = true ∨ entKind (s.eng.entryOf p) ≠ k → exec c s = .next s) ∧
  (∀ s c id k p, s.engineUp = true → stepRow c = some (id, k) → s.eng.pkt id = some p → p.begun = none → 16 ≤ p.steps →
    exec c s = .next s) ∧
  (∀ s c id k p e, s.engineUp = true → stepRow c = some (id, k) → s.eng.pkt id = some p → p.onPath = true → p.failed = false →
    entKind (s.eng.entryOf p) = k → p.begun = none → p.steps < 16 → s.eng.takeRate 2 64 8 = some e → e.is Fld.ERR_INJECT_ARMED = false →
    (3, p.entry) ∈ (e.bankOf p).bad → Does c s fun _ =>
      (((e.memUe 5 0 false).poisoned 13 0 ((e.memUe 5 0 false).pktRef p.ts)).count (Reg.ERR_CNT 8)).endPath p.id) ∧
  (∀ s id p e, s.engineUp = true → s.eng.pkt id = some p → p.onPath = true → p.failed = false →
    entKind (s.eng.entryOf p) = 13 → p.begun = none → p.steps < 16 → s.eng.takeRate 2 64 8 = some e → e.is Fld.ERR_INJECT_ARMED = false →
    (3, p.entry) ∉ (e.bankOf p).bad → Runs (.drop id) s fun t =>
      t.eng.rd (Reg.CSC_ENTCNT p.entry) = satCount 40 (s.eng.rd (Reg.CSC_ENTCNT p.entry)) 1 ∧
      (∀ off, off ≠ Reg.CSC_ENTCNT p.entry → t.eng.rd off = s.eng.rd off) ∧ t.eng.mem = s.eng.mem) ∧
  (∀ s id p arg e, s.engineUp = true → s.eng.dispatched id 13 = some (p, arg, e) → Does (.drop id) s fun _ => e.endPath p.id) ∧
  (∀ s id p arg e, s.engineUp = true → s.eng.dispatched id 15 = some (p, arg, e) →
    Does (.invalid id) s fun _ => ((e.count (Reg.CSC_CNT 2)).evt Fld.CSC_EVT_INVALID_ENTRY).endPath p.id) ∧
  (∀ s id p, s.engineUp = true → s.eng.pkt id = some p → p.onPath = true → p.failed = false → p.begun = none → 16 ≤ p.steps →
    p.ver.isSome = true → Does (.pathLimitEnd id) s fun e =>
      (((e.count (Reg.CSC_CNT 1)).evt Fld.CSC_EVT_PATH_LIMIT).setPkt id fun p => { p with joinClosed := true }).endPath id) ∧
  (∀ s id p, s.engineUp = true → s.eng.pkt id = some p → p.onPath = true → p.good = true → p.begun = none → 16 ≤ p.steps →
    p.ver = none → Does (.pathLimitEnd id) s fun e =>
      (((((e.setPkt id fun p => p.flag flPATH_LIMIT).writeVerdict id p.flow false).count (Reg.CSC_CNT 1)).evt Fld.CSC_EVT_PATH_LIMIT).setPkt
        id fun p => { p with joinClosed := true }).endPath id) ∧
  (∀ s id p arg e, s.engineUp = true → s.eng.dispatched id 0 = some (p, arg, e) → p.epoch.isSome = true ∨ e.graftDue = false →
    Does (.parse id) s fun _ =>
      (e.setPkt p.id fun _ => ({ p with parsed := true, epoch := some (p.epoch.getD e.liveEpoch) }).flagIf (leAt p.pv 4 1 % 4 == 1)
        flMALFORMED_MARK).advance p.id) ∧
  (∀ s id p arg e, s.engineUp = true → s.eng.dispatched id 0 = some (p, arg, e) → p.epoch = none → e.graftDue = true →
    Does (.parse id) s fun _ => e) ∧
  (∀ s id p arg e, s.engineUp = true → s.eng.dispatched id 0 = some (p, arg, e) → p.epoch.isSome = true →
    entMode (e.entryOf p) = 0 → Runs (.parse id) s fun t => ∃ q, t.eng.pkt id = some q ∧ q.entry = entNext (e.entryOf p) ∧
      q.begun = none ∧ q.steps = p.steps ∧ q.parsed = true ∧ q.epoch = p.epoch ∧ t.eng.regs = e.regs ∧ t.eng.mem = s.eng.mem) ∧
  (∀ s id p arg e, s.engineUp = true → s.eng.dispatched id 0 = some (p, arg, e) → p.epoch.isSome = true →
    entMode (e.entryOf p) = 1 → entSel (e.entryOf p) = 1 → entShift (e.entryOf p) = 0 → entWidth (e.entryOf p) = 2 →
    Runs (.parse id) s fun t => ∃ q, t.eng.pkt id = some q ∧
      q.entry = (entNext (e.entryOf p) + leAt p.pv 4 1 % 4) % 1024 ∧ q.begun = none) ∧
  (∀ s id p arg e, s.engineUp = true → s.eng.dispatched id 0 = some (p, arg, e) → p.epoch.isSome = true →
    entMode (e.entryOf p) = 1 → entSel (e.entryOf p) = 14 → Runs (.parse id) s fun t => ∃ q, t.eng.pkt id = some q ∧
      q.entry = (entNext (e.entryOf p) + (p.steps >>> entShift (e.entryOf p)) % 2 ^ entWidth (e.entryOf p)) % 1024)

/-- O23. CLASSIFY (R263, R264): the first rule in ascending index that holds gives class, colour and queue; with none, the layout's
default action does. It waits while an earlier packet waits or the winnow has no slot (R228, R266). Valid rules are listed in ascending
index, and writing an item keeps the bank's spaces in canonical form. -/
def Obligations.FirstRuleWins : Prop :=
  (∀ s id p arg e e1 l1 r l2, s.engineUp = true → s.eng.dispatched id 1 = some (p, arg, e) → e.earlierWaits p 1 1 = false →
    e.takeRate 0 8 8 = some e1 → e1.is Fld.ERR_INJECT_ARMED = false → (e1.bankOf p).bad = [] →
    (e1.bankOf p).validRules = l1 ++ r :: l2 → (e1.bankOf p).ruleHolds ((e1.bankOf p).key (arg % 8) p) (arg % 8) r = true →
    (l1.any fun x => (e1.bankOf p).ruleHolds ((e1.bankOf p).key (arg % 8) p) (arg % 8) x) = false →
    Does (.classify id) s fun _ =>
      ((((e1.count (Reg.WNW_CNT 0)).busy 292).tally (Reg.WNW_HIT r)).setPkt p.id fun q =>
        q.act (leAt ((e1.bankOf p).item 0 r) 168 4)).advance p.id) ∧
  (∀ s id p arg e e1, s.engineUp = true → s.eng.dispatched id 1 = some (p, arg, e) → e.earlierWaits p 1 1 = false →
    e.takeRate 0 8 8 = some e1 → e1.is Fld.ERR_INJECT_ARMED = false → (e1.bankOf p).bad = [] →
    ((e1.bankOf p).validRules.any fun x => (e1.bankOf p).ruleHolds ((e1.bankOf p).key (arg % 8) p) (arg % 8) x) = false →
    Does (.classify id) s fun _ =>
      ((((e1.count (Reg.WNW_CNT 0)).busy 292).count (Reg.WNW_CNT 1)).setPkt p.id fun q =>
        q.act (leAt ((e1.bankOf p).item 2 (arg % 8)) 40 4)).advance p.id) ∧
  (∀ s id p arg e, s.engineUp = true → s.eng.dispatched id 1 = some (p, arg, e) →
    e.earlierWaits p 1 1 = true ∨ e.takeRate 0 8 8 = none → Does (.classify id) s fun _ => e.setPkt p.id fun q => { q with why := 1 }) ∧
  (∀ (b : Bank), Tbl.wf (fun _ => (0 : Byte)) b.rules = true → b.validRules.Pairwise (· < ·)) ∧
  (∀ (b : Bank) (r : Nat), Tbl.wf (fun _ => (0 : Byte)) b.rules = true →
    (r ∈ b.validRules ↔ 128 ≤ (Tbl.get (0 : Byte) b.rules (192 * r + 171)).toNat)) ∧
  (∀ (b : Bank) (i : Nat) (bs : Bytes), Tbl.wf (fun _ => (0 : Byte)) b.rules = true → Tbl.wf (fun _ => (0 : Byte)) (b.writeItem 0 i bs).rules = true)

/-! ### Sheaves along a path (R298, R303 to R316, R323, R333) -/

/-- O24. SHEAF_FETCH: a second one in a path looks nothing up (R308); at this member it delivers what the home's fetch gives; at another
member it is a request, answered, refused or late (R310, R636). The home's fetch (R304 to R307): the flow is held by one packet at a
time, one that waits gets nothing and changes nothing but the queue of those who wait, and NOCREATE makes no sheaf. A commit's counts
(R311): LAST_TS is the packet's timestamp, PKTS goes up by one and BYTES by the length, each stopping at its largest value. -/
def Obligations.SheafFetchSteps : Prop :=
  (∀ s id ecc p arg e q, s.engineUp = true → s.eng.dispatched id 2 = some (p, arg, e) → p.shf = some q → q.done = true →
    Does (.sheafFetch id ecc) s fun _ => (e.setPkt p.id fun r => r.withSheaf q).advance p.id) ∧
  (∀ s id ecc p arg e e1 f, s.engineUp = true → s.eng.dispatched id 2 = some (p, arg, e) → p.shf = none →
    e.takeRate 3 64 8 = some e1 → e1.homeOf (flowKey p.pv (arg % 8)) p.ts = e1.selfId →
    (e1.sheafFetch (.pkt p.id) (flowKey p.pv (arg % 8)) p.ts (e1.kvFor p) (bitOf arg 3) p.good ecc).1 = some f →
    Does (.sheafFetch id ecc) s fun _ =>
      ((e1.sheafFetch (.pkt p.id) (flowKey p.pv (arg % 8)) p.ts (e1.kvFor p) (bitOf arg 3) p.good ecc).2.setPkt p.id fun r =>
        r.withSheaf { key := flowKey p.pv (arg % 8), done := true, present := f.present, isNew := f.isNew, interval := f.interval,
                      histLen := f.histLen, hot := f.hot, cur := f.hot, genReset := f.genReset, holding := true }).advance p.id) ∧
  (∀ s id ecc p arg e e1 t, s.engineUp = true → s.eng.dispatched id 2 = some (p, arg, e) → p.shf = none →
    e.takeRate 3 64 8 = some e1 → e1.homeOf (flowKey p.pv (arg % 8)) p.ts ≠ e1.selfId →
    ((e1.count (Reg.SHF_CNT 5)).flgRequest 0x10 (e1.homeOf (flowKey p.pv (arg % 8)) p.ts) (.fetch p.id)
      (natLE 4 p.ts ++ natLE 1 (arg % 16 + 16 * bit (!p.good)) ++ natLE 3 0)
      ((e1.count (Reg.SHF_CNT 5)).shfReqData p (flowKey p.pv (arg % 8)))).1 = some t → s.eng.pktReq id = none →
    Runs (.sheafFetch id ecc) s fun u =>
      u.eng.pktReq id = some ⟨t, e1.homeOf (flowKey p.pv (arg % 8)) p.ts, 0x10, .fetch p.id, s.eng.cyc⟩) ∧
  (∀ s id r, s.engineUp = true → s.eng.pktReq id = some r → r.owner = .fetch id →
    r.at_ + s.eng.get Fld.SHF_REMOTE_TIMEOUT_US * usTicks ≤ s.eng.cyc →
    Does (.remoteHomeTimeout id) s fun e => (e.dropReq r.tag).fetchLost id) ∧
  (∀ s id r, s.engineUp = true → s.eng.pktReq id = some r → r.owner = .commit id →
    r.at_ + s.eng.get Fld.SHF_REMOTE_TIMEOUT_US * usTicks ≤ s.eng.cyc →
    Does (.remoteHomeTimeout id) s fun e =>
      (((e.dropReq r.tag).count (Reg.SHF_CNT 16)).evt Fld.SHF_EVT_REMOTE_TIMEOUT).commitDone id) ∧
  (∀ s id r, s.engineUp = true → s.eng.pktReq id = some r → s.eng.cyc < r.at_ + s.eng.get Fld.SHF_REMOTE_TIMEOUT_US * usTicks →
    exec (.remoteHomeTimeout id) s = .next s) ∧
  (∀ (e : Engine) (h h' : Holder) (key : Bytes) (ts : Nat) (kv : Bytes) (nc good : Bool) (ecc : Ecc), e.holder key = some h' →
    (e.shf.holds.any fun x => x.1 == key && x.2 == h) = false →
    (e.sheafFetch h key ts kv nc good ecc).1 = none ∧ (e.sheafFetch h key ts kv nc good ecc).2.regs = e.regs ∧
      (e.sheafFetch h key ts kv nc good ecc).2.mem = e.mem ∧
      (e.sheafFetch h key ts kv nc good ecc).2.shf.sheaves = e.shf.sheaves) ∧
  (∀ (e : Engine) (h : Holder) (key : Bytes) (ts : Nat) (kv : Bytes) (good : Bool) (ecc : Ecc), e.holder key = none →
    (e.shf.waits.any fun x => x.1 == key && x.2.1 != h && decide (x.2.2 < ts)) = false → e.sheaf key = none →
    (e.sheafFetch h key ts kv true good ecc).1 = some .none ∧
      (e.sheafFetch h key ts kv true good ecc).2.rd (Reg.SHF_CNT 0) = satCount 48 (e.rd (Reg.SHF_CNT 0)) 1 ∧
      (e.sheafFetch h key ts kv true good ecc).2.holder key = some h) ∧
  (∀ (hot : Bytes) (ts len : Nat), hot.length = 128 → hotLastTs (hotCount hot ts len).1 = ts % 2 ^ 64 ∧
    hotPkts (hotCount hot ts len).1 = min (hotPkts hot + 1) (2 ^ 32 - 1) ∧
    hotBytes (hotCount hot ts len).1 = min (hotBytes hot + len) (2 ^ 48 - 1) ∧
    (hotCount hot ts len).1.take 48 = hot.take 48 ∧ (hotCount hot ts len).1.drop 66 = hot.drop 66)

/-- O25. SHEAF_COMMIT happens once for a packet, and only with a sheaf present (R312); at this member it is the home's commit (R311,
R315), and with both undo entries held it waits. An entry that is never resolved is released as if its packet were GOOD (R541). -/
def Obligations.SheafCommitSteps : Prop :=
  (∀ s id p arg e, s.engineUp = true → s.eng.dispatched id 9 = some (p, arg, e) → p.shf = none →
    Does (.sheafCommit id) s fun _ => ((e.count (Reg.SHF_CNT 15)).releaseFlow (.pkt p.id)).advance p.id) ∧
  (∀ s id p arg e q, s.engineUp = true → s.eng.dispatched id 9 = some (p, arg, e) → p.shf = some q → q.tag = none →
    q.committed = true ∨ q.present = false →
    Does (.sheafCommit id) s fun _ => ((e.count (Reg.SHF_CNT 15)).releaseFlow (.pkt p.id)).advance p.id) ∧
  (∀ s id p arg e q e1 fl e2, s.engineUp = true → s.eng.dispatched id 9 = some (p, arg, e) → p.shf = some q → q.tag = none →
    q.committed = false → q.present = true → q.remote = false → e.takeRate 3 64 8 = some e1 →
    e1.sheafCommit (.pkt p.id) q.key p.ts p.len (e1.kvFor p) (bitOf arg 0) (bitOf arg 1) p.summary p.good (e1.modelFor p) =
      some (fl, e2) →
    Does (.sheafCommit id) s fun _ =>
      ((e2.busy 294).setPkt p.id fun r =>
        ({ r with shf := some { q with committed := true, holding := false,
                                       cur := match e2.sheaf q.key with | some x => e2.hotOf x | none => q.cur } }).numFlags fl).advance p.id) ∧
  (∀ s id p arg e q e1, s.engineUp = true → s.eng.dispatched id 9 = some (p, arg, e) → p.shf = some q → q.tag = none →
    q.committed = false → q.present = true → q.remote = false → e.takeRate 3 64 8 = some e1 →
    e1.sheafCommit (.pkt p.id) q.key p.ts p.len (e1.kvFor p) (bitOf arg 0) (bitOf arg 1) p.summary p.good (e1.modelFor p) = none →
    Does (.sheafCommit id) s fun _ => e1.wait p.id 7) ∧
  (∀ s src ptag x o, s.engineUp = true → s.eng.undoSheaf (.remote src ptag) = some (x, o) →
    ((if o = 96 then x.undo0 else x.undo1).map (·.2)).getD 0 + s.eng.get Fld.CSC_ERV_CFG_RESOLVE_US * usTicks ≤ s.eng.cyc →
    Does (.remoteUndoTimeout src ptag) s fun e =>
      ((((e.releaseUndo (.remote src ptag)).releaseFlow (.remote src ptag)).count (Reg.CSC_ERV_CNT 6)).evt Fld.CSC_ERV_EVT_UNRESOLVED)) ∧
  (∀ (e : Engine) (h : Holder) (key : Bytes) (ts len : Nat) (kv : Bytes) (nc na : Bool) (sum : Option (List Nat × List Nat))
    (m : Option Model) (x : Sheaf), e.sheaf key = some x → x.undoOf h = none → x.undoFull = true →
    e.sheafCommit h key ts len kv nc na sum false m = none)

/-! ### Verdicts and frames that fail (R25, R274, R532 to R538) -/

/-- O26. The first verdict step writes the packet's one record, later ones write nothing and are counted (R274); VERDICT waits for the
status; EARLY_VERDICT writes an early record while the status is unknown, and waits in HOLD mode (R532, R533). -/
def Obligations.OneVerdictPerPacket : Prop :=
  (∀ s id p arg e, s.engineUp = true → s.eng.dispatched id 10 = some (p, arg, e) → p.good = true → p.ver = none →
    Does (.verdict id) s fun _ => (e.writeVerdict p.id p.flow false).advance p.id) ∧
  (∀ s id p arg e, s.engineUp = true → s.eng.dispatched id 10 = some (p, arg, e) → p.good = true → p.ver.isSome = true →
    Does (.verdict id) s fun _ => (e.count (Reg.CSC_CNT 4)).advance p.id) ∧
  (∀ s id p arg e, s.engineUp = true → s.eng.dispatched id 10 = some (p, arg, e) → p.good = false →
    Does (.verdict id) s fun _ => e.wait p.id 15) ∧
  (∀ s id p arg e, s.engineUp = true → s.eng.dispatched id 5 = some (p, arg, e) → p.good = false → e.is Fld.CSC_ERV_CFG_MODE = false →
    p.ver = none → Does (.earlyVerdict id) s fun _ => ((e.count (Reg.CSC_ERV_CNT 0)).writeVerdict p.id p.flow true).advance p.id) ∧
  (∀ s id p arg e, s.engineUp = true → s.eng.dispatched id 5 = some (p, arg, e) → p.good = false → e.is Fld.CSC_ERV_CFG_MODE = true →
    Does (.earlyVerdict id) s fun _ => e.wait p.id 15) ∧
  (∀ s id p arg e, s.engineUp = true → s.eng.dispatched id 5 = some (p, arg, e) → p.good = true → p.ver = none → p.why = 0 →
    Does (.earlyVerdict id) s fun _ => ((e.count (Reg.CSC_ERV_CNT 3)).writeVerdict p.id p.flow false).advance p.id) ∧
  (∀ (e : Engine) (id flow : Nat) (early : Bool) (p : Pkt), e.pkt id = some p → p.cls < 2 ^ 12 → p.col < 4 → p.que < 64 →
    ∃ v, ((e.writeVerdict id flow early).pkt id).bind (·.ver) = some v ∧ v.early = early ∧ v.queue = e.verdictQueue flow ∧
      v.words.length = 4 ∧ v.words.getD 0 0 = p.ts ∧
      bitsOf (v.words.getD 2 0) 22 20 = (if early then 3 else gradeOf p.flags))

/-- O27. A frame that fails on its path has its sheaf update undone, its early record retracted and its transmission stomped or removed,
and its path ended (R534, R537, R538); one that fails after its path has the same undone once (R535). -/
def Obligations.FailedFramesAreUndone : Prop :=
  (∀ s id p, s.engineUp = true → s.eng.pkt id = some p → p.onPath = true → p.failed = true →
    Does (.frameFailOnPath id) s fun e => (((e.failFrame p).count (Reg.CSC_ERV_CNT 2)).evt Fld.CSC_ERV_EVT_ABORT).endPath id) ∧
  (∀ s id p, s.engineUp = true → s.eng.pkt id = some p → p.onPath = false ∨ p.failed = false →
    exec (.frameFailOnPath id) s = .next s) ∧
  (∀ s id p, s.engineUp = true → s.eng.pkt id = some p → p.ended = true → p.failed = true → p.failDone = false → p.byp = false →
    Does (.frameFailAfterPath id) s fun e => (e.failFrame p).settle id) ∧
  (∀ s id p, s.engineUp = true → s.eng.pkt id = some p → p.failDone = true → exec (.frameFailAfterPath id) s = .next s) ∧
  (∀ (ws : List Nat), ws.length = 4 → bitsOf ((retractWords ws).getD 2 0) 22 20 = 4 ∧ bitsOf ((retractWords ws).getD 3 0) 58 56 = 2 ∧
    bitOf ((retractWords ws).getD 3 0) (32 + flFRAME_FAIL) = true ∧ (retractWords ws).getD 0 0 = ws.getD 0 0 ∧
    (retractWords ws).getD 1 0 = ws.getD 1 0)

/-! ### The grader and the orchard (R374 to R396, R689) -/

/-- O28. GRADE builds the whole vector from the grader set of the packet's epoch, under the grader's rate and in arrival order; with no
such set the vector is zero and is counted (R376, R377); a packet that is not evaluated gets the BYPASS flag (R689). -/
def Obligations.GradeBuildsTheVector : Prop :=
  (∀ s id ecc p arg e, s.engineUp = true → s.eng.dispatched id 3 = some (p, arg, e) → p.noEval = true →
    Does (.grade id ecc) s fun _ => (e.setPkt p.id fun q => q.flag flBYPASS).advance p.id) ∧
  (∀ s id ecc p arg e, s.engineUp = true → s.eng.dispatched id 3 = some (p, arg, e) → p.noEval = false →
    e.earlierWaits p 3 1 = true ∨ e.takeRate 1 8 8 = none → Does (.grade id ecc) s fun _ => e.wait p.id 1) ∧
  (∀ s id ecc p arg e e1, s.engineUp = true → s.eng.dispatched id 3 = some (p, arg, e) → p.noEval = false →
    e.earlierWaits p 3 1 = false → e.takeRate 1 8 8 = some e1 → (e1.modelFor p).bind (·.sect 3 arg) = none →
    Does (.grade id ecc) s fun _ =>
      (((((e1.count (Reg.ORC_CNT 1)).busy 290).count (Reg.ORC_CNT 8)).evt Fld.ORC_EVT_NO_VECTOR).setPkt p.id fun q =>
        { q with vec := some (none, List.replicate 256 0) }).advance p.id) ∧
  (∀ s id ecc p arg e e1 m x im e2, s.engineUp = true → s.eng.dispatched id 3 = some (p, arg, e) → p.noEval = false →
    e.earlierWaits p 3 1 = false → e.takeRate 1 8 8 = some e1 → e1.modelFor p = some m → m.sect 3 arg = some x →
    ((e1.count (Reg.ORC_CNT 1)).busy 290).readSect m x 5 (((e1.count (Reg.ORC_CNT 1)).busy 290).pktRef p.ts) ecc = (some im, e2) →
    Does (.grade id ecc) s fun _ =>
      (e2.setPkt p.id fun q => ({ q with vec := some (some arg, (gradeVector im p.orcBlock).1) }).numFlags
        (gradeVector im p.orcBlock).2).advance p.id) ∧
  (∀ (im b : Bytes), (gradeVector im b).1.length = 256) ∧
  (∀ (im b : Bytes) (i : Nat), leAt im 0 2 ≤ i → (gradeVector im b).1.getD i 0 = 0)

/-- O29. ORCHARD: with both halves gated the step is skipped with DOMAIN (R109); it waits its turn (R387) and for the backlog (R388);
once admitted it evaluates and sets S and BUCKET (R382 to R385, the work of `Engine.orcRun`). The packet's truncation is decided at its
first step, by the policy of its class (R388). -/
def Obligations.OrchardAdmitsInOrder : Prop :=
  (∀ s id ecc p arg e, s.engineUp = true → s.eng.dispatched id 4 = some (p, arg, e) → p.noEval = true →
    Does (.orchard id ecc) s fun _ => (e.setPkt p.id fun q => q.flag flBYPASS).advance p.id) ∧
  (∀ s id ecc p arg e, s.engineUp = true → s.eng.dispatched id 4 = some (p, arg, e) → p.noEval = false → e.halves = [] →
    Does (.orchard id ecc) s fun _ => ((e.count (Reg.CLK_CNT 2)).setPkt p.id fun q => q.flag flDOMAIN).advance p.id) ∧
  (∀ s id ecc p arg e, s.engineUp = true → s.eng.dispatched id 4 = some (p, arg, e) → p.noEval = false → e.halves ≠ [] →
    e.orcTurn (.pkt p.id) = false → Does (.orchard id ecc) s fun _ => (e.orcJoin (.pkt p.id)).wait p.id 10) ∧
  (∀ s id ecc p arg e e1 lim n, s.engineUp = true → s.eng.dispatched id 4 = some (p, arg, e) → p.noEval = false → e.halves ≠ [] →
    e.orcTurn (.pkt p.id) = true → e.takeRate 4 64 8 = some e1 →
    e.orcAdmit p (((Model.ensemble (e.modelFor p) arg).map ensTrees).getD 0) = some (lim, n) →
    Does (.orchard id ecc) s fun _ => (e1.orcLeave (.pkt p.id)).orcRun p arg (Model.ensemble (e.modelFor p) arg)
      (((Model.ensemble (e.modelFor p) arg).map ensTrees).getD 0) n lim ecc) ∧
  (∀ s id ecc p arg e, s.engineUp = true → s.eng.dispatched id 4 = some (p, arg, e) → p.noEval = false → e.halves ≠ [] →
    e.orcTurn (.pkt p.id) = true → e.orcAdmit p (((Model.ensemble (e.modelFor p) arg).map ensTrees).getD 0) = none →
    Does (.orchard id ecc) s fun _ => ((e.orcJoin (.pkt p.id)).evt Fld.ORC_EVT_WAIT).wait p.id 10) ∧
  (∀ s id rest, s.engineUp = true → s.eng.orcWaiters = .pkt id :: rest →
    Does .orchardAdmit s fun e => e.dispatch id 4 (orchardStep .clean)) ∧
  (∀ s, s.engineUp = true → s.eng.orcWaiters = [] → exec .orchardAdmit s = .next s) ∧
  (∀ (e : Engine) (p : Pkt) (t : Nat), p.limit = none → e.is (Fld.ORC_POLICY_MODE p.cls) = false →
    e.get Fld.ORC_CFG_BACKLOG_THR < e.backlog + t →
    e.orcAdmit p t = some ((some (e.get (Fld.ORC_POLICY_TRUNC_N p.cls)), false), min t (e.get (Fld.ORC_POLICY_TRUNC_N p.cls)))) ∧
  (∀ (e : Engine) (p : Pkt) (t : Nat), p.limit = none → e.backlog + t ≤ e.get Fld.ORC_CFG_BACKLOG_THR →
    e.orcAdmit p t = some ((none, e.is (Fld.ORC_POLICY_MODE p.cls)), t)) ∧
  (∀ (e : Engine) (p : Pkt) (t : Nat), p.limit = none → e.is (Fld.ORC_POLICY_MODE p.cls) = true →
    e.get Fld.ORC_CFG_BACKLOG_THR < e.backlog + t → e.backlog ≠ 0 → e.orcAdmit p t = none) ∧
  (∀ (e : Engine) (p : Pkt) (t n : Nat), p.limit = some (some n, false) → e.orcAdmit p t = some ((some n, false), min t n))

/-- O30. An ensemble's value (R347, R382): trees are added in ascending index, each rounded to binary32; no tree gives BASE; a leaf gives
its value; a tree goes left where the feature is below the threshold. BUCKET counts the thresholds not above S (R383). -/
def Obligations.EnsemblesEvaluate : Prop :=
  (∀ (node : Nat → Nat) (vec roots : List Nat) (r base : Nat), (evalTrees node vec (roots ++ [r]) base).1 =
    (f32add (evalTrees node vec roots base).1 (walkTree node vec 17 r).1).1) ∧
  (∀ (node : Nat → Nat) (vec : List Nat) (base : Nat), evalTrees node vec [] base = (base, 0, [])) ∧
  (∀ (node : Nat → Nat) (vec : List Nat) (k i : Nat), bitOf (node i) 40 = true → walkTree node vec (k + 1) i = (node i % 2 ^ 32, [i])) ∧
  (∀ (node : Nat → Nat) (vec : List Nat) (k i : Nat), bitOf (node i) 40 = false → bitOf (node i) 41 = false →
    vec.getD (bitsOf (node i) 39 32) 0 < node i % 2 ^ 32 → (walkTree node vec (k + 1) i).1 = (walkTree node vec k (i + 1)).1) ∧
  (∀ (node : Nat → Nat) (vec : List Nat) (k i : Nat), bitOf (node i) 40 = false → bitOf (node i) 41 = false →
    node i % 2 ^ 32 ≤ vec.getD (bitsOf (node i) 39 32) 0 →
    (walkTree node vec (k + 1) i).1 = (walkTree node vec k (bitsOf (node i) 63 44)).1) ∧
  (∀ (d : Bytes) (s : Nat) (cut : Bool), byteAt d 13 < 16 → bitOf (bucketOf d s cut) 4 = cut ∧ bucketOf d s cut % 16 ≤ byteAt d 13 ∧
    bucketOf d s cut < 32)

/-- O31. The commands of group 0x4 (R394): they take their turn behind the steps that wait, a wrong LENGTH or bank ends with
BAD_DESC, a bank with no model with REFUSED; ORC_GRADE writes the vector, ORC_EVAL answers S and BUCKET for min(T, N) trees. -/
def Obligations.OrchardCommands : Prop :=
  (∀ s id h c, s.engineUp = true → s.eng.startable id 0x40 = some c → s.eng.orcTurn (.cmd id) = false →
    Does (.orcGrade id h) s fun e => e.orcJoin (.cmd id)) ∧
  (∀ s id h c, s.engineUp = true → s.eng.startable id 0x40 = some c → s.eng.orcTurn (.cmd id) = true →
    c.len ≠ 336 ∨ 1 < c.arg 33 1 → Does (.orcGrade id h) s fun e => ((e.started c 290).orcLeave (.cmd id)).finish id 0x10) ∧
  (∀ s id h c, s.engineUp = true → s.eng.startable id 0x41 = some c → s.eng.orcTurn (.cmd id) = true → c.len = 1024 →
    c.arg 33 1 = 0 → s.eng.gft.live = none → Does (.orcEval id h) s fun e => ((e.started c 290).orcLeave (.cmd id)).finish id 0x20) ∧
  (∀ s id h c m b e1 x im e2, s.engineUp = true → s.eng.startable id 0x40 = some c → s.eng.orcTurn (.cmd id) = true → c.len = 336 →
    c.arg 33 1 = 0 → s.eng.gft.live = some m → ((s.eng.started c 290).orcLeave (.cmd id)).cmdData c h = (some b, e1) →
    m.sect 3 (c.arg 32 1) = some x → e1.readSect m x 5 (e1.cmdRef c) .clean = (some im, e2) →
    Does (.orcGrade id h) s fun _ =>
      (e2.cmdWrite c (packElems .f32 (gradeVector im b).1)).complete id 0 0 ((gradeVector im b).2 % 16) none 290) ∧
  (∀ s id h c m b e1, s.engineUp = true → s.eng.startable id 0x41 = some c → s.eng.orcTurn (.cmd id) = true → c.len = 1024 →
    c.arg 33 1 = 0 → s.eng.gft.live = some m → ((s.eng.started c 290).orcLeave (.cmd id)).halves ≠ [] →
    ((s.eng.started c 290).orcLeave (.cmd id)).cmdData c h = (some b, e1) → m.sect 4 (c.arg 32 1) = none →
    Does (.orcEval id h) s fun _ => e1.complete id 0 0 0 none (288 + e1.halves.headD 0)) ∧
  (∀ s id h c m b e1 d v fl e2, s.engineUp = true → s.eng.startable id 0x41 = some c → s.eng.orcTurn (.cmd id) = true → c.len = 1024 →
    c.arg 33 1 = 0 → s.eng.gft.live = some m → ((s.eng.started c 290).orcLeave (.cmd id)).halves ≠ [] →
    ((s.eng.started c 290).orcLeave (.cmd id)).cmdData c h = (some b, e1) → Model.ensemble (some m) (c.arg 32 1) = some d →
    (e1.admitTrees (min (ensTrees d) (c.arg 36 4))).evalEnsemble m d ((List.range 256).map fun i => leAt b (4 * i) 4)
      (min (ensTrees d) (c.arg 36 4)) ((e1.admitTrees (min (ensTrees d) (c.arg 36 4))).cmdRef c) .clean = (some (v, fl), e2) →
    Does (.orcEval id h) s fun _ =>
      e2.complete id 0 (v + 2 ^ 32 * bucketOf d v (decide (min (ensTrees d) (c.arg 36 4) < ensTrees d))) (fl % 16) none
        (288 + e2.halves.headD 0))

/-! ### The mills (R276, R309, R415 to R431) -/

/-- O32. MILL_ENQUEUE queues one item on the quad that the flow hash names, with the packet's epoch, template, row and history (R107,
R415, R416); with no such template, no quad ON or a full queue nothing is queued and SEQ will be 0 (R109, Table MIL-5). -/
def Obligations.MillEnqueueQueuesOneItem : Prop :=
  (∀ s id ecc p arg e, s.engineUp = true → s.eng.dispatched id 7 = some (p, arg, e) → p.noEval = true →
    Does (.millEnqueue id ecc) s fun _ => (e.setPkt p.id fun q => q.flag flBYPASS).advance p.id) ∧
  (∀ s id ecc p arg e, s.engineUp = true → s.eng.dispatched id 7 = some (p, arg, e) → p.noEval = false → p.firstEnq.isSome = true →
    (e.modelFor p).bind (·.sect 5 arg) = none → Does (.millEnqueue id ecc) s fun _ =>
      ((((e.setPkt p.id fun _ => p).count (Reg.MIL_CNT 6)).evt Fld.MIL_EVT_UNDEF_TEMPLATE).setPkt p.id fun q =>
        { q with seqLost := true }).advance p.id) ∧
  (∀ s id ecc p arg e m x e1 e2, s.engineUp = true → s.eng.dispatched id 7 = some (p, arg, e) → p.noEval = false →
    p.firstEnq.isSome = true → e.modelFor p = some m → m.sect 5 arg = some x → (e.setPkt p.id fun _ => p).earlierWaits p 7 1 = false →
    (e.setPkt p.id fun _ => p).takeRate 1 8 8 = some e1 → e1.steer true p.fhash = (none, e2) →
    Does (.millEnqueue id ecc) s fun _ =>
      ((e2.count (Reg.CLK_CNT 2)).setPkt p.id fun q => { q with seqLost := true }.flag flDOMAIN).advance p.id) ∧
  (∀ s id ecc p arg e m x e1 k e2, s.engineUp = true → s.eng.dispatched id 7 = some (p, arg, e) → p.noEval = false →
    p.firstEnq.isSome = true → e.modelFor p = some m → m.sect 5 arg = some x → (e.setPkt p.id fun _ => p).earlierWaits p 7 1 = false →
    (e.setPkt p.id fun _ => p).takeRate 1 8 8 = some e1 → e1.steer true p.fhash = (some k, e2) →
    e2.get Fld.MIL_CFG_QDEPTH ≤ (e2.milQ k).length →
    Does (.millEnqueue id ecc) s fun _ =>
      (((e2.count (Reg.MIL_CNT 2)).evt Fld.MIL_EVT_QFULL).setPkt p.id fun q =>
        { q with seqLost := true }.flag flJOIN_BUDGET).advance p.id) ∧
  (∀ s id ecc p arg e m x e1 k e2 hist n rd e3, s.engineUp = true → s.eng.dispatched id 7 = some (p, arg, e) → p.noEval = false →
    p.firstEnq.isSome = true → e.modelFor p = some m → m.sect 5 arg = some x → (e.setPkt p.id fun _ => p).earlierWaits p 7 1 = false →
    (e.setPkt p.id fun _ => p).takeRate 1 8 8 = some e1 → e1.steer true p.fhash = (some k, e2) →
    (e2.milQ k).length < e2.get Fld.MIL_CFG_QDEPTH → m.sect 3 (byteAt (sectBytes m.image x) 1 % 64) = none →
    (e2.count (Reg.ORC_CNT 8)).historyRead p ecc = (.got hist n rd, e3) →
    Runs (.millEnqueue id ecc) s fun t =>
      t.eng.milQ k = e3.milQ k ++
        [{ no := e3.mil.nextItem, pkt := p.id, epoch := m.epoch, tmpl := arg, row := List.replicate 256 0, hist := fitTo 512 hist,
           histLen := n, kScale := leAt ((p.shf.map (·.cur)).getD []) 72 4, vScale := leAt ((p.shf.map (·.cur)).getD []) 76 4,
           kZp := byteAt ((p.shf.map (·.cur)).getD []) 80, vZp := byteAt ((p.shf.map (·.cur)).getD []) 81 }] ∧
      t.eng.mil.nextItem = e3.mil.nextItem + 1 ∧ t.eng.mem = e3.mem ∧ ∀ j, j ≠ k → t.eng.milQ j = e3.milQ j) ∧
  (∀ (e : Engine) (p : Pkt) (ecc : Ecc), p.shf = none → e.historyRead p ecc = (.got [] 0 false, e)) ∧
  (∀ (e : Engine) (p : Pkt) (ecc : Ecc) (q : PShf) (x : Sheaf), p.shf = some q → q.present = true → q.genReset = false →
    histLen q.cur ≠ 0 → q.remote = false → e.sheaf q.key = some x → e.get Fld.SHF_LIMIT_HIST_MAX ≤ e.shf.histReads.length →
    e.historyRead p ecc = (.fallback, e))

/-- O33. Batches (R416, R418, R433): an idle mill takes the oldest item of its quad and those with its template and epoch, up to
BATCH_MAX; a completed batch is run item by item; an error in it joins nothing. Other work yields to packet items and resumes on its
mill (R420, R422). -/
def Obligations.MillsRunBatches : Prop :=
  (∀ s m it rest, s.engineUp = true → m < 32 → (s.eng.dom (8 + m / 8)).st = .on ∨ (s.eng.dom (8 + m / 8)).st = .draining →
    s.eng.milRun m = none → s.eng.milQ (m / 8) = it :: rest →
    Runs (.millBatchStart m) s fun t =>
      t.eng.milRun m = some (.batch (((it :: rest).filter fun x => x.tmpl == it.tmpl && x.epoch == it.epoch).take
        (s.eng.get Fld.MIL_CFG_BATCH_MAX))) ∧
      t.eng.rd (Reg.MIL_CNT 1) = satCount 48 (s.eng.rd (Reg.MIL_CNT 1)) 1 ∧ t.eng.mem = s.eng.mem ∧ t.eng.pkts = s.eng.pkts ∧
      ∀ j, j ≠ m / 8 → t.eng.milQ j = s.eng.milQ j) ∧
  (∀ s m, s.engineUp = true → 32 ≤ m ∨ (s.eng.milRun m).isSome = true ∨ s.eng.milQ (m / 8) = [] → exec (.millBatchStart m) s = .next s) ∧
  (∀ s m items, s.engineUp = true → s.eng.milRun m = some (.batch items) → s.eng.is Fld.ERR_INJECT_ARMED = false →
    Does (.millBatchComplete m .clean) s fun e => items.foldl Engine.itemDone ((e.setMilRun m none).busy (256 + m))) ∧
  (∀ s m items x, s.engineUp = true → s.eng.milRun m = some (.batch items) → s.eng.is Fld.ERR_INJECT_ARMED = false →
    x = .ue ∨ x = .residue → Does (.millBatchComplete m x) s fun e => ((e.setMilRun m none).busy (256 + m)).millError m x) ∧
  (∀ s m j, s.engineUp = true → m < 32 → s.eng.milRun m = some (.job j) → s.eng.milQ (m / 8) ≠ [] →
    ((quadMills (m / 8)).any fun x => (s.eng.milRun x).isNone) = false →
    Runs (.millYield m) s fun t => t.eng.milRun m = none ∧ t.eng.milHeld m = s.eng.milHeld m ++ [j] ∧
      t.eng.rd (Reg.MIL_CNT 4) = satCount 48 (s.eng.rd (Reg.MIL_CNT 4)) 1 ∧ t.eng.is Fld.MIL_EVT_YIELD = true ∧ t.eng.mem = s.eng.mem) ∧
  (∀ s m j, s.engineUp = true → s.eng.milRun m = none → s.eng.milQ (m / 8) = [] →
    (s.eng.milHeld m).find? (fun x => x.cls == 2) = some j → Runs (.millResume m) s fun t =>
      t.eng.milRun m = some (.job j) ∧ t.eng.milHeld m = (s.eng.milHeld m).filter (fun x => x.owner != j.owner) ∧ t.eng.mem = s.eng.mem) ∧
  (∀ s m j rest, s.engineUp = true → s.eng.milRun m = none → s.eng.milQ (m / 8) = [] → s.eng.fgWaits (m / 8) = false →
    (s.eng.milHeld m).find? (fun x => x.cls == 2) = none → s.eng.milHeld m = j :: rest → Runs (.millResume m) s fun t =>
      t.eng.milRun m = some (.job j))

/-- O34. JOIN (R276): it waits for every result or the deadline; SEQ is 1 only when the packet queued work and all of it joined in time;
a missed deadline sets JOIN_BUDGET. An item of a packet whose JOIN has passed it is late and counted. -/
def Obligations.JoinSetsSeq : Prop :=
  (∀ s id p arg e, s.engineUp = true → s.eng.dispatched id 8 = some (p, arg, e) →
    (p.items.all fun i => p.results.any fun r => r.item == i) = false → arg % 4096 ≠ 0 → e.time < p.joinDeadline (arg % 4096) →
    Does (.join id) s fun _ => e.wait p.id 1) ∧
  (∀ s id p arg e, s.engineUp = true → s.eng.dispatched id 8 = some (p, arg, e) →
    (p.items.all fun i => p.results.any fun r => r.item == i) = true ∨ arg % 4096 = 0 ∨ p.joinDeadline (arg % 4096) ≤ e.time →
    Does (.join id) s fun _ => e.joinEnd p (arg % 4096)) ∧
  (∀ s id p arg e, s.engineUp = true → s.eng.dispatched id 8 = some (p, arg, e) → entMode (e.entryOf p) ≠ 2 →
    (p.items.all fun i => p.results.any fun r => r.item == i) = true ∨ arg % 4096 = 0 ∨ p.joinDeadline (arg % 4096) ≤ e.time →
    Runs (.join id) s fun t => ∃ q, t.eng.pkt id = some q ∧
      q.seq = (!p.items.isEmpty && (p.items.all fun i => p.inTime (arg % 4096) i) && !p.seqLost) ∧
      bitOf q.flags flJOIN_BUDGET = (bitOf p.flags flJOIN_BUDGET || p.items.any fun i => !p.inTime (arg % 4096) i) ∧
      q.begun = none ∧ q.items = p.items ∧ t.eng.mem = s.eng.mem) ∧
  (∀ s id p, s.engineUp = true → s.eng.pkt id = some p → p.onPath = true → p.failed = false → entKind (s.eng.entryOf p) = 8 →
    p.begun.isSome = true → p.joinDeadline (entArg (s.eng.entryOf p) % 4096) ≤ s.eng.time →
    Does (.joinDeadline id) s fun e => e.joinEnd p (entArg (s.eng.entryOf p) % 4096)) ∧
  (∀ (e : Engine) (it : MilItem) (o : TmplOut), it.late = true → e.joinResult it o = e.count (Reg.CSC_CNT 7))

/-- O35. MIL_RUN and MIL_TEMPLATE (R420, R421, R428, R429): checked and placed on an idle mill of their quad at the first row, ended with
their status, RESULT and flags at the row that says so; a quad that is not ON is DOMAIN_OFF, a broken stage list BAD_DESC. -/
def Obligations.MillCommands : Prop :=
  (∀ s id h c d e1 k m, s.engineUp = true → s.eng.startable id 0x50 = some c →
    (s.eng.setCmd id fun c => { c with ph := .running }).cmdData c h = (some d, e1) → e1.quadFor (c.arg 32 1) = some (some k) →
    e1.jobCheck ⟨.cmd c.id, false, d, 0, 0, 0, c.arg 33 1 + 2, 0⟩ = none →
    e1.jobPlace ⟨.cmd c.id, false, d, 0, 0, 0, c.arg 33 1 + 2, k⟩ = some m →
    Does (.milRun id h false) s fun _ => e1.startJob ⟨.cmd c.id, false, d, 0, 0, 0, c.arg 33 1 + 2, k⟩ m) ∧
  (∀ s id h c d e1 k m, s.engineUp = true → s.eng.startable id 0x51 = some c →
    (s.eng.setCmd id fun c => { c with ph := .running }).cmdData c h = (some d, e1) → e1.quadFor 0xFF = some (some k) →
    e1.jobCheck ⟨.cmd c.id, true, d, c.arg 32 1, c.arg 33 1, c.dst, 2, 0⟩ = none →
    e1.jobPlace ⟨.cmd c.id, true, d, c.arg 32 1, c.arg 33 1, c.dst, 2, k⟩ = some m →
    Does (.milTemplate id h false) s fun _ => e1.startJob ⟨.cmd c.id, true, d, c.arg 32 1, c.arg 33 1, c.dst, 2, k⟩ m) ∧
  (∀ s id h c d e1, s.engineUp = true → s.eng.startable id 0x50 = some c →
    (s.eng.setCmd id fun c => { c with ph := .running }).cmdData c h = (some d, e1) → e1.quadFor (c.arg 32 1) = some none →
    e1.jobCheck ⟨.cmd c.id, false, d, 0, 0, 0, c.arg 33 1 + 2, 0⟩ = none →
    Does (.milRun id h false) s fun _ => (e1.traceCmd c 2 256 0).complete id 0x21 0 0 none 256) ∧
  (∀ s id h c d e1 k st res, s.engineUp = true → s.eng.startable id 0x50 = some c →
    (s.eng.setCmd id fun c => { c with ph := .running }).cmdData c h = (some d, e1) → e1.quadFor (c.arg 32 1) = some k →
    e1.jobCheck ⟨.cmd c.id, false, d, 0, 0, 0, c.arg 33 1 + 2, 0⟩ = some (st, res) →
    Does (.milRun id h false) s fun _ => (e1.traceCmd c 2 256 0).complete id st res 0 none 256) ∧
  (∀ s id h m j, s.engineUp = true → s.eng.startable id 0x50 = none → s.eng.mil.waiting = [] → s.eng.jobMill (.cmd id) = some m →
    s.eng.milRun m = some (.job j) → (((s.eng.setMilRun m none).busy (256 + m)).runJob j).out = none →
    Does (.milRun id h true) s fun e =>
      (((e.setMilRun m none).busy (256 + m)).runJob j).e.complete id (((e.setMilRun m none).busy (256 + m)).runJob j).status
        (((e.setMilRun m none).busy (256 + m)).runJob j).result (((e.setMilRun m none).busy (256 + m)).runJob j).flags none (256 + m)) ∧
  (∀ s id h m j b c, s.engineUp = true → s.eng.startable id 0x51 = none → s.eng.mil.waiting = [] → s.eng.jobMill (.cmd id) = some m →
    s.eng.milRun m = some (.job j) → (((s.eng.setMilRun m none).busy (256 + m)).runJob j).out = some b →
    (((s.eng.setMilRun m none).busy (256 + m)).runJob j).e.cmd id = some c →
    Does (.milTemplate id h true) s fun e =>
      ((((e.setMilRun m none).busy (256 + m)).runJob j).e.cmdWrite c b).complete id
        (((e.setMilRun m none).busy (256 + m)).runJob j).status (((e.setMilRun m none).busy (256 + m)).runJob j).result
        (((e.setMilRun m none).busy (256 + m)).runJob j).flags none (256 + m)) ∧
  (∀ s id h, s.engineUp = true → s.eng.startable id 0x50 = none → s.eng.mil.waiting = [] → exec (.milRun id h false) s = .next s)

/-! ### The sluice (R221, R222, R275, R551 to R569) -/

/-- O36. ENQUEUE_TX happens once for a packet (R275); on a tap port it only counts; with CUT 0 or a policed class it waits for GOOD
(R221, R532); a frame for a port that is down is discarded (R222). The policer is the two-rate three-colour marker of R553, its
buckets full when it is enabled; a queue admits by the limit of the frame's colour (R552). -/
def Obligations.FramesAreEnqueued : Prop :=
  (∀ s id p arg e, s.engineUp = true → s.eng.dispatched id 11 = some (p, arg, e) → p.txStep = true →
    Does (.enqueueTx id) s fun _ => (e.count (Reg.CSC_CNT 6)).advance p.id) ∧
  (∀ s id p arg e, s.engineUp = true → s.eng.dispatched id 11 = some (p, arg, e) → p.txStep = false → e.portMode p.port = 0 →
    Does (.enqueueTx id) s fun _ => ((e.count (Reg.CSC_CNT 5)).setPkt p.id fun q => { q with txStep := true }).advance p.id) ∧
  (∀ s id p arg e, s.engineUp = true → s.eng.dispatched id 11 = some (p, arg, e) → p.txStep = false → e.portMode p.port ≠ 0 →
    p.good = false → e.is (Fld.ITK_PORT_CFG_CUT p.port) = false ∨ e.is (Fld.SLC_POL_CFG_EN p.cls) = true →
    Does (.enqueueTx id) s fun _ => e.wait p.id 15) ∧
  (∀ s id p arg e, s.engineUp = true → s.eng.dispatched id 11 = some (p, arg, e) → p.txStep = false → e.portMode p.port ≠ 0 →
    p.good = true → Does (.enqueueTx id) s fun _ => ((e.enqueueTx p).setPkt p.id fun q => { q with txStep := true }).advance p.id) ∧
  (∀ (e : Engine) (p : Pkt), e.portLive (e.get (Fld.ITK_PORT_CFG_PAIR p.port)) = false →
    e.enqueueTx p = e.count (Reg.ITK_PCNT (e.get (Fld.ITK_PORT_CFG_PAIR p.port)) 14)) ∧
  (∀ (e : Engine) (p : Pkt) (t col : Nat), (e.txq t).depth + p.cells ≤ e.txLimit t col →
    ((e.txAdmit p t col).txq t).frames.length = (e.txq t).frames.length + 1) ∧
  (∀ (e : Engine) (p : Pkt) (t col : Nat), e.txLimit t col < (e.txq t).depth + p.cells →
    e.txAdmit p t col = (e.tally (Reg.SLC_TXQ_TALLY t 2)).count (Reg.SLC_CNT 3)) ∧
  (∀ (e : Engine) (c len : Nat), (e.police c 2 len).1 = 2) ∧
  (∀ (e : Engine) (c len col : Nat), e.get (Fld.SLC_POL_PBS_BYTES c) < len → (e.police c col len).1 = 2) ∧
  (∀ (e : Engine) (c len : Nat), len ≤ e.get (Fld.SLC_POL_CBS_BYTES c) → len ≤ e.get (Fld.SLC_POL_PBS_BYTES c) →
    ((e.polFill c).police c 0 len).1 = 0 ∧ ((e.polFill c).police c 1 len).1 = 1) ∧
  (∀ (e : Engine) (c len : Nat), e.get (Fld.SLC_POL_CBS_BYTES c) < len → len ≤ e.get (Fld.SLC_POL_PBS_BYTES c) →
    ((e.polFill c).police c 0 len).1 = 1)

/-- O37. Transmission (R558, R559, R565): an idle port starts the eligible head with the least distance, after heads far behind are
clamped; the frame ends its duration later; a frame is eligible only from its LAUNCH on, and the instant itself changes nothing
(R562, R564). -/
def Obligations.PortsTransmit : Prop :=
  (∀ s p frac ecc cell t f rest, s.engineUp = true → s.eng.present p = true → (s.eng.txp p).cur = none →
    (s.eng.txClamp p).txSelect p = some t → ((s.eng.txClamp p).txq t).frames = f :: rest →
    Does (.txFrameStart p frac ecc cell) s fun e => (e.txClamp p).txStart p t frac f ecc cell) ∧
  (∀ s p frac ecc cell, s.engineUp = true → s.eng.present p = false ∨ (s.eng.txp p).cur.isSome = true →
    exec (.txFrameStart p frac ecc cell) s = .next s) ∧
  (∀ s p c n, s.engineUp = true → (s.eng.txp p).cur = some c → s.eng.frameLen c.fr.src = some n →
    c.startAt + s.eng.txDuration p n ≤ s.eng.cyc → Does (.txFrameEnd p) s fun e => e.txDone p c) ∧
  (∀ s p c n, s.engineUp = true → (s.eng.txp p).cur = some c → s.eng.frameLen c.fr.src = some n →
    s.eng.cyc < c.startAt + s.eng.txDuration p n → exec (.txFrameEnd p) s = .next s) ∧
  (∀ s t, s.engineUp = true → exec (.launchTimeReached t) s = .next s) ∧
  (∀ s p, s.engineUp = true → exec (.gateEntryChange p) s = .next s) ∧
  (∀ (e : Engine) (t : Nat) (f : TxFrame) (rest : List TxFrame), (e.txq t).frames = f :: rest → e.time < f.launch →
    e.txEligible t = false) ∧
  (∀ (e : Engine) (p t : Nat), e.txSelect p = some t → t ∈ e.portQueues p ∧ e.txEligible t = true) ∧
  (∀ (e : Engine) (p t u : Nat), e.txSelect p = some t → u ∈ e.portQueues p → e.txEligible u = true →
    tagDist (e.get (Fld.SLC_TXQ_TAG_F t)) (e.txp p).v ≤ tagDist (e.get (Fld.SLC_TXQ_TAG_F u)) (e.txp p).v)

/-- O38. Gate control lists and the window rule (R564 to R567), EMIT (R222, R562, R563) and samples (R569). -/
def Obligations.GatesEmitsAndSamples : Prop :=
  (∀ s p, s.engineUp = true → s.pcieUp = true → s.eng.pends 13 = false → s.eng.present p = true → s.eng.gclOk p = true →
    Runs (.gclCommit p) s fun t => ∃ g, (t.eng.txp p).pendGcl = some g ∧ g.cycle = s.eng.get (Fld.SLC_GCL_CYCLE_TICKS p) ∧
      g.base = s.eng.rd (Reg.SLC_GCL_BASE p) ∧ s.eng.time ≤ g.act ∧ g.base ≤ g.act ∧ (g.act - g.base) % g.cycle = 0 ∧
      (g.act = g.base ∨ g.act < s.eng.time + g.cycle) ∧ g.entries.length = s.eng.get (Fld.SLC_GCL_CTRL_NENT p) ∧
      t.eng.is (Fld.SLC_GCL_CTRL_PEND p) = true ∧ (t.eng.txp p).oper = (s.eng.txp p).oper) ∧
  (∀ s p, s.engineUp = true → s.pcieUp = true → s.eng.pends 13 = false → s.eng.present p = true → s.eng.gclOk p = false →
    Does (.gclCommit p) s fun e => e.evt Fld.SLC_EVT_CFG_ERR) ∧
  (∀ s p, s.engineUp = true → s.pcieUp = true → s.eng.pends 13 = false → p < 32 →
    Runs (.gclDisable p) s fun t => t.eng.is (Fld.SLC_GCL_CTRL_EN p) = false ∧ t.eng.is (Fld.SLC_GCL_CTRL_PEND p) = false ∧
      (t.eng.txp p).pendGcl = none ∧ t.eng.get (Fld.SLC_PPROFILE_PROFILE p) = 7 ∧ t.eng.mem = s.eng.mem) ∧
  (∀ s p g, s.engineUp = true → p < 32 → (s.eng.txp p).pendGcl = some g → g.act ≤ s.eng.time →
    Runs (.gclActivation p) s fun t => (t.eng.txp p).oper = some g ∧ (t.eng.txp p).pendGcl = none ∧
      t.eng.is (Fld.SLC_GCL_CTRL_PEND p) = false ∧ t.eng.rd (Reg.SLC_CNT 6) = satCount 48 (s.eng.rd (Reg.SLC_CNT 6)) 1 ∧
      t.eng.is Fld.SLC_EVT_GCL_ACTIVE = true) ∧
  (∀ s p g, s.engineUp = true → (s.eng.txp p).pendGcl = some g → s.eng.time < g.act → exec (.gclActivation p) s = .next s) ∧
  (∀ s t g f rest w, s.engineUp = true → (s.eng.txp (s.eng.txPortOf t)).oper = some g → (s.eng.txq t).frames = f :: rest →
    g.longest (s.eng.localQueue t) = some w → s.eng.is (Fld.SLC_GCL_CTRL_EN (s.eng.txPortOf t)) = true →
    w < s.eng.txDuration (s.eng.txPortOf t) (s.eng.frameLenMax f.src) → f.headAt + g.cycle ≤ s.eng.time →
    Does (.windowOversizeDrop t) s fun e => e.winDrop t f) ∧
  (∀ s id h c st, s.engineUp = true → s.eng.startable id 0x10 = some c → s.eng.emitRefuse c = some st → s.eng.slc.emits = [] →
    Does (.emit id h) s fun e => (e.started c 295).finish c.id st) ∧
  (∀ s id h c d e1, s.engineUp = true → s.eng.startable id 0x10 = some c → s.eng.emitRefuse c = none →
    ceilDiv c.len 256 ≤ s.eng.cellsFree → (s.eng.started c (295 + c.arg 40 1)).cmdData c h = (some d, e1) →
    Does (.emit id h) s fun _ => Engine.emitAdmit
      { e1 with slc := { e1.slc with emits := e1.slc.emits ++
        [{ cmd := c.id, data := if bitOf (c.arg 42 1) 0 then d ++ natLE 4 (crc32 d) else d, port := c.arg 40 1, queue := c.arg 41 1,
           launch := c.arg 32 8, stamp := bitOf (c.arg 42 1) 1, cells := ceilDiv c.len 256 }] } } id) ∧
  (∀ s k, s.engineUp = true → s.pcieUp = true → s.eng.is Fld.SLC_SAMPLE_EN = true →
    s.eng.time % (s.eng.get Fld.SLC_SAMPLE_INTERVAL_US * usTicks) = 0 → s.eng.slc.sampledAt = none → s.eng.get Fld.SLC_SAMPLE_RING = k →
    s.eng.ringState k = 1 → s.eng.ringKind k = 5 →
    Does .sampleInstant s fun e =>
      e.samples.foldl (fun e ws => e.recordOrGap k e.time ws) { e with slc := { e.slc with sampledAt := some e.time } }) ∧
  (∀ s, s.engineUp = true → s.pcieUp = true → s.eng.is Fld.SLC_SAMPLE_EN = true →
    s.eng.time % (s.eng.get Fld.SLC_SAMPLE_INTERVAL_US * usTicks) = 0 → s.eng.slc.sampledAt = none →
    s.eng.ringState (s.eng.get Fld.SLC_SAMPLE_RING) ≠ 1 ∨ s.eng.ringKind (s.eng.get Fld.SLC_SAMPLE_RING) ≠ 5 →
    Does .sampleInstant s fun e => Engine.evt { e with slc := { e.slc with sampledAt := some e.time } } Fld.SLC_EVT_CFG_ERR)

/-! ### The garner (R510 to R530, R548 to R550) -/

/-- O39. The slow path (R512 to R517, R521, R522): SLOW_PATH ends the path with the frame in the queue, or drops it or waits when the queue
is full; the oldest frame that can be processed takes its action; the customer partition delivers with its USER value, drops, or
faults and the frame is delivered with CUST_FAULT. -/
def Obligations.SlowPathFrames : Prop :=
  (∀ s id p arg e, s.engineUp = true → s.eng.dispatched id 12 = some (p, arg, e) → e.get Fld.GAR_SP_CFG_QDEPTH ≤ e.gar.queue.length →
    e.get Fld.GAR_SP_CFG_FULL_ACT = 0 → Does (.slowPath id) s fun _ => ((e.count (Reg.GAR_CNT 3)).evt Fld.GAR_EVT_SP_FULL).endPath p.id) ∧
  (∀ s id p arg e, s.engineUp = true → s.eng.dispatched id 12 = some (p, arg, e) → e.get Fld.GAR_SP_CFG_QDEPTH ≤ e.gar.queue.length →
    e.get Fld.GAR_SP_CFG_FULL_ACT ≠ 0 → Does (.slowPath id) s fun _ => e.wait p.id 10) ∧
  (∀ s id p arg e, s.engineUp = true → s.eng.dispatched id 12 = some (p, arg, e) → e.gar.queue.length < e.get Fld.GAR_SP_CFG_QDEPTH →
    e.earlierWaits p 12 10 = false → Runs (.slowPath id) s fun t =>
      t.eng.gar.queue = e.gar.queue ++
        [{ pkt := p.id, reason := p.slowReason, act := bitsOf (e.get Fld.GAR_SP_ACT_ACT) (2 * p.slowReason + 1) (2 * p.slowReason),
           snap := e.get Fld.GAR_SP_CFG_SNAPLEN, slotLog := e.get (Fld.GAR_SPQ_SLOT_LOG2 (p.port / 4)),
           base := e.get (Fld.GAR_SPQ_DATA_BASE (p.port / 4)) * 2 ^ 12 }] ∧ t.eng.mem = s.eng.mem ∧
      t.eng.rd (Reg.GAR_CNT 0) = satCount 48 (e.rd (Reg.GAR_CNT 0)) 1) ∧
  (∀ s core f p e1, s.engineUp = true → s.eng.slowCore = some core → s.eng.gar.queue.find? s.eng.slowReady = some f →
    s.eng.takeRate 320 1000000 4 = some e1 → s.eng.pkt f.pkt = some p → f.act = 1 →
    Does .slowPathProcess s fun _ => ((e1.busy core).count (Reg.GAR_CNT 2)).slowRelease f.pkt) ∧
  (∀ s core f p e1, s.engineUp = true → s.eng.slowCore = some core → s.eng.gar.queue.find? s.eng.slowReady = some f →
    s.eng.takeRate 320 1000000 4 = some e1 → s.eng.pkt f.pkt = some p → f.act ≠ 1 → f.act ≠ 2 →
    Does .slowPathProcess s fun _ => (e1.busy core).slowRecord f p 0 0) ∧
  (∀ s core f p e1, s.engineUp = true → s.eng.slowCore = some core → s.eng.gar.queue.find? s.eng.slowReady = some f →
    s.eng.takeRate 320 1000000 4 = some e1 → s.eng.pkt f.pkt = some p → f.act = 2 → s.eng.custRun = true → s.eng.domOn 17 = true →
    Does .slowPathProcess s fun _ => (e1.busy core).setSlow f.pkt fun x => { x with ph := 1, flags := x.flags ||| 4 }) ∧
  (∀ s id user f p, s.engineUp = true → s.eng.atCustomer id = some (f, p) →
    Does (.customerHandler id true user) s fun e => ((e.count (Reg.GAR_CNT 5)).busy 336).slowRecord f p (user % 2 ^ 64) 0) ∧
  (∀ s id user f p, s.engineUp = true → s.eng.atCustomer id = some (f, p) →
    Does (.customerHandler id false user) s fun e => (((e.count (Reg.GAR_CNT 5)).busy 336).count (Reg.GAR_CNT 2)).slowRelease id) ∧
  (∀ s id f p, s.engineUp = true → s.eng.atCustomer id = some (f, p) →
    Does (.customerFault id) s fun e => (((e.count (Reg.GAR_CNT 6)).evt Fld.GAR_EVT_CUST_FAULT).busy 336).slowRecord f p 0 16)

/-- O40. Records to the host and the garner pairs (R199, R510, R516, R523, R558): the host scheduler writes the head with the least tag
among those whose ring has room; a pair that the watchdog restarts is counted and leaves its duties until it is on again. -/
def Obligations.HostRecordsAndPairs : Prop :=
  (∀ s h e1, s.engineUp = true → s.pcieUp = true → s.eng.hostTurn = (some h, e1) →
    Does .hostRecordWrite s fun _ => e1.hqWrite h .clean 0) ∧
  (∀ s, s.engineUp = true → s.pcieUp = true → s.eng.hqBusy = [] → ((List.range 8).any s.eng.slowMapBad) = false →
    exec .hostRecordWrite s = .next s) ∧
  (∀ s ecc cell h e1 r rest, s.engineUp = true → s.pcieUp = true → s.eng.hostTurn = (some h, e1) → (e1.hq h).recs = r :: rest →
    r.slow.isSome = true → Does (.slowPathRecordWrite ecc cell) s fun _ => e1.hqWrite h ecc cell) ∧
  (∀ s k, s.engineUp = true → k < 4 → s.eng.pairUp k = true → Runs (.garnerWatchdogRestart k) s fun t =>
    t.eng.pairUp k = false ∧ t.eng.is Fld.GAR_EVT_WDT = true ∧ t.eng.time = s.eng.time ∧ (k = 1 → t.eng.mem = s.eng.mem)) ∧
  (∀ s k, s.engineUp = true → 4 ≤ k ∨ s.eng.pairUp k = false → exec (.garnerWatchdogRestart k) s = .next s) ∧
  (∀ s k, s.engineUp = true → (s.eng.dom (14 + k)).st = .on → Runs (.garnerPairOn k) s fun t => t.eng.pairUp k = true ∧
    t.eng.regs = s.eng.regs ∧ t.eng.mem = s.eng.mem ∧ ∀ j, j ≠ k → t.eng.pairUp j = s.eng.pairUp j)

/-- O41. The garner's commands (R520, R528, R529): GAR_INFO writes 64 bytes of open layout (free values, log entry 19); a customer image is
loaded only while the partition is stopped; it starts only with a valid image, pair 3 up and its domain on; GAR_CMIS_FW answers the
module's status, and no step while a port of the cage is up. -/
def Obligations.GarnerCommands : Prop :=
  (∀ s id c, s.engineUp = true → s.eng.startable id 0xB0 = some c → c.len = 64 → Does (.garInfo id) s fun e =>
    (Engine.cmdWrite { e.started c 330 with freeCtr := (e.started c 330).freeCtr + 1 } c
      (freeBytes Config.fGarInfo (e.started c 330).freeCtr 64)).finishOk c.id 0) ∧
  (∀ s id c, s.engineUp = true → s.eng.startable id 0xB0 = some c → c.len ≠ 64 →
    Does (.garInfo id) s fun e => (e.started c 330).finish c.id 0x10) ∧
  (∀ s id h c, s.engineUp = true → s.eng.startable id 0xB1 = some c → 64 ≤ c.len → c.len ≤ 2 ^ 24 → (s.eng.started c 330).custRun = true →
    Does (.garCustLoad id h) s fun e => (e.started c 330).finish c.id 0x20) ∧
  (∀ s id h c d e1, s.engineUp = true → s.eng.startable id 0xB1 = some c → 64 ≤ c.len → c.len ≤ 2 ^ 24 →
    (s.eng.started c 330).custRun = false → (s.eng.started c 330).cmdData c h = (some d, e1) →
    Does (.garCustLoad id h) s fun _ =>
      if Config.custImageOk d then
        Engine.finishOk (Engine.store { e1 with gar := { e1.gar with custOk := true, custStarted := false } } garnerBase d) c.id 0
      else e1.finish c.id 0x10) ∧
  (∀ s id c, s.engineUp = true → s.eng.startable id 0xB2 = some c → c.arg 32 1 = 0 →
    Does (.garCustCtrl id) s fun e => (e.started c 330).custStop.finishOk c.id 0) ∧
  (∀ s id c, s.engineUp = true → s.eng.startable id 0xB2 = some c → c.arg 32 1 = 1 →
    ((s.eng.started c 330).gar.custOk && (s.eng.started c 330).pairUp 3 && (s.eng.started c 330).domOn 17) = true →
    Does (.garCustCtrl id) s fun e =>
      Engine.finishOk { e.started c 330 with gar := { (e.started c 330).gar with custStarted := true } } c.id 0) ∧
  (∀ s id c, s.engineUp = true → s.eng.startable id 0xB2 = some c → 2 ≤ c.arg 32 1 →
    Does (.garCustCtrl id) s fun e => (e.started c 330).finish c.id 0x10) ∧
  (∀ s id h st c d e1, s.engineUp = true → s.eng.startable id 0xB3 = some c → c.arg 32 1 < 8 → c.arg 33 1 < 3 → c.arg 33 1 ≠ 1 →
    (s.eng.started c 330).cmdData c h = (some d, e1) → Does (.garCmisFw id h st) s fun _ => e1.finishOk c.id (st % 2 ^ 16)) ∧
  (∀ s id h st c, s.engineUp = true → s.eng.startable id 0xB3 = some c → 8 ≤ c.arg 32 1 →
    Does (.garCmisFw id h st) s fun e => (e.started c 330).finish c.id 0x10)

/-! ### Table generations (R256 to R258, R273, R283 to R287) -/

/-- O42. Loading the SHADOW bank (R256, R283 to R287): every load writes it alone, in ascending index until an item fails; a load waits while
the bank is RETIRING and is refused while a switch pends; TBL_PREPARE empties it or copies the live bank; TBL_READ reads either. -/
def Obligations.LoadsWriteTheShadow : Prop :=
  (∀ s t id h c d e1 b, s.engineUp = true → t < 5 → s.eng.startable id (0x20 + t) = some c → s.eng.genState = 0 →
    c.len % itemSize t = 0 → c.arg 32 4 + c.len / itemSize t ≤ tableItems t → (s.eng.started c 292).cmdData c h = (some d, e1) →
    e1.tab.shadow.load t (c.arg 32 4) (itemsOf t (c.len / itemSize t) d) = (b, none) →
    Does (tblLoadRow t id h) s fun _ => Engine.finishOk { e1 with tab := { e1.tab with shadow := b, fromProfile := none } } c.id 0) ∧
  (∀ s t id h c d e1 b i, s.engineUp = true → t < 5 → s.eng.startable id (0x20 + t) = some c → s.eng.genState = 0 →
    c.len % itemSize t = 0 → c.arg 32 4 + c.len / itemSize t ≤ tableItems t → (s.eng.started c 292).cmdData c h = (some d, e1) →
    e1.tab.shadow.load t (c.arg 32 4) (itemsOf t (c.len / itemSize t) d) = (b, some i) →
    Does (tblLoadRow t id h) s fun _ =>
      Engine.tblRefuse { e1 with tab := { e1.tab with shadow := b, fromProfile := none } } c 3 i) ∧
  (∀ s t id h c, s.engineUp = true → t < 5 → s.eng.startable id (0x20 + t) = some c → s.eng.genState = 1 →
    exec (tblLoadRow t id h) s = .next s) ∧
  (∀ s t id h c, s.engineUp = true → t < 5 → s.eng.startable id (0x20 + t) = some c → s.eng.genState = 2 →
    Does (tblLoadRow t id h) s fun e => (e.started c 292).tblRefuse c 4 0) ∧
  (∀ s t id h c, s.engineUp = true → t < 5 → s.eng.startable id (0x20 + t) = some c → s.eng.genState = 0 →
    c.len % itemSize t = 0 → tableItems t < c.arg 32 4 + c.len / itemSize t →
    Does (tblLoadRow t id h) s fun e => (e.started c 292).tblRefuse c 1 0) ∧
  (∀ s id c, s.engineUp = true → s.eng.startable id 0x25 = some c → s.eng.genState = 0 → c.arg 32 1 ≤ 1 →
    Does (.tblPrepare id) s fun e =>
      Engine.finishOk { e.started c 292 with
        tab := { (e.started c 292).tab with shadow := if c.arg 32 1 = 0 then {} else e.tab.live, fromProfile := none } } c.id 0) ∧
  (∀ s id c, s.engineUp = true → s.eng.startable id 0x27 = some c → c.arg 32 1 ≤ 4 → c.arg 33 1 = 0 →
    c.len % itemSize (c.arg 32 1) = 0 → c.arg 36 4 + c.len / itemSize (c.arg 32 1) ≤ tableItems (c.arg 32 1) → s.eng.tab.live.bad = [] →
    Does (.tblRead id) s fun e =>
      ((e.started c 292).cmdWrite c (((List.range (c.len / itemSize (c.arg 32 1))).map fun i => c.arg 36 4 + i).flatMap fun i =>
        e.tab.live.item (c.arg 32 1) i)).finishOk c.id 0) ∧
  (∀ (b : Bank) (t i j : Nat) (bs : Bytes), t < 5 → i ≠ j → (b.writeItem t i bs).item t j = b.item t j) ∧
  (∀ (b : Bank) (t i : Nat) (bs : Bytes), t < 5 → bs.length = itemSize t → (b.writeItem t i bs).item t i = bs)

/-- O43. Switching generations (R257, R258, R273, R286): NOW switches at once; TALLY and TIME pend and take effect once; a TIME that has
passed is LATE; CANCEL ends the pending one with ABORTED; a generation that breaks a cross-entry check does not become live; the old
one retires when no packet holds it. -/
def Obligations.GenerationsSwitch : Prop :=
  (∀ s id c, s.engineUp = true → s.eng.startable id 0x26 = some c → c.arg 32 1 = 0 → s.eng.genState = 0 → s.eng.tab.shadow.check = none →
    Does (.tblSwitch id) s fun e =>
      ((e.started c 292).switchTables (e.started c 292).time).finishOk c.id
        (((e.started c 292).switchTables (e.started c 292).time).rd Reg.WNW_GEN)) ∧
  (∀ s id c r i, s.engineUp = true → s.eng.startable id 0x26 = some c → c.arg 32 1 < 3 → s.eng.genState = 0 →
    s.eng.tab.shadow.check = some (r, i) →
    Does (.tblSwitch id) s fun e => ((e.started c 292).evt Fld.WNW_EVT_CHECK_FAIL).tblRefuse c r i) ∧
  (∀ s id c, s.engineUp = true → s.eng.startable id 0x26 = some c → c.arg 32 1 = 2 → s.eng.genState = 0 → s.eng.tab.shadow.check = none →
    c.arg 40 8 < s.eng.time → Does (.tblSwitch id) s fun e => ((e.started c 292).evt Fld.WNW_EVT_SWITCH_LATE).finish c.id 0x24) ∧
  (∀ s id c m, s.engineUp = true → s.eng.startable id 0x26 = some c → c.arg 32 1 = m → m = 1 ∨ m = 2 → s.eng.genState = 0 →
    s.eng.tab.shadow.check = none → s.eng.time ≤ c.arg 40 8 →
    Runs (.tblSwitch id) s fun t =>
      t.eng.tab.pend = some ⟨m, if m = 2 then c.arg 40 8 else 0, c.id, false⟩ ∧ t.eng.genState = 2 ∧
      t.eng.tab.live = s.eng.tab.live ∧ t.eng.tab.shadow = s.eng.tab.shadow ∧ t.eng.rd Reg.WNW_GEN = s.eng.rd Reg.WNW_GEN) ∧
  (∀ s id c x, s.engineUp = true → s.eng.startable id 0x26 = some c → c.arg 32 1 = 3 → s.eng.tab.pend = some x →
    Runs (.tblSwitch id) s fun t => t.eng.tab.pend = none ∧ t.eng.genState = 0 ∧ t.eng.tab.live = s.eng.tab.live ∧
      t.eng.rd Reg.WNW_GEN = s.eng.rd Reg.WNW_GEN) ∧
  (∀ s x, s.engineUp = true → s.eng.tab.pend = some x → x.due = true ∨ x.mode = 2 ∧ x.t ≤ s.eng.time →
    Runs .tableSwitchEffect s fun t => t.eng.tab.live = s.eng.tab.shadow ∧ t.eng.tab.shadow = s.eng.tab.live ∧ t.eng.tab.pend = none ∧
      t.eng.genState = 1 ∧ t.eng.rd Reg.WNW_SWITCH_TIME = x.t % 2 ^ 64 ∧ t.eng.tab.retGen = s.eng.rd Reg.WNW_GEN ∧
      t.eng.is Fld.WNW_EVT_SWITCHED = true ∧ t.eng.mem = s.eng.mem) ∧
  (∀ s x, s.engineUp = true → s.eng.tab.pend = some x → x.due = false → x.mode = 1 → exec .tableSwitchEffect s = .next s) ∧
  (∀ s, s.engineUp = true → s.eng.genState = 1 → s.eng.retiringPkts = 0 →
    (s.eng.pkts.any fun p => !p.handed && decide (p.ts < s.eng.rd Reg.WNW_SWITCH_TIME) && decide (s.eng.tab.retGen ≠ 0)) = false →
    Runs .generationRetired s fun t => t.eng.genState = 0 ∧ t.eng.tab.retGen = 0 ∧ t.eng.tab.live = s.eng.tab.live ∧
      ∀ off, off ≠ Reg.WNW_GEN_STAT → t.eng.rd off = s.eng.rd off) ∧
  (∀ s, s.engineUp = true → s.eng.retiringPkts ≠ 0 → exec .generationRetired s = .next s)

/-! ### The sheaf block's own work and its commands (R305, R321 to R332) -/

/-- O44. Migrations (R321 to R324): the oldest need that can be worked on is; a copy that a commit overlapped is made again; a hot part
that moves to the silo reads there as it read in the granary. -/
def Obligations.SheavesMigrate : Prop :=
  (∀ s n rest, s.engineUp = true → s.eng.shf.needs = n :: rest → (s.eng.serveNeed n).1 = true →
    Does .sheafMigrationStart s fun e => (e.serveNeed n).2) ∧
  (∀ s, s.engineUp = true → s.eng.shf.needs = [] → exec .sheafMigrationStart s = .next s) ∧
  (∀ s key x m, s.engineUp = true → s.eng.sheaf key = some x → x.mig = some m → m.dirty = true →
    Does (.sheafMigrationComplete key) s fun e => e.setSheaf key fun x => { x with mig := some { m with dirty := false } }) ∧
  (∀ s key x m, s.engineUp = true → s.eng.sheaf key = some x → x.mig = some m → m.dirty = false → m.dst = 1 →
    Runs (.sheafMigrationComplete key) s fun t => ∃ y, t.eng.sheaf key = some y ∧ y.tier = 1 ∧ y.gWay = none ∧ y.sWay = x.sWay ∧
      y.mig = none ∧ t.eng.hotOf y = s.eng.hotOf x ∧ t.eng.rd (Reg.SHF_CNT 6) = satCount 48 (s.eng.rd (Reg.SHF_CNT 6)) 1) ∧
  (∀ s key x m, s.engineUp = true → s.eng.sheaf key = some x → x.mig = some m → m.dirty = false → m.dst = 0 → x.tier = 1 →
    Runs (.sheafMigrationComplete key) s fun t => ∃ y, t.eng.sheaf key = some y ∧ y.tier = 0 ∧ y.gWay = m.gWay ∧ y.sWay = x.sWay ∧
      y.mig = none ∧ t.eng.hotOf y = s.eng.hotOf x ∧ t.eng.rd (Reg.SHF_CNT 8) = satCount 48 (s.eng.rd (Reg.SHF_CNT 8)) 1) ∧
  (∀ s key, s.engineUp = true → (s.eng.sheaf key).bind (·.mig) = none → exec (.sheafMigrationComplete key) s = .next s)

/-- O45. The sheaf commands (R305, R328 to R332): SHF_READ and SHF_DELETE wait for the flow and answer the tier; SHF_FLUSH and the loft
commands are refused where their conditions fail; SHF_HOME_SET stages entries for the next tally boundary. -/
def Obligations.SheafCommands : Prop :=
  (∀ s id h c, s.engineUp = true → s.eng.startable id 0x30 = some c → c.len ≠ 640 →
    Does (.shfRead id h) s fun e => (e.started c 294).finish c.id 0x10) ∧
  (∀ s id h c key e1 b e2, s.engineUp = true → s.eng.startable id 0x30 = some c → c.len = 640 →
    s.eng.cmdDataN c 48 h .clean = (some key, e1) → e1.homeOf key e1.time = e1.selfId →
    e1.takeFlow (.cmd id) key c.at_ = (true, b, e2) → e2.startable id 0x30 = some c → (e2.started c 294).tierCode key = 0 →
    Does (.shfRead id h) s fun _ => ((e2.started c 294).finishOk c.id 0).releaseFlow (.cmd id)) ∧
  (∀ s id h c key e1 b e2 d e3, s.engineUp = true → s.eng.startable id 0x30 = some c → c.len = 640 →
    s.eng.cmdDataN c 48 h .clean = (some key, e1) → e1.homeOf key e1.time = e1.selfId →
    e1.takeFlow (.cmd id) key c.at_ = (true, b, e2) → e2.startable id 0x30 = some c → (e2.started c 294).tierCode key ≠ 0 →
    (e2.started c 294).readSheaf key = (some d, e3) →
    Does (.shfRead id h) s fun _ =>
      ((e3.cmdWrite c d).finishOk c.id ((e2.started c 294).tierCode key)).releaseFlow (.cmd id)) ∧
  (∀ s id h c key e1 b e2, s.engineUp = true → s.eng.startable id 0x31 = some c → c.len = 48 →
    s.eng.cmdDataN c 48 h .clean = (some key, e1) → e1.homeOf key e1.time = e1.selfId →
    e1.takeFlow (.cmd id) key c.at_ = (true, b, e2) → (e2.sheaf key).bind (·.undo0) = none → (e2.sheaf key).bind (·.undo1) = none →
    e2.startable id 0x31 = some c → (e2.started c 294).tierCode key ≠ 0 →
    Does (.shfDelete id h) s fun _ =>
      ((((e2.started c 294).deleteSheaf key).count (Reg.SHF_CNT 17)).finishOk c.id ((e2.started c 294).tierCode key)).releaseFlow
        (.cmd id)) ∧
  (∀ s id c p, s.engineUp = true → s.eng.startable id 0x32 = some c → p < 32 → s.eng.is (Fld.ITK_PORT_CTRL_UP p) = true →
    Does (.shfFlush id) s fun e => (e.started c 294).finish c.id 0x20) ∧
  (∀ s id c, s.engineUp = true → s.eng.startable id 0x32 = some c → (∀ p < 32, s.eng.is (Fld.ITK_PORT_CTRL_UP p) = false) →
    Does (.shfFlush id) s fun e => (e.started c 294).clearSheaves.finishOk c.id 0) ∧
  (∀ s id c, s.engineUp = true → s.eng.startable id 0x33 = some c → s.eng.is Fld.SHF_LOFT_EN = true →
    Does (.shfLoftMap id) s fun e => (e.started c 294).finish c.id 0x20) ∧
  (∀ s id c, s.engineUp = true → s.eng.startable id 0x33 = some c → s.eng.is Fld.SHF_LOFT_EN = false → s.eng.shf.windows = [] →
    c.arg 32 8 % 2 ^ 21 = 0 → c.arg 40 8 % 2 ^ 21 = 0 → c.arg 48 8 % 2 ^ 21 = 0 → c.arg 48 8 + c.arg 40 8 ≤ 2 ^ 40 →
    (s.eng.started c 294).inWindow c.pd (c.arg 32 8) (c.arg 40 8) = true →
    Does (.shfLoftMap id) s fun e =>
      (Engine.put { e.started c 294 with shf := { (e.started c 294).shf with windows := [⟨c.arg 48 8, c.arg 40 8, c.arg 32 8⟩] } }
        Fld.SHF_LOFT_WINDOWS 1).finishOk c.id 0) ∧
  (∀ s id c, s.engineUp = true → s.eng.startable id 0x34 = some c → c.arg 32 1 = 0 →
    Does (.shfLoftEnable id) s fun e => (e.started c 294).loftOff.finishOk c.id 0) ∧
  (∀ s id c, s.engineUp = true → s.eng.startable id 0x34 = some c → c.arg 32 1 = 1 → s.eng.is Fld.SHF_LOFT_EN = false →
    0 < c.arg 36 4 → c.arg 36 4 ≤ 2 ^ 27 → covers s.eng.shf.windows 513 0 (c.arg 36 4 * 8192) = true →
    Does (.shfLoftEnable id) s fun e =>
      ((((e.started c 294).put Fld.SHF_LOFT_EN 1).put Fld.SHF_LOFT_SETS (c.arg 36 4)).wr (Reg.SHF_CAP 2) (8 * c.arg 36 4)).finishOk c.id 0) ∧
  (∀ s id h c d e1, s.engineUp = true → s.eng.startable id 0x35 = some c → c.len % 2 = 0 →
    (s.eng.started c 294).cmdData c h = (some d, e1) → (∀ i < c.len / 2, leAt d (2 * i) 2 < 16384) →
    c.arg 32 4 + c.len / 2 ≤ 16384 → c.arg 36 2 ≤ 16384 →
    Runs (.shfHomeSet id h) s fun t => t.eng.is Fld.SHF_HOME_PEND = true ∧ t.eng.shf.stagedCmds = e1.shf.stagedCmds ++ [c.id] ∧
      t.eng.shf.stagedN = (if c.arg 36 2 = 0 then e1.shf.stagedN else some (c.arg 36 2)) ∧
      t.eng.shf.stagedHome.drop (t.eng.shf.stagedHome.length - c.len / 2) =
        (List.range (c.len / 2)).map (fun i => (c.arg 32 4 + i, leAt d (2 * i) 2)) ∧ t.eng.mem = e1.mem)

/-! ### The NUM block (R352 to R363) -/

/-- O46. NUM_CONVERT quantises each element's exact value once, with the scale given, the range's or a context's (R355, R362); NUM_STATS
reads contexts, NUM_CLEAR zeroes them (R363); a window counts clips, underflows and elements (R355). -/
def Obligations.NumCommands : Prop :=
  (∀ s id h c, s.engineUp = true → s.eng.startable id 0xA0 = some c → numConv c = none →
    Does (.numConvert id h) s fun e => (e.started c 330).finish c.id 0x10) ∧
  (∀ s id h c k, s.engineUp = true → s.eng.startable id 0xA0 = some c → numConv c = some k → k.ok (s.eng.started c 330) c.len = false →
    Does (.numConvert id h) s fun e => (e.started c 330).finish c.id 0x10) ∧
  (∀ s id h c k d e1 vals qs, s.engineUp = true → s.eng.startable id 0xA0 = some c → numConv c = some k →
    k.ok (s.eng.started c 330) c.len = true → (s.eng.started c 330).cmdData c h = (some d, e1) → k.mode = 0 → k.ctx = 0xFFFF →
    vals = (List.range (k.count c.len)).map (fun i => codeValue k.sf (elemAt k.sf d i) k.sz (f32q k.ss)) →
    qs = vals.map (fun v => quantise k.df v.1 (f32q k.ds) k.dz) →
    Does (.numConvert id h) s fun _ =>
      (e1.cmdWrite c (packElems k.df (qs.map Prod.fst))).complete c.id 0
        (min (qs.filter fun q => bitOf q.2 4).length (2 ^ 32 - 1) + 2 ^ 32 * min (qs.filter fun q => bitOf q.2 1).length (2 ^ 24 - 1))
        (((vals.foldl (fun a v => a ||| v.2) 0) ||| (qs.foldl (fun a q => a ||| q.2) 0)) % 16) none 330) ∧
  (∀ s id c, s.engineUp = true → s.eng.startable id 0xA1 = some c → c.len % 64 = 0 → c.arg 32 4 + c.len / 64 ≤ 256 →
    Does (.numStats id) s fun e =>
      ((e.started c 330).cmdWrite c ((List.range (c.len / 64)).flatMap fun i => e.numImage (c.arg 32 4 + i))).finishOk c.id 0) ∧
  (∀ s id c, s.engineUp = true → s.eng.startable id 0xA1 = some c → c.len % 64 ≠ 0 ∨ 256 < c.arg 32 4 + c.len / 64 →
    Does (.numStats id) s fun e => (e.started c 330).finish c.id 0x10) ∧
  (∀ s id c, s.engineUp = true → s.eng.startable id 0xA2 = some c → c.arg 32 4 + c.arg 36 4 ≤ 256 →
    Does (.numClear id) s fun e =>
      ((List.range (c.arg 36 4)).foldl (fun e i => e.numZero (c.arg 32 4 + i)) (e.started c 330)).finishOk c.id 0) ∧
  (∀ s id c, s.engineUp = true → s.eng.startable id 0xA2 = some c → 256 < c.arg 32 4 + c.arg 36 4 →
    Does (.numClear id) s fun e => (e.started c 330).finish c.id 0x10) ∧
  (∀ (e : Engine) (t : Nat), t < 256 → (e.numZero t).rd (Reg.NUM_TN t) = 0 ∧ (e.numZero t).rd (Reg.NUM_TMSE t) = 0 ∧
    (e.numZero t).rd (Reg.NUM_TFLAGS t) = 0 ∧ (e.numZero t).numWin t = none ∧
    (e.numZero t).rd (Reg.NUM_TSCALE t) = e.rd (Reg.NUM_TSCALE t)) ∧
  (∀ (w : NumWin) (f : Fmt) (s z code fl : Nat), (w.add f s z .nan code fl).n = w.n ∧
    (w.add f s z .nan code fl).clips = w.clips + bit (bitOf fl 4)) ∧
  (∀ (w : NumWin) (f : Fmt) (s z code fl : Nat) (g : Bool) (q : Rat), (w.add f s z (.num g q) code fl).n = w.n + 1 ∧
    (w.add f s z (.num g q) code fl).unfs = w.unfs + bit (bitOf fl 1) ∧
    (w.add f s z (.num g q) code fl).scale = w.scale)

/-! ### Grafting and learning (R579 to R610) -/

/-- O47. Loading and grafting (R583 to R589, R606, R607): a load takes the EMPTY slot, and leaves a READY model or is refused with the
reason of Table GFT-7; a graft is armed for a tally boundary or a time, or takes effect at once where no model is live; when it takes
effect the shadow is live and the old model retires, and the retiring model goes when its epoch is used no more. -/
def Obligations.ModelsLoadAndGraft : Prop :=
  (∀ s id h c, s.engineUp = true → s.eng.startable id 0x70 = some c → s.eng.gft.retiring = none → s.eng.gft.loading = none →
    s.eng.gft.busy = false → s.eng.gft.shadow = none → Does (.gftLoad id h false) s fun e =>
      (e.started c 330).setGft fun g => { g with loading := some c.id, sst := .loading, shadow := none }) ∧
  (∀ s id h c im e1 b, s.engineUp = true → s.eng.startable id 0x70 = none → s.eng.gft.loading = some id → s.eng.cmd id = some c →
    s.eng.cmdData c h = (some im, e1) → e1.loadRefuse im c.len = none → e1.placeModel im = some b →
    Does (.gftLoad id h true) s fun _ =>
      ((e1.layModel im (leAt im 8 4) false b).2.setGft fun g =>
        { g with loading := none, sst := .ready, shadow := some (e1.layModel im (leAt im 8 4) false b).1 }).complete c.id 0 (leAt im 8 4) 0
          none 330) ∧
  (∀ s id h c im e1 r i, s.engineUp = true → s.eng.startable id 0x70 = none → s.eng.gft.loading = some id → s.eng.cmd id = some c →
    s.eng.cmdData c h = (some im, e1) → e1.loadRefuse im c.len = some (r, i) → e1.gft.sst = .loading →
    Does (.gftLoad id h true) s fun _ =>
      (((e1.setGft fun g => { g with loading := none, sst := .empty, shadow := none }).count (Reg.GFT_CNT 2)).evt
        Fld.GFT_EVT_LOAD_FAIL).complete c.id 0x20 (2 ^ 16 * r + i) 0 none 330) ∧
  (∀ s id c, s.engineUp = true → s.eng.startable id 0x71 = some c → c.arg 32 1 = 1 → s.eng.gft.sst = .ready → c.at_ ≤ c.arg 40 8 →
    Does (.gftGraft id) s fun e => (e.started c 330).setGft fun g =>
      { g with sst := .armed, arm := some { mode := .time, t := c.arg 40 8, cmd := some c.id } }) ∧
  (∀ s id c, s.engineUp = true → s.eng.startable id 0x71 = some c → c.arg 32 1 = 1 → s.eng.gft.sst = .ready → c.arg 40 8 < c.at_ →
    Does (.gftGraft id) s fun e => (e.started c 330).finish c.id 0x24) ∧
  (∀ s id c m, s.engineUp = true → s.eng.startable id 0x71 = some c → c.arg 32 1 = 0 → s.eng.gft.sst = .ready → s.eng.gft.live = some m →
    Does (.gftGraft id) s fun e => (e.started c 330).setGft fun g =>
      { g with sst := .armed, arm := some { mode := .tally, t := 0, cmd := some c.id } }) ∧
  (∀ s id c m, s.engineUp = true → s.eng.startable id 0x71 = some c → c.arg 32 1 = 0 → s.eng.gft.sst = .ready → s.eng.gft.live = none →
    s.eng.gft.shadow = some m → s.eng.gft.retiring = none → Runs (.gftGraft id) s fun t =>
      t.eng.gft.live = some m ∧ t.eng.gft.shadow = none ∧ t.eng.gft.sst = .empty ∧ t.eng.gft.arm = none) ∧
  (∀ s id c, s.engineUp = true → s.eng.startable id 0x71 = some c → c.arg 32 1 ≤ 1 → s.eng.gft.sst ≠ .ready →
    Does (.gftGraft id) s fun e => (e.started c 330).finish c.id 0x20) ∧
  (∀ s id c, s.engineUp = true → s.eng.startable id 0x71 = some c → c.arg 32 1 = 3 → s.eng.gft.sst ≠ .armed →
    Does (.gftGraft id) s fun e => (e.started c 330).finishOk c.id 0) ∧
  (∀ s m, s.engineUp = true → s.eng.armDue = true → s.eng.gft.shadow = some m → s.eng.gft.live.isSome = true →
    Runs .graftTakesEffect s fun t => t.eng.gft.live = some m ∧ t.eng.gft.retiring = s.eng.gft.live ∧ t.eng.gft.shadow = none ∧
      t.eng.gft.sst = .empty ∧ t.eng.gft.arm = none ∧ t.eng.gft.lock = none ∧ t.eng.time = s.eng.time ∧ t.eng.pkts = s.eng.pkts ∧
      t.eng.is Fld.GFT_EVT_GRAFTED = true) ∧
  (∀ s, s.engineUp = true → s.eng.armDue = false → exec .graftTakesEffect s = .next s) ∧
  (∀ s m, s.engineUp = true → s.eng.gft.retiring = some m → s.eng.epochUsed m.epoch = false →
    Does .retiringModelReleased s fun e => e.setGft fun g => { g with retiring := none }) ∧
  (∀ s m, s.engineUp = true → s.eng.gft.retiring = some m → s.eng.epochUsed m.epoch = true → exec .retiringModelReleased s = .next s) ∧
  (∀ s id c, s.engineUp = true → s.eng.startable id 0x72 = some c → s.eng.gft.sst = .ready ∨ s.eng.gft.sst = .empty →
    Does (.gftDiscard id) s fun e => ((e.started c 330).setGft fun g => { g with sst := .empty, shadow := none }).finishOk c.id 0) ∧
  (∀ s id c, s.engineUp = true → s.eng.startable id 0x72 = some c →
    s.eng.gft.sst = .armed ∨ s.eng.gft.sst = .locked ∨ s.eng.gft.sst = .preparing →
    Does (.gftDiscard id) s fun e => (e.started c 330).finish c.id 0x20) ∧
  (∀ s id c m im, s.engineUp = true → s.eng.startable id 0x73 = some c → c.arg 33 1 = 0 → s.eng.gft.live = some m →
    c.len = m.image.length → (s.eng.started c 330).imageNow m = some im →
    Does (.gftExport id) s fun e => ((e.started c 330).cmdWrite c im).complete c.id 0 m.epoch 0 none 330) ∧
  (∀ s id c, s.engineUp = true → s.eng.startable id 0x73 = some c → c.arg 33 1 = 0 → s.eng.gft.live = none →
    Does (.gftExport id) s fun e => (e.started c 330).finish c.id 0x20) ∧
  (∀ s id c, s.engineUp = true → s.eng.startable id 0x76 = some c → c.arg 32 1 ≤ 1 →
    Does (.gftLearn id) s fun e => ((e.started c 330).setLearn fun l => { l with paused := c.arg 32 1 == 0 }).finishOk c.id 0)

/-- O48. Lattice-wide grafts (R591 to R594, R608): a participant votes OK and locks its shadow, or names the first failing reason; the
coordinator commits when every vote is OK and aborts at the first refusal or at the deadline; a member without a decision keeps its old
model. And the learning loop's rows (R598 to R601). -/
def Obligations.LatticeGraftsAndLearning : Prop :=
  (∀ s id c, s.engineUp = true → s.eng.startable id 0x74 = some c →
    s.eng.gft.lock.isSome = true ∨ s.eng.gft.coord.isSome = true ∨ c.arg 40 8 < c.at_ + 2 * s.eng.margin →
    Does (.gftLprepare id) s fun e => (e.started c 330).finish c.id 0x20) ∧
  (∀ s id c m, s.engineUp = true → s.eng.startable id 0x74 = some c → s.eng.gft.lock = none → s.eng.gft.coord = none →
    c.at_ + 2 * s.eng.margin ≤ c.arg 40 8 → s.eng.gft.shadow = some m → s.eng.gft.sst = .ready → s.eng.suspect = false →
    s.eng.time + s.eng.margin ≤ c.arg 40 8 → (s.eng.started c 330).reachable = [s.eng.selfId] →
    Runs (.gftLprepare id) s fun t => t.eng.gft.sst = .armed ∧ t.eng.is Fld.GFT_EVT_LATT_ABORT = s.eng.is Fld.GFT_EVT_LATT_ABORT ∧
      t.eng.gft.arm = some { mode := .lattice, t := max (c.arg 40 8) s.eng.time, cmd := none } ∧
      t.eng.gft.lock = some ⟨s.eng.selfId, c.arg 40 8⟩) ∧
  (∀ s id c k, s.engineUp = true → s.eng.startable id 0x75 = some c → s.eng.gft.coord = some k → k.decision = none →
    Does (.gftLabort id) s fun e => ((e.started c 330).coordDecide (some (8, e.selfId))).finishOk c.id 1) ∧
  (∀ s id c, s.engineUp = true → s.eng.startable id 0x75 = some c → s.eng.gft.coord = none →
    Does (.gftLabort id) s fun e => (e.started c 330).finishOk c.id 0) ∧
  (∀ s id m, s.engineUp = true → s.eng.flgMsg id 0xC1 = some m →
    s.eng.voteFor (leAt m.data 0 4) ((List.range 8).map fun i => leAt m.data (4 + 4 * i) 4) (leNat m.arg) = 0 →
    Runs (.gPrepare id) s fun t => t.eng.gft.sst = .locked ∧ t.eng.gft.lock = some ⟨m.src, leNat m.arg⟩ ∧
      t.eng.gft.shadow = s.eng.gft.shadow ∧ t.eng.mem = s.eng.mem) ∧
  (∀ s id m, s.engineUp = true → s.eng.flgMsg id 0xC1 = some m →
    s.eng.voteFor (leAt m.data 0 4) ((List.range 8).map fun i => leAt m.data (4 + 4 * i) 4) (leNat m.arg) ≠ 0 →
    Runs (.gPrepare id) s fun t => t.eng.gft = s.eng.gft ∧ t.eng.mem = s.eng.mem) ∧
  (∀ s id m, s.engineUp = true → s.eng.flgMsg id 0xC2 = some m →
    Does (.gVote id) s fun e => (e.freeMsg m).noteVote m.src (byteAt m.arg 0)) ∧
  (∀ (e : Engine) (k : Coord) (src code : Nat), e.gft.coord = some k → k.decision.isSome = true → e.noteVote src code = e) ∧
  (∀ (e : Engine) (k : Coord) (src code : Nat), e.gft.coord = some k → k.decision = none → src ∈ k.parts → src ∉ k.ok → code ≠ 0 →
    e.noteVote src code = e.coordDecide (some (code, src))) ∧
  (∀ s k, s.engineUp = true → s.eng.gft.coord = some k → k.decision = none → k.tc ≤ s.eng.time + s.eng.margin / 2 →
    Does .voteDeadline s fun e => e.coordDecide (some (7, (k.parts.filter fun p => !k.ok.contains p).headD e.selfId))) ∧
  (∀ s, s.engineUp = true → s.eng.gft.coord = none → exec .voteDeadline s = .next s) ∧
  (∀ s id m l, s.engineUp = true → s.eng.flgMsg id 0xC3 = some m → s.eng.gft.lock = some l → s.eng.gft.sst = .locked →
    l.coord = m.src → byteAt m.arg 0 = 0 → s.eng.time ≤ l.tc →
    Runs (.gDecide id) s fun t => t.eng.gft.sst = .armed ∧
      t.eng.gft.arm = some { mode := .lattice, t := l.tc, cmd := none } ∧ t.eng.gft.lock = some l) ∧
  (∀ s id m l, s.engineUp = true → s.eng.flgMsg id 0xC3 = some m → s.eng.gft.lock = some l → s.eng.gft.sst = .locked →
    l.coord = m.src → byteAt m.arg 0 ≠ 0 → m.src ≠ s.eng.selfId →
    Runs (.gDecide id) s fun t => t.eng.gft.sst = .ready ∧ t.eng.gft.lock = none ∧ t.eng.gft.live = s.eng.gft.live ∧
      t.eng.gft.shadow = s.eng.gft.shadow) ∧
  (∀ s id m, s.engineUp = true → s.eng.flgMsg id 0xC4 = some m →
    Does (.gDone id) s fun e => ((e.freeMsg m).noteDone m.src (byteAt m.arg 0)).coordCheck) ∧
  (∀ s l, s.engineUp = true → s.eng.gft.lock = some l → s.eng.gft.sst = .locked → l.tc + s.eng.indoubt ≤ s.eng.time →
    l.coord ≠ s.eng.selfId → Runs .indoubtTimeout s fun t => t.eng.gft.sst = .ready ∧ t.eng.gft.lock = none ∧
      t.eng.gft.live = s.eng.gft.live ∧ t.eng.rd (Reg.GFT_CNT 6) = satCount 48 (s.eng.rd (Reg.GFT_CNT 6)) 1 ∧
      t.eng.is Fld.GFT_EVT_ORPHAN = true) ∧
  (∀ s l, s.engineUp = true → s.eng.gft.lock = some l → s.eng.time < l.tc + s.eng.indoubt → exec .indoubtTimeout s = .next s) ∧
  (∀ s k, s.engineUp = true → s.eng.gft.coord = some k → k.decision = some none → k.tc + s.eng.indoubt ≤ s.eng.time →
    Does .lprepareIndoubtExpiry s fun e => (e.setGft fun g => { g with coord := none }).complete k.cmd 0
      (k.parts.length + 2 ^ 15 * k.onTime.length + 2 ^ 30 * k.late.length) 0 none 330) ∧
  (∀ s k r who, s.engineUp = true → s.eng.gft.coord = some k → k.decision = some (some (r, who)) → k.tc + s.eng.indoubt ≤ s.eng.time →
    Does .lprepareIndoubtExpiry s fun e => (e.setGft fun g => { g with coord := none }).complete k.cmd 0x23 (r + 2 ^ 8 * who) 0 none 330) ∧
  (∀ s l m k n, s.engineUp = true → s.eng.learnSect = some l → s.eng.gft.live = some m → s.eng.learning = true →
    (s.eng.liveOf true).head? = some k → s.eng.gft.learn.running = false → s.eng.is Fld.MIL_CFG_HARVEST_EN = true →
    s.eng.inBypass = false → byteAt l 1 = n → s.eng.gft.learn.seenRows + n ≤ s.eng.gft.learn.rows →
    (s.eng.checkRead 0 (s.eng.mwAddr m + leAt l 4 4) (128 * byteAt l 8) .clean).1 = false →
    Runs .learningStepStart s fun t => t.eng.gft.learn.running = true ∧ t.eng.gft.learn.seenRows = s.eng.gft.learn.rows ∧
      t.eng.gft.learn.rows = s.eng.gft.learn.rows ∧ t.eng.gft.live = s.eng.gft.live) ∧
  (∀ s, s.engineUp = true → s.eng.learning = false ∨ s.eng.gft.learn.running = true → s.eng.inBypass = false →
    exec .learningStepStart s = .next s) ∧
  (∀ s m j, s.engineUp = true → s.eng.mil.waiting = [] → s.eng.jobMill .learn = some m → s.eng.milRun m = some (.job j) →
    (((s.eng.setMilRun m none).busy (256 + m)).runJob j).status ≠ 0 →
    Does .learningStepComplete s fun e =>
      ((((e.setMilRun m none).busy (256 + m)).runJob j).e.traceWork j 3 (256 + m)
        (((e.setMilRun m none).busy (256 + m)).runJob j).status).setLearn fun g => { g with running := false }) ∧
  (∀ s, s.engineUp = true → s.eng.gft.sst = .preparing → Does .learnedPreparation s fun e =>
    e.setGft fun g => { g with sst := .armed, arm := some { mode := .learned, t := 0, cmd := none } }) ∧
  (∀ s m, s.engineUp = true → s.eng.gft.live = some m → (m.sect 9 0).isSome = true → s.eng.is Fld.GFT_CFG_LEARN_EN = true →
    s.eng.gft.learn.staged ≠ [] → s.eng.gft.sst = .ready → Does .learnedPreparation s fun e => e.count (Reg.GFT_CNT 9))

/-! ### Threads of the rill cores (R435 to R474) -/

/-- O49. Instructions (R447 to R463): a thread that issues a plain instruction retires it, with the values of the RISC-V specification
(log entry 17), or takes its exception; loads, stores, AMOs, LR, SC, fences and CSR reads act where Table RIL-6 permits, and end the
thread with the cause of Table RIL-8 where it does not; at its INSN_LIMIT a thread takes INSN_LIMIT. -/
def Obligations.ThreadsRunInstructions : Prop :=
  (∀ s c tid cls, s.engineUp = true → insnRow c = some (tid, cls) → (s.eng.thread tid).any (fun t => t.st.issues) = false →
    exec c s = .next s) ∧
  (∀ s c tid cls, s.engineUp = true → insnRow c = some (tid, cls) → cls ≠ .plain → s.eng.issued tid cls = none → exec c s = .next s) ∧
  (∀ s tid t e1 e2 c v, s.engineUp = true → s.eng.thread tid = some t → t.st.issues = true → s.eng.issueRate (coreOf tid) = some e1 →
    e1.fetchWord t = (.error (c, v), e2) → Does (.rvInstruction tid) s fun _ => e2.thrExcept t c v) ∧
  (∀ s tid t w e rd v pc, s.engineUp = true → s.eng.issued tid .plain = some (t, w, e) → rvPlain t.reg t.pc w = .go rd v pc →
    Does (.rvInstruction tid) s fun _ => e.retire t rd v pc) ∧
  (∀ s tid t w e c v, s.engineUp = true → s.eng.issued tid .plain = some (t, w, e) → rvPlain t.reg t.pc w = .trap c v →
    Does (.rvInstruction tid) s fun _ => e.thrExcept t c v) ∧
  (∀ (e : Engine) (t : Thread) (rd v pc : Nat), t.limit = 0 ∨ t.instret + 1 < t.limit →
    (e.retire t rd v pc).thread t.id = some { t.setReg rd v with pc := pc, instret := t.instret + 1, st := .ready, home := none } ∧
    (e.retire t rd v pc).mem = e.mem ∧ (e.retire t rd v pc).rd Reg.RIL_INSNS = (e.rd Reg.RIL_INSNS + 1) % 2 ^ 64) ∧
  (∀ (t : Thread) (rd v r : Nat), (t.setReg rd v).reg r = if r = 0 then 0 else if r = rd then v % 2 ^ 64 else t.reg r) ∧
  (∀ (e : Engine) (t : Thread) (rd v pc : Nat), t.limit ≠ 0 → t.limit ≤ t.instret + 1 →
    ((e.retire t rd v pc).thread t.id).map (fun u => (u.st, u.ended)) = some (.ending, some (.cause 24)) ∧
    (e.retire t rd v pc).mem = e.mem) ∧
  (∀ (e : Engine) (t : Thread) (c v : Nat), e.is Fld.RIL_CFG_FAULT_REC = false → c ≠ 24 →
    (e.thrExcept t c v).thread t.id = some { t with st := .ending, ended := some (.cause c) } ∧
    (e.thrExcept t c v).rd (Reg.RIL_FAULT (rillBank t.id)) = (c + 2 ^ 32 * t.id) % 2 ^ 64 ∧
    (e.thrExcept t c v).rd (Reg.RIL_FAULT_PC (rillBank t.id)) = t.pc % 2 ^ 64 ∧
    (e.thrExcept t c v).rd (Reg.RIL_FAULT_TVAL (rillBank t.id)) = v % 2 ^ 64 ∧
    (e.thrExcept t c v).rd (Reg.RIL_CNT 6) = satCount 48 (e.rd (Reg.RIL_CNT 6)) 1 ∧ (e.thrExcept t c v).mem = e.mem) ∧
  (∀ (reg : Nat → Nat) (pc rd rs imm : Nat), rd < 32 → rs < 32 → imm < 4096 →
    rvPlain reg pc (0x13 + 2 ^ 7 * rd + 2 ^ 15 * rs + 2 ^ 20 * imm) = .go rd ((reg rs + sx 12 imm) % 2 ^ 64) ((pc + 4) % 2 ^ 64)) ∧
  (∀ (reg : Nat → Nat) (pc rd rs1 rs2 : Nat), rd < 32 → rs1 < 32 → rs2 < 32 →
    rvPlain reg pc (0x33 + 2 ^ 7 * rd + 2 ^ 12 * 5 + 2 ^ 15 * rs1 + 2 ^ 20 * rs2 + 2 ^ 25) =
      .go rd (if reg rs2 % 2 ^ 64 = 0 then 2 ^ 64 - 1 else reg rs1 % 2 ^ 64 / (reg rs2 % 2 ^ 64)) ((pc + 4) % 2 ^ 64)) ∧
  (∀ s tid ecc t w e a d e1, s.engineUp = true → s.eng.issued tid .load = some (t, w, e) →
    e.locate ((t.reg (rvRs1 w) + immI w) % 2 ^ 64) = .here a → e.accRead a (2 ^ (rvF3 w % 4)) = .ok →
    e.localRead a (2 ^ (rvF3 w % 4)) ecc = (some d, e1) → Does (.load tid ecc) s fun _ =>
      e1.retireNext t (rvRd w) (loadValue (2 ^ (rvF3 w % 4)) (decide (rvF3 w < 4)) d)) ∧
  (∀ s tid ecc t w e a e1, s.engineUp = true → s.eng.issued tid .load = some (t, w, e) →
    e.locate ((t.reg (rvRs1 w) + immI w) % 2 ^ 64) = .here a → e.accRead a (2 ^ (rvF3 w % 4)) = .ok →
    e.localRead a (2 ^ (rvF3 w % 4)) ecc = (none, e1) → Does (.load tid ecc) s fun _ => e1.thrPoison t 3 a (2 ^ (rvF3 w % 4))) ∧
  (∀ s tid ecc t w e a, s.engineUp = true → s.eng.issued tid .load = some (t, w, e) →
    e.locate ((t.reg (rvRs1 w) + immI w) % 2 ^ 64) = .here a → e.accRead a (2 ^ (rvF3 w % 4)) = .access →
    Does (.load tid ecc) s fun _ => e.thrExcept t 5 ((t.reg (rvRs1 w) + immI w) % 2 ^ 64)) ∧
  (∀ s tid ecc t w e id a, s.engineUp = true → s.eng.issued tid .load = some (t, w, e) →
    e.locate ((t.reg (rvRs1 w) + immI w) % 2 ^ 64) = .far id a → a % 2 ^ (rvF3 w % 4) = 0 → Does (.load tid ecc) s fun _ =>
      e.remoteWait t 1 id a (2 ^ (rvF3 w % 4)) 0 ((t.reg (rvRs1 w) + immI w) % 2 ^ 64)
        (.load (2 ^ (rvF3 w % 4)) (rvRd w) (decide (rvF3 w < 4))) []) ∧
  (∀ s tid t w e a, s.engineUp = true → s.eng.issued tid .store = some (t, w, e) →
    e.locate ((t.reg (rvRs1 w) + immS w) % 2 ^ 64) = .here a → e.accWrite a (2 ^ rvF3 w) = .ok → t.limit = 0 →
    Runs (.store tid) s fun u => u.eng.mem = Tbl.writeBytes s.eng.mem a (natLE (2 ^ rvF3 w) (t.reg (rvRs2 w))) ∧
      (u.eng.thread tid).map (fun x => (x.pc, x.st)) = some ((t.pc + 4) % 2 ^ 64, .ready)) ∧
  (∀ s tid t w e a, s.engineUp = true → s.eng.issued tid .store = some (t, w, e) →
    e.locate ((t.reg (rvRs1 w) + immS w) % 2 ^ 64) = .here a → e.accWrite a (2 ^ rvF3 w) = .access →
    Does (.store tid) s fun _ => e.thrExcept t 7 ((t.reg (rvRs1 w) + immS w) % 2 ^ 64)) ∧
  (∀ s tid ecc t w e a d e1 v, s.engineUp = true → s.eng.issued tid .amo = some (t, w, e) → bitsOf w 26 25 = 0 →
    t.reg (rvRs1 w) < 2 ^ 56 → t.reg (rvRs1 w) % 2 ^ rvF3 w = 0 → e.locate (t.reg (rvRs1 w)) = .here a → e.accWrite a (2 ^ rvF3 w) = .ok →
    e.localRead a (2 ^ rvF3 w) ecc = (some d, e1) → amoNew (rvF5 w) (2 ^ rvF3 w) (leNat d) (t.reg (rvRs2 w)) 0 = some v →
    Does (.amo tid ecc) s fun _ =>
      (e1.store a (natLE (2 ^ rvF3 w) v)).retireNext t (rvRd w) (loadValue (2 ^ rvF3 w) true d)) ∧
  (∀ s tid ecc t w e, s.engineUp = true → s.eng.issued tid .amo = some (t, w, e) → bitsOf w 26 25 = 0 → t.reg (rvRs1 w) < 2 ^ 56 →
    t.reg (rvRs1 w) % 2 ^ rvF3 w ≠ 0 → Does (.amo tid ecc) s fun _ => e.thrExcept t 6 (t.reg (rvRs1 w))) ∧
  (∀ s tid t w e a d e1, s.engineUp = true → s.eng.issued tid .lr = some (t, w, e) → bitsOf w 26 25 = 0 →
    e.lrWhere (t.reg (rvRs1 w)) (2 ^ rvF3 w) = some a → a % 2 ^ rvF3 w = 0 → e.localRead a (2 ^ rvF3 w) .clean = (some d, e1) →
    Does (.lr tid) s fun _ =>
      e1.retireNext { t with resv := some (a / 8 * 8) } (rvRd w) (loadValue (2 ^ rvF3 w) true d)) ∧
  (∀ s tid t w e, s.engineUp = true → s.eng.issued tid .lr = some (t, w, e) → bitsOf w 26 25 = 0 →
    e.lrWhere (t.reg (rvRs1 w)) (2 ^ rvF3 w) = none → Does (.lr tid) s fun _ => e.thrExcept t 5 (t.reg (rvRs1 w))) ∧
  (∀ s tid t w e a, s.engineUp = true → s.eng.issued tid .sc = some (t, w, e) → bitsOf w 26 25 = 0 →
    e.lrWhere (t.reg (rvRs1 w)) (2 ^ rvF3 w) = some a → a % 2 ^ rvF3 w = 0 → Does (.sc tid) s fun _ =>
      if t.resv = some (a / 8 * 8) then
        (e.store a (natLE (2 ^ rvF3 w) (t.reg (rvRs2 w)))).retireNext { t with resv := none } (rvRd w) 0
      else e.retireNext { t with resv := none } (rvRd w) 1) ∧
  (∀ s tid t w e, s.engineUp = true → s.eng.issued tid .fence = some (t, w, e) → t.storesOut = false → t.fault = none →
    Does (.fence tid) s fun _ => e.retireNext t 0 0) ∧
  (∀ s tid t w e, s.engineUp = true → s.eng.issued tid .fence = some (t, w, e) → t.storesOut = true → bitsOf w 31 20 = 0x0FF →
    Does (.fence tid) s fun _ => e.thrWait t (.retry 9)) ∧
  (∀ s tid t w e c a, s.engineUp = true → s.eng.issued tid .fence = some (t, w, e) → t.storesOut = false → t.fault = some (c, a) →
    Does (.fence tid) s fun _ => e.thrExcept { t with fault := none } c a) ∧
  (∀ s tid t w e v, s.engineUp = true → s.eng.issued tid .csr = some (t, w, e) → e.csr t (bitsOf w 31 20) = some v →
    rvF3 w % 4 ≠ 1 → rvRs1 w = 0 → Does (.csrAccess tid) s fun _ => e.retireNext t (rvRd w) v) ∧
  (∀ s tid t w e, s.engineUp = true → s.eng.issued tid .csr = some (t, w, e) →
    e.csr t (bitsOf w 31 20) = none ∨ rvF3 w % 4 = 1 ∨ rvRs1 w ≠ 0 → Does (.csrAccess tid) s fun _ => e.thrExcept t 2 w)

/-- O50. Threads start and end (R435 to R446, R454, R455, R467 to R469): SPROUT and THR_START take the lowest FREE context and write the
start block, or say why not; THR_KILL waits for the end; a request that is not answered in time fails; and an ended thread's context
becomes FREE once its stores have been performed. -/
def Obligations.ThreadsStartAndEnd : Prop :=
  (∀ (e : Engine) (ctx kind prog : Nat) (m : Model) (desc block : Bytes), ctx < 8192 →
    (e.startThread ctx kind prog m desc block).1 = ctx + 2 ^ 16 * ((Tbl.get 0 e.ril.serial ctx + 1) % 65536) ∧
    ((e.startThread ctx kind prog m desc block).2.thread (e.startThread ctx kind prog m desc block).1).map
        (fun t => (t.kind, t.epoch, t.limit, t.pc)) =
      some (kind, m.epoch, leAt desc 8 4, e.latAddr (e.mwAddr m + leAt desc 0 4)) ∧
    ((e.startThread ctx kind prog m desc block).2.thread (e.startThread ctx kind prog m desc block).1).map
        (fun t => (t.st, t.reg 10 % 2 ^ 42, t.reg 11, t.reg 12, t.reg 13)) =
      some (.ready, 0x10000000 + 0x10000 * (ctx / 32) + 0xE000 + 256 * (ctx % 32), leAt desc 4 4,
        (e.startThread ctx kind prog m desc block).1, 0) ∧
    (e.startThread ctx kind prog m desc block).2.mem = Tbl.writeBytes e.mem
      (0x10000000 + 0x10000 * (ctx / 32) + 0xE000 + 256 * (ctx % 32)) (fitTo 250 block ++ natLE 2 prog ++ natLE 4 (leAt desc 4 4))) ∧
  (∀ s id p arg e m d b e1 x, s.engineUp = true → s.eng.dispatched id 6 = some (p, arg, e) → p.noEval = false →
    (e.liveOf false).isEmpty = false → e.modelFor p = some m → m.program (arg % 1024) = some d → e.steer false p.fhash = (some b, e1) →
    e1.coreCtx (32 * b + p.fhash / 8 % 32) = some x → Does (.sprout id) s fun _ =>
      (e1.startThread x 0 (arg % 1024) m d (sproutBlock p)).2.advance p.id) ∧
  (∀ s id p arg e m d b e1, s.engineUp = true → s.eng.dispatched id 6 = some (p, arg, e) → p.noEval = false →
    (e.liveOf false).isEmpty = false → e.modelFor p = some m → m.program (arg % 1024) = some d → byteAt d 12 = 1 → e.steer false p.fhash = (some b, e1) →
    e1.coreCtx (32 * b + p.fhash / 8 % 32) = none → Does (.sprout id) s fun _ =>
      ((e1.count (Reg.RIL_CNT 3)).evt Fld.RIL_EVT_SPROUT_SKIP).advance p.id) ∧
  (∀ s id p arg e m d b e1 x, s.engineUp = true → s.eng.dispatched id 6 = some (p, arg, e) → p.noEval = false →
    (e.liveOf false).isEmpty = false → e.modelFor p = some m → m.program (arg % 1024) = some d → byteAt d 12 = 2 → e.steer false p.fhash = (some b, e1) →
    e1.coreCtx (32 * b + p.fhash / 8 % 32) = none → (e1.firstCtx ((List.range 31).map fun i => 32 * b + (p.fhash / 8 % 32 + 1 + i) % 32)) =
      some x → Does (.sprout id) s fun _ =>
        ((e1.startThread x 0 (arg % 1024) m d (sproutBlock p)).2.count (Reg.RIL_CNT 4)).advance p.id) ∧
  (∀ s id p arg e, s.engineUp = true → s.eng.dispatched id 6 = some (p, arg, e) → p.noEval = false → (e.liveOf false).isEmpty = false →
    ((e.modelFor p).bind fun m => m.program (arg % 1024)) = none → Does (.sprout id) s fun _ => (e.count (Reg.RIL_CNT 5)).advance p.id) ∧
  (∀ s id p arg e, s.engineUp = true → s.eng.dispatched id 6 = some (p, arg, e) → p.noEval = true →
    Does (.sprout id) s fun _ => e.skipEval p.id) ∧
  (∀ s id h c m d x b e1, s.engineUp = true → s.eng.startable id 0x60 = some c → c.len = 256 → c.arg 34 1 < 8 → c.arg 35 1 < 32 →
    c.arg 36 1 % 2 = 0 → (s.eng.started c (32 * c.arg 34 1 + c.arg 35 1)).domOn (c.arg 34 1) = true → s.eng.gft.live = some m →
    m.program (c.arg 32 2) = some d →
    (s.eng.started c (32 * c.arg 34 1 + c.arg 35 1)).firstCtx [32 * c.arg 34 1 + c.arg 35 1] = some x →
    (s.eng.started c (32 * c.arg 34 1 + c.arg 35 1)).cmdData c h = (some b, e1) → Does (.thrStart id h) s fun _ =>
      (e1.startThread x 1 (c.arg 32 2) m d b).2.complete c.id 0 (e1.startThread x 1 (c.arg 32 2) m d b).1 0 none
        (32 * c.arg 34 1 + c.arg 35 1)) ∧
  (∀ s id h c m d, s.engineUp = true → s.eng.startable id 0x60 = some c → c.len = 256 → c.arg 34 1 < 8 → c.arg 35 1 < 32 →
    (s.eng.started c (32 * c.arg 34 1 + c.arg 35 1)).domOn (c.arg 34 1) = true → s.eng.gft.live = some m →
    m.program (c.arg 32 2) = some d →
    (s.eng.started c (32 * c.arg 34 1 + c.arg 35 1)).firstCtx [32 * c.arg 34 1 + c.arg 35 1] = none → Does (.thrStart id h) s fun e =>
      (e.started c (32 * c.arg 34 1 + c.arg 35 1)).complete c.id 0x20 1 0 none (32 * c.arg 34 1 + c.arg 35 1)) ∧
  (∀ s id h c, s.engineUp = true → s.eng.startable id 0x60 = some c → c.len ≠ 256 → c.arg 34 1 < 8 → c.arg 35 1 < 32 →
    Does (.thrStart id h) s fun e =>
      (e.started c (32 * c.arg 34 1 + c.arg 35 1)).complete c.id 0x10 0 0 none (32 * c.arg 34 1 + c.arg 35 1)) ∧
  (∀ s id c t, s.engineUp = true → s.eng.startable id 0x61 = some c → s.eng.thread (c.arg 32 4) = some t → t.ended = none →
    Does (.thrKill id) s fun e => (e.started c 328).killThread { t with killers := t.killers ++ [c.id] }) ∧
  (∀ s id c, s.engineUp = true → s.eng.startable id 0x61 = some c → s.eng.thread (c.arg 32 4) = none →
    Does (.thrKill id) s fun e => (e.started c 328).finishOk c.id 0) ∧
  (∀ (e : Engine) (t : Thread), (e.killThread t).mem = e.mem ∧
    ((e.killThread t).thread t.id).map (fun u => (u.st, u.ended, u.reqs)) =
      some (.ending, some .killed, t.reqs.filter fun r => r.isStore)) ∧
  (∀ s id c, s.engineUp = true → s.eng.startable id 0x62 = some c → c.len = 8192 → Does (.thrStatus id) s fun e =>
    ((e.started c 328).cmdWrite c ((List.range 8192).map fun i => BitVec.ofNat 8 ((e.started c 328).ctxByte i))).finishOk c.id 0) ∧
  (∀ s tag r tid, s.engineUp = true → s.eng.flg.reqs.find? (fun r => r.tag == tag) = some r → r.owner = .thread tid →
    r.at_ + s.eng.get Fld.RIL_CFG_REMOTE_TIMEOUT_US * usTicks ≤ s.eng.cyc →
    Does (.remoteRequestTimeout tag) s fun e => (e.count (Reg.RIL_CNT 8)).thrReqFailed r tid 25) ∧
  (∀ s tag r tid, s.engineUp = true → s.eng.flg.reqs.find? (fun r => r.tag == tag) = some r → r.owner = .thread tid →
    s.eng.cyc < r.at_ + s.eng.get Fld.RIL_CFG_REMOTE_TIMEOUT_US * usTicks → exec (.remoteRequestTimeout tag) s = .next s) ∧
  (∀ s tid t, s.engineUp = true → s.eng.thread tid = some t → t.st ≠ .ending ∨ t.storesOut = true →
    exec (.threadEndFree tid) s = .next s) ∧
  (∀ s tid t, s.engineUp = true → s.eng.thread tid = some t → t.st = .ending → t.storesOut = false →
    t.tickets = [] → t.fault = none → Runs (.threadEndFree tid) s fun u => u.eng.thread tid = none ∧ u.eng.mem = s.eng.mem ∧
      u.eng.gft = s.eng.gft) ∧
  (∀ s tid t v c, s.engineUp = true → s.eng.thread tid = some t → t.st = .ending → t.ended = some (.exit v) → t.storesOut = false →
    t.tickets = [] → t.fault = none → t.waitEnd = some c → t.killers = [] → Does (.threadEndFree tid) s fun e =>
      (e.complete c 0 (t.id + 2 ^ 32 * (v % 2 ^ 24)) 0 none (coreOf t.id)).freeContext t.id)

/-! ### The Xmelor instructions (R475 to R509) -/

/-- O51. Xmelor instructions (R476 to R509): each completes with the effect of its rule, and an operand, a buffer or a ticket that breaks a
rule ends the thread with the cause the rule names. -/
def Obligations.XmelorInstructions : Prop :=
  (∀ s tid t w e, s.engineUp = true → s.eng.issued tid (.xm .xend) = some (t, w, e) → Runs (.xEnd tid) s fun u =>
    u.eng.thread tid = some { t with st := .ending, ended := some (.exit (t.reg (rvRs1 w) % 2 ^ 24)), instret := t.instret + 1 } ∧
    u.eng.mem = s.eng.mem) ∧
  (∀ s tid t w e a e1 m d c, s.engineUp = true → s.eng.issued tid (.xm .spawn) = some (t, w, e) → t.reg (rvRs2 w) < 2 ^ 18 →
    t.storesOut = false → t.fault = none → e.buffer (t.reg (rvRs1 w)) 256 false = .ok a →
    e.checkRead (localMem a) a 256 .clean = (false, e1) → e1.domOn (bitsOf (t.reg (rvRs2 w)) 12 10) = true →
    e1.modelOf t.epoch = some m → m.program (t.reg (rvRs2 w) % 1024) = some d →
    e1.firstCtx [32 * bitsOf (t.reg (rvRs2 w)) 12 10 + bitsOf (t.reg (rvRs2 w)) 17 13] = some c → Does (.xSpawn tid) s fun _ =>
      (e1.startThread c 2 (t.reg (rvRs2 w) % 1024) m d (e1.readMem a 256)).2.retireNext t (rvRd w)
        (e1.startThread c 2 (t.reg (rvRs2 w) % 1024) m d (e1.readMem a 256)).1) ∧
  (∀ s tid t w e a e1, s.engineUp = true → s.eng.issued tid (.xm .spawn) = some (t, w, e) → t.reg (rvRs2 w) < 2 ^ 18 →
    t.storesOut = false → t.fault = none → e.buffer (t.reg (rvRs1 w)) 256 false = .ok a →
    e.checkRead (localMem a) a 256 .clean = (false, e1) → e1.domOn (bitsOf (t.reg (rvRs2 w)) 12 10) = false →
    Does (.xSpawn tid) s fun _ => (e1.count (Reg.CLK_CNT 3)).retireNext t (rvRd w) (2 ^ 63 + 2)) ∧
  (∀ s tid t w e, s.engineUp = true → s.eng.issued tid (.xm .spawn) = some (t, w, e) → 2 ^ 19 ≤ t.reg (rvRs2 w) →
    Does (.xSpawn tid) s fun _ => e.thrExcept t 28 (t.reg (rvRs2 w))) ∧
  (∀ s tid t w e, s.engineUp = true → s.eng.issued tid (.xm .sleep) = some (t, w, e) → Does (.xSleep tid) s fun _ =>
    if t.reg (rvRs1 w) ≤ e.time then e.retireNext t 0 0 else e.thrWait t (.sleep (t.reg (rvRs1 w)))) ∧
  (∀ s tid t d, s.engineUp = true → s.eng.thread tid = some t → t.st = .waiting (.sleep d) → d ≤ s.eng.time →
    Does (.xSleepWake tid) s fun e => e.retireNext t 0 0) ∧
  (∀ s tid t d, s.engineUp = true → s.eng.thread tid = some t → t.st = .waiting (.sleep d) → s.eng.time < d →
    exec (.xSleepWake tid) s = .next s) ∧
  (∀ s tid t w e a, s.engineUp = true → s.eng.issued tid (.xm .waitne) = some (t, w, e) → t.fault = none →
    e.locate (t.reg (rvRs1 w)) = .here a → a % 8 = 0 → e.accRead a 8 = .ok → Does (.xWaitne tid) s fun _ =>
      e.waitneRead t a (t.reg (rvRs2 w)) (t.reg (rvRs3 w)) (rvRd w)) ∧
  (∀ s tid t a cmp d rd b e1, s.engineUp = true → s.eng.thread tid = some t → t.st = .waiting (.waitne a cmp d rd) →
    s.eng.localRead a 8 .clean = (some b, e1) → Does (.xWaitneWake tid) s fun _ =>
      if leNat b ≠ cmp ∨ d ≤ e1.time then e1.retireNext t rd (leNat b) else e1.thrWait t (.waitne a cmp d rd)) ∧
  (∀ s tid t w e d, s.engineUp = true → s.eng.issued tid (.xm .waitc) = some (t, w, e) → t.reg (rvRs1 w) < 4 →
    t.storesOut = false → t.fault = none → Tbl.find t.tickets (t.reg (rvRs1 w)) = some (some d) → Does (.xWaitc tid) s fun _ =>
      e.retireNext { t with tickets := Tbl.del t.tickets (t.reg (rvRs1 w)) } (rvRd w)
        (d.status + 2 ^ 8 * d.stage + 2 ^ 16 * min d.cycles (2 ^ 32 - 1) + 2 ^ 60 * (d.flags % 16))) ∧
  (∀ s tid t w e, s.engineUp = true → s.eng.issued tid (.xm .waitc) = some (t, w, e) → t.reg (rvRs1 w) < 4 →
    t.storesOut = false → t.fault = none → Tbl.find t.tickets (t.reg (rvRs1 w)) = some none → Does (.xWaitc tid) s fun _ =>
      e.thrWait t (.ticket (t.reg (rvRs1 w)) (rvRd w))) ∧
  (∀ s tid t w e, s.engineUp = true → s.eng.issued tid (.xm .waitc) = some (t, w, e) → t.reg (rvRs1 w) < 4 →
    Tbl.find t.tickets (t.reg (rvRs1 w)) = none → Does (.xWaitc tid) s fun _ => e.thrExcept t 30 (t.reg (rvRs1 w))) ∧
  (∀ s tid t w e a b e1, s.engineUp = true → s.eng.issued tid (.xm .shkey) = some (t, w, e) →
    e.buffer (t.reg (rvRs2 w)) 48 true = .ok b → e.buffer (t.reg (rvRs1 w)) 224 false = .ok a →
    e.checkRead (localMem a) a 224 .clean = (false, e1) → Does (.xShkey tid) s fun _ =>
      (e1.store b (flowKey (e1.readMem a 224) (rvF7 w))).retireNext t (rvRd w) (flowHash (flowKey (e1.readMem a 224) (rvF7 w)))) ∧
  (∀ s tid t w e a b e1, s.engineUp = true → s.eng.issued tid (.xm .shrd) = some (t, w, e) → rvF7 w = 0x10 → t.storesOut = false →
    t.fault = none → e.buffer (t.reg (rvRs2 w)) 128 true = .ok b → e.buffer (t.reg (rvRs1 w)) 48 false = .ok a →
    e.checkRead (localMem a) a 48 .clean = (false, e1) → Does (.xShrd tid) s fun _ =>
      e1.sheafThread t (e1.readMem a 48) 0x10 0 (t.reg (rvRs1 w)) (rvRd w) b 128) ∧
  (∀ s tid t w e a e1, s.engineUp = true → s.eng.issued tid (.xm .shwu) = some (t, w, e) → rvF7 w < 0x24 → t.storesOut = false →
    t.fault = none → e.buffer (t.reg (rvRs1 w)) 48 false = .ok a → e.checkRead (localMem a) a 48 .clean = (false, e1) →
    Does (.xShwu tid) s fun _ => e1.sheafThread t (e1.readMem a 48) (rvF7 w) (t.reg (rvRs2 w)) (t.reg (rvRs1 w)) (rvRd w) 0 0) ∧
  (∀ (e e1 : Engine) (t : Thread) (key : Bytes) (f7 x rs1 rd buf len : Nat), t.st = .ready → t.home = none →
    e.homeOf key e.time = e.selfId → e.takeRate 3 64 8 = some e1 → (e1.takeFlow (.thread t.id) key e.time).1 = true →
    e.sheafThread t key f7 x rs1 rd buf len =
      ((((if ((e1.takeFlow (.thread t.id) key e.time).2.2.sheafInsn key f7 x).2.1.isEmpty = true then
        ((e1.takeFlow (.thread t.id) key e.time).2.2.sheafInsn key f7 x).2.2
      else ((e1.takeFlow (.thread t.id) key e.time).2.2.sheafInsn key f7 x).2.2.store buf
        ((e1.takeFlow (.thread t.id) key e.time).2.2.sheafInsn key f7 x).2.1).busy 294).releaseFlow (.thread t.id)).retireNext
        { t with home := some e.selfId } rd ((e1.takeFlow (.thread t.id) key e.time).2.2.sheafInsn key f7 x).1)) ∧
  (∀ (old x : Nat), userOp 0 64 old x = x % 2 ^ 64 ∧ userOp 1 48 old x = (old + x) % 2 ^ 48 ∧ userOp 2 64 old x = old ||| x % 2 ^ 64 ∧
    userOp 3 64 old x = max old (x % 2 ^ 64)) ∧
  (∀ s tid t w e a b e1 e2 e3 m g im, s.engineUp = true → s.eng.issued tid (.xm .orcg) = some (t, w, e) → t.storesOut = false →
    t.fault = none → t.st = .ready → e.modelOf t.epoch = some m → m.sect 3 (t.reg (rvRs3 w) % 64) = some g →
    e.buffer (t.reg (rvRs2 w)) 1024 true = .ok b → e.buffer (t.reg (rvRs1 w)) 336 false = .ok a →
    e.checkRead (localMem a) a 336 .clean = (false, e1) → e1.graderBusy e.time = false → e1.takeRate 1 8 8 = some e2 →
    e2.readSect m g 5 (e2.thrRef t.id) .clean = (some im, e3) → Does (.xOrcg tid) s fun _ =>
      ((e3.busy 290).store b (packElems .f32 (gradeVector im (e1.readMem a 336)).1)).retireNext t (rvRd w)
        (rdFlags (gradeVector im (e1.readMem a 336)).2)) ∧
  (∀ s tid t w e, s.engineUp = true → s.eng.issued tid (.xm .orcg) = some (t, w, e) → t.storesOut = false → t.fault = none →
    e.modelOf t.epoch = none → Does (.xOrcg tid) s fun _ => e.thrExcept t 29 (t.reg (rvRs3 w) % 64)) ∧
  (∀ s tid t w e a e1 e2 e3 m d v fl, s.engineUp = true → s.eng.issued tid (.xm .orce) = some (t, w, e) → t.reg (rvRs2 w) < 64 →
    t.reg (rvRs3 w) < 2 ^ 32 → t.storesOut = false → t.fault = none → e.modelOf t.epoch = some m →
    Model.ensemble (some m) (t.reg (rvRs2 w)) = some d → e.buffer (t.reg (rvRs1 w)) 1024 false = .ok a →
    e.checkRead (localMem a) a 1024 .clean = (false, e1) → e1.halves.isEmpty = false → e1.orcTurn (.thr t.id) = true →
    e1.takeRate 4 64 8 = some e2 →
    ((e2.orcLeave (.thr t.id)).admitTrees (min (ensTrees d) (t.reg (rvRs3 w)))).evalEnsemble m d
      ((List.range 256).map fun i => leAt (e1.readMem a 1024) (4 * i) 4) (min (ensTrees d) (t.reg (rvRs3 w))) (e2.thrRef t.id) .clean =
        (some (v, fl), e3) → Does (.xOrce tid) s fun _ =>
      e3.retireNext t (rvRd w)
        (v + 2 ^ 32 * bucketOf d v (decide (min (ensTrees d) (t.reg (rvRs3 w)) < ensTrees d)) + rdFlags fl)) ∧
  (∀ s tid t w e, s.engineUp = true → s.eng.issued tid (.xm .orce) = some (t, w, e) → 64 ≤ t.reg (rvRs2 w) →
    Does (.xOrce tid) s fun _ => e.thrExcept t 28 (t.reg (rvRs2 w))) ∧
  (∀ s tid t w e a e1 d e2, s.engineUp = true → s.eng.issued tid (.xm .mill) = some (t, w, e) → t.tickets = [] → t.storesOut = false →
    t.fault = none → e.buffer (t.reg (rvRs1 w)) 32 false = .ok a → e.checkRead (localMem a) a 32 .clean = (false, e1) →
    e1.submission (.thread t.id 0) (e1.readMem a 32) = (.error d, e2) → Does (.xMill tid) s fun _ =>
      e2.retireNext { t with tickets := [(0, some d)] } (rvRd w) 0) ∧
  (∀ s tid t w e a e1 j e2 q, s.engineUp = true → s.eng.issued tid (.xm .mill) = some (t, w, e) → t.tickets = [] → t.storesOut = false →
    t.fault = none → e.buffer (t.reg (rvRs1 w)) 32 false = .ok a → e.checkRead (localMem a) a 32 .clean = (false, e1) →
    e1.submission (.thread t.id 0) (e1.readMem a 32) = (.ok j, e2) → e2.quadFor j.quad = some (some q) → e2.jobCheck j = none →
    Does (.xMill tid) s fun _ => (e2.placeJob { j with quad := q }).retireNext { t with tickets := [(0, none)] } (rvRd w) 0) ∧
  (∀ s tid t w e, s.engineUp = true → s.eng.issued tid (.xm .mill) = some (t, w, e) →
    ([0, 1, 2, 3].all fun k => (Tbl.find t.tickets k).isSome) = true → Does (.xMill tid) s fun _ => e.thrExcept t 30 4) ∧
  (∀ s tid k, s.engineUp = true → ((s.eng.jobTurn (.thread tid k)).endJob (.thread tid k)).isNone = true →
    Does (.xmillSubmissionComplete tid k) s fun e => e.jobTurn (.thread tid k)) ∧
  (∀ s tid k m j, s.engineUp = true → s.eng.mil.waiting = [] → s.eng.jobMill (.thread tid k) = some m → s.eng.milRun m = some (.job j) →
    (((s.eng.setMilRun m none).busy (256 + m)).runJob j).out = none →
    (((s.eng.setMilRun m none).busy (256 + m)).runJob j).status ≠ 0x10 → Does (.xmillSubmissionComplete tid k) s fun e =>
      ((((e.setMilRun m none).busy (256 + m)).runJob j).e.traceWork j 3 (256 + m)
        (((e.setMilRun m none).busy (256 + m)).runJob j).status).ticketEnds tid k
        ⟨(((e.setMilRun m none).busy (256 + m)).runJob j).status, 0, (((e.setMilRun m none).busy (256 + m)).runJob j).cycles,
          (((e.setMilRun m none).busy (256 + m)).runJob j).flags⟩) ∧
  (∀ s tid t w e a e1, s.engineUp = true → s.eng.issued tid (.xm .emitv) = some (t, w, e) → t.reg (rvRs2 w) < 256 → t.storesOut = false →
    t.fault = none → e.buffer (t.reg (rvRs1 w)) 32 false = .ok a → e.checkRead (localMem a) a 32 .clean = (false, e1) →
    leAt (e1.readMem a 32) 16 8 = 0 → leAt (e1.readMem a 32) 24 8 = 0 → Does (.xEmitv tid) s fun _ =>
      (e1.pushVerdict (t.reg (rvRs2 w)) { words := [leAt (e1.readMem a 32) 0 8,
          leAt (e1.readMem a 32) 8 6 + 2 ^ 48 * (e1.selfId % 2 ^ 14), 0, t.epoch % 2 ^ 32 + 2 ^ 56], at_ := e1.time }
        (leAt (e1.readMem a 32) 0 8)).2.retireNext t 0 0) ∧
  (∀ s tid t w e, s.engineUp = true → s.eng.issued tid (.xm .emitv) = some (t, w, e) → 256 ≤ t.reg (rvRs2 w) →
    Does (.xEmitv tid) s fun _ => e.thrExcept t 28 (t.reg (rvRs2 w))) ∧
  (∀ s tid t w e, s.engineUp = true → s.eng.issued tid (.xm .mark) = some (t, w, e) → e.is Fld.GLN_TRACE_CFG_EN = false →
    Does (.gleanMark tid) s fun _ => e.retireNext t 0 0) ∧
  (∀ s tid t w e a e1 d, s.engineUp = true → s.eng.issued tid (.xm .casW) = some (t, w, e) → bitsOf w 26 25 = 0 →
    t.reg (rvRs1 w) < 2 ^ 56 → t.reg (rvRs1 w) % 4 = 0 → e.locate (t.reg (rvRs1 w)) = .here a → e.accWrite a 4 = .ok →
    e.localRead a 4 .clean = (some d, e1) → Does (.xCasW tid) s fun _ =>
      (if leNat d = t.reg (rvRs2 w) % 2 ^ 32 then e1.store a (natLE 4 (t.reg (rvRs3 w) % 2 ^ 32)) else e1).retireNext t (rvRd w)
        (loadValue 4 true d)) ∧
  (∀ s tid t w e a e1 d, s.engineUp = true → s.eng.issued tid (.xm .casD) = some (t, w, e) → bitsOf w 26 25 = 0 →
    t.reg (rvRs1 w) < 2 ^ 56 → t.reg (rvRs1 w) % 8 = 0 → e.locate (t.reg (rvRs1 w)) = .here a → e.accWrite a 8 = .ok →
    e.localRead a 8 .clean = (some d, e1) → Does (.xCasD tid) s fun _ =>
      (if leNat d = t.reg (rvRs2 w) % 2 ^ 64 then e1.store a (natLE 8 (t.reg (rvRs3 w) % 2 ^ 64)) else e1).retireNext t (rvRd w)
        (loadValue 8 true d)) ∧
  (∀ s tid t w e a e1 d, s.engineUp = true → s.eng.issued tid (.xm .saddD) = some (t, w, e) → bitsOf w 26 25 = 0 →
    t.reg (rvRs1 w) < 2 ^ 56 → t.reg (rvRs1 w) % 8 = 0 → e.locate (t.reg (rvRs1 w)) = .here a → e.accWrite a 8 = .ok →
    e.localRead a 8 .clean = (some d, e1) → Does (.xSaddD tid) s fun _ =>
      (e1.store a (natLE 8 (min (leNat d + t.reg (rvRs2 w)) (2 ^ 64 - 1)))).retireNext t (rvRd w) (loadValue 8 true d)) ∧
  (∀ s tid t w e, s.engineUp = true → s.eng.issued tid (.xm .nrw) = some (t, w, e) → Does (.xNrw tid) s fun _ =>
    e.retireNext t (rvRd w) ((narrow (fmtOf (rvRs2 w)) (decode .f32 (t.reg (rvRs1 w) % 2 ^ 32)).1).1 +
      rdNumFlags ((decode .f32 (t.reg (rvRs1 w) % 2 ^ 32)).2 ||| (narrow (fmtOf (rvRs2 w)) (decode .f32 (t.reg (rvRs1 w) % 2 ^ 32)).1).2))) ∧
  (∀ s tid t w e, s.engineUp = true → s.eng.issued tid (.xm .qnt) = some (t, w, e) → qntParams (t.reg (rvRs2 w)) = none →
    Does (.xQnt tid) s fun _ => e.thrExcept t 28 (t.reg (rvRs2 w))) ∧
  (∀ s tid t w e f sc z, s.engineUp = true → s.eng.issued tid (.xm .qnt) = some (t, w, e) →
    qntParams (t.reg (rvRs2 w)) = some (f, sc, z) → f ≠ .int4 → f ≠ .int8 → Does (.xQnt tid) s fun _ =>
      e.retireNext t (rvRd w) ((quantise f (decode .f32 (t.reg (rvRs1 w) % 2 ^ 32)).1 (f32q sc) z).1 +
        rdNumFlags ((decode .f32 (t.reg (rvRs1 w) % 2 ^ 32)).2 ||| (quantise f (decode .f32 (t.reg (rvRs1 w) % 2 ^ 32)).1 (f32q sc) z).2))) ∧
  (∀ s tid t w e f sc z, s.engineUp = true → s.eng.issued tid (.xm .dqt) = some (t, w, e) →
    qntParams (t.reg (rvRs2 w)) = some (f, sc, z) → f ≠ .k20 → Does (.xDqt tid) s fun _ =>
      e.retireNext t (rvRd w) ((dequantise f (t.reg (rvRs1 w) % 2 ^ f.bits) z (f32q sc) .f32).1 +
        rdNumFlags (dequantise f (t.reg (rvRs1 w) % 2 ^ f.bits) z (f32q sc) .f32).2)) ∧
  (∀ s tid t w e a b, s.engineUp = true → s.eng.issued tid (.xm .fadd) = some (t, w, e) →
    decode .f32 (t.reg (rvRs1 w) % 2 ^ 32) = (a, 0) → decode .f32 (t.reg (rvRs2 w) % 2 ^ 32) = (b, 0) → Does (.xFadd tid) s fun _ =>
      e.retireNext t (rvRd w) ((toF32 (a.add b)).1 + rdNumFlags (toF32 (a.add b)).2)) ∧
  (∀ s tid t w e a b, s.engineUp = true → s.eng.issued tid (.xm .fmul) = some (t, w, e) →
    decode .f32 (t.reg (rvRs1 w) % 2 ^ 32) = (a, 0) → decode .f32 (t.reg (rvRs2 w) % 2 ^ 32) = (b, 0) → Does (.xFmul tid) s fun _ =>
      e.retireNext t (rvRd w) ((toF32 (a.mul b)).1 + rdNumFlags (toF32 (a.mul b)).2))

/-! ### Felgen links (R612 to R628) -/

/-- O52. Links (R613 to R628): a group's flits are corrected and checked, DATA flits are taken in order and answered with a NAK out of it,
a NAK is answered with the replay buffer; a retrain keeps the replay buffer and books ADVERTISED as INTRANSIT; a training port whose
records pass every check is UP, else in quarantine with the first reason; attempts end after 500 ms and are made again after 1 s. -/
def Obligations.LinksTrainAndRetry : Prop :=
  (∀ s p frac g, s.engineUp = true → 8 ≤ p ∨ g.length ≠ 2304 ∨ s.eng.fstate p < 2 ∨ s.eng.fstate p = 5 →
    exec (.flitReceive p frac g) s = .next s) ∧
  (∀ s p frac g fs, s.engineUp = true → p < 8 → g.length = 2304 → s.eng.fstate p = 3 → groupFlits g = (fs, 0, false) →
    Runs (.flitReceive p frac g) s fun t =>
      let e := fs.zipIdx.foldl
        (fun e (x : Bytes × Nat) => e.flitIn p (16 * s.eng.time + frac % 16 - ceilDiv ((9 - x.2) * 2048) 45) x.1) s.eng
      t.eng = e.pump p ((e.fport p).rxExp != (s.eng.fport p).rxExp)) ∧
  (∀ (e : Engine) (p stamp : Nat) (f : Bytes), crc64 (slice f 0 248) ≠ leAt f 248 8 → e.fstate p = 3 → (e.fport p).retrain = none →
    e.flitIn p stamp f = (e.count (Reg.FLG_PCNT p 4)).sendNak p) ∧
  (∀ (e e1 : Engine) (p stamp : Nat) (f : Bytes), crc64 (slice f 0 248) = leAt f 248 8 → leAt f 0 8 < 2 ^ 43 → bitsOf (leAt f 0 8) 4 3 = 1 →
    e.fstate p = 3 → e.flitNotices p (leAt f 0 8) = e1 → e1.fcarries p (bitsOf (leAt f 0 8) 1 0) = true →
    (e1.fport p).rxExp = bitsOf (leAt f 0 8) 19 8 → e.flitIn p stamp f =
      ((((e1.setFport p fun q => { q with rxExp := (bitsOf (leAt f 0 8) 19 8 + 1) % 4096, discarding := false }).traceLink p 6 stamp
        (bitsOf (leAt f 0 8) 19 8) (bitsOf (leAt f 0 8) 1 0)).alwaysN (Reg.FLG_PCNT p 1) 1).acceptFlit p (bitsOf (leAt f 0 8) 1 0)
        (bitsOf (leAt f 0 8) 2 2) (bitOf (leAt f 0 8) 5) (bitOf (leAt f 0 8) 6) (slice f 8 240))) ∧
  (∀ (e e1 : Engine) (p stamp : Nat) (f : Bytes), crc64 (slice f 0 248) = leAt f 248 8 → leAt f 0 8 < 2 ^ 43 → bitsOf (leAt f 0 8) 4 3 = 1 →
    e.fstate p = 3 → e.flitNotices p (leAt f 0 8) = e1 → e1.fcarries p (bitsOf (leAt f 0 8) 1 0) = true →
    2048 < ((e1.fport p).rxExp + 4096 - bitsOf (leAt f 0 8) 19 8) % 4096 → (e1.fport p).discarding = false →
    e.flitIn p stamp f = e1.sendNak p) ∧
  (∀ (e e1 : Engine) (p stamp : Nat) (f : Bytes), crc64 (slice f 0 248) = leAt f 248 8 → leAt f 0 8 < 2 ^ 43 → bitsOf (leAt f 0 8) 4 3 = 1 →
    e.fstate p = 3 → e.flitNotices p (leAt f 0 8) = e1 → (e1.fport p).rxExp ≠ bitsOf (leAt f 0 8) 19 8 →
    ((e1.fport p).rxExp + 4096 - bitsOf (leAt f 0 8) 19 8) % 4096 ≤ 2048 → e.flitIn p stamp f = e1) ∧
  (∀ s p, s.engineUp = true → (s.eng.fport p).nak = none → exec (.nakReceive p) s = .next s) ∧
  (∀ s p n, s.engineUp = true → (s.eng.fport p).nak = some n → Does (.nakReceive p) s fun e =>
    (e.setFport p fun q => { q with nak := none, nakRun := q.nakRun + 1,
                                    nakTimes := (q.nakTimes.filter fun t => decide (e.cyc < t + 1250000)) ++ [e.cyc] }).replayFlits p) ∧
  (∀ s p, s.engineUp = true → p < 8 → s.eng.canRetrain p = true → Runs (.retrainStart p true) s fun t =>
    (t.eng.fport p).replay = (s.eng.fport p).replay ∧ (t.eng.fport p).retrain = some s.eng.cyc ∧ t.eng.fstate p = s.eng.fstate p ∧
    (∀ k < 8, t.eng.get (Fld.FLG_PORT_CREDIT_FREE p k) = 0 ∧ t.eng.get (Fld.FLG_PORT_CREDIT_HELD p k) = 0 ∧
      t.eng.get (Fld.FLG_PORT_CREDIT_INTRANSIT p k) = s.eng.get (Fld.FLG_PORT_CREDIT_ADV p k) ∧
      t.eng.get (Fld.FLG_PORT_CREDIT_ADV p k) = s.eng.get (Fld.FLG_PORT_CREDIT_ADV p k))) ∧
  (∀ s p, s.engineUp = true → s.eng.canRetrain p = true → 16 ≤ (s.eng.fport p).nakRun → Does (.retrainStart p false) s fun e =>
    e.startRetrain p) ∧
  (∀ s p, s.engineUp = true → (s.eng.fport p).nakRun < 16 → (s.eng.fport p).nakTimes.length < 64 →
    exec (.retrainStart p false) s = .next s) ∧
  (∀ s p t, s.engineUp = true → (s.eng.fport p).retrain = some t → t + 2500000 < s.eng.cyc →
    Does (.retrainComplete p) s fun e => e.startTraining p) ∧
  (∀ s p t stamp b e1, s.engineUp = true → (s.eng.fport p).retrain = some t → s.eng.cyc ≤ t + 2500000 →
    s.eng.takeCtrl p 1 = some ((stamp, b), e1) → Does (.retrainComplete p) s fun _ =>
      (((((e1.setFport p fun q => { q with retrain := none }).bookFull p b).checkRecord p b).takeReplayCredits p).replayFlits p).pump p
        false) ∧
  (∀ s p, s.engineUp = true → (s.eng.fport p).retrain = none → exec (.retrainComplete p) s = .next s) ∧
  (∀ s p, s.engineUp = true → s.eng.fstate p = 1 → s.eng.portWanted p = true → s.eng.phys.cable.getD p false = true →
    Does (.trainingStart p) s fun e => ((e.dropLink p 2).put (Fld.FLG_PORT_STAT_REASON p) 0).sendTrain p) ∧
  (∀ s p, s.engineUp = true → s.eng.fstate p ≠ 1 ∨ s.eng.portWanted p = false → exec (.trainingStart p) s = .next s) ∧
  (∀ s p, s.engineUp = true → s.eng.fstate p = 2 → (s.eng.fport p).since + 625000000 ≤ s.eng.cyc →
    Does (.trainingTimeout p) s fun e => e.dropLink p 5) ∧
  (∀ s p, s.engineUp = true → s.eng.cyc < (s.eng.fport p).since + 625000000 → exec (.trainingTimeout p) s = .next s) ∧
  (∀ s p, s.engineUp = true → s.eng.fstate p = 5 → s.eng.portWanted p = true → (s.eng.fport p).since + 1250000000 ≤ s.eng.cyc →
    Does (.trainingRetry p) s fun e => e.dropLink p 1) ∧
  (∀ s p, s.engineUp = true → s.eng.cyc < (s.eng.fport p).since + 1250000000 → exec (.trainingRetry p) s = .next s) ∧
  (∀ s p, s.engineUp = true → s.eng.fstate p = 3 ∨ s.eng.fstate p = 4 → (s.eng.fport p).retrain = none →
    (s.eng.fport p).trainAt + 12500000 ≤ s.eng.cyc → Does (.trainResend p) s fun e => e.sendTrain p) ∧
  (∀ s p stamp b e1, s.engineUp = true → p < 8 → s.eng.fstate p = 2 → (s.eng.fport p).retrain = none →
    s.eng.takeCtrl p 1 = some ((stamp, b), e1) → s.eng.trainReason p b = 0 → byteAt b 14 = 0 → Runs (.train p) s fun t =>
      t.eng.fstate p = 3 ∧ t.eng.get (Fld.FLG_PORT_STAT_NEIGH_ID p) = leAt b 12 2 % 2 ^ 14 ∧
      t.eng.get (Fld.FLG_PORT_STAT_VER p) = min (byteAt b 4) (s.eng.get Fld.FLG_VER_VMAX) % 2 ^ 4) ∧
  (∀ s p stamp b e1 r, s.engineUp = true → p < 8 → s.eng.fstate p = 2 → (s.eng.fport p).retrain = none →
    s.eng.takeCtrl p 1 = some ((stamp, b), e1) → s.eng.trainReason p b = r → r ≠ 0 → Runs (.train p) s fun t =>
      t.eng.fstate p = 4 ∧ t.eng.get (Fld.FLG_PORT_STAT_REASON p) = r ∧ t.eng.is Fld.FLG_EVT_QUARANTINE = true) ∧
  (∀ s p stamp b e1, s.engineUp = true → p < 8 → s.eng.fstate p = 2 → (s.eng.fport p).retrain = none →
    s.eng.takeCtrl p 1 = some ((stamp, b), e1) → s.eng.trainReason p b = 0 → byteAt b 14 ≠ 0 → Runs (.train p) s fun t =>
      t.eng.fstate p = 4 ∧ t.eng.get (Fld.FLG_PORT_STAT_REASON p) = 7) ∧
  (∀ (e : Engine) (p : Nat) (b : Bytes), e.trainReason p b ≤ 6) ∧
  (∀ s off v, s.engineUp = true → s.pcieUp = true → s.eng.pends 15 = false →
    Does (.flgConfigWrite off v) s fun e => flgConfig off v e) ∧
  (∀ (e : Engine) (v : Nat), e.idInside (v % 2 ^ 14) = false → flgConfig Reg.FLG_ID v e = e.evt Fld.FLG_EVT_CFG_ERR) ∧
  (∀ (e : Engine) (p v : Nat), p < 8 → e.rd (Reg.FLG_PORT_CFG p) = v % 16 → e.inLattice = false →
    (flgConfig (Reg.FLG_PORT_CFG p) v e).fstate p = e.fstate p)

/-! ### Members of a lattice (R454, R455, R618 to R649) -/

/-- O53. Requests and responses (R454, R455, R487, R490, R631 to R637, R721): a request is performed under this member's own rights and
answered, or refused; a response ends its request, and one that meets none is discarded and counted. -/
def Obligations.MembersServeEachOther : Prop :=
  (∀ s id ecc m d e1, s.engineUp = true → s.eng.flgMsg id 1 = some m → bitOf (s.eng.rd Reg.GLB_PEND) 0 = false →
    s.eng.accRead m.addr m.size = .ok → s.eng.localRead m.addr m.size ecc = (some d, e1) → Does (.rd id ecc) s fun _ =>
      (e1.freeMsg m).respond m 0x81 [] d) ∧
  (∀ s id ecc m, s.engineUp = true → s.eng.flgMsg id 1 = some m → bitOf (s.eng.rd Reg.GLB_PEND) 0 = false →
    s.eng.accRead m.addr m.size ≠ .ok → Does (.rd id ecc) s fun e => (e.freeMsg m).respond m 0xFE (natLE 8 1) []) ∧
  (∀ s id m, s.engineUp = true → s.eng.flgMsg id 2 = some m → bitOf (s.eng.rd Reg.GLB_PEND) 0 = false →
    s.eng.accWrite m.addr m.size = .ok → Does (.wr id) s fun e =>
      ((e.store m.addr (fitTo m.size m.data)).freeMsg m).respond m 0x82 [] []) ∧
  (∀ s id m, s.engineUp = true → s.eng.flgMsg id 2 = some m → bitOf (s.eng.rd Reg.GLB_PEND) 0 = true ∨
    s.eng.accWrite m.addr m.size ≠ .ok → Runs (.wr id) s fun t => t.eng.mem = s.eng.mem ∧ t.eng.ril = s.eng.ril) ∧
  (∀ s id ecc m d e1 v, s.engineUp = true → s.eng.flgMsg id 3 = some m → bitOf (s.eng.rd Reg.GLB_PEND) 0 = false →
    s.eng.accWrite m.addr m.size = .ok → m.addr % m.size = 0 → s.eng.localRead m.addr m.size ecc = (some d, e1) →
    amoNew (byteAt m.arg 6) m.size (leNat d) (leAt m.data 0 m.size) (leAt m.data m.size m.size) = some v → Does (.amoRequest id ecc) s fun _ =>
      ((e1.store m.addr (natLE m.size v)).freeMsg m).respond m 0x83 [] d) ∧
  (∀ s id ecc m e1 f e2 e3 no hist, s.engineUp = true → s.eng.flgMsg id 0x10 = some m → bitOf (s.eng.rd Reg.GLB_PEND) 0 = false →
    s.eng.takeRate 3 64 8 = some e1 → e1.sheafFetch m.holder (slice m.data 0 48) (leAt m.data 48 8) (slice m.data 60 16)
      (bitOf (byteAt m.arg 4) 3) (!bitOf (byteAt m.arg 4) 4) ecc = (some f, e2) →
    e2.homeHistory (slice m.data 0 48) f = (no, hist, e3) → Does (.shFetch id ecc) s fun _ =>
      ((e3.freeMsg m).respond m 0x90 (e3.epochArg (bit f.present + 2 * bit f.isNew + 4 * bit no)) (fitTo 128 f.hot ++ hist)).applyHeld m) ∧
  (∀ s id ecc m, s.engineUp = true → s.eng.flgMsg id 0x10 = some m → bitOf (s.eng.rd Reg.GLB_PEND) 0 = false →
    s.eng.takeRate 3 64 8 = none → Does (.shFetch id ecc) s fun e => e.holdMsg m) ∧
  (∀ s id m e1, s.engineUp = true → s.eng.flgMsg id 0x11 = some m → bitOf (s.eng.rd Reg.GLB_PEND) 0 = false →
    s.eng.takeRate 3 64 8 = some e1 → bitOf (byteAt m.arg 4) 2 = false →
    ((e1.sheafCommit m.holder (slice m.data 0 48) (leAt m.data 48 8) (leAt m.arg 6 2) (slice m.data 60 16) (bitOf (byteAt m.arg 4) 0)
      (bitOf (byteAt m.arg 4) 1) none (!bitOf (byteAt m.arg 4) 3) (e1.modelOf (leAt m.data 56 4))).map fun x => x.2).isSome = true →
    Does (.shCommit id) s fun e =>
      ((((((e1.sheafCommit m.holder (slice m.data 0 48) (leAt m.data 48 8) (leAt m.arg 6 2) (slice m.data 60 16)
        (bitOf (byteAt m.arg 4) 0) (bitOf (byteAt m.arg 4) 1) none (!bitOf (byteAt m.arg 4) 3)
        (e1.modelOf (leAt m.data 56 4))).map fun x => x.2).getD e).busy 294).freeMsg m).respond m 0x91
          (Engine.epochArg (((e1.sheafCommit m.holder (slice m.data 0 48) (leAt m.data 48 8) (leAt m.arg 6 2) (slice m.data 60 16)
            (bitOf (byteAt m.arg 4) 0) (bitOf (byteAt m.arg 4) 1) none (!bitOf (byteAt m.arg 4) 3)
            (e1.modelOf (leAt m.data 56 4))).map fun x => x.2).getD e) 0) []).applyHeld m) ∧
  (∀ s id m, s.engineUp = true → s.eng.flgMsg id 0x12 = some m →
    ((s.eng.freeMsg m).undoSheaf m.holder).isNone = true → ((s.eng.freeMsg m).shf.holds.any fun x => x.2 == m.holder) = false →
    Does (.shResolve id) s fun e => { e.freeMsg m with shf := { (e.freeMsg m).shf with
      heldRes := (e.freeMsg m).shf.heldRes ++ [⟨m.src, leAt m.arg 0 4, byteAt m.arg 4 == 0, (e.freeMsg m).cyc⟩] } }) ∧
  (∀ s id m, s.engineUp = true → s.eng.flgMsg id 0x12 = some m → ((s.eng.freeMsg m).shf.holds.any fun x => x.2 == m.holder) = true →
    (s.eng.freeMsg m).shPending m.holder = false → byteAt m.arg 4 = 0 → Does (.shResolve id) s fun e =>
      (e.freeMsg m).releaseUndo m.holder) ∧
  (∀ s src ptag, s.engineUp = true → Runs (.shResolveHoldTimeout src ptag) s fun t =>
    (∀ x ∈ t.eng.shf.heldRes, ¬(x.src = src ∧ x.ptag = ptag ∧ x.at_ + s.eng.get Fld.CSC_ERV_CFG_RESOLVE_US * usTicks ≤ s.eng.cyc)) ∧
    (∀ x ∈ s.eng.shf.heldRes, x.src ≠ src ∨ x.ptag ≠ ptag ∨ s.eng.cyc < x.at_ + s.eng.get Fld.CSC_ERV_CFG_RESOLVE_US * usTicks →
      x ∈ t.eng.shf.heldRes) ∧ t.eng.mem = s.eng.mem) ∧
  (∀ s id m e1, s.engineUp = true → s.eng.flgMsg id 0x13 = some m → bitOf (s.eng.rd Reg.GLB_PEND) 0 = false →
    s.eng.takeRate 3 64 8 = some e1 → (e1.takeFlow (.remote m.src (2 ^ 32 + m.tag)) (slice m.data 0 48) m.at_).1 = true →
    Does (.shInsn id) s fun _ =>
      let x := (e1.takeFlow (.remote m.src (2 ^ 32 + m.tag)) (slice m.data 0 48) m.at_).2.2.sheafInsn (slice m.data 0 48) (byteAt m.arg 4)
        (leAt m.data 48 8)
      (((x.2.2.busy 294).releaseFlow (.remote m.src (2 ^ 32 + m.tag))).freeMsg m).respond m 0x93 (natLE 1 x.1 ++ natLE 7 0) x.2.1) ∧
  (∀ s id m r tid t q n rd signed, s.engineUp = true → s.eng.flgMsg id 0x81 = some m →
    (s.eng.freeMsg m).flg.reqs.find? (fun r => r.tag == m.tag && r.dst == m.src && (r.op == 1)) = some r → r.owner = .thread tid →
    ((s.eng.freeMsg m).dropReq r.tag).thread tid = some t → t.req r.tag = some q → q.kind = .load n rd signed →
    t.st = .waiting (.remote r.tag) → Does (.rdRsp id) s fun e =>
      ((e.freeMsg m).dropReq r.tag).retireNext (t.dropReq r.tag) rd (loadValue n signed (fitTo n m.data))) ∧
  (∀ s id m r tid t q, s.engineUp = true → s.eng.flgMsg id 0x82 = some m →
    (s.eng.freeMsg m).flg.reqs.find? (fun r => r.tag == m.tag && r.dst == m.src && (r.op == 2)) = some r → r.owner = .thread tid →
    ((s.eng.freeMsg m).dropReq r.tag).thread tid = some t → t.req r.tag = some q → q.kind = .store → Does (.wrAck id) s fun e =>
      ((e.freeMsg m).dropReq r.tag).setThread (t.dropReq r.tag)) ∧
  (∀ s id m r tid t q n rd, s.engineUp = true → s.eng.flgMsg id 0x83 = some m →
    (s.eng.freeMsg m).flg.reqs.find? (fun r => r.tag == m.tag && r.dst == m.src && (r.op == 3)) = some r → r.owner = .thread tid →
    ((s.eng.freeMsg m).dropReq r.tag).thread tid = some t → t.req r.tag = some q → q.kind = .amo n rd →
    t.st = .waiting (.remote r.tag) → Does (.amoRsp id) s fun e =>
      ((e.freeMsg m).dropReq r.tag).retireNext (t.dropReq r.tag) rd (loadValue n true (fitTo n m.data))) ∧
  (∀ s id m r tid t q rd buf len, s.engineUp = true → s.eng.flgMsg id 0x93 = some m →
    (s.eng.freeMsg m).flg.reqs.find? (fun r => r.tag == m.tag && r.dst == m.src && (r.op == 0x13)) = some r → r.owner = .thread tid →
    ((s.eng.freeMsg m).dropReq r.tag).thread tid = some t → t.req r.tag = some q → q.kind = .sheaf rd buf len →
    t.st = .waiting (.remote r.tag) → m.data ≠ [] → Does (.shInsnRsp id) s fun e =>
      (((e.freeMsg m).dropReq r.tag).store buf (fitTo len m.data)).retireNext (t.dropReq r.tag) rd (byteAt m.arg 0 ||| 8)) ∧
  (∀ s id m r p q pk, s.engineUp = true → s.eng.flgMsg id 0x90 = some m →
    (s.eng.freeMsg m).flg.reqs.find? (fun r => r.tag == m.tag && r.dst == m.src && (r.op == 0x10)) = some r → r.owner = .fetch pk →
    ((s.eng.freeMsg m).dropReq r.tag).waitingPkt pk = some (p, q) → byteAt m.arg 0 = 0 → Does (.shFetchRsp id) s fun e =>
      (((e.freeMsg m).dropReq r.tag).setPkt pk fun p0 => (p0.withSheaf { q with
        done := true, present := false, isNew := false, interval := 0, histLen := 0, hot := slice m.data 0 128,
        cur := slice m.data 0 128, hist := slice m.data 128 512, nohist := false, genReset := false, holding := true,
        tag := none }).flagIf (leAt m.arg 4 4 != p.epoch.getD 0) flMIXED_EPOCH).advance pk) ∧
  (∀ s id m r pk, s.engineUp = true → s.eng.flgMsg id 0x91 = some m →
    (s.eng.freeMsg m).flg.reqs.find? (fun r => r.tag == m.tag && r.dst == m.src && (r.op == 0x11)) = some r → r.owner = .commit pk →
    ((s.eng.freeMsg m).dropReq r.tag).waitingPkt pk = none → Does (.shAck id) s fun e =>
      ((e.freeMsg m).dropReq r.tag).commitDone pk) ∧
  (∀ s id m r tid, s.engineUp = true → s.eng.flgMsg id 0xFE = some m →
    (s.eng.freeMsg m).flg.reqs.find? (fun r => r.tag == m.tag && r.dst == m.src) = some r → r.owner = .thread tid →
    Does (.nack id) s fun e => (e.freeMsg m).thrReqFailed r tid 26) ∧
  (∀ s id m, s.engineUp = true → s.eng.flgMsg id 0x81 = some m → (s.eng.freeMsg m).flg.reqs = [] → Does (.rdRsp id) s fun e =>
    (e.freeMsg m).count (Reg.FLG_CNT 2))

/-- O54. Reachability, routes and time (R638 to R643, R118, R648, R649): an LSA is flooded, kept when it is newer, and dropped from
reachability at 3 s; routes follow the LSAs; SYNC exchanges steer lattice time or step it once where a step is allowed; without an answer
for 10 ms the member is time-suspect; and the lattice commands. -/
def Obligations.LatticeKeepsRoutesAndTime : Prop :=
  (∀ s, s.engineUp = true → s.eng.flg.lsaDue = false → s.eng.cyc < s.eng.flg.lsaAt + 1250000000 → exec .lsaFloodTimer s = .next s) ∧
  (∀ s, s.engineUp = true → s.eng.flg.lsaDue = true ∨ s.eng.flg.lsaAt + 1250000000 ≤ s.eng.cyc → s.eng.lsaPorts = [] →
    Runs .lsaFloodTimer s fun t => t.eng.flg.lsaSeq = (s.eng.flg.lsaSeq + 1) % 2 ^ 32 ∧ t.eng.flg.lsaAt = s.eng.cyc ∧
      t.eng.flg.lsaDue = false ∧ t.eng.regs = s.eng.regs ∧ t.eng.mem = s.eng.mem) ∧
  (∀ s id m info l, s.engineUp = true → s.eng.flgMsg id 0xC0 = some m → Tbl.find (s.eng.freeMsg m).flg.lsas m.src = some l →
    seqNewer (leAt m.arg 0 4) l.seq = false → Does (.lsa id info) s fun e => e.freeMsg m) ∧
  (∀ s id m info, s.engineUp = true → s.eng.flgMsg id 0xC0 = some m → m.src ≠ (s.eng.freeMsg m).selfId →
    Tbl.find (s.eng.freeMsg m).flg.lsas m.src = none → info.root = false →
    (s.eng.freeMsg m).lsaPorts = [] → Does (.lsa id info) s fun e =>
      let l : Lsa := ⟨leAt m.arg 0 4, info.epoch, info.suspect, info.root, info.ports, (e.freeMsg m).cyc⟩
      ((e.freeMsg m).setFlg fun g => { g with lsas := Tbl.put g.lsas m.src l }).lsaChanged.count (Reg.FLG_CNT 3)) ∧
  (∀ s m l, s.engineUp = true → Tbl.find s.eng.flg.lsas m = some l → l.at_ + 3750000000 ≤ s.eng.cyc →
    s.eng.flg.reach.contains m = true → Does (.lsaAgeExpiry m) s fun e => e.lsaChanged.noteReach) ∧
  (∀ s m l, s.engineUp = true → Tbl.find s.eng.flg.lsas m = some l → s.eng.cyc < l.at_ + 3750000000 →
    exec (.lsaAgeExpiry m) s = .next s) ∧
  (∀ s, s.engineUp = true → s.eng.flg.routesDue = none → exec .routeRecompute s = .next s) ∧
  (∀ s t, s.engineUp = true → s.eng.flg.routesDue = some t → Runs .routeRecompute s fun u =>
    u.eng.flg.routes = s.eng.routeTable false ∧ u.eng.flg.mgmt = s.eng.routeTable true ∧ u.eng.flg.routesDue = none ∧
    u.eng.is Fld.FLG_STAT_ROUTES_VALID = true ∧ u.eng.rd (Reg.FLG_CNT 4) = satCount 48 (s.eng.rd (Reg.FLG_CNT 4)) 1 ∧
    u.eng.shf = s.eng.shf ∧ u.eng.mem = s.eng.mem) ∧
  (∀ (e : Engine) (mg : Bool) (r : Route), e.routeTo mg e.selfId = some r → r = ⟨0, 0⟩) ∧
  (∀ s frac, s.engineUp = true → s.eng.is Fld.FLG_TIME_CFG_ROOT = true ∨ s.eng.is Fld.FLG_TIME_STAT_PARENT_VALID = false ∨
    s.eng.cyc < s.eng.flg.syncAt + 1250000 → exec (.syncSend frac) s = .next s) ∧
  (∀ s frac, s.engineUp = true → s.eng.is Fld.FLG_TIME_CFG_ROOT = false → s.eng.is Fld.FLG_TIME_STAT_PARENT_VALID = true →
    s.eng.fstate (s.eng.get Fld.FLG_TIME_STAT_PARENT) = 3 → (s.eng.fport (s.eng.get Fld.FLG_TIME_STAT_PARENT)).retrain = none →
    s.eng.flg.syncAt + 1250000 ≤ s.eng.cyc → Does (.syncSend frac) s fun e =>
      (e.setFlg fun g => { g with syncAt := e.cyc }).sendCtrl (e.get Fld.FLG_TIME_STAT_PARENT)
        (natLE 8 2 ++ natLE 8 (16 * e.time + frac % 16))) ∧
  (∀ s p frac t2 b e1, s.engineUp = true → s.eng.takeCtrl p 2 = some ((t2, b), e1) → s.eng.is Fld.FLG_TIME_CFG_ROOT = true →
    Does (.sync p frac) s fun e =>
      e1.sendCtrl p (natLE 8 3 ++ slice b 8 8 ++ natLE 8 t2 ++ natLE 8 (16 * e.time + frac % 16) ++ natLE 8 0)) ∧
  (∀ (s : State) (p t4 : Nat) (b : Bytes) (e1 : Engine) (off : Int), s.engineUp = true → s.eng.takeCtrl p 3 = some ((t4, b), e1) → s.eng.is Fld.FLG_TIME_CFG_ROOT = false →
    s.eng.is Fld.FLG_TIME_STAT_PARENT_VALID = true → p = s.eng.get Fld.FLG_TIME_STAT_PARENT →
    int64 b 32 - (((leAt b 16 8 : Int) - (leAt b 8 8 : Int)) - ((t4 : Int) - (leAt b 24 8 : Int))) / 2 = off → Runs (.syncRsp p) s fun t =>
      t.eng.is Fld.FLG_TIME_STAT_SYNCED = true ∧ t.eng.is Fld.GLB_STAT_TIME_VALID = true ∧
      t.eng.rd (Reg.FLG_CNT 5) = satCount 48 (s.eng.rd (Reg.FLG_CNT 5)) 1 ∧
      (s.eng.flg.stepOk = false → t.eng.time = s.eng.time ∧ t.eng.flg.slew = -(off.tdiv 16)) ∧
      (s.eng.flg.stepOk = true → t.eng.time = ((s.eng.time : Int) - off / 16).toNat % 2 ^ 64 ∧ t.eng.flg.stepOk = false ∧
        t.eng.flg.slew = 0)) ∧
  (∀ (e : Engine) (off : Int), e.is Fld.FLG_TIME_CFG_ROOT = false → e.inLattice = true → e.flg.outRun = 2 → 4000 < off.natAbs →
    (e.judgeOffset off).suspect = true) ∧
  (∀ (e : Engine) (off : Int), e.is Fld.FLG_TIME_CFG_ROOT = false → e.inLattice = true → e.flg.inRun = 2 → off.natAbs ≤ 2000 →
    (e.judgeOffset off).suspect = false) ∧
  (∀ s, s.engineUp = true → s.eng.is Fld.FLG_TIME_CFG_ROOT = false → s.eng.inLattice = true → s.eng.flg.rspAt + 12500000 ≤ s.eng.cyc →
    Runs .timeSuspectTimeout s fun t => t.eng.suspect = true ∧ t.eng.flg.inRun = 0 ∧ t.eng.time = s.eng.time) ∧
  (∀ s, s.engineUp = true → s.eng.is Fld.FLG_TIME_CFG_ROOT = true ∨ s.eng.inLattice = false ∨ s.eng.cyc < s.eng.flg.rspAt + 12500000 →
    exec .timeSuspectTimeout s = .next s) ∧
  (∀ s, s.engineUp = true → s.eng.is Fld.FLG_TIME_CFG_ROOT = true → s.eng.get Fld.FLG_TIME_CFG_SRC = 1 → s.eng.flg.ppsLost = false →
    s.eng.flg.ppsAt + 2500000000 ≤ s.eng.cyc → Does .ppsLost s fun e =>
      (e.setFlg fun g => { g with ppsLost := true, slew := 0 }).evt Fld.FLG_EVT_PPS_LOST) ∧
  (∀ s id m, s.engineUp = true → s.eng.flgMsg id 0xC5 = some m → s.eng.time ≤ leNat m.arg → (s.eng.freeMsg m).time = s.eng.time →
    Does (.lReset id) s fun e => (e.freeMsg m).setFlg fun g => { g with resetAt := some (leNat m.arg) }) ∧
  (∀ s id c, s.engineUp = true → s.eng.startable id 0x81 = some c → c.arg 40 8 < c.at_ + 1250000 → Does (.latticeReset id) s fun e =>
    (e.started c 331).finish c.id 0x24) ∧
  (∀ s id c, s.engineUp = true → s.eng.startable id 0x81 = some c → c.at_ + 1250000 ≤ c.arg 40 8 →
    (s.eng.started c 331).reachable.filter (fun m => m != (s.eng.started c 331).selfId) = [] → Does (.latticeReset id) s fun e =>
      ((e.started c 331).setFlg fun g => { g with resetAt := some (c.arg 40 8) }).finishOk c.id 0) ∧
  (∀ s id c, s.engineUp = true → s.eng.startable id 0x80 = some c → c.len = 262144 → Does (.latTopology id) s fun e =>
    ((e.started c 331).cmdWrite c ((List.range 16384).flatMap ((e.started c 331).topologyEntry (e.started c 331).reachable))).finishOk
      c.id 0) ∧
  (∀ s id c, s.engineUp = true → s.eng.startable id 0x82 = some c → c.arg 32 1 ≤ 7 → c.arg 33 1 ≤ 1 → Does (.latLink id) s fun e =>
    (((e.started c 331).portCfg (c.arg 32 1) (2 * (e.started c 331).get (Fld.FLG_PORT_CFG_ROLE (c.arg 32 1)) + c.arg 33 1)).put
      Fld.FLG_PROFILE_PROFILE 7).finishOk c.id 0) ∧
  (∀ s id c, s.engineUp = true → s.eng.startable id 0x82 = some c → 7 < c.arg 32 1 ∨ 2 < c.arg 33 1 → Does (.latLink id) s fun e =>
    (e.started c 331).finish c.id 0x10) ∧
  (∀ s id c, s.engineUp = true → s.eng.startable id 0x83 = some c → Does (.latResync id) s fun e =>
    ((e.started c 331).setFlg fun g => { g with stepOk := true }).finishOk c.id 0)

/-! ### Counters, traces and waits (R652 to R676) -/

/-- O55. The gleaner (R652 to R676): at a tally boundary every tally counter is latched, stamped and restarted; CNT_SNAP reads a list of
words at one instant; CNT_CLEAR clears the event counters of a mask of blocks and nothing else; staged records go to the destination or
to the collector, in order; a wait older than GLN_HANG is counted once as a suspect; HANG_ANALYZE writes the wait-for graph. -/
def Obligations.CountersTracesAndWaits : Prop :=
  (∀ s, s.engineUp = true → s.eng.boundaryDue = none → exec .tallyBoundary s = .next s) ∧
  (∀ s t trig, s.engineUp = true → s.eng.boundaryDue = some (t, trig) → s.eng.is Fld.HIF_TALLY_EN = false → s.eng.num = [] →
    Runs .tallyBoundary s fun u => u.eng.glnKeep.shadowT = t ∧ u.eng.glnKeep.shadowTally = s.eng.rd Reg.GLN_TALLY_STAT ∧
      u.eng.gln.trigDue = false ∧ u.eng.time = s.eng.time ∧ u.eng.mem = s.eng.mem ∧ u.eng.pkts = s.eng.pkts) ∧
  (∀ s t trig i, s.engineUp = true → s.eng.boundaryDue = some (t, trig) → s.eng.is Fld.HIF_TALLY_EN = false → s.eng.num = [] →
    i < 1024 → s.eng.is Fld.SHF_HOME_PEND = false → s.eng.rd (Reg.CSC_ENTCNT i) ≠ 0 → Runs .tallyBoundary s fun u => u.eng.rd (Reg.CSC_ENTCNT i) = 0 ∧
      (Tbl.get 0 u.eng.glnKeep.shadow (Reg.CSC_ENTCNT i)).toNat = s.eng.rd (Reg.CSC_ENTCNT i)) ∧
  (∀ s t trig, s.engineUp = true → s.eng.boundaryDue = some (t, trig) → s.eng.is Fld.HIF_TALLY_EN = true → s.eng.num = [] →
    s.eng.ringState (s.eng.get Fld.HIF_TALLY_RING) ≠ 1 → Runs .tallyBoundary s fun u => u.eng.is Fld.HIF_EVT_TALLY_LOST = true) ∧
  (∀ (e : Engine) (off n : Nat), bitsOf (e.rd off) 47 0 + n < 2 ^ 48 → bitsOf (e.rd off) 63 48 = 0 →
    (e.countN off n).rd off = e.rd off + n) ∧
  (∀ (e : Engine) (off n : Nat), 2 ^ 48 ≤ bitsOf (e.rd off) 47 0 + n → (e.countN off n).rd off = 2 ^ 63 + (2 ^ 48 - 1)) ∧
  (∀ (e : Engine) (off n : Nat), 2 ^ 40 ≤ bitsOf (e.rd off) 39 0 + n → (e.tallyN off n).rd off = 2 ^ 63 + (2 ^ 40 - 1)) ∧
  (∀ s id h c b e1 rs, s.engineUp = true → s.eng.startable id 0x90 = some c → c.len % 8 = 0 → c.arg 32 1 = 0 → c.dst = 0 →
    c.dstLoc = true → (s.eng.started c 335).cmdData c h = (some b, e1) → snapRanges b = some rs →
    32 + 8 * (rs.map Prod.snd).sum ≤ c.arg 48 4 → Runs (.cntSnap id h) s fun t =>
      t.eng.mem = Tbl.writeBytes e1.mem (c.arg 40 8 % 2 ^ 42)
        (([e1.time, e1.rd Reg.GLN_TALLY_STAT, (rs.map Prod.snd).sum,
          2 * bit (((rs.flatMap fun (x : Nat × Nat) => (List.range x.2).map fun i => x.1 + 8 * i).map (e1.snapWord false)).any
            fun w => w.2.2)] ++
          ((rs.flatMap fun (x : Nat × Nat) => (List.range x.2).map fun i => x.1 + 8 * i).map (e1.snapWord false)).map
            fun w => w.1).flatMap (natLE 8)) ∧ t.eng.time = s.eng.time) ∧
  (∀ s id h c b e1, s.engineUp = true → s.eng.startable id 0x90 = some c → c.len % 8 = 0 → c.arg 32 1 ≤ 1 → c.dst = 0 →
    (s.eng.started c 335).cmdData c h = (some b, e1) → snapRanges b = none → Does (.cntSnap id h) s fun _ => e1.finish c.id 0x10) ∧
  (∀ s id c, s.engineUp = true → s.eng.startable id 0x91 = some c → c.arg 32 4 < 2 ^ 20 → Does (.cntClear id) s fun e =>
    ((e.started c 335).clearEvents (c.arg 32 4)).finishOk c.id 0) ∧
  (∀ (e : Engine) (m off : Nat), ((regFind off).any fun x => x.1.kind == .event && bitOf m x.1.blk) = true →
    (e.clearEvents m).rd off = (regReset off).toNat) ∧
  (∀ (e : Engine) (m off : Nat), ((regFind off).any fun x => x.1.kind == .event && bitOf m x.1.blk) = false →
    (e.clearEvents m).rd off = e.rd off) ∧
  (∀ s id c, s.engineUp = true → s.eng.startable id 0x92 = some c → c.staged ≤ s.eng.gln.drained → Does (.traceFlush id) s fun e =>
    (e.started c 335).finishOk c.id c.inStage) ∧
  (∀ s id c, s.engineUp = true → s.eng.startable id 0x92 = some c → s.eng.gln.drained < c.staged → exec (.traceFlush id) s = .next s) ∧
  (∀ s, s.engineUp = true → s.eng.gln.staging = [] → exec .traceDrain s = .next s) ∧
  (∀ s r rs, s.engineUp = true → s.eng.gln.staging = r :: rs → s.eng.get Fld.GLN_TRACE_CFG_DEST = 0 → Does .traceDrain s fun e =>
    ((r :: rs).foldl Engine.regionRecord (e.unstage (rs.length + 1))).glnHeader) ∧
  (∀ (e : Engine) (r : Bytes), e.gln.stopped = false → e.glnKeep.write + 32 ≤ e.glnSize → r.length = 32 →
    (e.regionRecord r).mem = Tbl.writeBytes e.mem (0x04D00000000 + e.glnKeep.write) r ∧
    (e.regionRecord r).glnKeep.write = e.glnKeep.write + 32 ∧ (e.regionRecord r).glnKeep.wraps = e.glnKeep.wraps) ∧
  (∀ (e : Engine) (r : Bytes), e.gln.stopped = false → e.glnSize < e.glnKeep.write + 32 → e.is Fld.GLN_TRACE_CFG_FULL_MODE = false →
    (e.regionRecord r).glnKeep.write = 4128 ∧ (e.regionRecord r).glnKeep.wraps = e.glnKeep.wraps + 1) ∧
  (∀ (e : Engine) (r : Bytes), e.glnSize < e.glnKeep.write + 32 → e.is Fld.GLN_TRACE_CFG_FULL_MODE = true →
    (e.regionRecord r).mem = e.mem ∧ (e.regionRecord r).glnKeep.lost = e.glnKeep.lost + 1 ∧
    (e.regionRecord r).is Fld.GLN_EVT_REGION_FULL = true) ∧
  (∀ s id m, s.engineUp = true → s.eng.flgMsg id 0xE0 = some m → (s.eng.freeMsg m).is Fld.GLN_TRACE_CFG_EN = true →
    (s.eng.freeMsg m).get Fld.GLN_TRACE_CFG_DEST < 2 → Does (.trace id) s fun e =>
      ((e.freeMsg m).countN (Reg.GLN_CNT 3) (min (leAt m.arg 0 2) (m.data.length / 32))).writeRecords
        ((List.range (min (leAt m.arg 0 2) (m.data.length / 32))).map fun i => slice m.data (32 * i) 32)) ∧
  (∀ s id m, s.engineUp = true → s.eng.flgMsg id 0xE0 = some m → (s.eng.freeMsg m).is Fld.GLN_TRACE_CFG_EN = false →
    Does (.trace id) s fun e =>
      ((e.freeMsg m).countN (Reg.GLN_CNT 4) (min (leAt m.arg 0 2) (m.data.length / 32))).evt Fld.GLN_EVT_TRACE_RX_DROP) ∧
  (∀ s, s.engineUp = true → s.eng.is Fld.GLN_TRACE_CFG_PC_EN = false ∨ s.eng.gln.pcAt = some s.eng.cyc →
    exec .pcSample s = .next s) ∧
  (∀ s, s.engineUp = true → s.eng.is Fld.GLN_TRACE_CFG_EN = true → s.eng.is Fld.GLN_TRACE_CFG_PC_EN = true → s.eng.gln.pcAt = none →
    s.eng.cyc % 2 ^ s.eng.get Fld.GLN_TRACE_CFG_PC_LOG2 = 0 → Runs .pcSample s fun t => t.eng.gln.pcAt = some s.eng.cyc ∧
      t.eng.ril = s.eng.ril ∧ t.eng.mem = s.eng.mem ∧ t.eng.gln.staged ≤ s.eng.gln.staged + 512) ∧
  (∀ s, s.engineUp = true → s.eng.get Fld.GLN_HANG_US = 0 → exec .hangCheck s = .next s) ∧
  (∀ s, s.engineUp = true → s.eng.get Fld.GLN_HANG_US ≠ 0 →
    (s.eng.waitRegs.any fun w => decide (s.eng.get Fld.GLN_HANG_US * usTicks < s.eng.time - w.at_)) = false → Does .hangCheck s fun e =>
      { e with gln := { e.gln with suspects := [] } }) ∧
  (∀ s w, s.engineUp = true → s.eng.get Fld.GLN_HANG_US ≠ 0 → s.eng.waitRegs = [w] → s.eng.gln.suspects = [] →
    s.eng.get Fld.GLN_HANG_US * usTicks < s.eng.time - w.at_ → Runs .hangCheck s fun t =>
      t.eng.rd (Reg.GLN_CNT 7) = satCount 48 (s.eng.rd (Reg.GLN_CNT 7)) 1 ∧ t.eng.is Fld.GLN_EVT_HANG_SUSPECT = true ∧
      t.eng.gln.suspects.length = 1) ∧
  (∀ s id c, s.engineUp = true → s.eng.startable id 0x93 = some c → c.len < 64 → s.eng.domOn 16 = true →
    Does (.hangAnalyze id) s fun e => (e.started c 335).finish c.id 0x10) ∧
  (∀ s id c, s.engineUp = true → s.eng.startable id 0x93 = some c → 64 ≤ c.len → s.eng.domOn 16 = true →
    ((s.eng.started c 335).waitRegs.filter fun w => w.waiter != (s.eng.started c 335).cmdRef c) = [] → Does (.hangAnalyze id) s fun e =>
      ((((e.started c 335).cmdWrite c ((e.started c 335).graphRecord [] 0)).count (Reg.GLN_CNT 6)).evt Fld.GLN_EVT_HANG_DONE).complete
        c.id 0 0 0 none 335)

/-! ### The block as a whole -/

/-- O56. A step takes the command at the front of the queue and runs it with the queue's rest; with an empty queue a running engine has one
core cycle (log entry 1) and a held one stays as it is; no word spells a command. -/
def Obligations.StepTakesTheFrontCommand : Prop :=
  (∀ s c, step { s with pending := c :: s.pending } = exec c s) ∧
  (∀ s, s.pending = [] → s.engineUp = true → step s = .next (s.onEng Engine.tick)) ∧
  (∀ s, s.pending = [] → s.pwr.released = false → step s = .next s) ∧
  (∀ (s : State) (nbits w : Nat), s.withFetchWord nbits w = s)

/-- O57. Every command answers a next state, and none touches the queue (log entries 1 and 8: a command for which a rule's conditions do not
hold changes nothing). -/
def Obligations.CommandsAnswerAndLeaveTheQueue : Prop :=
  ∀ c s, ∃ t, exec c s = .next t ∧ t.pending = s.pending

/-- O58. A row of an engine, or of the host at an engine, changes nothing but the engine, and changes nothing at all while the engine is held
in reset, halted, resetting or in boot-ROM recovery (R93, R100, R101, R122, R154; log entry 8). -/
def Obligations.EngineRowsStayInTheEngine : Prop :=
  (∀ c s t, besideEngine c = false → exec c s = .next t → t.pwr = s.pwr ∧ t.stw = s.stw ∧ t.fld = s.fld) ∧
  (∀ c s, besideEngine c = false → s.engineUp = false → exec c s = .next s)

/-- O59. After reset power is in order, memory lists nothing, and no command waits (the model's State.reset, log entry 4). -/
def Obligations.ResetIsInOrder : Prop :=
  State.reset.powerInOrder = true ∧ Memory.wf State.reset.eng.mem ∧ State.reset.pending = []

/-- O60. Every step keeps power in order (R94 to R96, R100, R101): the rails enabled are the first ones, as many as the phase says; a rail is
good only while it is enabled; the engine is out of reset only with every rail enabled and the PLL running. -/
def Obligations.StepsKeepPowerInOrder : Prop :=
  ∀ s t, s.powerInOrder = true → step s = .next t → t.powerInOrder = true
end

