-- ==== Sys2Proof/Laws/Tbl.lean ====
section
/-!
SUPPORT. Laws/Tbl.lean: sparse tables: reading after writing, and that every operation keeps the canonical form.
-/
namespace Sys2Proof.Machine

variable {α : Type}

/-! ### Keys rise -/

theorem Tbl.rising_mono {a b : Nat} (h : a ≤ b) : ∀ {t : Tbl α}, Tbl.rising b t = true → Tbl.rising a t = true
  | [], _ => rfl
  | (k, _) :: r, ht => by
    simp only [Tbl.rising, Bool.and_eq_true, decide_eq_true_eq] at ht ⊢
    exact ⟨le_trans h ht.1, ht.2⟩

/-- A key below the bound is not listed. -/
theorem Tbl.find_below {b k : Nat} (hk : k < b) : ∀ {t : Tbl α}, Tbl.rising b t = true → Tbl.find t k = none
  | [], _ => rfl
  | (k', _) :: r, ht => by
    simp only [Tbl.rising, Bool.and_eq_true, decide_eq_true_eq] at ht
    have hne : k ≠ k' := by omega
    simp only [Tbl.find, if_neg hne]
    exact Tbl.find_below (b := k' + 1) (by omega) ht.2

theorem Tbl.rising_put {b k : Nat} {v : α} (hb : b ≤ k) : ∀ {t : Tbl α}, Tbl.rising b t = true → Tbl.rising b (Tbl.put t k v) = true
  | [], _ => by simp [Tbl.put, Tbl.rising, hb]
  | (k', v') :: r, ht => by
    simp only [Tbl.rising, Bool.and_eq_true, decide_eq_true_eq] at ht
    simp only [Tbl.put]
    split
    · simp only [Tbl.rising, Bool.and_eq_true, decide_eq_true_eq]; exact ⟨hb, by omega, ht.2⟩
    · split
      · next h => subst h; simp only [Tbl.rising, Bool.and_eq_true, decide_eq_true_eq]; exact ⟨hb, ht.2⟩
      · simp only [Tbl.rising, Bool.and_eq_true, decide_eq_true_eq]
        exact ⟨ht.1, Tbl.rising_put (by omega) ht.2⟩

theorem Tbl.rising_del {k : Nat} : ∀ {b : Nat} {t : Tbl α}, Tbl.rising b t = true → Tbl.rising b (Tbl.del t k) = true
  | _, [], _ => rfl
  | b, (k', v') :: r, ht => by
    simp only [Tbl.rising, Bool.and_eq_true, decide_eq_true_eq] at ht
    simp only [Tbl.del]
    split
    · exact Tbl.rising_mono (by omega) (Tbl.rising_del ht.2)
    · simp only [Tbl.rising, Bool.and_eq_true, decide_eq_true_eq]
      exact ⟨ht.1, Tbl.rising_del ht.2⟩

theorem Tbl.rising_filter (p : Nat × α → Bool) : ∀ {b : Nat} {t : Tbl α}, Tbl.rising b t = true →
    Tbl.rising b (t.filter p) = true
  | _, [], _ => rfl
  | b, (k', v') :: r, ht => by
    simp only [Tbl.rising, Bool.and_eq_true, decide_eq_true_eq] at ht
    simp only [List.filter]
    split
    · simp only [Tbl.rising, Bool.and_eq_true, decide_eq_true_eq]
      exact ⟨ht.1, Tbl.rising_filter p ht.2⟩
    · exact Tbl.rising_mono (by omega) (Tbl.rising_filter p ht.2)

/-! ### Reading after writing -/

@[simp] theorem Tbl.find_put_same (t : Tbl α) (k : Nat) (v : α) : Tbl.find (Tbl.put t k v) k = some v := by
  induction t with
  | nil => simp [Tbl.put, Tbl.find]
  | cons e r ih =>
    obtain ⟨k', v'⟩ := e
    simp only [Tbl.put]
    split
    · simp [Tbl.find]
    · split
      · simp [Tbl.find]
      · next h => simp [Tbl.find, h, ih]

theorem Tbl.find_put_other (t : Tbl α) {k j : Nat} (v : α) (h : j ≠ k) : Tbl.find (Tbl.put t k v) j = Tbl.find t j := by
  induction t with
  | nil => simp [Tbl.put, Tbl.find, h]
  | cons e r ih =>
    obtain ⟨k', v'⟩ := e
    simp only [Tbl.put]
    split
    · simp [Tbl.find, h]
    · split
      · next hk => subst hk; simp [Tbl.find, h]
      · simp [Tbl.find, ih]

theorem Tbl.find_del_other (t : Tbl α) {k j : Nat} (h : j ≠ k) : Tbl.find (Tbl.del t k) j = Tbl.find t j := by
  induction t with
  | nil => rfl
  | cons e r ih =>
    obtain ⟨k', v'⟩ := e
    simp only [Tbl.del]
    split
    · next hk => subst hk; simp [Tbl.find, h, ih]
    · simp [Tbl.find, ih]

@[simp] theorem Tbl.find_del_same (t : Tbl α) (k : Nat) : Tbl.find (Tbl.del t k) k = none := by
  induction t with
  | nil => rfl
  | cons e r ih =>
    obtain ⟨k', v'⟩ := e
    simp only [Tbl.del]
    split
    · exact ih
    · next hk => simp [Tbl.find, hk, ih]

theorem Tbl.all_del {p : Nat × α → Bool} (k : Nat) : ∀ {t : Tbl α}, t.all p = true → (Tbl.del t k).all p = true
  | [], _ => rfl
  | (k', v') :: r, ht => by
    simp only [List.all_cons, Bool.and_eq_true] at ht
    simp only [Tbl.del]
    split
    · exact Tbl.all_del k ht.2
    · simp only [List.all_cons, Bool.and_eq_true]; exact ⟨ht.1, Tbl.all_del k ht.2⟩

theorem Tbl.all_put {p : Nat × α → Bool} {k : Nat} {v : α} (hp : p (k, v) = true) :
    ∀ {t : Tbl α}, t.all p = true → (Tbl.put t k v).all p = true
  | [], _ => by simp [Tbl.put, hp]
  | (k', v') :: r, ht => by
    simp only [List.all_cons, Bool.and_eq_true] at ht
    simp only [Tbl.put]
    split
    · simp only [List.all_cons, Bool.and_eq_true]; exact ⟨hp, ht.1, ht.2⟩
    · split
      · simp only [List.all_cons, Bool.and_eq_true]; exact ⟨hp, ht.2⟩
      · simp only [List.all_cons, Bool.and_eq_true]; exact ⟨ht.1, Tbl.all_put hp ht.2⟩

variable [DecidableEq α]

/-- A read of another key is not changed by a write. -/
theorem Tbl.get_set_other (d d' : α) (t : Tbl α) {k j : Nat} (v : α) (h : j ≠ k) :
    Tbl.get d' (Tbl.set d t k v) j = Tbl.get d' t j := by
  unfold Tbl.get Tbl.set
  split
  · rw [Tbl.find_del_other t h]
  · rw [Tbl.find_put_other t v h]

/-- A read of the key written gives the value written. -/
@[simp] theorem Tbl.get_set_same (d : α) (t : Tbl α) (k : Nat) (v : α) : Tbl.get d (Tbl.set d t k v) k = v := by
  unfold Tbl.get Tbl.set
  split
  · next hv => simp [hv]
  · simp

/-! ### The canonical form -/

/-- A write keeps the canonical form. -/
theorem Tbl.wf_set {d : Nat → α} {t : Tbl α} (k : Nat) (v : α) (h : Tbl.wf d t = true) :
    Tbl.wf d (Tbl.set (d k) t k v) = true := by
  simp only [Tbl.wf, Bool.and_eq_true] at h ⊢
  unfold Tbl.set
  split
  · exact ⟨Tbl.rising_del h.1, Tbl.all_del k h.2⟩
  · next hv => exact ⟨Tbl.rising_put (Nat.zero_le k) h.1, Tbl.all_put (by simpa using hv) h.2⟩

/-- So does a write of bytes. -/
theorem Tbl.wf_writeBytes : ∀ (bs : List (BitVec 8)) {t : Tbl (BitVec 8)} (a : Nat), Tbl.wf (fun _ => 0) t = true →
    Tbl.wf (fun _ => 0) (Tbl.writeBytes t a bs) = true
  | [], _, _, h => h
  | b :: r, _, a, h => Tbl.wf_writeBytes r (a + 1) (Tbl.wf_set (d := fun _ => 0) a b h)

/-- So does leaving a range out. -/
theorem Tbl.wf_clearRange {d : Nat → α} {t : Tbl α} (lo hi : Nat) (h : Tbl.wf d t = true) :
    Tbl.wf d (Tbl.clearRange t lo hi) = true := by
  simp only [Tbl.wf, Bool.and_eq_true, Tbl.clearRange] at h ⊢
  refine ⟨Tbl.rising_filter _ h.1, ?_⟩
  rw [List.all_eq_true] at h ⊢
  exact fun e he => h.2 e (List.mem_of_mem_filter he)

/-- Bytes outside those written read as before. -/
theorem Tbl.get_writeBytes_other : ∀ (bs : List (BitVec 8)) (t : Tbl (BitVec 8)) (a j : Nat), (j < a ∨ a + bs.length ≤ j) →
    Tbl.get 0 (Tbl.writeBytes t a bs) j = Tbl.get 0 t j
  | [], _, _, _, _ => rfl
  | b :: r, t, a, j, h => by
    simp only [List.length_cons] at h
    simp only [Tbl.writeBytes]
    rw [Tbl.get_writeBytes_other r _ (a + 1) j (by omega), Tbl.get_set_other _ _ _ _ (by omega)]

end Sys2Proof.Machine
end

