-- ==== Sys2Proof/Laws/Regs.lean ====
section
/-!
SUPPORT. Laws/Regs.lean: bit fields and registers: a field reads as written, and other fields and registers read as before.
-/
namespace Sys2Proof.Machine

/-! ### Bit fields -/

theorem bitsOf_eq (n hi lo : Nat) : bitsOf n hi lo = n / 2 ^ lo % 2 ^ (hi + 1 - lo) := by
  simp [bitsOf, Nat.shiftRight_eq_div_pow]

theorem bitsOf_lt (n hi lo : Nat) : bitsOf n hi lo < 2 ^ (hi + 1 - lo) := by
  rw [bitsOf_eq]; exact Nat.mod_lt _ (by positivity)

/-- A number with a field replaced, as its three parts. -/
theorem withBits_eq (n hi lo v : Nat) :
    withBits n hi lo v =
      2 ^ lo * (2 ^ (hi + 1 - lo) * (n / 2 ^ lo / 2 ^ (hi + 1 - lo)) + v % 2 ^ (hi + 1 - lo)) + n % 2 ^ lo := by
  unfold withBits
  rw [bitsOf_eq]
  set p := 2 ^ lo
  set w := 2 ^ (hi + 1 - lo)
  have h1 := Nat.div_add_mod n p
  have h2 := Nat.div_add_mod (n / p) w
  have h3 : n = p * (w * (n / p / w)) + (n / p % w) * p + n % p := by
    calc n = p * (n / p) + n % p := h1.symm
      _ = p * (w * (n / p / w) + n / p % w) + n % p := by rw [h2]
      _ = _ := by ring
  have h4 : n - n / p % w * p = p * (w * (n / p / w)) + n % p := by omega
  rw [h4]; ring

theorem bitsOf_withBits_same (n hi lo v : Nat) : bitsOf (withBits n hi lo v) hi lo = v % 2 ^ (hi + 1 - lo) := by
  rw [bitsOf_eq, withBits_eq, Nat.mul_add_div (by positivity), Nat.div_eq_of_lt (Nat.mod_lt _ (by positivity)), Nat.add_zero,
    Nat.mul_add_mod, Nat.mod_mod]

/-- The field below is not changed. -/
theorem bitsOf_withBits_below (n hi lo v h l : Nat) (hh : h < lo) : bitsOf (withBits n hi lo v) h l = bitsOf n h l := by
  have key : ∀ x : Nat, bitsOf x h l = bitsOf (x % 2 ^ lo) h l := by
    intro x
    rw [bitsOf_eq, bitsOf_eq]
    by_cases hl : l ≤ h
    · have hd : 2 ^ lo = 2 ^ (h + 1) * 2 ^ (lo - (h + 1)) := by rw [← pow_add]; congr 1; omega
      have hs : 2 ^ (h + 1) = 2 ^ l * 2 ^ (h + 1 - l) := by rw [← pow_add]; congr 1; omega
      rw [← Nat.mod_mul_right_div_self, ← Nat.mod_mul_right_div_self, ← hs, Nat.mod_mod_of_dvd _ ⟨_, hd⟩]
    · have : h + 1 - l = 0 := by omega
      simp [this, Nat.mod_one]
  rw [key, key n]
  congr 1
  rw [withBits_eq, Nat.mul_add_mod, Nat.mod_mod]

/-- The field above is not changed. -/
theorem bitsOf_withBits_above (n hi lo v h l : Nat) (hh : hi < l) (hw : lo ≤ hi) :
    bitsOf (withBits n hi lo v) h l = bitsOf n h l := by
  rw [bitsOf_eq, bitsOf_eq]
  have hs : 2 ^ l = 2 ^ lo * 2 ^ (hi + 1 - lo) * 2 ^ (l - (hi + 1)) := by rw [← pow_add, ← pow_add]; congr 1; omega
  have hq : withBits n hi lo v / (2 ^ lo * 2 ^ (hi + 1 - lo)) = n / (2 ^ lo * 2 ^ (hi + 1 - lo)) := by
    rw [withBits_eq, ← Nat.div_div_eq_div_mul, Nat.mul_add_div (by positivity),
      Nat.div_eq_of_lt (Nat.mod_lt n (by positivity : 0 < 2 ^ lo)), Nat.add_zero, Nat.mul_add_div (by positivity),
      Nat.div_eq_of_lt (Nat.mod_lt v (by positivity)), Nat.add_zero, Nat.div_div_eq_div_mul]
  rw [hs, ← Nat.div_div_eq_div_mul, hq, Nat.div_div_eq_div_mul]

theorem withBits_lt (n hi lo v w : Nat) (hn : n < 2 ^ w) (hh : hi < w) (hl : lo ≤ hi) : withBits n hi lo v < 2 ^ w := by
  rw [withBits_eq]
  have hs : 2 ^ w = 2 ^ lo * (2 ^ (hi + 1 - lo) * 2 ^ (w - (hi + 1))) := by rw [← pow_add, ← pow_add]; congr 1; omega
  have hq : n / 2 ^ lo / 2 ^ (hi + 1 - lo) < 2 ^ (w - (hi + 1)) := by
    rw [Nat.div_div_eq_div_mul]
    apply Nat.div_lt_of_lt_mul
    calc n < 2 ^ w := hn
      _ = _ := by rw [hs]; ring
  have hv := Nat.mod_lt v (show 0 < 2 ^ (hi + 1 - lo) by positivity)
  have hr := Nat.mod_lt n (show 0 < 2 ^ lo by positivity)
  rw [hs]
  set p := 2 ^ lo
  set x := 2 ^ (hi + 1 - lo)
  set y := 2 ^ (w - (hi + 1))
  set q := n / p / x
  have h1 : x * q + v % x < x * y := by
    calc x * q + v % x < x * q + x := by omega
      _ = x * (q + 1) := by ring
      _ ≤ x * y := Nat.mul_le_mul_left _ hq
  calc p * (x * q + v % x) + n % p < p * (x * q + v % x) + p := by omega
    _ = p * (x * q + v % x + 1) := by ring
    _ ≤ p * (x * y) := Nat.mul_le_mul_left _ h1

/-! ### Registers -/

theorem Engine.rd_lt (e : Engine) (off : Nat) : e.rd off < 2 ^ 64 := BitVec.isLt _

@[simp] theorem Engine.rd_wr_same (e : Engine) (off v : Nat) : (e.wr off v).rd off = v % 2 ^ 64 := by
  simp [Engine.rd, Engine.wr]

theorem Engine.rd_wr_other (e : Engine) {off off' : Nat} (v : Nat) (h : off' ≠ off) : (e.wr off v).rd off' = e.rd off' := by
  simp only [Engine.rd, Engine.wr]; rw [Tbl.get_set_other _ _ _ _ h]

/-- A field reads as written, cut to its width. -/
theorem Engine.get_put_same (e : Engine) (f : Fld) (v : Nat) (h : f.hi < 64) (hl : f.lo ≤ f.hi) :
    (e.put f v).get f = v % 2 ^ (f.hi + 1 - f.lo) := by
  simp only [Engine.get, Engine.put, Engine.rd_wr_same]
  rw [Nat.mod_eq_of_lt (withBits_lt _ _ _ _ _ (e.rd_lt _) h hl), bitsOf_withBits_same]

/-- A write of one field leaves every other field as it is. -/
theorem Engine.get_put_other (e : Engine) (f g : Fld) (v : Nat) (h : g.off ≠ f.off ∨ (g.hi < f.lo ∨ f.hi < g.lo) ∧ f.hi < 64 ∧ f.lo ≤ f.hi) :
    (e.put f v).get g = e.get g := by
  simp only [Engine.get, Engine.put]
  by_cases ho : g.off = f.off
  · rcases h with h | ⟨h, h64, hl⟩
    · exact absurd ho h
    · rw [ho, Engine.rd_wr_same, Nat.mod_eq_of_lt (withBits_lt _ _ _ _ _ (e.rd_lt _) h64 hl)]
      rcases h with h | h
      · exact bitsOf_withBits_below _ _ _ _ _ _ h
      · exact bitsOf_withBits_above _ _ _ _ _ _ h hl
  · rw [Engine.rd_wr_other _ _ ho]

/-- A register other than a field's own is not changed by a write of the field. -/
theorem Engine.rd_put_other (e : Engine) (f : Fld) (v : Nat) {off : Nat} (h : off ≠ f.off) : (e.put f v).rd off = e.rd off :=
  Engine.rd_wr_other _ _ h

theorem Engine.get_wr_other (e : Engine) (f : Fld) {off : Nat} (v : Nat) (h : f.off ≠ off) : (e.wr off v).get f = e.get f := by
  simp only [Engine.get]; rw [Engine.rd_wr_other _ _ h]

/-- An event bit reads 1 once it is set. -/
theorem Engine.is_evt_same (e : Engine) (f : Fld) (h : f.hi = f.lo) (h64 : f.hi < 64) : (e.evt f).is f = true := by
  simp only [Engine.is, Engine.evt]
  rw [Engine.get_put_same _ _ _ h64 (by omega)]
  have : f.hi + 1 - f.lo = 1 := by omega
  simp [this]

end Sys2Proof.Machine
end

