-- ==== Sys2Proof/Laws/State.lean ====
section
/-!
SUPPORT. Laws/State.lean: what each named update leaves as it is, one lemma per field, and what the gates of a command let happen.
-/
namespace Sys2Proof.Machine

/-! ### The parts of the block -/

@[simp] theorem State.onEng_pending (s : State) (f : Engine → Engine) : (s.onEng f).pending = s.pending := (rfl)
@[simp] theorem State.onEng_pwr (s : State) (f : Engine → Engine) : (s.onEng f).pwr = s.pwr := (rfl)
@[simp] theorem State.onEng_stw (s : State) (f : Engine → Engine) : (s.onEng f).stw = s.stw := (rfl)
@[simp] theorem State.onEng_fld (s : State) (f : Engine → Engine) : (s.onEng f).fld = s.fld := (rfl)
@[simp] theorem State.onEng_eng (s : State) (f : Engine → Engine) : (s.onEng f).eng = f s.eng := (rfl)
@[simp] theorem State.onStw_pending (s : State) (f : Stw → Stw) : (s.onStw f).pending = s.pending := (rfl)
@[simp] theorem State.onStw_pwr (s : State) (f : Stw → Stw) : (s.onStw f).pwr = s.pwr := (rfl)
@[simp] theorem State.onStw_stw (s : State) (f : Stw → Stw) : (s.onStw f).stw = f s.stw := (rfl)
@[simp] theorem State.onStw_fld (s : State) (f : Stw → Stw) : (s.onStw f).fld = s.fld := (rfl)
@[simp] theorem State.onStw_eng (s : State) (f : Stw → Stw) : (s.onStw f).eng = s.eng := (rfl)

/-! ### The gates -/

/-- A command of the engine acts while the engine is up. -/
theorem engineStep_up {s : State} {f : Engine → Engine} (h : s.engineUp = true) : engineStep s f = .next (s.onEng f) := by
  simp [engineStep, h]
/-- It has no effect otherwise. -/
theorem engineStep_down {s : State} {f : Engine → Engine} (h : s.engineUp = false) : engineStep s f = .next s := by
  simp [engineStep, h]
/-- A command of the host also needs the PCIe end point. -/
theorem hostStep_up {s : State} {f : Engine → Engine} (h : s.engineUp = true) (hp : s.pcieUp = true) :
    hostStep s f = .next (s.onEng f) := by
  simp [hostStep, h, hp]
theorem hostStep_down {s : State} {f : Engine → Engine} (h : s.engineUp = false ∨ s.pcieUp = false) : hostStep s f = .next s := by
  rcases h with h | h <;> simp [hostStep, h]
/-- A step of the steward acts while its firmware runs. -/
theorem stewardStep_run {s : State} {f : State → State} (h : s.stw.run = .running) : stewardStep s f = .next (f s) := by
  simp [stewardStep, h]
theorem stewardStep_idle {s : State} {f : State → State} (h : s.stw.run ≠ .running) : stewardStep s f = .next s := by
  simp [stewardStep, h]

/-- Whatever a command of the engine does, only the engine changes. -/
theorem engineStep_frame {s t : State} {f : Engine → Engine} (h : engineStep s f = .next t) :
    t.pending = s.pending ∧ t.pwr = s.pwr ∧ t.stw = s.stw ∧ t.fld = s.fld := by
  simp only [engineStep, Host.Outcome.next.injEq] at h
  subst h; split <;> exact ⟨rfl, rfl, rfl, rfl⟩
theorem hostStep_frame {s t : State} {f : Engine → Engine} (h : hostStep s f = .next t) :
    t.pending = s.pending ∧ t.pwr = s.pwr ∧ t.stw = s.stw ∧ t.fld = s.fld := by
  simp only [hostStep, Host.Outcome.next.injEq] at h
  subst h; split <;> exact ⟨rfl, rfl, rfl, rfl⟩

/-- A step takes the command at the front of the queue. -/
@[simp] theorem step_cons (s : State) (c : Instr) (r : List Instr) (h : s.pending = c :: r) :
    step s = exec c { s with pending := r } := by
  simp [step, h]
/-- With no command waiting it is one core cycle. -/
@[simp] theorem step_nil (s : State) (h : s.pending = []) : step s = .next s.tick := by
  simp [step, h]

/-! ### `Engine.wr` -/

@[simp] theorem Engine.wr_time (e : Engine) (off v : Nat) : (e.wr off v).time = e.time := (rfl)
@[simp] theorem Engine.wr_cyc (e : Engine) (off v : Nat) : (e.wr off v).cyc = e.cyc := (rfl)
@[simp] theorem Engine.wr_mem (e : Engine) (off v : Nat) : (e.wr off v).mem = e.mem := (rfl)
@[simp] theorem Engine.wr_poison (e : Engine) (off v : Nat) : (e.wr off v).poison = e.poison := (rfl)
@[simp] theorem Engine.wr_freeCtr (e : Engine) (off v : Nat) : (e.wr off v).freeCtr = e.freeCtr := (rfl)
@[simp] theorem Engine.wr_out (e : Engine) (off v : Nat) : (e.wr off v).out = e.out := (rfl)
@[simp] theorem Engine.wr_phys (e : Engine) (off v : Nat) : (e.wr off v).phys = e.phys := (rfl)
@[simp] theorem Engine.wr_doms (e : Engine) (off v : Nat) : (e.wr off v).doms = e.doms := (rfl)
@[simp] theorem Engine.wr_kol (e : Engine) (off v : Nat) : (e.wr off v).kol = e.kol := (rfl)
@[simp] theorem Engine.wr_mbData (e : Engine) (off v : Nat) : (e.wr off v).mbData = e.mbData := (rfl)
@[simp] theorem Engine.wr_hif (e : Engine) (off v : Nat) : (e.wr off v).hif = e.hif := (rfl)
@[simp] theorem Engine.wr_err (e : Engine) (off v : Nat) : (e.wr off v).err = e.err := (rfl)
@[simp] theorem Engine.wr_gln (e : Engine) (off v : Nat) : (e.wr off v).gln = e.gln := (rfl)
@[simp] theorem Engine.wr_pkts (e : Engine) (off v : Nat) : (e.wr off v).pkts = e.pkts := (rfl)
@[simp] theorem Engine.wr_nextPkt (e : Engine) (off v : Nat) : (e.wr off v).nextPkt = e.nextPkt := (rfl)
@[simp] theorem Engine.wr_rx (e : Engine) (off v : Nat) : (e.wr off v).rx = e.rx := (rfl)
@[simp] theorem Engine.wr_tab (e : Engine) (off v : Nat) : (e.wr off v).tab = e.tab := (rfl)
@[simp] theorem Engine.wr_gft (e : Engine) (off v : Nat) : (e.wr off v).gft = e.gft := (rfl)
@[simp] theorem Engine.wr_shf (e : Engine) (off v : Nat) : (e.wr off v).shf = e.shf := (rfl)
@[simp] theorem Engine.wr_orc (e : Engine) (off v : Nat) : (e.wr off v).orc = e.orc := (rfl)
@[simp] theorem Engine.wr_mil (e : Engine) (off v : Nat) : (e.wr off v).mil = e.mil := (rfl)
@[simp] theorem Engine.wr_ril (e : Engine) (off v : Nat) : (e.wr off v).ril = e.ril := (rfl)
@[simp] theorem Engine.wr_num (e : Engine) (off v : Nat) : (e.wr off v).num = e.num := (rfl)
@[simp] theorem Engine.wr_slc (e : Engine) (off v : Nat) : (e.wr off v).slc = e.slc := (rfl)
@[simp] theorem Engine.wr_gar (e : Engine) (off v : Nat) : (e.wr off v).gar = e.gar := (rfl)
@[simp] theorem Engine.wr_flg (e : Engine) (off v : Nat) : (e.wr off v).flg = e.flg := (rfl)
@[simp] theorem Engine.wr_used (e : Engine) (off v : Nat) : (e.wr off v).used = e.used := (rfl)
@[simp] theorem Engine.wr_lastOp (e : Engine) (off v : Nat) : (e.wr off v).lastOp = e.lastOp := (rfl)
@[simp] theorem Engine.wr_glnKeep (e : Engine) (off v : Nat) : (e.wr off v).glnKeep = e.glnKeep := (rfl)

/-! ### `Engine.put` -/

@[simp] theorem Engine.put_time (e : Engine) (f : Fld) (v : Nat) : (e.put f v).time = e.time := (rfl)
@[simp] theorem Engine.put_cyc (e : Engine) (f : Fld) (v : Nat) : (e.put f v).cyc = e.cyc := (rfl)
@[simp] theorem Engine.put_mem (e : Engine) (f : Fld) (v : Nat) : (e.put f v).mem = e.mem := (rfl)
@[simp] theorem Engine.put_poison (e : Engine) (f : Fld) (v : Nat) : (e.put f v).poison = e.poison := (rfl)
@[simp] theorem Engine.put_freeCtr (e : Engine) (f : Fld) (v : Nat) : (e.put f v).freeCtr = e.freeCtr := (rfl)
@[simp] theorem Engine.put_out (e : Engine) (f : Fld) (v : Nat) : (e.put f v).out = e.out := (rfl)
@[simp] theorem Engine.put_phys (e : Engine) (f : Fld) (v : Nat) : (e.put f v).phys = e.phys := (rfl)
@[simp] theorem Engine.put_doms (e : Engine) (f : Fld) (v : Nat) : (e.put f v).doms = e.doms := (rfl)
@[simp] theorem Engine.put_kol (e : Engine) (f : Fld) (v : Nat) : (e.put f v).kol = e.kol := (rfl)
@[simp] theorem Engine.put_mbData (e : Engine) (f : Fld) (v : Nat) : (e.put f v).mbData = e.mbData := (rfl)
@[simp] theorem Engine.put_hif (e : Engine) (f : Fld) (v : Nat) : (e.put f v).hif = e.hif := (rfl)
@[simp] theorem Engine.put_err (e : Engine) (f : Fld) (v : Nat) : (e.put f v).err = e.err := (rfl)
@[simp] theorem Engine.put_gln (e : Engine) (f : Fld) (v : Nat) : (e.put f v).gln = e.gln := (rfl)
@[simp] theorem Engine.put_pkts (e : Engine) (f : Fld) (v : Nat) : (e.put f v).pkts = e.pkts := (rfl)
@[simp] theorem Engine.put_nextPkt (e : Engine) (f : Fld) (v : Nat) : (e.put f v).nextPkt = e.nextPkt := (rfl)
@[simp] theorem Engine.put_rx (e : Engine) (f : Fld) (v : Nat) : (e.put f v).rx = e.rx := (rfl)
@[simp] theorem Engine.put_tab (e : Engine) (f : Fld) (v : Nat) : (e.put f v).tab = e.tab := (rfl)
@[simp] theorem Engine.put_gft (e : Engine) (f : Fld) (v : Nat) : (e.put f v).gft = e.gft := (rfl)
@[simp] theorem Engine.put_shf (e : Engine) (f : Fld) (v : Nat) : (e.put f v).shf = e.shf := (rfl)
@[simp] theorem Engine.put_orc (e : Engine) (f : Fld) (v : Nat) : (e.put f v).orc = e.orc := (rfl)
@[simp] theorem Engine.put_mil (e : Engine) (f : Fld) (v : Nat) : (e.put f v).mil = e.mil := (rfl)
@[simp] theorem Engine.put_ril (e : Engine) (f : Fld) (v : Nat) : (e.put f v).ril = e.ril := (rfl)
@[simp] theorem Engine.put_num (e : Engine) (f : Fld) (v : Nat) : (e.put f v).num = e.num := (rfl)
@[simp] theorem Engine.put_slc (e : Engine) (f : Fld) (v : Nat) : (e.put f v).slc = e.slc := (rfl)
@[simp] theorem Engine.put_gar (e : Engine) (f : Fld) (v : Nat) : (e.put f v).gar = e.gar := (rfl)
@[simp] theorem Engine.put_flg (e : Engine) (f : Fld) (v : Nat) : (e.put f v).flg = e.flg := (rfl)
@[simp] theorem Engine.put_used (e : Engine) (f : Fld) (v : Nat) : (e.put f v).used = e.used := (rfl)
@[simp] theorem Engine.put_lastOp (e : Engine) (f : Fld) (v : Nat) : (e.put f v).lastOp = e.lastOp := (rfl)
@[simp] theorem Engine.put_glnKeep (e : Engine) (f : Fld) (v : Nat) : (e.put f v).glnKeep = e.glnKeep := (rfl)

/-! ### `Engine.evt` -/

@[simp] theorem Engine.evt_time (e : Engine) (f : Fld) : (e.evt f).time = e.time := (rfl)
@[simp] theorem Engine.evt_cyc (e : Engine) (f : Fld) : (e.evt f).cyc = e.cyc := (rfl)
@[simp] theorem Engine.evt_mem (e : Engine) (f : Fld) : (e.evt f).mem = e.mem := (rfl)
@[simp] theorem Engine.evt_poison (e : Engine) (f : Fld) : (e.evt f).poison = e.poison := (rfl)
@[simp] theorem Engine.evt_freeCtr (e : Engine) (f : Fld) : (e.evt f).freeCtr = e.freeCtr := (rfl)
@[simp] theorem Engine.evt_out (e : Engine) (f : Fld) : (e.evt f).out = e.out := (rfl)
@[simp] theorem Engine.evt_phys (e : Engine) (f : Fld) : (e.evt f).phys = e.phys := (rfl)
@[simp] theorem Engine.evt_doms (e : Engine) (f : Fld) : (e.evt f).doms = e.doms := (rfl)
@[simp] theorem Engine.evt_kol (e : Engine) (f : Fld) : (e.evt f).kol = e.kol := (rfl)
@[simp] theorem Engine.evt_mbData (e : Engine) (f : Fld) : (e.evt f).mbData = e.mbData := (rfl)
@[simp] theorem Engine.evt_hif (e : Engine) (f : Fld) : (e.evt f).hif = e.hif := (rfl)
@[simp] theorem Engine.evt_err (e : Engine) (f : Fld) : (e.evt f).err = e.err := (rfl)
@[simp] theorem Engine.evt_gln (e : Engine) (f : Fld) : (e.evt f).gln = e.gln := (rfl)
@[simp] theorem Engine.evt_pkts (e : Engine) (f : Fld) : (e.evt f).pkts = e.pkts := (rfl)
@[simp] theorem Engine.evt_nextPkt (e : Engine) (f : Fld) : (e.evt f).nextPkt = e.nextPkt := (rfl)
@[simp] theorem Engine.evt_rx (e : Engine) (f : Fld) : (e.evt f).rx = e.rx := (rfl)
@[simp] theorem Engine.evt_tab (e : Engine) (f : Fld) : (e.evt f).tab = e.tab := (rfl)
@[simp] theorem Engine.evt_gft (e : Engine) (f : Fld) : (e.evt f).gft = e.gft := (rfl)
@[simp] theorem Engine.evt_shf (e : Engine) (f : Fld) : (e.evt f).shf = e.shf := (rfl)
@[simp] theorem Engine.evt_orc (e : Engine) (f : Fld) : (e.evt f).orc = e.orc := (rfl)
@[simp] theorem Engine.evt_mil (e : Engine) (f : Fld) : (e.evt f).mil = e.mil := (rfl)
@[simp] theorem Engine.evt_ril (e : Engine) (f : Fld) : (e.evt f).ril = e.ril := (rfl)
@[simp] theorem Engine.evt_num (e : Engine) (f : Fld) : (e.evt f).num = e.num := (rfl)
@[simp] theorem Engine.evt_slc (e : Engine) (f : Fld) : (e.evt f).slc = e.slc := (rfl)
@[simp] theorem Engine.evt_gar (e : Engine) (f : Fld) : (e.evt f).gar = e.gar := (rfl)
@[simp] theorem Engine.evt_flg (e : Engine) (f : Fld) : (e.evt f).flg = e.flg := (rfl)
@[simp] theorem Engine.evt_used (e : Engine) (f : Fld) : (e.evt f).used = e.used := (rfl)
@[simp] theorem Engine.evt_lastOp (e : Engine) (f : Fld) : (e.evt f).lastOp = e.lastOp := (rfl)
@[simp] theorem Engine.evt_glnKeep (e : Engine) (f : Fld) : (e.evt f).glnKeep = e.glnKeep := (rfl)

/-! ### `Engine.countN` -/

@[simp] theorem Engine.countN_time (e : Engine) (off n : Nat) : (e.countN off n).time = e.time := (rfl)
@[simp] theorem Engine.countN_cyc (e : Engine) (off n : Nat) : (e.countN off n).cyc = e.cyc := (rfl)
@[simp] theorem Engine.countN_mem (e : Engine) (off n : Nat) : (e.countN off n).mem = e.mem := (rfl)
@[simp] theorem Engine.countN_poison (e : Engine) (off n : Nat) : (e.countN off n).poison = e.poison := (rfl)
@[simp] theorem Engine.countN_freeCtr (e : Engine) (off n : Nat) : (e.countN off n).freeCtr = e.freeCtr := (rfl)
@[simp] theorem Engine.countN_out (e : Engine) (off n : Nat) : (e.countN off n).out = e.out := (rfl)
@[simp] theorem Engine.countN_phys (e : Engine) (off n : Nat) : (e.countN off n).phys = e.phys := (rfl)
@[simp] theorem Engine.countN_doms (e : Engine) (off n : Nat) : (e.countN off n).doms = e.doms := (rfl)
@[simp] theorem Engine.countN_kol (e : Engine) (off n : Nat) : (e.countN off n).kol = e.kol := (rfl)
@[simp] theorem Engine.countN_mbData (e : Engine) (off n : Nat) : (e.countN off n).mbData = e.mbData := (rfl)
@[simp] theorem Engine.countN_hif (e : Engine) (off n : Nat) : (e.countN off n).hif = e.hif := (rfl)
@[simp] theorem Engine.countN_err (e : Engine) (off n : Nat) : (e.countN off n).err = e.err := (rfl)
@[simp] theorem Engine.countN_gln (e : Engine) (off n : Nat) : (e.countN off n).gln = e.gln := (rfl)
@[simp] theorem Engine.countN_pkts (e : Engine) (off n : Nat) : (e.countN off n).pkts = e.pkts := (rfl)
@[simp] theorem Engine.countN_nextPkt (e : Engine) (off n : Nat) : (e.countN off n).nextPkt = e.nextPkt := (rfl)
@[simp] theorem Engine.countN_rx (e : Engine) (off n : Nat) : (e.countN off n).rx = e.rx := (rfl)
@[simp] theorem Engine.countN_tab (e : Engine) (off n : Nat) : (e.countN off n).tab = e.tab := (rfl)
@[simp] theorem Engine.countN_gft (e : Engine) (off n : Nat) : (e.countN off n).gft = e.gft := (rfl)
@[simp] theorem Engine.countN_shf (e : Engine) (off n : Nat) : (e.countN off n).shf = e.shf := (rfl)
@[simp] theorem Engine.countN_orc (e : Engine) (off n : Nat) : (e.countN off n).orc = e.orc := (rfl)
@[simp] theorem Engine.countN_mil (e : Engine) (off n : Nat) : (e.countN off n).mil = e.mil := (rfl)
@[simp] theorem Engine.countN_ril (e : Engine) (off n : Nat) : (e.countN off n).ril = e.ril := (rfl)
@[simp] theorem Engine.countN_num (e : Engine) (off n : Nat) : (e.countN off n).num = e.num := (rfl)
@[simp] theorem Engine.countN_slc (e : Engine) (off n : Nat) : (e.countN off n).slc = e.slc := (rfl)
@[simp] theorem Engine.countN_gar (e : Engine) (off n : Nat) : (e.countN off n).gar = e.gar := (rfl)
@[simp] theorem Engine.countN_flg (e : Engine) (off n : Nat) : (e.countN off n).flg = e.flg := (rfl)
@[simp] theorem Engine.countN_used (e : Engine) (off n : Nat) : (e.countN off n).used = e.used := (rfl)
@[simp] theorem Engine.countN_lastOp (e : Engine) (off n : Nat) : (e.countN off n).lastOp = e.lastOp := (rfl)
@[simp] theorem Engine.countN_glnKeep (e : Engine) (off n : Nat) : (e.countN off n).glnKeep = e.glnKeep := (rfl)

/-! ### `Engine.count` -/

@[simp] theorem Engine.count_time (e : Engine) (off : Nat) : (e.count off).time = e.time := (rfl)
@[simp] theorem Engine.count_cyc (e : Engine) (off : Nat) : (e.count off).cyc = e.cyc := (rfl)
@[simp] theorem Engine.count_mem (e : Engine) (off : Nat) : (e.count off).mem = e.mem := (rfl)
@[simp] theorem Engine.count_poison (e : Engine) (off : Nat) : (e.count off).poison = e.poison := (rfl)
@[simp] theorem Engine.count_freeCtr (e : Engine) (off : Nat) : (e.count off).freeCtr = e.freeCtr := (rfl)
@[simp] theorem Engine.count_out (e : Engine) (off : Nat) : (e.count off).out = e.out := (rfl)
@[simp] theorem Engine.count_phys (e : Engine) (off : Nat) : (e.count off).phys = e.phys := (rfl)
@[simp] theorem Engine.count_doms (e : Engine) (off : Nat) : (e.count off).doms = e.doms := (rfl)
@[simp] theorem Engine.count_kol (e : Engine) (off : Nat) : (e.count off).kol = e.kol := (rfl)
@[simp] theorem Engine.count_mbData (e : Engine) (off : Nat) : (e.count off).mbData = e.mbData := (rfl)
@[simp] theorem Engine.count_hif (e : Engine) (off : Nat) : (e.count off).hif = e.hif := (rfl)
@[simp] theorem Engine.count_err (e : Engine) (off : Nat) : (e.count off).err = e.err := (rfl)
@[simp] theorem Engine.count_gln (e : Engine) (off : Nat) : (e.count off).gln = e.gln := (rfl)
@[simp] theorem Engine.count_pkts (e : Engine) (off : Nat) : (e.count off).pkts = e.pkts := (rfl)
@[simp] theorem Engine.count_nextPkt (e : Engine) (off : Nat) : (e.count off).nextPkt = e.nextPkt := (rfl)
@[simp] theorem Engine.count_rx (e : Engine) (off : Nat) : (e.count off).rx = e.rx := (rfl)
@[simp] theorem Engine.count_tab (e : Engine) (off : Nat) : (e.count off).tab = e.tab := (rfl)
@[simp] theorem Engine.count_gft (e : Engine) (off : Nat) : (e.count off).gft = e.gft := (rfl)
@[simp] theorem Engine.count_shf (e : Engine) (off : Nat) : (e.count off).shf = e.shf := (rfl)
@[simp] theorem Engine.count_orc (e : Engine) (off : Nat) : (e.count off).orc = e.orc := (rfl)
@[simp] theorem Engine.count_mil (e : Engine) (off : Nat) : (e.count off).mil = e.mil := (rfl)
@[simp] theorem Engine.count_ril (e : Engine) (off : Nat) : (e.count off).ril = e.ril := (rfl)
@[simp] theorem Engine.count_num (e : Engine) (off : Nat) : (e.count off).num = e.num := (rfl)
@[simp] theorem Engine.count_slc (e : Engine) (off : Nat) : (e.count off).slc = e.slc := (rfl)
@[simp] theorem Engine.count_gar (e : Engine) (off : Nat) : (e.count off).gar = e.gar := (rfl)
@[simp] theorem Engine.count_flg (e : Engine) (off : Nat) : (e.count off).flg = e.flg := (rfl)
@[simp] theorem Engine.count_used (e : Engine) (off : Nat) : (e.count off).used = e.used := (rfl)
@[simp] theorem Engine.count_lastOp (e : Engine) (off : Nat) : (e.count off).lastOp = e.lastOp := (rfl)
@[simp] theorem Engine.count_glnKeep (e : Engine) (off : Nat) : (e.count off).glnKeep = e.glnKeep := (rfl)

/-! ### `Engine.tallyN` -/

@[simp] theorem Engine.tallyN_time (e : Engine) (off n : Nat) : (e.tallyN off n).time = e.time := (rfl)
@[simp] theorem Engine.tallyN_cyc (e : Engine) (off n : Nat) : (e.tallyN off n).cyc = e.cyc := (rfl)
@[simp] theorem Engine.tallyN_mem (e : Engine) (off n : Nat) : (e.tallyN off n).mem = e.mem := (rfl)
@[simp] theorem Engine.tallyN_poison (e : Engine) (off n : Nat) : (e.tallyN off n).poison = e.poison := (rfl)
@[simp] theorem Engine.tallyN_freeCtr (e : Engine) (off n : Nat) : (e.tallyN off n).freeCtr = e.freeCtr := (rfl)
@[simp] theorem Engine.tallyN_out (e : Engine) (off n : Nat) : (e.tallyN off n).out = e.out := (rfl)
@[simp] theorem Engine.tallyN_phys (e : Engine) (off n : Nat) : (e.tallyN off n).phys = e.phys := (rfl)
@[simp] theorem Engine.tallyN_doms (e : Engine) (off n : Nat) : (e.tallyN off n).doms = e.doms := (rfl)
@[simp] theorem Engine.tallyN_kol (e : Engine) (off n : Nat) : (e.tallyN off n).kol = e.kol := (rfl)
@[simp] theorem Engine.tallyN_mbData (e : Engine) (off n : Nat) : (e.tallyN off n).mbData = e.mbData := (rfl)
@[simp] theorem Engine.tallyN_hif (e : Engine) (off n : Nat) : (e.tallyN off n).hif = e.hif := (rfl)
@[simp] theorem Engine.tallyN_err (e : Engine) (off n : Nat) : (e.tallyN off n).err = e.err := (rfl)
@[simp] theorem Engine.tallyN_gln (e : Engine) (off n : Nat) : (e.tallyN off n).gln = e.gln := (rfl)
@[simp] theorem Engine.tallyN_pkts (e : Engine) (off n : Nat) : (e.tallyN off n).pkts = e.pkts := (rfl)
@[simp] theorem Engine.tallyN_nextPkt (e : Engine) (off n : Nat) : (e.tallyN off n).nextPkt = e.nextPkt := (rfl)
@[simp] theorem Engine.tallyN_rx (e : Engine) (off n : Nat) : (e.tallyN off n).rx = e.rx := (rfl)
@[simp] theorem Engine.tallyN_tab (e : Engine) (off n : Nat) : (e.tallyN off n).tab = e.tab := (rfl)
@[simp] theorem Engine.tallyN_gft (e : Engine) (off n : Nat) : (e.tallyN off n).gft = e.gft := (rfl)
@[simp] theorem Engine.tallyN_shf (e : Engine) (off n : Nat) : (e.tallyN off n).shf = e.shf := (rfl)
@[simp] theorem Engine.tallyN_orc (e : Engine) (off n : Nat) : (e.tallyN off n).orc = e.orc := (rfl)
@[simp] theorem Engine.tallyN_mil (e : Engine) (off n : Nat) : (e.tallyN off n).mil = e.mil := (rfl)
@[simp] theorem Engine.tallyN_ril (e : Engine) (off n : Nat) : (e.tallyN off n).ril = e.ril := (rfl)
@[simp] theorem Engine.tallyN_num (e : Engine) (off n : Nat) : (e.tallyN off n).num = e.num := (rfl)
@[simp] theorem Engine.tallyN_slc (e : Engine) (off n : Nat) : (e.tallyN off n).slc = e.slc := (rfl)
@[simp] theorem Engine.tallyN_gar (e : Engine) (off n : Nat) : (e.tallyN off n).gar = e.gar := (rfl)
@[simp] theorem Engine.tallyN_flg (e : Engine) (off n : Nat) : (e.tallyN off n).flg = e.flg := (rfl)
@[simp] theorem Engine.tallyN_used (e : Engine) (off n : Nat) : (e.tallyN off n).used = e.used := (rfl)
@[simp] theorem Engine.tallyN_lastOp (e : Engine) (off n : Nat) : (e.tallyN off n).lastOp = e.lastOp := (rfl)
@[simp] theorem Engine.tallyN_glnKeep (e : Engine) (off n : Nat) : (e.tallyN off n).glnKeep = e.glnKeep := (rfl)

/-! ### `Engine.tally` -/

@[simp] theorem Engine.tally_time (e : Engine) (off : Nat) : (e.tally off).time = e.time := (rfl)
@[simp] theorem Engine.tally_cyc (e : Engine) (off : Nat) : (e.tally off).cyc = e.cyc := (rfl)
@[simp] theorem Engine.tally_mem (e : Engine) (off : Nat) : (e.tally off).mem = e.mem := (rfl)
@[simp] theorem Engine.tally_poison (e : Engine) (off : Nat) : (e.tally off).poison = e.poison := (rfl)
@[simp] theorem Engine.tally_freeCtr (e : Engine) (off : Nat) : (e.tally off).freeCtr = e.freeCtr := (rfl)
@[simp] theorem Engine.tally_out (e : Engine) (off : Nat) : (e.tally off).out = e.out := (rfl)
@[simp] theorem Engine.tally_phys (e : Engine) (off : Nat) : (e.tally off).phys = e.phys := (rfl)
@[simp] theorem Engine.tally_doms (e : Engine) (off : Nat) : (e.tally off).doms = e.doms := (rfl)
@[simp] theorem Engine.tally_kol (e : Engine) (off : Nat) : (e.tally off).kol = e.kol := (rfl)
@[simp] theorem Engine.tally_mbData (e : Engine) (off : Nat) : (e.tally off).mbData = e.mbData := (rfl)
@[simp] theorem Engine.tally_hif (e : Engine) (off : Nat) : (e.tally off).hif = e.hif := (rfl)
@[simp] theorem Engine.tally_err (e : Engine) (off : Nat) : (e.tally off).err = e.err := (rfl)
@[simp] theorem Engine.tally_gln (e : Engine) (off : Nat) : (e.tally off).gln = e.gln := (rfl)
@[simp] theorem Engine.tally_pkts (e : Engine) (off : Nat) : (e.tally off).pkts = e.pkts := (rfl)
@[simp] theorem Engine.tally_nextPkt (e : Engine) (off : Nat) : (e.tally off).nextPkt = e.nextPkt := (rfl)
@[simp] theorem Engine.tally_rx (e : Engine) (off : Nat) : (e.tally off).rx = e.rx := (rfl)
@[simp] theorem Engine.tally_tab (e : Engine) (off : Nat) : (e.tally off).tab = e.tab := (rfl)
@[simp] theorem Engine.tally_gft (e : Engine) (off : Nat) : (e.tally off).gft = e.gft := (rfl)
@[simp] theorem Engine.tally_shf (e : Engine) (off : Nat) : (e.tally off).shf = e.shf := (rfl)
@[simp] theorem Engine.tally_orc (e : Engine) (off : Nat) : (e.tally off).orc = e.orc := (rfl)
@[simp] theorem Engine.tally_mil (e : Engine) (off : Nat) : (e.tally off).mil = e.mil := (rfl)
@[simp] theorem Engine.tally_ril (e : Engine) (off : Nat) : (e.tally off).ril = e.ril := (rfl)
@[simp] theorem Engine.tally_num (e : Engine) (off : Nat) : (e.tally off).num = e.num := (rfl)
@[simp] theorem Engine.tally_slc (e : Engine) (off : Nat) : (e.tally off).slc = e.slc := (rfl)
@[simp] theorem Engine.tally_gar (e : Engine) (off : Nat) : (e.tally off).gar = e.gar := (rfl)
@[simp] theorem Engine.tally_flg (e : Engine) (off : Nat) : (e.tally off).flg = e.flg := (rfl)
@[simp] theorem Engine.tally_used (e : Engine) (off : Nat) : (e.tally off).used = e.used := (rfl)
@[simp] theorem Engine.tally_lastOp (e : Engine) (off : Nat) : (e.tally off).lastOp = e.lastOp := (rfl)
@[simp] theorem Engine.tally_glnKeep (e : Engine) (off : Nat) : (e.tally off).glnKeep = e.glnKeep := (rfl)

/-! ### `Engine.alwaysN` -/

@[simp] theorem Engine.alwaysN_time (e : Engine) (off n : Nat) : (e.alwaysN off n).time = e.time := (rfl)
@[simp] theorem Engine.alwaysN_cyc (e : Engine) (off n : Nat) : (e.alwaysN off n).cyc = e.cyc := (rfl)
@[simp] theorem Engine.alwaysN_mem (e : Engine) (off n : Nat) : (e.alwaysN off n).mem = e.mem := (rfl)
@[simp] theorem Engine.alwaysN_poison (e : Engine) (off n : Nat) : (e.alwaysN off n).poison = e.poison := (rfl)
@[simp] theorem Engine.alwaysN_freeCtr (e : Engine) (off n : Nat) : (e.alwaysN off n).freeCtr = e.freeCtr := (rfl)
@[simp] theorem Engine.alwaysN_out (e : Engine) (off n : Nat) : (e.alwaysN off n).out = e.out := (rfl)
@[simp] theorem Engine.alwaysN_phys (e : Engine) (off n : Nat) : (e.alwaysN off n).phys = e.phys := (rfl)
@[simp] theorem Engine.alwaysN_doms (e : Engine) (off n : Nat) : (e.alwaysN off n).doms = e.doms := (rfl)
@[simp] theorem Engine.alwaysN_kol (e : Engine) (off n : Nat) : (e.alwaysN off n).kol = e.kol := (rfl)
@[simp] theorem Engine.alwaysN_mbData (e : Engine) (off n : Nat) : (e.alwaysN off n).mbData = e.mbData := (rfl)
@[simp] theorem Engine.alwaysN_hif (e : Engine) (off n : Nat) : (e.alwaysN off n).hif = e.hif := (rfl)
@[simp] theorem Engine.alwaysN_err (e : Engine) (off n : Nat) : (e.alwaysN off n).err = e.err := (rfl)
@[simp] theorem Engine.alwaysN_gln (e : Engine) (off n : Nat) : (e.alwaysN off n).gln = e.gln := (rfl)
@[simp] theorem Engine.alwaysN_pkts (e : Engine) (off n : Nat) : (e.alwaysN off n).pkts = e.pkts := (rfl)
@[simp] theorem Engine.alwaysN_nextPkt (e : Engine) (off n : Nat) : (e.alwaysN off n).nextPkt = e.nextPkt := (rfl)
@[simp] theorem Engine.alwaysN_rx (e : Engine) (off n : Nat) : (e.alwaysN off n).rx = e.rx := (rfl)
@[simp] theorem Engine.alwaysN_tab (e : Engine) (off n : Nat) : (e.alwaysN off n).tab = e.tab := (rfl)
@[simp] theorem Engine.alwaysN_gft (e : Engine) (off n : Nat) : (e.alwaysN off n).gft = e.gft := (rfl)
@[simp] theorem Engine.alwaysN_shf (e : Engine) (off n : Nat) : (e.alwaysN off n).shf = e.shf := (rfl)
@[simp] theorem Engine.alwaysN_orc (e : Engine) (off n : Nat) : (e.alwaysN off n).orc = e.orc := (rfl)
@[simp] theorem Engine.alwaysN_mil (e : Engine) (off n : Nat) : (e.alwaysN off n).mil = e.mil := (rfl)
@[simp] theorem Engine.alwaysN_ril (e : Engine) (off n : Nat) : (e.alwaysN off n).ril = e.ril := (rfl)
@[simp] theorem Engine.alwaysN_num (e : Engine) (off n : Nat) : (e.alwaysN off n).num = e.num := (rfl)
@[simp] theorem Engine.alwaysN_slc (e : Engine) (off n : Nat) : (e.alwaysN off n).slc = e.slc := (rfl)
@[simp] theorem Engine.alwaysN_gar (e : Engine) (off n : Nat) : (e.alwaysN off n).gar = e.gar := (rfl)
@[simp] theorem Engine.alwaysN_flg (e : Engine) (off n : Nat) : (e.alwaysN off n).flg = e.flg := (rfl)
@[simp] theorem Engine.alwaysN_used (e : Engine) (off n : Nat) : (e.alwaysN off n).used = e.used := (rfl)
@[simp] theorem Engine.alwaysN_lastOp (e : Engine) (off n : Nat) : (e.alwaysN off n).lastOp = e.lastOp := (rfl)
@[simp] theorem Engine.alwaysN_glnKeep (e : Engine) (off n : Nat) : (e.alwaysN off n).glnKeep = e.glnKeep := (rfl)

/-! ### `Engine.emit` -/

@[simp] theorem Engine.emit_regs (e : Engine) (o : Out) : (e.emit o).regs = e.regs := (rfl)
@[simp] theorem Engine.emit_time (e : Engine) (o : Out) : (e.emit o).time = e.time := (rfl)
@[simp] theorem Engine.emit_cyc (e : Engine) (o : Out) : (e.emit o).cyc = e.cyc := (rfl)
@[simp] theorem Engine.emit_mem (e : Engine) (o : Out) : (e.emit o).mem = e.mem := (rfl)
@[simp] theorem Engine.emit_poison (e : Engine) (o : Out) : (e.emit o).poison = e.poison := (rfl)
@[simp] theorem Engine.emit_freeCtr (e : Engine) (o : Out) : (e.emit o).freeCtr = e.freeCtr := (rfl)
@[simp] theorem Engine.emit_out (e : Engine) (o : Out) : (e.emit o).out = e.out ++ [o] := (rfl)
@[simp] theorem Engine.emit_phys (e : Engine) (o : Out) : (e.emit o).phys = e.phys := (rfl)
@[simp] theorem Engine.emit_doms (e : Engine) (o : Out) : (e.emit o).doms = e.doms := (rfl)
@[simp] theorem Engine.emit_kol (e : Engine) (o : Out) : (e.emit o).kol = e.kol := (rfl)
@[simp] theorem Engine.emit_mbData (e : Engine) (o : Out) : (e.emit o).mbData = e.mbData := (rfl)
@[simp] theorem Engine.emit_hif (e : Engine) (o : Out) : (e.emit o).hif = e.hif := (rfl)
@[simp] theorem Engine.emit_err (e : Engine) (o : Out) : (e.emit o).err = e.err := (rfl)
@[simp] theorem Engine.emit_gln (e : Engine) (o : Out) : (e.emit o).gln = e.gln := (rfl)
@[simp] theorem Engine.emit_pkts (e : Engine) (o : Out) : (e.emit o).pkts = e.pkts := (rfl)
@[simp] theorem Engine.emit_nextPkt (e : Engine) (o : Out) : (e.emit o).nextPkt = e.nextPkt := (rfl)
@[simp] theorem Engine.emit_rx (e : Engine) (o : Out) : (e.emit o).rx = e.rx := (rfl)
@[simp] theorem Engine.emit_tab (e : Engine) (o : Out) : (e.emit o).tab = e.tab := (rfl)
@[simp] theorem Engine.emit_gft (e : Engine) (o : Out) : (e.emit o).gft = e.gft := (rfl)
@[simp] theorem Engine.emit_shf (e : Engine) (o : Out) : (e.emit o).shf = e.shf := (rfl)
@[simp] theorem Engine.emit_orc (e : Engine) (o : Out) : (e.emit o).orc = e.orc := (rfl)
@[simp] theorem Engine.emit_mil (e : Engine) (o : Out) : (e.emit o).mil = e.mil := (rfl)
@[simp] theorem Engine.emit_ril (e : Engine) (o : Out) : (e.emit o).ril = e.ril := (rfl)
@[simp] theorem Engine.emit_num (e : Engine) (o : Out) : (e.emit o).num = e.num := (rfl)
@[simp] theorem Engine.emit_slc (e : Engine) (o : Out) : (e.emit o).slc = e.slc := (rfl)
@[simp] theorem Engine.emit_gar (e : Engine) (o : Out) : (e.emit o).gar = e.gar := (rfl)
@[simp] theorem Engine.emit_flg (e : Engine) (o : Out) : (e.emit o).flg = e.flg := (rfl)
@[simp] theorem Engine.emit_used (e : Engine) (o : Out) : (e.emit o).used = e.used := (rfl)
@[simp] theorem Engine.emit_lastOp (e : Engine) (o : Out) : (e.emit o).lastOp = e.lastOp := (rfl)
@[simp] theorem Engine.emit_glnKeep (e : Engine) (o : Out) : (e.emit o).glnKeep = e.glnKeep := (rfl)
@[simp] theorem Engine.emit_rd (e : Engine) (o : Out) (r : Nat) : (e.emit o).rd r = e.rd r := (rfl)
@[simp] theorem Engine.emit_get (e : Engine) (o : Out) (r : Fld) : (e.emit o).get r = e.get r := (rfl)

/-! ### `Engine.setPkt` -/

@[simp] theorem Engine.setPkt_regs (e : Engine) (id : Nat) (f : Pkt → Pkt) : (e.setPkt id f).regs = e.regs := (rfl)
@[simp] theorem Engine.setPkt_time (e : Engine) (id : Nat) (f : Pkt → Pkt) : (e.setPkt id f).time = e.time := (rfl)
@[simp] theorem Engine.setPkt_cyc (e : Engine) (id : Nat) (f : Pkt → Pkt) : (e.setPkt id f).cyc = e.cyc := (rfl)
@[simp] theorem Engine.setPkt_mem (e : Engine) (id : Nat) (f : Pkt → Pkt) : (e.setPkt id f).mem = e.mem := (rfl)
@[simp] theorem Engine.setPkt_poison (e : Engine) (id : Nat) (f : Pkt → Pkt) : (e.setPkt id f).poison = e.poison := (rfl)
@[simp] theorem Engine.setPkt_freeCtr (e : Engine) (id : Nat) (f : Pkt → Pkt) : (e.setPkt id f).freeCtr = e.freeCtr := (rfl)
@[simp] theorem Engine.setPkt_out (e : Engine) (id : Nat) (f : Pkt → Pkt) : (e.setPkt id f).out = e.out := (rfl)
@[simp] theorem Engine.setPkt_phys (e : Engine) (id : Nat) (f : Pkt → Pkt) : (e.setPkt id f).phys = e.phys := (rfl)
@[simp] theorem Engine.setPkt_doms (e : Engine) (id : Nat) (f : Pkt → Pkt) : (e.setPkt id f).doms = e.doms := (rfl)
@[simp] theorem Engine.setPkt_kol (e : Engine) (id : Nat) (f : Pkt → Pkt) : (e.setPkt id f).kol = e.kol := (rfl)
@[simp] theorem Engine.setPkt_mbData (e : Engine) (id : Nat) (f : Pkt → Pkt) : (e.setPkt id f).mbData = e.mbData := (rfl)
@[simp] theorem Engine.setPkt_hif (e : Engine) (id : Nat) (f : Pkt → Pkt) : (e.setPkt id f).hif = e.hif := (rfl)
@[simp] theorem Engine.setPkt_err (e : Engine) (id : Nat) (f : Pkt → Pkt) : (e.setPkt id f).err = e.err := (rfl)
@[simp] theorem Engine.setPkt_gln (e : Engine) (id : Nat) (f : Pkt → Pkt) : (e.setPkt id f).gln = e.gln := (rfl)
@[simp] theorem Engine.setPkt_nextPkt (e : Engine) (id : Nat) (f : Pkt → Pkt) : (e.setPkt id f).nextPkt = e.nextPkt := (rfl)
@[simp] theorem Engine.setPkt_rx (e : Engine) (id : Nat) (f : Pkt → Pkt) : (e.setPkt id f).rx = e.rx := (rfl)
@[simp] theorem Engine.setPkt_tab (e : Engine) (id : Nat) (f : Pkt → Pkt) : (e.setPkt id f).tab = e.tab := (rfl)
@[simp] theorem Engine.setPkt_gft (e : Engine) (id : Nat) (f : Pkt → Pkt) : (e.setPkt id f).gft = e.gft := (rfl)
@[simp] theorem Engine.setPkt_shf (e : Engine) (id : Nat) (f : Pkt → Pkt) : (e.setPkt id f).shf = e.shf := (rfl)
@[simp] theorem Engine.setPkt_orc (e : Engine) (id : Nat) (f : Pkt → Pkt) : (e.setPkt id f).orc = e.orc := (rfl)
@[simp] theorem Engine.setPkt_mil (e : Engine) (id : Nat) (f : Pkt → Pkt) : (e.setPkt id f).mil = e.mil := (rfl)
@[simp] theorem Engine.setPkt_ril (e : Engine) (id : Nat) (f : Pkt → Pkt) : (e.setPkt id f).ril = e.ril := (rfl)
@[simp] theorem Engine.setPkt_num (e : Engine) (id : Nat) (f : Pkt → Pkt) : (e.setPkt id f).num = e.num := (rfl)
@[simp] theorem Engine.setPkt_slc (e : Engine) (id : Nat) (f : Pkt → Pkt) : (e.setPkt id f).slc = e.slc := (rfl)
@[simp] theorem Engine.setPkt_gar (e : Engine) (id : Nat) (f : Pkt → Pkt) : (e.setPkt id f).gar = e.gar := (rfl)
@[simp] theorem Engine.setPkt_flg (e : Engine) (id : Nat) (f : Pkt → Pkt) : (e.setPkt id f).flg = e.flg := (rfl)
@[simp] theorem Engine.setPkt_used (e : Engine) (id : Nat) (f : Pkt → Pkt) : (e.setPkt id f).used = e.used := (rfl)
@[simp] theorem Engine.setPkt_lastOp (e : Engine) (id : Nat) (f : Pkt → Pkt) : (e.setPkt id f).lastOp = e.lastOp := (rfl)
@[simp] theorem Engine.setPkt_glnKeep (e : Engine) (id : Nat) (f : Pkt → Pkt) : (e.setPkt id f).glnKeep = e.glnKeep := (rfl)
@[simp] theorem Engine.setPkt_rd (e : Engine) (id : Nat) (f : Pkt → Pkt) (r : Nat) : (e.setPkt id f).rd r = e.rd r := (rfl)
@[simp] theorem Engine.setPkt_get (e : Engine) (id : Nat) (f : Pkt → Pkt) (r : Fld) : (e.setPkt id f).get r = e.get r := (rfl)

/-! ### `Engine.setGln` -/

@[simp] theorem Engine.setGln_regs (e : Engine) (f : Gln → Gln) : (e.setGln f).regs = e.regs := (rfl)
@[simp] theorem Engine.setGln_time (e : Engine) (f : Gln → Gln) : (e.setGln f).time = e.time := (rfl)
@[simp] theorem Engine.setGln_cyc (e : Engine) (f : Gln → Gln) : (e.setGln f).cyc = e.cyc := (rfl)
@[simp] theorem Engine.setGln_mem (e : Engine) (f : Gln → Gln) : (e.setGln f).mem = e.mem := (rfl)
@[simp] theorem Engine.setGln_poison (e : Engine) (f : Gln → Gln) : (e.setGln f).poison = e.poison := (rfl)
@[simp] theorem Engine.setGln_freeCtr (e : Engine) (f : Gln → Gln) : (e.setGln f).freeCtr = e.freeCtr := (rfl)
@[simp] theorem Engine.setGln_out (e : Engine) (f : Gln → Gln) : (e.setGln f).out = e.out := (rfl)
@[simp] theorem Engine.setGln_phys (e : Engine) (f : Gln → Gln) : (e.setGln f).phys = e.phys := (rfl)
@[simp] theorem Engine.setGln_doms (e : Engine) (f : Gln → Gln) : (e.setGln f).doms = e.doms := (rfl)
@[simp] theorem Engine.setGln_kol (e : Engine) (f : Gln → Gln) : (e.setGln f).kol = e.kol := (rfl)
@[simp] theorem Engine.setGln_mbData (e : Engine) (f : Gln → Gln) : (e.setGln f).mbData = e.mbData := (rfl)
@[simp] theorem Engine.setGln_hif (e : Engine) (f : Gln → Gln) : (e.setGln f).hif = e.hif := (rfl)
@[simp] theorem Engine.setGln_err (e : Engine) (f : Gln → Gln) : (e.setGln f).err = e.err := (rfl)
@[simp] theorem Engine.setGln_pkts (e : Engine) (f : Gln → Gln) : (e.setGln f).pkts = e.pkts := (rfl)
@[simp] theorem Engine.setGln_nextPkt (e : Engine) (f : Gln → Gln) : (e.setGln f).nextPkt = e.nextPkt := (rfl)
@[simp] theorem Engine.setGln_rx (e : Engine) (f : Gln → Gln) : (e.setGln f).rx = e.rx := (rfl)
@[simp] theorem Engine.setGln_tab (e : Engine) (f : Gln → Gln) : (e.setGln f).tab = e.tab := (rfl)
@[simp] theorem Engine.setGln_gft (e : Engine) (f : Gln → Gln) : (e.setGln f).gft = e.gft := (rfl)
@[simp] theorem Engine.setGln_shf (e : Engine) (f : Gln → Gln) : (e.setGln f).shf = e.shf := (rfl)
@[simp] theorem Engine.setGln_orc (e : Engine) (f : Gln → Gln) : (e.setGln f).orc = e.orc := (rfl)
@[simp] theorem Engine.setGln_mil (e : Engine) (f : Gln → Gln) : (e.setGln f).mil = e.mil := (rfl)
@[simp] theorem Engine.setGln_ril (e : Engine) (f : Gln → Gln) : (e.setGln f).ril = e.ril := (rfl)
@[simp] theorem Engine.setGln_num (e : Engine) (f : Gln → Gln) : (e.setGln f).num = e.num := (rfl)
@[simp] theorem Engine.setGln_slc (e : Engine) (f : Gln → Gln) : (e.setGln f).slc = e.slc := (rfl)
@[simp] theorem Engine.setGln_gar (e : Engine) (f : Gln → Gln) : (e.setGln f).gar = e.gar := (rfl)
@[simp] theorem Engine.setGln_flg (e : Engine) (f : Gln → Gln) : (e.setGln f).flg = e.flg := (rfl)
@[simp] theorem Engine.setGln_used (e : Engine) (f : Gln → Gln) : (e.setGln f).used = e.used := (rfl)
@[simp] theorem Engine.setGln_lastOp (e : Engine) (f : Gln → Gln) : (e.setGln f).lastOp = e.lastOp := (rfl)
@[simp] theorem Engine.setGln_glnKeep (e : Engine) (f : Gln → Gln) : (e.setGln f).glnKeep = e.glnKeep := (rfl)
@[simp] theorem Engine.setGln_rd (e : Engine) (f : Gln → Gln) (r : Nat) : (e.setGln f).rd r = e.rd r := (rfl)
@[simp] theorem Engine.setGln_get (e : Engine) (f : Gln → Gln) (r : Fld) : (e.setGln f).get r = e.get r := (rfl)

/-! ### `Engine.setRing` -/

@[simp] theorem Engine.setRing_regs (e : Engine) (k : Nat) (f : RingAux → RingAux) : (e.setRing k f).regs = e.regs := (rfl)
@[simp] theorem Engine.setRing_time (e : Engine) (k : Nat) (f : RingAux → RingAux) : (e.setRing k f).time = e.time := (rfl)
@[simp] theorem Engine.setRing_cyc (e : Engine) (k : Nat) (f : RingAux → RingAux) : (e.setRing k f).cyc = e.cyc := (rfl)
@[simp] theorem Engine.setRing_mem (e : Engine) (k : Nat) (f : RingAux → RingAux) : (e.setRing k f).mem = e.mem := (rfl)
@[simp] theorem Engine.setRing_poison (e : Engine) (k : Nat) (f : RingAux → RingAux) : (e.setRing k f).poison = e.poison := (rfl)
@[simp] theorem Engine.setRing_freeCtr (e : Engine) (k : Nat) (f : RingAux → RingAux) : (e.setRing k f).freeCtr = e.freeCtr := (rfl)
@[simp] theorem Engine.setRing_out (e : Engine) (k : Nat) (f : RingAux → RingAux) : (e.setRing k f).out = e.out := (rfl)
@[simp] theorem Engine.setRing_phys (e : Engine) (k : Nat) (f : RingAux → RingAux) : (e.setRing k f).phys = e.phys := (rfl)
@[simp] theorem Engine.setRing_doms (e : Engine) (k : Nat) (f : RingAux → RingAux) : (e.setRing k f).doms = e.doms := (rfl)
@[simp] theorem Engine.setRing_kol (e : Engine) (k : Nat) (f : RingAux → RingAux) : (e.setRing k f).kol = e.kol := (rfl)
@[simp] theorem Engine.setRing_mbData (e : Engine) (k : Nat) (f : RingAux → RingAux) : (e.setRing k f).mbData = e.mbData := (rfl)
@[simp] theorem Engine.setRing_err (e : Engine) (k : Nat) (f : RingAux → RingAux) : (e.setRing k f).err = e.err := (rfl)
@[simp] theorem Engine.setRing_gln (e : Engine) (k : Nat) (f : RingAux → RingAux) : (e.setRing k f).gln = e.gln := (rfl)
@[simp] theorem Engine.setRing_pkts (e : Engine) (k : Nat) (f : RingAux → RingAux) : (e.setRing k f).pkts = e.pkts := (rfl)
@[simp] theorem Engine.setRing_nextPkt (e : Engine) (k : Nat) (f : RingAux → RingAux) : (e.setRing k f).nextPkt = e.nextPkt := (rfl)
@[simp] theorem Engine.setRing_rx (e : Engine) (k : Nat) (f : RingAux → RingAux) : (e.setRing k f).rx = e.rx := (rfl)
@[simp] theorem Engine.setRing_tab (e : Engine) (k : Nat) (f : RingAux → RingAux) : (e.setRing k f).tab = e.tab := (rfl)
@[simp] theorem Engine.setRing_gft (e : Engine) (k : Nat) (f : RingAux → RingAux) : (e.setRing k f).gft = e.gft := (rfl)
@[simp] theorem Engine.setRing_shf (e : Engine) (k : Nat) (f : RingAux → RingAux) : (e.setRing k f).shf = e.shf := (rfl)
@[simp] theorem Engine.setRing_orc (e : Engine) (k : Nat) (f : RingAux → RingAux) : (e.setRing k f).orc = e.orc := (rfl)
@[simp] theorem Engine.setRing_mil (e : Engine) (k : Nat) (f : RingAux → RingAux) : (e.setRing k f).mil = e.mil := (rfl)
@[simp] theorem Engine.setRing_ril (e : Engine) (k : Nat) (f : RingAux → RingAux) : (e.setRing k f).ril = e.ril := (rfl)
@[simp] theorem Engine.setRing_num (e : Engine) (k : Nat) (f : RingAux → RingAux) : (e.setRing k f).num = e.num := (rfl)
@[simp] theorem Engine.setRing_slc (e : Engine) (k : Nat) (f : RingAux → RingAux) : (e.setRing k f).slc = e.slc := (rfl)
@[simp] theorem Engine.setRing_gar (e : Engine) (k : Nat) (f : RingAux → RingAux) : (e.setRing k f).gar = e.gar := (rfl)
@[simp] theorem Engine.setRing_flg (e : Engine) (k : Nat) (f : RingAux → RingAux) : (e.setRing k f).flg = e.flg := (rfl)
@[simp] theorem Engine.setRing_used (e : Engine) (k : Nat) (f : RingAux → RingAux) : (e.setRing k f).used = e.used := (rfl)
@[simp] theorem Engine.setRing_lastOp (e : Engine) (k : Nat) (f : RingAux → RingAux) : (e.setRing k f).lastOp = e.lastOp := (rfl)
@[simp] theorem Engine.setRing_glnKeep (e : Engine) (k : Nat) (f : RingAux → RingAux) : (e.setRing k f).glnKeep = e.glnKeep := (rfl)
@[simp] theorem Engine.setRing_rd (e : Engine) (k : Nat) (f : RingAux → RingAux) (r : Nat) : (e.setRing k f).rd r = e.rd r := (rfl)
@[simp] theorem Engine.setRing_get (e : Engine) (k : Nat) (f : RingAux → RingAux) (r : Fld) : (e.setRing k f).get r = e.get r := (rfl)

/-! ### `Engine.setCmd` -/

@[simp] theorem Engine.setCmd_regs (e : Engine) (id : Nat) (f : Cmd → Cmd) : (e.setCmd id f).regs = e.regs := (rfl)
@[simp] theorem Engine.setCmd_time (e : Engine) (id : Nat) (f : Cmd → Cmd) : (e.setCmd id f).time = e.time := (rfl)
@[simp] theorem Engine.setCmd_cyc (e : Engine) (id : Nat) (f : Cmd → Cmd) : (e.setCmd id f).cyc = e.cyc := (rfl)
@[simp] theorem Engine.setCmd_mem (e : Engine) (id : Nat) (f : Cmd → Cmd) : (e.setCmd id f).mem = e.mem := (rfl)
@[simp] theorem Engine.setCmd_poison (e : Engine) (id : Nat) (f : Cmd → Cmd) : (e.setCmd id f).poison = e.poison := (rfl)
@[simp] theorem Engine.setCmd_freeCtr (e : Engine) (id : Nat) (f : Cmd → Cmd) : (e.setCmd id f).freeCtr = e.freeCtr := (rfl)
@[simp] theorem Engine.setCmd_out (e : Engine) (id : Nat) (f : Cmd → Cmd) : (e.setCmd id f).out = e.out := (rfl)
@[simp] theorem Engine.setCmd_phys (e : Engine) (id : Nat) (f : Cmd → Cmd) : (e.setCmd id f).phys = e.phys := (rfl)
@[simp] theorem Engine.setCmd_doms (e : Engine) (id : Nat) (f : Cmd → Cmd) : (e.setCmd id f).doms = e.doms := (rfl)
@[simp] theorem Engine.setCmd_kol (e : Engine) (id : Nat) (f : Cmd → Cmd) : (e.setCmd id f).kol = e.kol := (rfl)
@[simp] theorem Engine.setCmd_mbData (e : Engine) (id : Nat) (f : Cmd → Cmd) : (e.setCmd id f).mbData = e.mbData := (rfl)
@[simp] theorem Engine.setCmd_err (e : Engine) (id : Nat) (f : Cmd → Cmd) : (e.setCmd id f).err = e.err := (rfl)
@[simp] theorem Engine.setCmd_gln (e : Engine) (id : Nat) (f : Cmd → Cmd) : (e.setCmd id f).gln = e.gln := (rfl)
@[simp] theorem Engine.setCmd_pkts (e : Engine) (id : Nat) (f : Cmd → Cmd) : (e.setCmd id f).pkts = e.pkts := (rfl)
@[simp] theorem Engine.setCmd_nextPkt (e : Engine) (id : Nat) (f : Cmd → Cmd) : (e.setCmd id f).nextPkt = e.nextPkt := (rfl)
@[simp] theorem Engine.setCmd_rx (e : Engine) (id : Nat) (f : Cmd → Cmd) : (e.setCmd id f).rx = e.rx := (rfl)
@[simp] theorem Engine.setCmd_tab (e : Engine) (id : Nat) (f : Cmd → Cmd) : (e.setCmd id f).tab = e.tab := (rfl)
@[simp] theorem Engine.setCmd_gft (e : Engine) (id : Nat) (f : Cmd → Cmd) : (e.setCmd id f).gft = e.gft := (rfl)
@[simp] theorem Engine.setCmd_shf (e : Engine) (id : Nat) (f : Cmd → Cmd) : (e.setCmd id f).shf = e.shf := (rfl)
@[simp] theorem Engine.setCmd_orc (e : Engine) (id : Nat) (f : Cmd → Cmd) : (e.setCmd id f).orc = e.orc := (rfl)
@[simp] theorem Engine.setCmd_mil (e : Engine) (id : Nat) (f : Cmd → Cmd) : (e.setCmd id f).mil = e.mil := (rfl)
@[simp] theorem Engine.setCmd_ril (e : Engine) (id : Nat) (f : Cmd → Cmd) : (e.setCmd id f).ril = e.ril := (rfl)
@[simp] theorem Engine.setCmd_num (e : Engine) (id : Nat) (f : Cmd → Cmd) : (e.setCmd id f).num = e.num := (rfl)
@[simp] theorem Engine.setCmd_slc (e : Engine) (id : Nat) (f : Cmd → Cmd) : (e.setCmd id f).slc = e.slc := (rfl)
@[simp] theorem Engine.setCmd_gar (e : Engine) (id : Nat) (f : Cmd → Cmd) : (e.setCmd id f).gar = e.gar := (rfl)
@[simp] theorem Engine.setCmd_flg (e : Engine) (id : Nat) (f : Cmd → Cmd) : (e.setCmd id f).flg = e.flg := (rfl)
@[simp] theorem Engine.setCmd_used (e : Engine) (id : Nat) (f : Cmd → Cmd) : (e.setCmd id f).used = e.used := (rfl)
@[simp] theorem Engine.setCmd_lastOp (e : Engine) (id : Nat) (f : Cmd → Cmd) : (e.setCmd id f).lastOp = e.lastOp := (rfl)
@[simp] theorem Engine.setCmd_glnKeep (e : Engine) (id : Nat) (f : Cmd → Cmd) : (e.setCmd id f).glnKeep = e.glnKeep := (rfl)
@[simp] theorem Engine.setCmd_rd (e : Engine) (id : Nat) (f : Cmd → Cmd) (r : Nat) : (e.setCmd id f).rd r = e.rd r := (rfl)
@[simp] theorem Engine.setCmd_get (e : Engine) (id : Nat) (f : Cmd → Cmd) (r : Fld) : (e.setCmd id f).get r = e.get r := (rfl)

/-! ### `Engine.setFlg` -/

@[simp] theorem Engine.setFlg_regs (e : Engine) (f : Flg → Flg) : (e.setFlg f).regs = e.regs := (rfl)
@[simp] theorem Engine.setFlg_time (e : Engine) (f : Flg → Flg) : (e.setFlg f).time = e.time := (rfl)
@[simp] theorem Engine.setFlg_cyc (e : Engine) (f : Flg → Flg) : (e.setFlg f).cyc = e.cyc := (rfl)
@[simp] theorem Engine.setFlg_mem (e : Engine) (f : Flg → Flg) : (e.setFlg f).mem = e.mem := (rfl)
@[simp] theorem Engine.setFlg_poison (e : Engine) (f : Flg → Flg) : (e.setFlg f).poison = e.poison := (rfl)
@[simp] theorem Engine.setFlg_freeCtr (e : Engine) (f : Flg → Flg) : (e.setFlg f).freeCtr = e.freeCtr := (rfl)
@[simp] theorem Engine.setFlg_out (e : Engine) (f : Flg → Flg) : (e.setFlg f).out = e.out := (rfl)
@[simp] theorem Engine.setFlg_phys (e : Engine) (f : Flg → Flg) : (e.setFlg f).phys = e.phys := (rfl)
@[simp] theorem Engine.setFlg_doms (e : Engine) (f : Flg → Flg) : (e.setFlg f).doms = e.doms := (rfl)
@[simp] theorem Engine.setFlg_kol (e : Engine) (f : Flg → Flg) : (e.setFlg f).kol = e.kol := (rfl)
@[simp] theorem Engine.setFlg_mbData (e : Engine) (f : Flg → Flg) : (e.setFlg f).mbData = e.mbData := (rfl)
@[simp] theorem Engine.setFlg_hif (e : Engine) (f : Flg → Flg) : (e.setFlg f).hif = e.hif := (rfl)
@[simp] theorem Engine.setFlg_err (e : Engine) (f : Flg → Flg) : (e.setFlg f).err = e.err := (rfl)
@[simp] theorem Engine.setFlg_gln (e : Engine) (f : Flg → Flg) : (e.setFlg f).gln = e.gln := (rfl)
@[simp] theorem Engine.setFlg_pkts (e : Engine) (f : Flg → Flg) : (e.setFlg f).pkts = e.pkts := (rfl)
@[simp] theorem Engine.setFlg_nextPkt (e : Engine) (f : Flg → Flg) : (e.setFlg f).nextPkt = e.nextPkt := (rfl)
@[simp] theorem Engine.setFlg_rx (e : Engine) (f : Flg → Flg) : (e.setFlg f).rx = e.rx := (rfl)
@[simp] theorem Engine.setFlg_tab (e : Engine) (f : Flg → Flg) : (e.setFlg f).tab = e.tab := (rfl)
@[simp] theorem Engine.setFlg_gft (e : Engine) (f : Flg → Flg) : (e.setFlg f).gft = e.gft := (rfl)
@[simp] theorem Engine.setFlg_shf (e : Engine) (f : Flg → Flg) : (e.setFlg f).shf = e.shf := (rfl)
@[simp] theorem Engine.setFlg_orc (e : Engine) (f : Flg → Flg) : (e.setFlg f).orc = e.orc := (rfl)
@[simp] theorem Engine.setFlg_mil (e : Engine) (f : Flg → Flg) : (e.setFlg f).mil = e.mil := (rfl)
@[simp] theorem Engine.setFlg_ril (e : Engine) (f : Flg → Flg) : (e.setFlg f).ril = e.ril := (rfl)
@[simp] theorem Engine.setFlg_num (e : Engine) (f : Flg → Flg) : (e.setFlg f).num = e.num := (rfl)
@[simp] theorem Engine.setFlg_slc (e : Engine) (f : Flg → Flg) : (e.setFlg f).slc = e.slc := (rfl)
@[simp] theorem Engine.setFlg_gar (e : Engine) (f : Flg → Flg) : (e.setFlg f).gar = e.gar := (rfl)
@[simp] theorem Engine.setFlg_used (e : Engine) (f : Flg → Flg) : (e.setFlg f).used = e.used := (rfl)
@[simp] theorem Engine.setFlg_lastOp (e : Engine) (f : Flg → Flg) : (e.setFlg f).lastOp = e.lastOp := (rfl)
@[simp] theorem Engine.setFlg_glnKeep (e : Engine) (f : Flg → Flg) : (e.setFlg f).glnKeep = e.glnKeep := (rfl)
@[simp] theorem Engine.setFlg_rd (e : Engine) (f : Flg → Flg) (r : Nat) : (e.setFlg f).rd r = e.rd r := (rfl)
@[simp] theorem Engine.setFlg_get (e : Engine) (f : Flg → Flg) (r : Fld) : (e.setFlg f).get r = e.get r := (rfl)

/-! ### `Engine.setDom` -/

@[simp] theorem Engine.setDom_regs (e : Engine) (d : Nat) (f : Dom → Dom) : (e.setDom d f).regs = e.regs := (rfl)
@[simp] theorem Engine.setDom_time (e : Engine) (d : Nat) (f : Dom → Dom) : (e.setDom d f).time = e.time := (rfl)
@[simp] theorem Engine.setDom_cyc (e : Engine) (d : Nat) (f : Dom → Dom) : (e.setDom d f).cyc = e.cyc := (rfl)
@[simp] theorem Engine.setDom_mem (e : Engine) (d : Nat) (f : Dom → Dom) : (e.setDom d f).mem = e.mem := (rfl)
@[simp] theorem Engine.setDom_poison (e : Engine) (d : Nat) (f : Dom → Dom) : (e.setDom d f).poison = e.poison := (rfl)
@[simp] theorem Engine.setDom_freeCtr (e : Engine) (d : Nat) (f : Dom → Dom) : (e.setDom d f).freeCtr = e.freeCtr := (rfl)
@[simp] theorem Engine.setDom_out (e : Engine) (d : Nat) (f : Dom → Dom) : (e.setDom d f).out = e.out := (rfl)
@[simp] theorem Engine.setDom_phys (e : Engine) (d : Nat) (f : Dom → Dom) : (e.setDom d f).phys = e.phys := (rfl)
@[simp] theorem Engine.setDom_kol (e : Engine) (d : Nat) (f : Dom → Dom) : (e.setDom d f).kol = e.kol := (rfl)
@[simp] theorem Engine.setDom_mbData (e : Engine) (d : Nat) (f : Dom → Dom) : (e.setDom d f).mbData = e.mbData := (rfl)
@[simp] theorem Engine.setDom_hif (e : Engine) (d : Nat) (f : Dom → Dom) : (e.setDom d f).hif = e.hif := (rfl)
@[simp] theorem Engine.setDom_err (e : Engine) (d : Nat) (f : Dom → Dom) : (e.setDom d f).err = e.err := (rfl)
@[simp] theorem Engine.setDom_gln (e : Engine) (d : Nat) (f : Dom → Dom) : (e.setDom d f).gln = e.gln := (rfl)
@[simp] theorem Engine.setDom_pkts (e : Engine) (d : Nat) (f : Dom → Dom) : (e.setDom d f).pkts = e.pkts := (rfl)
@[simp] theorem Engine.setDom_nextPkt (e : Engine) (d : Nat) (f : Dom → Dom) : (e.setDom d f).nextPkt = e.nextPkt := (rfl)
@[simp] theorem Engine.setDom_rx (e : Engine) (d : Nat) (f : Dom → Dom) : (e.setDom d f).rx = e.rx := (rfl)
@[simp] theorem Engine.setDom_tab (e : Engine) (d : Nat) (f : Dom → Dom) : (e.setDom d f).tab = e.tab := (rfl)
@[simp] theorem Engine.setDom_gft (e : Engine) (d : Nat) (f : Dom → Dom) : (e.setDom d f).gft = e.gft := (rfl)
@[simp] theorem Engine.setDom_shf (e : Engine) (d : Nat) (f : Dom → Dom) : (e.setDom d f).shf = e.shf := (rfl)
@[simp] theorem Engine.setDom_orc (e : Engine) (d : Nat) (f : Dom → Dom) : (e.setDom d f).orc = e.orc := (rfl)
@[simp] theorem Engine.setDom_mil (e : Engine) (d : Nat) (f : Dom → Dom) : (e.setDom d f).mil = e.mil := (rfl)
@[simp] theorem Engine.setDom_ril (e : Engine) (d : Nat) (f : Dom → Dom) : (e.setDom d f).ril = e.ril := (rfl)
@[simp] theorem Engine.setDom_num (e : Engine) (d : Nat) (f : Dom → Dom) : (e.setDom d f).num = e.num := (rfl)
@[simp] theorem Engine.setDom_slc (e : Engine) (d : Nat) (f : Dom → Dom) : (e.setDom d f).slc = e.slc := (rfl)
@[simp] theorem Engine.setDom_gar (e : Engine) (d : Nat) (f : Dom → Dom) : (e.setDom d f).gar = e.gar := (rfl)
@[simp] theorem Engine.setDom_flg (e : Engine) (d : Nat) (f : Dom → Dom) : (e.setDom d f).flg = e.flg := (rfl)
@[simp] theorem Engine.setDom_used (e : Engine) (d : Nat) (f : Dom → Dom) : (e.setDom d f).used = e.used := (rfl)
@[simp] theorem Engine.setDom_lastOp (e : Engine) (d : Nat) (f : Dom → Dom) : (e.setDom d f).lastOp = e.lastOp := (rfl)
@[simp] theorem Engine.setDom_glnKeep (e : Engine) (d : Nat) (f : Dom → Dom) : (e.setDom d f).glnKeep = e.glnKeep := (rfl)
@[simp] theorem Engine.setDom_rd (e : Engine) (d : Nat) (f : Dom → Dom) (r : Nat) : (e.setDom d f).rd r = e.rd r := (rfl)
@[simp] theorem Engine.setDom_get (e : Engine) (d : Nat) (f : Dom → Dom) (r : Fld) : (e.setDom d f).get r = e.get r := (rfl)

/-! ### `Engine.setRx` -/

@[simp] theorem Engine.setRx_regs (e : Engine) (p : Nat) (f : Rx → Rx) : (e.setRx p f).regs = e.regs := (rfl)
@[simp] theorem Engine.setRx_time (e : Engine) (p : Nat) (f : Rx → Rx) : (e.setRx p f).time = e.time := (rfl)
@[simp] theorem Engine.setRx_cyc (e : Engine) (p : Nat) (f : Rx → Rx) : (e.setRx p f).cyc = e.cyc := (rfl)
@[simp] theorem Engine.setRx_mem (e : Engine) (p : Nat) (f : Rx → Rx) : (e.setRx p f).mem = e.mem := (rfl)
@[simp] theorem Engine.setRx_poison (e : Engine) (p : Nat) (f : Rx → Rx) : (e.setRx p f).poison = e.poison := (rfl)
@[simp] theorem Engine.setRx_freeCtr (e : Engine) (p : Nat) (f : Rx → Rx) : (e.setRx p f).freeCtr = e.freeCtr := (rfl)
@[simp] theorem Engine.setRx_out (e : Engine) (p : Nat) (f : Rx → Rx) : (e.setRx p f).out = e.out := (rfl)
@[simp] theorem Engine.setRx_phys (e : Engine) (p : Nat) (f : Rx → Rx) : (e.setRx p f).phys = e.phys := (rfl)
@[simp] theorem Engine.setRx_doms (e : Engine) (p : Nat) (f : Rx → Rx) : (e.setRx p f).doms = e.doms := (rfl)
@[simp] theorem Engine.setRx_kol (e : Engine) (p : Nat) (f : Rx → Rx) : (e.setRx p f).kol = e.kol := (rfl)
@[simp] theorem Engine.setRx_mbData (e : Engine) (p : Nat) (f : Rx → Rx) : (e.setRx p f).mbData = e.mbData := (rfl)
@[simp] theorem Engine.setRx_hif (e : Engine) (p : Nat) (f : Rx → Rx) : (e.setRx p f).hif = e.hif := (rfl)
@[simp] theorem Engine.setRx_err (e : Engine) (p : Nat) (f : Rx → Rx) : (e.setRx p f).err = e.err := (rfl)
@[simp] theorem Engine.setRx_gln (e : Engine) (p : Nat) (f : Rx → Rx) : (e.setRx p f).gln = e.gln := (rfl)
@[simp] theorem Engine.setRx_pkts (e : Engine) (p : Nat) (f : Rx → Rx) : (e.setRx p f).pkts = e.pkts := (rfl)
@[simp] theorem Engine.setRx_nextPkt (e : Engine) (p : Nat) (f : Rx → Rx) : (e.setRx p f).nextPkt = e.nextPkt := (rfl)
@[simp] theorem Engine.setRx_tab (e : Engine) (p : Nat) (f : Rx → Rx) : (e.setRx p f).tab = e.tab := (rfl)
@[simp] theorem Engine.setRx_gft (e : Engine) (p : Nat) (f : Rx → Rx) : (e.setRx p f).gft = e.gft := (rfl)
@[simp] theorem Engine.setRx_shf (e : Engine) (p : Nat) (f : Rx → Rx) : (e.setRx p f).shf = e.shf := (rfl)
@[simp] theorem Engine.setRx_orc (e : Engine) (p : Nat) (f : Rx → Rx) : (e.setRx p f).orc = e.orc := (rfl)
@[simp] theorem Engine.setRx_mil (e : Engine) (p : Nat) (f : Rx → Rx) : (e.setRx p f).mil = e.mil := (rfl)
@[simp] theorem Engine.setRx_ril (e : Engine) (p : Nat) (f : Rx → Rx) : (e.setRx p f).ril = e.ril := (rfl)
@[simp] theorem Engine.setRx_num (e : Engine) (p : Nat) (f : Rx → Rx) : (e.setRx p f).num = e.num := (rfl)
@[simp] theorem Engine.setRx_slc (e : Engine) (p : Nat) (f : Rx → Rx) : (e.setRx p f).slc = e.slc := (rfl)
@[simp] theorem Engine.setRx_gar (e : Engine) (p : Nat) (f : Rx → Rx) : (e.setRx p f).gar = e.gar := (rfl)
@[simp] theorem Engine.setRx_flg (e : Engine) (p : Nat) (f : Rx → Rx) : (e.setRx p f).flg = e.flg := (rfl)
@[simp] theorem Engine.setRx_used (e : Engine) (p : Nat) (f : Rx → Rx) : (e.setRx p f).used = e.used := (rfl)
@[simp] theorem Engine.setRx_lastOp (e : Engine) (p : Nat) (f : Rx → Rx) : (e.setRx p f).lastOp = e.lastOp := (rfl)
@[simp] theorem Engine.setRx_glnKeep (e : Engine) (p : Nat) (f : Rx → Rx) : (e.setRx p f).glnKeep = e.glnKeep := (rfl)
@[simp] theorem Engine.setRx_rd (e : Engine) (p : Nat) (f : Rx → Rx) (r : Nat) : (e.setRx p f).rd r = e.rd r := (rfl)
@[simp] theorem Engine.setRx_get (e : Engine) (p : Nat) (f : Rx → Rx) (r : Fld) : (e.setRx p f).get r = e.get r := (rfl)

/-! ### `Engine.setTxq` -/

@[simp] theorem Engine.setTxq_regs (e : Engine) (t : Nat) (f : TxQ → TxQ) : (e.setTxq t f).regs = e.regs := (rfl)
@[simp] theorem Engine.setTxq_time (e : Engine) (t : Nat) (f : TxQ → TxQ) : (e.setTxq t f).time = e.time := (rfl)
@[simp] theorem Engine.setTxq_cyc (e : Engine) (t : Nat) (f : TxQ → TxQ) : (e.setTxq t f).cyc = e.cyc := (rfl)
@[simp] theorem Engine.setTxq_mem (e : Engine) (t : Nat) (f : TxQ → TxQ) : (e.setTxq t f).mem = e.mem := (rfl)
@[simp] theorem Engine.setTxq_poison (e : Engine) (t : Nat) (f : TxQ → TxQ) : (e.setTxq t f).poison = e.poison := (rfl)
@[simp] theorem Engine.setTxq_freeCtr (e : Engine) (t : Nat) (f : TxQ → TxQ) : (e.setTxq t f).freeCtr = e.freeCtr := (rfl)
@[simp] theorem Engine.setTxq_out (e : Engine) (t : Nat) (f : TxQ → TxQ) : (e.setTxq t f).out = e.out := (rfl)
@[simp] theorem Engine.setTxq_phys (e : Engine) (t : Nat) (f : TxQ → TxQ) : (e.setTxq t f).phys = e.phys := (rfl)
@[simp] theorem Engine.setTxq_doms (e : Engine) (t : Nat) (f : TxQ → TxQ) : (e.setTxq t f).doms = e.doms := (rfl)
@[simp] theorem Engine.setTxq_kol (e : Engine) (t : Nat) (f : TxQ → TxQ) : (e.setTxq t f).kol = e.kol := (rfl)
@[simp] theorem Engine.setTxq_mbData (e : Engine) (t : Nat) (f : TxQ → TxQ) : (e.setTxq t f).mbData = e.mbData := (rfl)
@[simp] theorem Engine.setTxq_hif (e : Engine) (t : Nat) (f : TxQ → TxQ) : (e.setTxq t f).hif = e.hif := (rfl)
@[simp] theorem Engine.setTxq_err (e : Engine) (t : Nat) (f : TxQ → TxQ) : (e.setTxq t f).err = e.err := (rfl)
@[simp] theorem Engine.setTxq_gln (e : Engine) (t : Nat) (f : TxQ → TxQ) : (e.setTxq t f).gln = e.gln := (rfl)
@[simp] theorem Engine.setTxq_pkts (e : Engine) (t : Nat) (f : TxQ → TxQ) : (e.setTxq t f).pkts = e.pkts := (rfl)
@[simp] theorem Engine.setTxq_nextPkt (e : Engine) (t : Nat) (f : TxQ → TxQ) : (e.setTxq t f).nextPkt = e.nextPkt := (rfl)
@[simp] theorem Engine.setTxq_rx (e : Engine) (t : Nat) (f : TxQ → TxQ) : (e.setTxq t f).rx = e.rx := (rfl)
@[simp] theorem Engine.setTxq_tab (e : Engine) (t : Nat) (f : TxQ → TxQ) : (e.setTxq t f).tab = e.tab := (rfl)
@[simp] theorem Engine.setTxq_gft (e : Engine) (t : Nat) (f : TxQ → TxQ) : (e.setTxq t f).gft = e.gft := (rfl)
@[simp] theorem Engine.setTxq_shf (e : Engine) (t : Nat) (f : TxQ → TxQ) : (e.setTxq t f).shf = e.shf := (rfl)
@[simp] theorem Engine.setTxq_orc (e : Engine) (t : Nat) (f : TxQ → TxQ) : (e.setTxq t f).orc = e.orc := (rfl)
@[simp] theorem Engine.setTxq_mil (e : Engine) (t : Nat) (f : TxQ → TxQ) : (e.setTxq t f).mil = e.mil := (rfl)
@[simp] theorem Engine.setTxq_ril (e : Engine) (t : Nat) (f : TxQ → TxQ) : (e.setTxq t f).ril = e.ril := (rfl)
@[simp] theorem Engine.setTxq_num (e : Engine) (t : Nat) (f : TxQ → TxQ) : (e.setTxq t f).num = e.num := (rfl)
@[simp] theorem Engine.setTxq_gar (e : Engine) (t : Nat) (f : TxQ → TxQ) : (e.setTxq t f).gar = e.gar := (rfl)
@[simp] theorem Engine.setTxq_flg (e : Engine) (t : Nat) (f : TxQ → TxQ) : (e.setTxq t f).flg = e.flg := (rfl)
@[simp] theorem Engine.setTxq_used (e : Engine) (t : Nat) (f : TxQ → TxQ) : (e.setTxq t f).used = e.used := (rfl)
@[simp] theorem Engine.setTxq_lastOp (e : Engine) (t : Nat) (f : TxQ → TxQ) : (e.setTxq t f).lastOp = e.lastOp := (rfl)
@[simp] theorem Engine.setTxq_glnKeep (e : Engine) (t : Nat) (f : TxQ → TxQ) : (e.setTxq t f).glnKeep = e.glnKeep := (rfl)
@[simp] theorem Engine.setTxq_rd (e : Engine) (t : Nat) (f : TxQ → TxQ) (r : Nat) : (e.setTxq t f).rd r = e.rd r := (rfl)
@[simp] theorem Engine.setTxq_get (e : Engine) (t : Nat) (f : TxQ → TxQ) (r : Fld) : (e.setTxq t f).get r = e.get r := (rfl)

/-! ### `Engine.setGft` -/

@[simp] theorem Engine.setGft_regs (e : Engine) (f : Gft → Gft) : (e.setGft f).regs = e.regs := (rfl)
@[simp] theorem Engine.setGft_time (e : Engine) (f : Gft → Gft) : (e.setGft f).time = e.time := (rfl)
@[simp] theorem Engine.setGft_cyc (e : Engine) (f : Gft → Gft) : (e.setGft f).cyc = e.cyc := (rfl)
@[simp] theorem Engine.setGft_mem (e : Engine) (f : Gft → Gft) : (e.setGft f).mem = e.mem := (rfl)
@[simp] theorem Engine.setGft_poison (e : Engine) (f : Gft → Gft) : (e.setGft f).poison = e.poison := (rfl)
@[simp] theorem Engine.setGft_freeCtr (e : Engine) (f : Gft → Gft) : (e.setGft f).freeCtr = e.freeCtr := (rfl)
@[simp] theorem Engine.setGft_out (e : Engine) (f : Gft → Gft) : (e.setGft f).out = e.out := (rfl)
@[simp] theorem Engine.setGft_phys (e : Engine) (f : Gft → Gft) : (e.setGft f).phys = e.phys := (rfl)
@[simp] theorem Engine.setGft_doms (e : Engine) (f : Gft → Gft) : (e.setGft f).doms = e.doms := (rfl)
@[simp] theorem Engine.setGft_kol (e : Engine) (f : Gft → Gft) : (e.setGft f).kol = e.kol := (rfl)
@[simp] theorem Engine.setGft_mbData (e : Engine) (f : Gft → Gft) : (e.setGft f).mbData = e.mbData := (rfl)
@[simp] theorem Engine.setGft_hif (e : Engine) (f : Gft → Gft) : (e.setGft f).hif = e.hif := (rfl)
@[simp] theorem Engine.setGft_err (e : Engine) (f : Gft → Gft) : (e.setGft f).err = e.err := (rfl)
@[simp] theorem Engine.setGft_gln (e : Engine) (f : Gft → Gft) : (e.setGft f).gln = e.gln := (rfl)
@[simp] theorem Engine.setGft_pkts (e : Engine) (f : Gft → Gft) : (e.setGft f).pkts = e.pkts := (rfl)
@[simp] theorem Engine.setGft_nextPkt (e : Engine) (f : Gft → Gft) : (e.setGft f).nextPkt = e.nextPkt := (rfl)
@[simp] theorem Engine.setGft_rx (e : Engine) (f : Gft → Gft) : (e.setGft f).rx = e.rx := (rfl)
@[simp] theorem Engine.setGft_tab (e : Engine) (f : Gft → Gft) : (e.setGft f).tab = e.tab := (rfl)
@[simp] theorem Engine.setGft_shf (e : Engine) (f : Gft → Gft) : (e.setGft f).shf = e.shf := (rfl)
@[simp] theorem Engine.setGft_orc (e : Engine) (f : Gft → Gft) : (e.setGft f).orc = e.orc := (rfl)
@[simp] theorem Engine.setGft_mil (e : Engine) (f : Gft → Gft) : (e.setGft f).mil = e.mil := (rfl)
@[simp] theorem Engine.setGft_ril (e : Engine) (f : Gft → Gft) : (e.setGft f).ril = e.ril := (rfl)
@[simp] theorem Engine.setGft_num (e : Engine) (f : Gft → Gft) : (e.setGft f).num = e.num := (rfl)
@[simp] theorem Engine.setGft_slc (e : Engine) (f : Gft → Gft) : (e.setGft f).slc = e.slc := (rfl)
@[simp] theorem Engine.setGft_gar (e : Engine) (f : Gft → Gft) : (e.setGft f).gar = e.gar := (rfl)
@[simp] theorem Engine.setGft_flg (e : Engine) (f : Gft → Gft) : (e.setGft f).flg = e.flg := (rfl)
@[simp] theorem Engine.setGft_used (e : Engine) (f : Gft → Gft) : (e.setGft f).used = e.used := (rfl)
@[simp] theorem Engine.setGft_lastOp (e : Engine) (f : Gft → Gft) : (e.setGft f).lastOp = e.lastOp := (rfl)
@[simp] theorem Engine.setGft_glnKeep (e : Engine) (f : Gft → Gft) : (e.setGft f).glnKeep = e.glnKeep := (rfl)
@[simp] theorem Engine.setGft_rd (e : Engine) (f : Gft → Gft) (r : Nat) : (e.setGft f).rd r = e.rd r := (rfl)
@[simp] theorem Engine.setGft_get (e : Engine) (f : Gft → Gft) (r : Fld) : (e.setGft f).get r = e.get r := (rfl)

/-! ### `Engine.setSheaf` -/

@[simp] theorem Engine.setSheaf_regs (e : Engine) (key : Bytes) (f : Sheaf → Sheaf) : (e.setSheaf key f).regs = e.regs := (rfl)
@[simp] theorem Engine.setSheaf_time (e : Engine) (key : Bytes) (f : Sheaf → Sheaf) : (e.setSheaf key f).time = e.time := (rfl)
@[simp] theorem Engine.setSheaf_cyc (e : Engine) (key : Bytes) (f : Sheaf → Sheaf) : (e.setSheaf key f).cyc = e.cyc := (rfl)
@[simp] theorem Engine.setSheaf_mem (e : Engine) (key : Bytes) (f : Sheaf → Sheaf) : (e.setSheaf key f).mem = e.mem := (rfl)
@[simp] theorem Engine.setSheaf_poison (e : Engine) (key : Bytes) (f : Sheaf → Sheaf) : (e.setSheaf key f).poison = e.poison := (rfl)
@[simp] theorem Engine.setSheaf_freeCtr (e : Engine) (key : Bytes) (f : Sheaf → Sheaf) : (e.setSheaf key f).freeCtr = e.freeCtr := (rfl)
@[simp] theorem Engine.setSheaf_out (e : Engine) (key : Bytes) (f : Sheaf → Sheaf) : (e.setSheaf key f).out = e.out := (rfl)
@[simp] theorem Engine.setSheaf_phys (e : Engine) (key : Bytes) (f : Sheaf → Sheaf) : (e.setSheaf key f).phys = e.phys := (rfl)
@[simp] theorem Engine.setSheaf_doms (e : Engine) (key : Bytes) (f : Sheaf → Sheaf) : (e.setSheaf key f).doms = e.doms := (rfl)
@[simp] theorem Engine.setSheaf_kol (e : Engine) (key : Bytes) (f : Sheaf → Sheaf) : (e.setSheaf key f).kol = e.kol := (rfl)
@[simp] theorem Engine.setSheaf_mbData (e : Engine) (key : Bytes) (f : Sheaf → Sheaf) : (e.setSheaf key f).mbData = e.mbData := (rfl)
@[simp] theorem Engine.setSheaf_hif (e : Engine) (key : Bytes) (f : Sheaf → Sheaf) : (e.setSheaf key f).hif = e.hif := (rfl)
@[simp] theorem Engine.setSheaf_err (e : Engine) (key : Bytes) (f : Sheaf → Sheaf) : (e.setSheaf key f).err = e.err := (rfl)
@[simp] theorem Engine.setSheaf_gln (e : Engine) (key : Bytes) (f : Sheaf → Sheaf) : (e.setSheaf key f).gln = e.gln := (rfl)
@[simp] theorem Engine.setSheaf_pkts (e : Engine) (key : Bytes) (f : Sheaf → Sheaf) : (e.setSheaf key f).pkts = e.pkts := (rfl)
@[simp] theorem Engine.setSheaf_nextPkt (e : Engine) (key : Bytes) (f : Sheaf → Sheaf) : (e.setSheaf key f).nextPkt = e.nextPkt := (rfl)
@[simp] theorem Engine.setSheaf_rx (e : Engine) (key : Bytes) (f : Sheaf → Sheaf) : (e.setSheaf key f).rx = e.rx := (rfl)
@[simp] theorem Engine.setSheaf_tab (e : Engine) (key : Bytes) (f : Sheaf → Sheaf) : (e.setSheaf key f).tab = e.tab := (rfl)
@[simp] theorem Engine.setSheaf_gft (e : Engine) (key : Bytes) (f : Sheaf → Sheaf) : (e.setSheaf key f).gft = e.gft := (rfl)
@[simp] theorem Engine.setSheaf_orc (e : Engine) (key : Bytes) (f : Sheaf → Sheaf) : (e.setSheaf key f).orc = e.orc := (rfl)
@[simp] theorem Engine.setSheaf_mil (e : Engine) (key : Bytes) (f : Sheaf → Sheaf) : (e.setSheaf key f).mil = e.mil := (rfl)
@[simp] theorem Engine.setSheaf_ril (e : Engine) (key : Bytes) (f : Sheaf → Sheaf) : (e.setSheaf key f).ril = e.ril := (rfl)
@[simp] theorem Engine.setSheaf_num (e : Engine) (key : Bytes) (f : Sheaf → Sheaf) : (e.setSheaf key f).num = e.num := (rfl)
@[simp] theorem Engine.setSheaf_slc (e : Engine) (key : Bytes) (f : Sheaf → Sheaf) : (e.setSheaf key f).slc = e.slc := (rfl)
@[simp] theorem Engine.setSheaf_gar (e : Engine) (key : Bytes) (f : Sheaf → Sheaf) : (e.setSheaf key f).gar = e.gar := (rfl)
@[simp] theorem Engine.setSheaf_flg (e : Engine) (key : Bytes) (f : Sheaf → Sheaf) : (e.setSheaf key f).flg = e.flg := (rfl)
@[simp] theorem Engine.setSheaf_used (e : Engine) (key : Bytes) (f : Sheaf → Sheaf) : (e.setSheaf key f).used = e.used := (rfl)
@[simp] theorem Engine.setSheaf_lastOp (e : Engine) (key : Bytes) (f : Sheaf → Sheaf) : (e.setSheaf key f).lastOp = e.lastOp := (rfl)
@[simp] theorem Engine.setSheaf_glnKeep (e : Engine) (key : Bytes) (f : Sheaf → Sheaf) : (e.setSheaf key f).glnKeep = e.glnKeep := (rfl)
@[simp] theorem Engine.setSheaf_rd (e : Engine) (key : Bytes) (f : Sheaf → Sheaf) (r : Nat) : (e.setSheaf key f).rd r = e.rd r := (rfl)
@[simp] theorem Engine.setSheaf_get (e : Engine) (key : Bytes) (f : Sheaf → Sheaf) (r : Fld) : (e.setSheaf key f).get r = e.get r := (rfl)

/-! ### `Engine.setThread` -/

@[simp] theorem Engine.setThread_regs (e : Engine) (t : Thread) : (e.setThread t).regs = e.regs := (rfl)
@[simp] theorem Engine.setThread_time (e : Engine) (t : Thread) : (e.setThread t).time = e.time := (rfl)
@[simp] theorem Engine.setThread_cyc (e : Engine) (t : Thread) : (e.setThread t).cyc = e.cyc := (rfl)
@[simp] theorem Engine.setThread_mem (e : Engine) (t : Thread) : (e.setThread t).mem = e.mem := (rfl)
@[simp] theorem Engine.setThread_poison (e : Engine) (t : Thread) : (e.setThread t).poison = e.poison := (rfl)
@[simp] theorem Engine.setThread_freeCtr (e : Engine) (t : Thread) : (e.setThread t).freeCtr = e.freeCtr := (rfl)
@[simp] theorem Engine.setThread_out (e : Engine) (t : Thread) : (e.setThread t).out = e.out := (rfl)
@[simp] theorem Engine.setThread_phys (e : Engine) (t : Thread) : (e.setThread t).phys = e.phys := (rfl)
@[simp] theorem Engine.setThread_doms (e : Engine) (t : Thread) : (e.setThread t).doms = e.doms := (rfl)
@[simp] theorem Engine.setThread_kol (e : Engine) (t : Thread) : (e.setThread t).kol = e.kol := (rfl)
@[simp] theorem Engine.setThread_mbData (e : Engine) (t : Thread) : (e.setThread t).mbData = e.mbData := (rfl)
@[simp] theorem Engine.setThread_hif (e : Engine) (t : Thread) : (e.setThread t).hif = e.hif := (rfl)
@[simp] theorem Engine.setThread_err (e : Engine) (t : Thread) : (e.setThread t).err = e.err := (rfl)
@[simp] theorem Engine.setThread_gln (e : Engine) (t : Thread) : (e.setThread t).gln = e.gln := (rfl)
@[simp] theorem Engine.setThread_pkts (e : Engine) (t : Thread) : (e.setThread t).pkts = e.pkts := (rfl)
@[simp] theorem Engine.setThread_nextPkt (e : Engine) (t : Thread) : (e.setThread t).nextPkt = e.nextPkt := (rfl)
@[simp] theorem Engine.setThread_rx (e : Engine) (t : Thread) : (e.setThread t).rx = e.rx := (rfl)
@[simp] theorem Engine.setThread_tab (e : Engine) (t : Thread) : (e.setThread t).tab = e.tab := (rfl)
@[simp] theorem Engine.setThread_gft (e : Engine) (t : Thread) : (e.setThread t).gft = e.gft := (rfl)
@[simp] theorem Engine.setThread_shf (e : Engine) (t : Thread) : (e.setThread t).shf = e.shf := (rfl)
@[simp] theorem Engine.setThread_orc (e : Engine) (t : Thread) : (e.setThread t).orc = e.orc := (rfl)
@[simp] theorem Engine.setThread_mil (e : Engine) (t : Thread) : (e.setThread t).mil = e.mil := (rfl)
@[simp] theorem Engine.setThread_num (e : Engine) (t : Thread) : (e.setThread t).num = e.num := (rfl)
@[simp] theorem Engine.setThread_slc (e : Engine) (t : Thread) : (e.setThread t).slc = e.slc := (rfl)
@[simp] theorem Engine.setThread_gar (e : Engine) (t : Thread) : (e.setThread t).gar = e.gar := (rfl)
@[simp] theorem Engine.setThread_flg (e : Engine) (t : Thread) : (e.setThread t).flg = e.flg := (rfl)
@[simp] theorem Engine.setThread_used (e : Engine) (t : Thread) : (e.setThread t).used = e.used := (rfl)
@[simp] theorem Engine.setThread_lastOp (e : Engine) (t : Thread) : (e.setThread t).lastOp = e.lastOp := (rfl)
@[simp] theorem Engine.setThread_glnKeep (e : Engine) (t : Thread) : (e.setThread t).glnKeep = e.glnKeep := (rfl)
@[simp] theorem Engine.setThread_rd (e : Engine) (t : Thread) (r : Nat) : (e.setThread t).rd r = e.rd r := (rfl)
@[simp] theorem Engine.setThread_get (e : Engine) (t : Thread) (r : Fld) : (e.setThread t).get r = e.get r := (rfl)

end Sys2Proof.Machine
end

