-- ==== Sys2Proof/Laws/Cmds.lean ====
section
/-!
SUPPORT. Laws/Cmds.lean: host commands as they start, and what a trace record leaves alone.
-/
namespace Sys2Proof.Machine

/-- Staging a record either stages it, or counts its loss and flags it. -/
theorem Engine.stage_cases (e : Engine) (r : Bytes) (t : Nat) :
    (∃ f, e.stage r t = ((e.count (Reg.GLN_CNT 1)).evt Fld.GLN_EVT_STAGE_FULL).setGln f) ∨ (∃ f, e.stage r t = e.setGln f) := by
  rw [Engine.stage]
  by_cases h : e.stagingMax < e.gln.staging.length + (if e.gln.dropped = 0 then 1 else 2)
  · rw [if_pos h]; exact .inl ⟨_, rfl⟩
  · rw [if_neg h]; exact .inr ⟨_, rfl⟩

/-- So does a trace record, where its source is enabled. -/
theorem Engine.trace_cases (e : Engine) (src : Fld) (k w1 w2 aux : Nat) :
    (∃ f, e.trace src k w1 w2 aux = ((e.count (Reg.GLN_CNT 1)).evt Fld.GLN_EVT_STAGE_FULL).setGln f) ∨
      (∃ f, e.trace src k w1 w2 aux = e.setGln f) := by
  rw [Engine.trace]
  by_cases h : (e.is Fld.GLN_TRACE_CFG_EN && e.is src) = true
  · rw [if_pos h]; exact e.stage_cases _ _
  · rw [if_neg h]; exact .inr ⟨id, rfl⟩

/-- No other register changes with a trace record. -/
theorem Engine.trace_rd (e : Engine) (src : Fld) (k w1 w2 aux : Nat) {off : Nat} (h1 : off ≠ Reg.GLN_CNT 1)
    (h2 : off ≠ Reg.GLN_EVT) : (e.trace src k w1 w2 aux).rd off = e.rd off := by
  obtain ⟨f, hf⟩ | ⟨f, hf⟩ := e.trace_cases src k w1 w2 aux
  · rw [hf, Engine.setGln_rd, Engine.evt, Engine.rd_put_other _ _ _ h2, Engine.count, Engine.countN, Engine.rd_wr_other _ _ h1]
  · rw [hf, Engine.setGln_rd]

@[simp] theorem Engine.trace_mem (e : Engine) (src : Fld) (k w1 w2 aux : Nat) : (e.trace src k w1 w2 aux).mem = e.mem := by
  obtain ⟨f, hf⟩ | ⟨f, hf⟩ := e.trace_cases src k w1 w2 aux <;> simp [hf]

@[simp] theorem Engine.trace_hif (e : Engine) (src : Fld) (k w1 w2 aux : Nat) : (e.trace src k w1 w2 aux).hif = e.hif := by
  obtain ⟨f, hf⟩ | ⟨f, hf⟩ := e.trace_cases src k w1 w2 aux <;> simp [hf]

theorem Engine.started_rd (e : Engine) (c : Cmd) (n : Nat) {off : Nat} (h1 : off ≠ Reg.GLN_CNT 1) (h2 : off ≠ Reg.GLN_EVT) :
    (e.started c n).rd off = e.rd off := by
  rw [Engine.started, Engine.traceCmd, Engine.trace_rd _ _ _ _ _ _ h1 h2, Engine.setCmd_rd]

/-- A started command leaves every field outside the gleaner's event and loss registers. -/
theorem Engine.started_get (e : Engine) (c : Cmd) (n : Nat) (f : Fld) (h1 : f.off ≠ Reg.GLN_CNT 1) (h2 : f.off ≠ Reg.GLN_EVT) :
    (e.started c n).get f = e.get f := by simp only [Engine.get]; rw [Engine.started_rd _ _ _ h1 h2]

@[simp] theorem Engine.started_mem (e : Engine) (c : Cmd) (n : Nat) : (e.started c n).mem = e.mem := by
  simp [Engine.started, Engine.traceCmd]

/-- A command that can start is the one of that identity. -/
theorem Engine.startable_id {e : Engine} {id op : Nat} {c : Cmd} (h : e.startable id op = some c) : c.id = id := by
  unfold Engine.startable at h
  split at h
  · cases h
  · rename_i d hd
    split at h
    · cases h
      have := List.find?_some hd
      simpa using this
    · cases h

/-- A command that can start does its work. -/
theorem withCmd_some {e : Engine} {id op engine : Nat} {c : Cmd} {f : Cmd → Engine → Engine} (h : e.startable id op = some c) :
    withCmd id op engine f e = f c (e.started c engine) := by
  have := Engine.startable_id h
  subst this
  simp [withCmd, h, Engine.started]

/-- A command that cannot start leaves everything as it is. -/
theorem withCmd_none {e : Engine} {id op engine : Nat} {f : Cmd → Engine → Engine} (h : e.startable id op = none) :
    withCmd id op engine f e = e := by simp [withCmd, h]

/-- A step that is dispatched does its work. -/
theorem Engine.dispatch_some {e e' : Engine} {id kind arg : Nat} {p : Pkt} {f : Pkt → Nat → Engine → Engine}
    (h : e.dispatched id kind = some (p, arg, e')) : e.dispatch id kind f = f p arg e' := by
  unfold Engine.dispatched at h
  unfold Engine.dispatch
  cases hp : e.pkt id with
  | none => simp [hp] at h
  | some q =>
    simp only [hp, Option.bind_some] at h
    split at h
    · cases h
    · rename_i hc
      simp only [not_or, not_not] at hc
      simp only [hc, or_self]
      split at h
      · rename_i hb; cases h; simp [hb]
      · rename_i hb
        split at h
        · cases h
        · rename_i hs
          simp only [hb, hs, if_false]
          cases hr : e.takeRate 2 64 8 with
          | none => simp [hr] at h
          | some e1 =>
            simp only [hr, Option.bind_some] at h
            split at h
            · cases h
            · rename_i hbad
              cases h
              simp [hbad]

/-- Where no step can be dispatched because of the packet itself, nothing happens. -/
theorem Engine.dispatch_other {e : Engine} {id kind : Nat} {p : Pkt} {f : Pkt → Nat → Engine → Engine} (hp : e.pkt id = some p)
    (h : p.onPath = false ∨ p.failed = true ∨ entKind (e.entryOf p) ≠ kind) : e.dispatch id kind f = e := by
  unfold Engine.dispatch
  simp only [hp]
  rcases h with h | h | h
  · simp [h]
  · simp [h]
  · split
    · rfl
    · simp

/-- A thread that issues an instruction of a row's class does the row's work. -/
theorem Engine.issue_some {e e' : Engine} {tid w : Nat} {cls : RvCls} {t : Thread} {f : Thread → Nat → Engine → Engine}
    (h : e.issued tid cls = some (t, w, e')) : e.issue tid cls f = f t w e' := by
  unfold Engine.issued at h
  unfold Engine.issue
  cases ht : e.thread tid with
  | none => simp [ht] at h
  | some u =>
    simp only [ht, Option.bind_some] at h
    dsimp only
    split at h
    · cases h
    · rename_i hs
      rw [if_neg hs]
      cases hr : e.issueRate (coreOf tid) with
      | none => simp [hr] at h
      | some e1 =>
        simp only [hr, Option.bind_some] at h
        dsimp only
        split at h
        · rename_i w' e2 hf
          rw [hf]
          split at h
          · rename_i hc; cases h; simp [hc]
          · cases h
        · cases h

end Sys2Proof.Machine
end

