-- ==== Sys2Proof/Laws/Memory.lean ====
section
/-!
SUPPORT. Laws/Memory.lean: module-local memory keeps its canonical form under every operation that writes it (a store, the two
clearings, a cold reset), and a store changes only the bytes stored.
-/
namespace Sys2Proof.Machine

/-- A store keeps the canonical form. -/
theorem Engine.store_wf (e : Engine) (a : Nat) (bs : Bytes) (h : Memory.wf e.mem) : Memory.wf (e.store a bs).mem :=
  Tbl.wf_writeBytes bs a h

/-- So does clearing a range: a mill quad's or the granary's bytes. -/
theorem clearRange_wf (m : Tbl Byte) (lo hi : Nat) (h : Memory.wf m) : Memory.wf (Tbl.clearRange m lo hi) :=
  Tbl.wf_clearRange lo hi h

/-- After a cold reset memory lists nothing. -/
theorem Engine.cold_wf (e : Engine) : Memory.wf e.cold.mem := rfl

theorem reset_memory_wf : Memory.wf State.reset.eng.mem := rfl

/-- A store leaves every byte outside it as it was. -/
theorem Engine.store_other (e : Engine) (a : Nat) (bs : Bytes) (j : Nat) (h : j < a ∨ a + bs.length ≤ j) :
    Tbl.get 0 (e.store a bs).mem j = Tbl.get 0 e.mem j :=
  Tbl.get_writeBytes_other bs e.mem a j h

end Sys2Proof.Machine
end

