-- ==== Sys2Proof/Laws/Runs.lean ====
section
/-!
SUPPORT. Laws/Runs.lean: what a command answers behind each of the gates.
-/
namespace Sys2Proof.Machine

theorem Runs.engine {c : Instr} {s : State} {P : State → Prop} {f : Engine → Engine} (hx : exec c s = engineStep s f)
    (hu : s.engineUp = true) (h : P (s.onEng f)) : Runs c s P := ⟨_, hx.trans (engineStep_up hu), h⟩

theorem Runs.host {c : Instr} {s : State} {P : State → Prop} {f : Engine → Engine} (hx : exec c s = hostStep s f)
    (hu : s.engineUp = true) (hp : s.pcieUp = true) (h : P (s.onEng f)) : Runs c s P := ⟨_, hx.trans (hostStep_up hu hp), h⟩

theorem Runs.steward {c : Instr} {s : State} {P : State → Prop} {f : State → State} (hx : exec c s = stewardStep s f)
    (hr : s.stw.run = .running) (h : P (f s)) : Runs c s P := ⟨_, hx.trans (stewardStep_run hr), h⟩

theorem Runs.next {c : Instr} {s t : State} {P : State → Prop} (hx : exec c s = .next t) (h : P t) : Runs c s P := ⟨t, hx, h⟩

theorem Does.engine {c : Instr} {s : State} {f : Engine → Engine} (hx : exec c s = engineStep s f) (hu : s.engineUp = true) :
    Does c s f := hx.trans (engineStep_up hu)

theorem Does.host {c : Instr} {s : State} {f : Engine → Engine} (hx : exec c s = hostStep s f) (hu : s.engineUp = true)
    (hp : s.pcieUp = true) : Does c s f := hx.trans (hostStep_up hu hp)

/-- Doing the same to the engine is the same state. -/
theorem Does.congr {c : Instr} {s : State} {f g : Engine → Engine} (h : Does c s f) (hfg : f s.eng = g s.eng) : Does c s g := by
  unfold Does at *; rw [h]; simp only [State.onEng, hfg]

end Sys2Proof.Machine
end

