-- ==== Sys2Proof/Tests/Slice0.lean ====
section
/-!
SUPPORT. Slice0.lean: tests of the model. Ill-formed commands are refused, the figures of the manual's worked examples come out,
and the hypotheses of every statement are met by a named witness.
-/
namespace Sys2Proof
open Machine
set_option maxRecDepth 4000
set_option synthInstance.maxSize 1024
set_option synthInstance.maxHeartbeats 200000
set_option Elab.async false

/-! ### Operands that do not exist (WellFormed) -/

/-- Every check of `Instr.wf` refuses a term that breaks it. -/
theorem test_wf_refuses_registers : (Instr.coldReset 65536).wf = false ∧ (Instr.blockReset (2 ^ 32)).wf = false ∧
    (Instr.kolCtrlWrite (2 ^ 32)).wf = false ∧ (Instr.mailboxGo (2 ^ 32)).wf = false ∧ (Instr.glbTimeSet (2 ^ 64)).wf = false ∧
    (Instr.badAccess false (2 ^ 25) 4).wf = false ∧ (Instr.registerWrite 0 []).wf = false ∧
    (Instr.registerWrite (2 ^ 25) [1]).wf = false ∧ (Instr.registerWrite 0 (List.replicate 257 0)).wf = false ∧
    (Instr.flgConfigWrite (2 ^ 25) 0).wf = false ∧ (Instr.flgConfigWrite 0 (2 ^ 32)).wf = false := by decide +kernel

theorem test_wf_refuses_units : (Instr.domainGate 19).wf = false ∧ (Instr.fanFailure 4).wf = false ∧
    (Instr.opticsRemove 8 []).wf = false ∧ (Instr.ringEnable 4096).wf = false ∧ (Instr.frameStart 32 0).wf = false ∧
    (Instr.frameStart 0 16).wf = false ∧ (Instr.portUp 32).wf = false ∧ (Instr.itkPortCfgWrite 32 0).wf = false ∧
    (Instr.itkPortCfgWrite 0 (2 ^ 32)).wf = false ∧ (Instr.itkCageCfgWrite 8 0).wf = false ∧ (Instr.itkCageCfgWrite 0 (2 ^ 32)).wf = false ∧
    (Instr.millBatchStart 32).wf = false ∧ (Instr.garnerPairOn 4).wf = false ∧ (Instr.launchTimeReached 512).wf = false ∧
    (Instr.nakReceive 8).wf = false ∧ (Instr.profileExpansionComplete 20).wf = false ∧ (Instr.selftestComplete [34]).wf = false ∧
    (Instr.cblPresChange 8 false).wf = false := by decide +kernel

theorem test_wf_refuses_values : (Instr.pointSample [] [0, 0, 0, 0]).wf = false ∧
    (Instr.pointSample (List.replicate 52 none) []).wf = false ∧ (Instr.pointSample (List.replicate 52 none) [0, 0, 0, 65536]).wf = false ∧
    (Instr.page (.smb true (List.replicate 256 0) true)).wf = false ∧ (Instr.linkHello ⟨256, 0, 0, [], 0⟩).wf = false ∧
    (Instr.linkHello ⟨0, 256, 0, [], 0⟩).wf = false ∧ (Instr.linkHello ⟨0, 0, 256, [], 0⟩).wf = false ∧
    (Instr.linkHello ⟨0, 0, 0, List.replicate 256 0, 0⟩).wf = false ∧ (Instr.linkHello ⟨0, 0, 0, [], 65536⟩).wf = false ∧
    (Instr.e0Edge true 16).wf = false ∧ (Instr.fidPresSettled true [1]).wf = false ∧ (Instr.doorbell (2 ^ 25) 4 0).wf = false ∧
    (Instr.doorbell 0 9 0).wf = false ∧ (Instr.doorbell 0 4 (2 ^ 32)).wf = false ∧ (Instr.bar4Access true (2 ^ 42) [1]).wf = false ∧
    (Instr.bar4Access true 0 []).wf = false ∧ (Instr.sheafMigrationComplete [1]).wf = false := by decide +kernel

theorem test_wf_refuses_names : (Instr.rvInstruction (2 ^ 32)).wf = false ∧ (Instr.remoteRequestTimeout (2 ^ 32)).wf = false ∧
    (Instr.xmillSubmissionComplete (2 ^ 32) 0).wf = false ∧ (Instr.xmillSubmissionComplete 0 (2 ^ 32)).wf = false ∧
    (Instr.remoteUndoTimeout (2 ^ 14) 0).wf = false ∧ (Instr.remoteUndoTimeout 0 (2 ^ 32)).wf = false ∧
    (Instr.flitReceive 0 0 []).wf = false ∧ (Instr.sync 8 0).wf = false ∧ (Instr.sync 0 16).wf = false ∧
    (Instr.lsaAgeExpiry (2 ^ 14)).wf = false := by decide +kernel

theorem test_wf_takes_others : (Instr.coldReset 0x4160).wf = true ∧ (Instr.domainGate 18).wf = true ∧ (Instr.portUp 31).wf = true ∧
    (Instr.parse 7).wf = true ∧ (Instr.rvInstruction 65541).wf = true := by decide +kernel

/-- No word spells a command: the table gives no row any bits. -/
theorem test_no_word_spells_a_command : decodeTableWord 32 0x13 = none ∧ decodeTableWord 0 0 = none := by decide

/-- The machine as reset leaves it, with something done to its engine. -/
def up (f : Engine → Engine := id) : State := State.reset.onEng f
/-- The engine with its domain `d` in a state. -/
def domSt (d : Nat) (x : Dom) : Engine → Engine := fun e => e.setDom d fun _ => x
/-- A descriptor of an opcode: LENGTH, the flags of word 0, SRC, DST and the ARGS bytes. -/
def cmdOf (op : Nat) (len flags src dst : Nat := 0) (args : Bytes := []) : Cmd :=
  { id := 1, ring := 0, cnt := 0, pd := 0, comp := 1, ph := .accepted, at_ := 0
    desc := fitTo 64 (natLE 8 (op + flags + 2 ^ 32 * len) ++ natLE 8 77 ++ natLE 8 src ++ natLE 8 dst ++ args) }
/-- The machine with one accepted command. -/
def withC (c : Cmd) (f : Engine → Engine := id) : State := up fun e => { f e with hif := { (f e).hif with cmds := [c] } }
/-- An engine with ring `k` in a state. -/
def ringAt (k kind lg st : Nat) : Engine → Engine := fun e =>
  (((e.put (Fld.HIF_RING_CFG_KIND k) kind).put (Fld.HIF_RING_CFG_LOG2 k) lg).put (Fld.HIF_RING_STAT_STATE k) st).wr
    (Reg.HIF_PD_WIN_SIZE 0 0) (2 ^ 63)
/-- The machine as reset leaves it, with something done to its power, its steward or the field end. -/
def pw (f : Pwr → Pwr) : State := { State.reset with pwr := f Pwr.init }
def sw (f : Stw → Stw) : State := State.reset.onStw f
def fl (f : Field → Field) : State := { State.reset with fld := f Field.init }
/-- A Kolber frame that passes its checks. -/
def kolFr (typ : Nat) (payload : Bytes) : KolFrame :=
  ⟨typ, 0, payload.length, payload, crc16 (kolBody ⟨typ, 0, payload.length, payload, 0⟩)⟩
/-- A frame in reception on port 0 that has passed byte 13. -/
def rxPkt : Pkt := { id := 7, port := 0, ts := 0, maxlen := 9600, need := 38, macc := true }
/-- The machine with one frame. -/
def withP (p : Pkt) (f : Engine → Engine := id) : State := up fun e => { f e with pkts := [p] }
/-- A frame of 64 bytes with its FCS. -/
def goodFrame : Bytes := List.replicate 60 1 ++ natLE 4 (crc32 (List.replicate 60 1))
/-- Port 0 up with its link, in mode `m`. -/
def portAt (m : Nat) : Engine → Engine := fun e =>
  ((((e.put (Fld.ITK_PORT_CTRL_UP 0) 1).put (Fld.ITK_PORT_STAT_LINK 0) 1).put (Fld.ITK_PORT_CFG_MODE 0) m).put Fld.ITK_CELLS_TOTAL 4096)
/-- A frame of 64 bytes on its path, known to be GOOD. -/
def pathPkt : Pkt := { id := 7, port := 0, ts := 0, maxlen := 9600, need := 0, rx := false, handed := true, status := some 0 }
/-- Entry 0 of the cascade table in a state. -/
def stepAt (x : Nat) : Engine → Engine := fun e => { e with tab := { e.tab with shadow := e.tab.shadow.writeItem 3 0 (natLE 8 x) } }
/-- The machine with a packet at a step of a kind. -/
def atStep (x : Nat) (p : Pkt := pathPkt) (f : Engine → Engine := id) : State := withP p fun e => f (stepAt x e)
/-- What CASCADE dispatches. -/
def disp (s : State) (k : Nat) : Pkt × Nat × Engine := (s.eng.dispatched 7 k).getD (pathPkt, 0, s.eng)
/-- A model image of sections: type, index and bytes of each. -/
def imgOf (l : List (Nat × Nat × Bytes)) : Bytes :=
  let n := l.length
  let t := l.foldl (fun (r : Bytes × Nat) x => (r.1 ++ natLE 1 x.1 ++ natLE 1 x.2.1 ++ natLE 2 0 ++ natLE 4 r.2 ++ natLE 4 x.2.2.length ++ natLE 4 0,
    r.2 + x.2.2.length)) ([], 64 + 16 * n)
  natLE 6 0 ++ natLE 2 n ++ List.replicate 56 0 ++ t.1 ++ l.flatMap fun x => x.2.2
/-- A model of epoch 4. -/
def mdl (l : List (Nat × Nat × Bytes)) : Model :=
  { epoch := 4, image := imgOf l, hash := [], learned := false, mwBase := 0, nodeBase := 0, place := [] }
/-- It is live. -/
def live (l : List (Nat × Nat × Bytes)) : Engine → Engine := fun e => { e with gft := { e.gft with live := some (mdl l) } }
/-- A packet of epoch 4. -/
def ep4 : Pkt := { pathPkt with epoch := some 4 }

/-! ### The figures of the manual's worked examples -/

/-- Xmelor, steps 1 to 6 of the audit: each word is the instruction the manual says. -/
theorem test_xmelor_words : [0x0325230B, 0x23692E0B, 0xAB49B38B, 0x02E3C6AB, 0x018BC00B, 0x0000000B].map rvClass =
    [.xm .shkey, .xm .shrd, .xm .orce, .xm .qnt, .xm .emitv, .xm .xend] := by decide +kernel

/-- The register fields of step 3: t2, s3, s4 and s5. -/
theorem test_xmelor_fields : rvRd 0xAB49B38B = 7 ∧ rvRs1 0xAB49B38B = 19 ∧ rvRs2 0xAB49B38B = 20 ∧ rvRs3 0xAB49B38B = 21 := by decide

/-- Fans: 78 °C at point 36 demands 66 % under STANDARD. -/
theorem test_fan_demand : ((fanProfile 0 State.reset.stw.fan).map fun f => fanDemand f 36 { reading := some 780 }) = some 66 := by decide +kernel

/-- Numerics: element 1.5 × 2^-9 of tensor G, before and after the window crosses, and the scale the window gives. -/
theorem test_num_adapt : quantise .int8 (.num false (3 / 1024)) (1 / 512) 0 = (2, 1) ∧
    quantise .int8 (.num false (3 / 1024)) (1 / 256) (256 - 64) = (256 - 63, 1) ∧
    paramsFromRange .int8 (-1 / 4) (74609375 / 100000000) = (0x3B800000, 256 - 64) := by decide +kernel

/-- Xmelor step 4: 3.25 at scale 2^-4 is code 0x34, with no flags; 3.25 is 0x40500000. -/
theorem test_num_quantise : quantise .int8 (f32v 0x40500000) (f32q 0x3D800000) 0 = (0x34, 0) ∧
    toF32 (.num false (13 / 4)) = (0x40500000, 0) := by decide +kernel

/-- The grader: set 3 over a block with INTERVAL 1,250 and IDPORT 4,791. -/
def set3 : Bytes :=
  let slot (k src idx w sc : Nat) (ne eo : Nat) := natLE 1 k ++ natLE 1 src ++ natLE 1 idx ++ natLE 1 0 ++ natLE 1 w ++ natLE 1 ne ++
    natLE 2 eo ++ natLE 4 sc ++ natLE 4 0
  natLE 2 4 ++ List.replicate 14 0 ++ slot 1 2 0 64 0x3F4CCCCD 0 0 ++ slot 9 2 0 64 0x3F800000 3 20 ++ slot 9 0 174 16 0x3F800000 2 23 ++
    slot 2 1 2 0 0 0 0 ++ natLE 4 0x449C4000 ++ natLE 4 0x46435000 ++ natLE 4 0x47F42400 ++ natLE 4 0x4595B800 ++ natLE 4 0x4595C000

/-- Slot 0 is 1,000.0 with INX; slots 1, 2 and 3 are 1, 1 and 4. -/
theorem test_grader_set : gradeVector set3 (List.replicate 174 0 ++ natLE 2 4791 ++ List.replicate 112 0 ++ natLE 8 1250) =
    ([0x447A0000, 1, 1, 4] ++ List.replicate 252 0, 1) := by decide +kernel

/-- The orchard: the bucket and the score of P1 and P2 of the worked example. -/
def ens5 : Bytes := natLE 13 0 ++ natLE 1 2 ++ natLE 2 0 ++ natLE 4 0 ++ natLE 4 0x40800000
theorem test_buckets : bucketOf ens5 0x40880000 false = 2 ∧ bucketOf ens5 0x40500000 true = 0x11 ∧
    narrow .f16 (f32v 0x40880000) = (0x4440, 0) ∧ narrow .f16 (f32v 0x40500000) = (0x4280, 0) := by decide +kernel

/-- The sluice: costs of frames A and B and their tags across 2^48, and their durations on a 400G port. -/
theorem test_sluice_costs : finishTag 0 420 4 = 0x690000 ∧ finishTag 0 84 1 = 0x540000 ∧
    finishTag 0xFFFFFFFF0000 420 4 = 0x680000 ∧ finishTag 0xFFFFFFFF0000 84 1 = 0x530000 ∧
    State.reset.eng.txDuration 8 400 = 11 ∧ State.reset.eng.txDuration 8 64 = 3 ∧ State.reset.eng.txDuration 8 9600 = 241 := by
  decide +kernel

/-- A step's result, or the state before it. -/
def after (c : Instr) (s : State) : State := match exec c s with | .next t => t | _ => s

/-- Partitions: profile FLOWS reads as the manual says. -/
theorem test_partition_flows : (after (.glbPartProfileSelect 1) State.reset).eng.rd Reg.GLB_PART_A = 0x10087820 ∧
    (after (.glbPartProfileSelect 1) State.reset).eng.rd Reg.GLB_PART_B = 0x0808 := by decide +kernel

/-- The first 144 bytes of the overlay frame of the intake's worked example: one tag, IPv4, UDP to 4789, VXLAN, Ethernet, IPv6, UDP to
4791, RDMA WRITE First. -/
def overlay : Bytes :=
  let b (n v : Nat) : Bytes := (natLE n v).reverse
  b 6 0x020000000001 ++ b 6 0x020000000002 ++ b 2 0x8100 ++ b 2 0x0064 ++ b 2 0x0800 ++
    b 4 (0x45000000 + 8322) ++ b 4 0x12344000 ++ b 2 0x4011 ++ b 2 0xF434 ++ b 4 0x0A000001 ++ b 4 0x0A000002 ++
    b 4 0xC00012B5 ++ b 2 8302 ++ b 2 0 ++ b 4 0x08000000 ++ b 4 0x00123400 ++
    b 6 0x020000000003 ++ b 6 0x020000000004 ++ b 2 0x86DD ++
    b 4 0x60000000 ++ b 2 8232 ++ b 2 0x1140 ++ b 16 5 ++ b 16 6 ++ b 4 0xD00012B7 ++ b 2 8232 ++ b 2 0 ++
    b 4 0x0600FFFF ++ b 4 77 ++ b 4 88 ++ b 8 0x1122334455667788 ++ b 4 99 ++ b 4 8192

/-- Offsets, flags, counts and types as the manual's table has them, and the parse is complete at byte 144. -/
theorem test_overlay_parse : let v := (parseFrame overlay false).vector 0
    (parseFrame overlay false).more = false ∧
    (List.range 8).map (fun i => leAt v (8 + 2 * i) 2) = [18, 38, 46, 54, 68, 108, 116, 144] ∧
    leAt v 0 4 = 2 ^ pfIPV4 + 2 ^ pfUDP + 2 ^ pfVXLAN + 2 ^ pfINNER_IPV6 + 2 ^ pfINNER_UDP + 2 ^ pfROCE ∧
    byteAt v 4 = 0 ∧ byteAt v 7 = 1 ∧ leAt v 36 2 = 0x0800 ∧ leAt v 102 2 = 4789 ∧ leAt v 132 2 = 0x86DD ∧ leAt v 174 2 = 4791 ∧
    byteAt v 176 = 6 ∧ leAt v 188 8 = 0x1122334455667788 ∧ leAt v 196 4 = 99 ∧ leAt v 200 4 = 8192 := by decide +kernel

/-- One byte fewer and the parse waits for more (R235). -/
theorem test_overlay_needs_144 : (parseFrame (overlay.take 143) false).more = true := by decide +kernel

/-! ### Witnesses: states that meet the hypotheses of the statements, clause by clause -/

namespace WitA

theorem witness_PowerFollowsItsOrder :
    (∃ (s : State), s.pwr.phase = .noSlot) ∧
    (∃ (s : State), s.stw.run = .running ∧ s.pwr.phase = .standby ∧ s.pwr.slot12V = true ∧ s.pwr.enableOn = true ∧ s.pwr.efuseOpen = false) ∧
    (∃ (s : State) (k : Nat), s.stw.run = .running ∧ s.pwr.phase = .ready k) ∧
    (∃ (s : State) (k : Nat), s.stw.run = .running ∧ s.pwr.phase = .raising k) ∧
    (∃ (s : State), s.stw.run = .running ∧ s.pwr.phase = .pllWait) ∧
    (∃ (s : State), s.pwr.released = true ∧ s.pwr.halted = false ∧ ((s.stw.boot = .booting ∨ s.stw.boot = .secondTry))) ∧
    (∃ (s : State), s.stw.run = .running ∧ s.pwr.phase = .offTime ∧ s.pwr.enable = true ∧ s.pwr.efuseOpen = false) ∧
    (∃ (s : State), s.stw.run = .running ∧ s.pwr.phase = .retryWait ∧ s.pwr.enable = true ∧ s.pwr.efuseOpen = false) ∧
    (∃ (s : State), s.stw.run = .running ∧ s.pwr.phase = .running ∧ (s.pwr.rail 11).enabled = true) ∧
    (∃ (s : State), s.stw.run = .running ∧ s.pwr.phase = .running ∧ (s.pwr.rail 11).enabled = true) ∧
    (∃ (s : State) (k : Nat) (a : AfterDrop), s.stw.run = .running ∧ s.pwr.phase = .dropping k a ∧ 2 < k ∧ (s.pwr.rail (k - 1)).enabled = true) ∧
    (∃ (s : State) (k : Nat) (a : AfterDrop) (how : RailFall), s.stw.run = .running ∧ s.pwr.phase = .dropping k a ∧ how ≠ .fell ∧ k ∉ s.pwr.failedRails) ∧
    (∃ (s : State) (k : Nat), s.stw.run = .running ∧ s.pwr.phase = .raising k ∧ s.pwr.retries < 2) ∧
    (∃ (s : State) (k : Nat), s.stw.run = .running ∧ s.pwr.phase = .raising k ∧ 2 ≤ s.pwr.retries) ∧
    (∃ (s : State), s.stw.run = .running ∧ s.pwr.phase = .pllWait ∧ 2 ≤ s.pwr.retries) ∧
    (∃ (s : State) (k : Nat), s.stw.run = .running ∧ k ∈ s.pwr.failedRails ∧ (s.pwr.rail k).aboveOff = true ∧ (s.pwr.rail k).enabled = false) :=
  ⟨⟨pw fun p => { p with phase := .noSlot }, by decide +kernel⟩,
    ⟨pw fun p => { p with phase := .standby }, by decide +kernel⟩,
    ⟨pw fun p => { p with phase := .ready 2 }, 2, by decide +kernel⟩,
    ⟨pw fun p => { p with phase := .raising 11 }, 11, by decide +kernel⟩,
    ⟨pw fun p => { p with phase := .pllWait }, by decide +kernel⟩,
    ⟨up, by decide +kernel⟩,
    ⟨pw fun p => { p with phase := .offTime }, by decide +kernel⟩,
    ⟨pw fun p => { p with phase := .retryWait }, by decide +kernel⟩,
    ⟨up, by decide +kernel⟩,
    ⟨up, by decide +kernel⟩,
    ⟨pw fun p => { p with phase := .dropping 11 .offTime }, 11, AfterDrop.offTime, by decide +kernel⟩,
    ⟨pw fun p => { p with phase := .dropping 11 .offTime }, 11, AfterDrop.offTime, RailFall.timeout, by decide +kernel⟩,
    ⟨pw fun p => { p with phase := .raising 4, retries := 1 }, 4, by decide +kernel⟩,
    ⟨pw fun p => { p with phase := .raising 4, retries := 2 }, 4, by decide +kernel⟩,
    ⟨pw fun p => { p with phase := .pllWait, retries := 2 }, by decide +kernel⟩,
    ⟨pw fun p => { p with failedRails := [11], rails := List.replicate 10 ⟨true, true, true⟩ ++ [⟨false, false, true⟩] }, 11, by decide +kernel⟩⟩

theorem witness_ColdResetLeavesResetValues :
    (∃ (s : State), s.pcieUp = true ∧ s.eng.is Fld.CLK_RST_STAT_BUSY = false ∧ bitOf (s.eng.rd Reg.GLB_PEND) 1 = false ∧ s.eng.phys.hotspot < 1050) ∧
    (∃ (s : State), s.pwr.released = true ∧ s.eng.phys.hotspot < 1050) ∧
    (∃ (s : State), s.stw.run = .running ∧ s.pwr.released = true ∧ s.pwr.halted = false ∧ s.stw.boot = .booting) ∧
    (∃ (s : State), s.stw.run = .running ∧ s.pwr.released = true ∧ s.pwr.halted = false ∧ s.stw.boot = .secondTry) ∧
    (∃ (s : State), s.pwr.released = true) :=
  ⟨⟨up, by decide +kernel⟩,
    ⟨up, by decide +kernel⟩,
    ⟨up, by decide +kernel⟩,
    ⟨sw fun w => { w with boot := .secondTry }, by decide +kernel⟩,
    ⟨up, by decide +kernel⟩⟩

end WitA

namespace WitB

theorem witness_StewardActs :
    (∃ (s : State), s.stw.run = .running) ∧
    (∃ (s : State) (fan : Nat), s.stw.run = .running ∧ fan < 2 ∧ s.stw.fan.duty ≤ 10000) ∧
    (∃ (s : State), s.stw.run = .running ∧ s.engineUp = true ∧ s.eng.is Fld.STW_STAT_ABSENT = false) ∧
    (∃ (s : State), s.engineUp = true ∧ s.eng.is Fld.STW_STAT_ABSENT = false) ∧
    (∃ (s : State), s.stw.run = .running) ∧
    (∃ (s : State), s.stw.run = .running) ∧
    (∃ (s : State), s.stw.run = .restarting ∧ s.pwr.phase = .running ∧ s.stw.duePowerDown = false) ∧
    (∃ (s : State) (x : LabelWrite) (r : List LabelWrite), s.stw.run = .running ∧ s.stw.label.active = none ∧ s.stw.label.queue = x :: r) ∧
    (∃ (s : State) (x : LabelWrite), s.stw.run = .running ∧ s.stw.label.active = some x ∧ s.stw.label.waiting = []) :=
  ⟨⟨up, by decide +kernel⟩,
    ⟨up, 1, by decide +kernel⟩,
    ⟨up, by decide +kernel⟩,
    ⟨up, by decide +kernel⟩,
    ⟨up, by decide +kernel⟩,
    ⟨up, by decide +kernel⟩,
    ⟨sw fun w => { w with run := .restarting }, by decide +kernel⟩,
    ⟨sw fun w => { w with label := { w.label with queue := [⟨130, none, none, false⟩] } }, (⟨130, none, none, false⟩ : LabelWrite), ([] : List LabelWrite), by decide +kernel⟩,
    ⟨sw fun w => { w with label := { w.label with active := some ⟨130, none, none, false⟩ } }, (⟨130, none, none, false⟩ : LabelWrite), by decide +kernel⟩⟩

end WitB

namespace WitC

theorem witness_KolberMessagesTakeEffect :
    (∃ (s : State) (fr : KolFrame), s.engineUp = true ∧ s.eng.kolTakes 0x01 fr ∧ byteAt fr.payload 0 = 1 ∧ 1 ≤ s.eng.kol.helloRun) ∧
    (∃ (s : State) (fr : KolFrame), s.engineUp = true ∧ s.eng.kolTakes 0x10 fr ∧ s.eng.is Fld.KOL_CTRL_TRIGDIR = true ∧ s.eng.is Fld.KOL_STAT_LINK_UP = true) ∧
    (∃ (s : State) (fr : KolFrame), s.engineUp = true ∧ s.eng.kolTakes 0x10 fr ∧ s.eng.is Fld.KOL_CTRL_TRIGDIR = false) ∧
    (∃ (s : State) (fr : KolFrame), s.engineUp = true ∧ s.eng.kolTakes 0x20 fr ∧ leAt fr.payload 0 2 = s.eng.kol.ppsCtr ∧ byteAt fr.payload 2 = 1) ∧
    (∃ (s : State) (fr : KolFrame), s.engineUp = true ∧ s.eng.kolTakes 0x20 fr ∧ byteAt fr.payload 2 ≠ 1) ∧
    (∃ (s : State) (fr : KolFrame), s.engineUp = true ∧ s.eng.kolTakes 0x21 fr ∧ byteAt fr.payload 0 = 1) ∧
    (∃ (s : State) (fr : KolFrame), s.engineUp = true ∧ s.eng.kolTakes 0x40 fr) ∧
    (∃ (s : State) (fr : KolFrame), s.engineUp = true ∧ s.eng.kolTakes 0x50 fr) ∧
    (∃ (s : State) (fr : KolFrame), s.engineUp = true ∧ s.eng.kolTakes 0x30 fr ∧ s.stw.run = .running ∧ s.stw.label.active = none ∧ s.fld.labelReq.isSome = true) ∧
    (∃ (s : State) (fr : KolFrame), s.fld.takes 0x11 fr ∧ byteAt fr.payload 2 = 1) ∧
    (∃ (s : State) (fr : KolFrame), s.fld.takes 0x31 fr ∧ s.fld.labelReq = none) :=
  ⟨⟨up (fun e => { e.put Fld.KOL_CTRL_EN 1 with kol := { e.kol with helloRun := 1 } }), kolFr 0x01 [1, 1], by decide +kernel⟩,
    ⟨up (fun e => ((e.put Fld.KOL_CTRL_EN 1).put Fld.KOL_CTRL_TRIGDIR 1).put Fld.KOL_STAT_LINK_UP 1), kolFr 0x10 [5, 0, 1], by decide +kernel⟩,
    ⟨up (fun e => e.put Fld.KOL_CTRL_EN 1), kolFr 0x10 [5, 0, 1], by decide +kernel⟩,
    ⟨up (fun e => e.put Fld.KOL_CTRL_EN 1), kolFr 0x20 [0, 0, 1], by decide +kernel⟩,
    ⟨up (fun e => e.put Fld.KOL_CTRL_EN 1), kolFr 0x20 [5, 0, 0], by decide +kernel⟩,
    ⟨up (fun e => e.put Fld.KOL_CTRL_EN 1), kolFr 0x21 [1, 9, 0, 0, 0], by decide +kernel⟩,
    ⟨up (fun e => e.put Fld.KOL_CTRL_EN 1), kolFr 0x40 (1 :: List.replicate 16 7), by decide +kernel⟩,
    ⟨up (fun e => e.put Fld.KOL_CTRL_EN 1), kolFr 0x50 [3], by decide +kernel⟩,
    ⟨({ up (fun e => e.put Fld.KOL_CTRL_EN 1) with fld := { Field.init with labelReq := some (3, 0, 0) } } : State), kolFr 0x30 [3], by decide +kernel⟩,
    ⟨up, kolFr 0x11 [7, 0, 1], by decide +kernel⟩,
    ⟨up, kolFr 0x31 (natLE 1 3 ++ [2, 0] ++ List.replicate 32 5), by decide +kernel⟩⟩

theorem witness_KolberEdgesAndTriggers :
    (∃ (s : State) (v : Nat), s.engineUp = true ∧ s.pcieUp = true ∧ s.eng.pends 17 = false ∧ bitOf (s.eng.rd Reg.GLB_PEND) 17 = false ∧ v % 2 = 1) ∧
    (∃ (s : State) (v : Nat) (c : Nat), s.engineUp = true ∧ s.pcieUp = true ∧ s.eng.pends 17 = false ∧ kolProfile v = some c ∧ c % 2 = 1) ∧
    (∃ (s : State), s.engineUp = true ∧ s.pcieUp = true ∧ bitOf (s.eng.rd Reg.GLB_PEND) 17 = false ∧ s.eng.is Fld.KOL_CTRL_EN = true ∧ s.eng.time ≤ s.eng.rd Reg.KOL_TRIGOUT_TIME) ∧
    (∃ (s : State), s.engineUp = true ∧ s.pcieUp = true ∧ bitOf (s.eng.rd Reg.GLB_PEND) 17 = false) ∧
    (∃ (s : State) (t : Nat), s.engineUp = true ∧ s.eng.kol.armed = some t ∧ t ≤ s.eng.time ∧ s.eng.is Fld.KOL_STAT_LINK_UP = false) ∧
    (∃ (s : State) (t : Nat), s.engineUp = true ∧ s.eng.kol.armed = some t ∧ t ≤ s.eng.time ∧ s.eng.is Fld.KOL_STAT_LINK_UP = true ∧ s.eng.get Fld.KOL_CTRL_TRIGOUT_WIDTH ≠ 0 ∧ s.eng.is Fld.KOL_CTRL_TRIGDIR = true) ∧
    (∃ (s : State) (up : Bool), s.engineUp = true ∧ s.eng.is Fld.KOL_CTRL_EN = true ∧ s.eng.is Fld.KOL_STAT_LINK_UP = true ∧ s.eng.is Fld.KOL_CTRL_PPS_POL = !up ∧ s.eng.kol.lastE0 = none ∧ s.eng.is Fld.FLG_TIME_CFG_ROOT = false) ∧
    (∃ (s : State) (up : Bool), s.engineUp = true ∧ s.eng.is Fld.KOL_CTRL_EN = true ∧ s.eng.is Fld.KOL_STAT_LINK_UP = true ∧ s.eng.is Fld.KOL_CTRL_TRIGDIR = false ∧ s.eng.is Fld.KOL_CTRL_TRIGIN_POL = !up ∧ s.eng.kol.lastE1 = none ∧ s.eng.is Fld.GLN_TALLY_CFG_MODE = true) ∧
    (∃ (s : State) (up : Bool) (frac : Nat) (p : Nat), s.engineUp = true ∧ s.eng.is Fld.KOL_CTRL_EN = true ∧ s.eng.is Fld.KOL_STAT_LINK_UP = true ∧ s.eng.is Fld.KOL_CTRL_PPS_POL = !up ∧ s.eng.kol.lastE0 = some p ∧ 16 * s.eng.cyc + frac % 16 < p + 20000) ∧
    (∃ (s : State), s.engineUp = true ∧ s.eng.is Fld.KOL_CTRL_EN = true) ∧
    (∃ (s : State), s.engineUp = true ∧ s.eng.is Fld.KOL_STAT_LINK_UP = true) :=
  ⟨⟨up, 1, by decide +kernel⟩,
    ⟨up, 2, 0x0A03, by decide +kernel⟩,
    ⟨up (fun e => e.put Fld.KOL_CTRL_EN 1), by decide +kernel⟩,
    ⟨up, by decide +kernel⟩,
    ⟨up (fun e => { e with kol := { e.kol with armed := some 0 } }), 0, by decide +kernel⟩,
    ⟨up (fun e => { (((e.put Fld.KOL_STAT_LINK_UP 1).put Fld.KOL_CTRL_TRIGOUT_WIDTH 5).put Fld.KOL_CTRL_TRIGDIR 1) with kol := { e.kol with armed := some 0 } }), 0, by decide +kernel⟩,
    ⟨up (fun e => (e.put Fld.KOL_CTRL_EN 1).put Fld.KOL_STAT_LINK_UP 1), true, by decide +kernel⟩,
    ⟨up (fun e => ((e.put Fld.KOL_CTRL_EN 1).put Fld.KOL_STAT_LINK_UP 1).put Fld.GLN_TALLY_CFG_MODE 1), true, by decide +kernel⟩,
    ⟨up (fun e => { (e.put Fld.KOL_CTRL_EN 1).put Fld.KOL_STAT_LINK_UP 1 with kol := { e.kol with lastE0 := some 0 } }), true, 1, 0, by decide +kernel⟩,
    ⟨up (fun e => e.put Fld.KOL_CTRL_EN 1), by decide +kernel⟩,
    ⟨up (fun e => e.put Fld.KOL_STAT_LINK_UP 1), by decide +kernel⟩⟩

theorem witness_FieldEndActs :
    (∃ (s : State), s.fld.powered = true) ∧
    (∃ (s : State) (p : Bool), s.fld.powered = true ∧ s.fld.refPresent ≠ p) ∧
    (∃ (s : State), s.fld.powered = true) ∧
    (∃ (s : State), s.fld.powered = true) ∧
    (∃ (s : State), s.fld.powered = true ∧ s.fld.vfldOn = false) ∧
    (∃ (s : State), s.fld.powered = true ∧ s.fld.alarm ≠ 0) ∧
    (∃ (s : State), s.fld.powered = true) ∧
    (∃ (s : State) (page : Nat) (n : Nat) (g : Nat), s.fld.powered = true ∧ s.fld.labelReq = some (page, n, g) ∧ n < 3) ∧
    (∃ (s : State) (page : Nat) (n : Nat) (g : Nat), s.fld.labelReq = some (page, n, g) ∧ 3 ≤ n) ∧
    (∃ (w : Nat), 150 < w) ∧
    (∃ (c : Nat), c < 8) :=
  ⟨⟨up, by decide +kernel⟩,
    ⟨up, true, by decide +kernel⟩,
    ⟨up, by decide +kernel⟩,
    ⟨up, by decide +kernel⟩,
    ⟨fl fun f => { f with vfldOn := false }, by decide +kernel⟩,
    ⟨up, by decide +kernel⟩,
    ⟨up, by decide +kernel⟩,
    ⟨fl fun f => { f with labelReq := some (3, 1, 0) }, 3, 1, 0, by decide +kernel⟩,
    ⟨fl fun f => { f with labelReq := some (3, 3, 0) }, 3, 3, 0, by decide +kernel⟩,
    ⟨151, by decide +kernel⟩,
    ⟨2, by decide +kernel⟩⟩

end WitC

namespace WitD

theorem witness_DomainsDrainGateAndWake :
    (∃ (s : State) (d : Nat), s.engineUp = true ∧ s.pcieUp = true ∧ bitOf (s.eng.rd Reg.GLB_PEND) 1 = false ∧ d < 19 ∧ d ≠ 14 ∧ s.eng.rd Reg.CLK_DOM_CTRL < 2 ^ 19 ∧ bitOf (s.eng.rd Reg.CLK_DOM_CTRL) 14 = true ∧ bitOf (s.eng.rd Reg.CLK_DOM_CTRL) d = true ∧ (s.eng.dom d).st = .on ∧ ((d = 18 → s.eng.felgenBusy = false))) ∧
    (∃ (s : State), s.engineUp = true ∧ s.pcieUp = true ∧ bitOf (s.eng.rd Reg.GLB_PEND) 1 = false ∧ s.eng.rd Reg.CLK_DOM_CTRL < 2 ^ 19 ∧ bitOf (s.eng.rd Reg.CLK_DOM_CTRL) 14 = true ∧ bitOf (s.eng.rd Reg.CLK_DOM_CTRL) 18 = true ∧ s.eng.felgenBusy = true) ∧
    (∃ (s : State) (d : Nat), s.engineUp = true ∧ d < 8 ∧ (s.eng.dom d).st = .draining ∧ (s.eng.dom d).resetPend = false ∧ s.eng.domBusy d = false) ∧
    (∃ (s : State) (d : Nat), s.engineUp = true ∧ 8 ≤ d ∧ d < 17 ∧ (s.eng.dom d).st = .draining ∧ (s.eng.dom d).resetPend = false ∧ s.eng.domBusy d = false) ∧
    (∃ (s : State) (d : Nat), s.engineUp = true ∧ 17 ≤ d ∧ d < 19 ∧ (s.eng.dom d).st = .draining ∧ (s.eng.dom d).resetPend = false ∧ s.eng.domBusy d = false) ∧
    (∃ (s : State) (d : Nat), s.engineUp = true ∧ d < 19 ∧ (s.eng.dom d).st = .draining ∧ (s.eng.dom d).resetPend = false ∧ (s.eng.dom d).held = false ∧ (s.eng.dom d).gatePend = false ∧ s.eng.domBusy d = true ∧ (s.eng.dom d).since + 62500 ≤ s.eng.cyc) ∧
    (∃ (s : State) (d : Nat), s.engineUp = true ∧ s.pcieUp = true ∧ bitOf (s.eng.rd Reg.GLB_PEND) 1 = false ∧ d < 19 ∧ s.eng.rd Reg.CLK_DOM_CTRL < 2 ^ 19 ∧ bitOf (s.eng.rd Reg.CLK_DOM_CTRL) 14 = true ∧ bitOf (s.eng.rd Reg.CLK_DOM_CTRL) d = false ∧ (s.eng.dom d).st = .gated ∧ (s.eng.dom d).held = false) ∧
    (∃ (s : State) (d : Nat), s.engineUp = true ∧ d < 19 ∧ (s.eng.dom d).st = .waking ∧ (s.eng.dom d).gatePend = false) :=
  ⟨⟨up, 3, by decide +kernel⟩,
    ⟨up fun e => e.put (Fld.FLG_PORT_STAT_STATE 0) 3, by decide +kernel⟩,
    ⟨up (domSt 3 { st := .draining }), 3, by decide +kernel⟩,
    ⟨up (domSt 9 { st := .draining }), 9, by decide +kernel⟩,
    ⟨up (domSt 18 { st := .draining }), 18, by decide +kernel⟩,
    ⟨up fun e => { domSt 17 { st := .draining } e with cyc := 62500, gar := { e.gar with queue := [{ pkt := 1, reason := 0, act := 0, snap := 0, slotLog := 8, base := 0, ph := 1 }] } }, 17, by decide +kernel⟩,
    ⟨up (fun e => domSt 3 { st := .gated } (e.setReq 3 false)), 3, by decide +kernel⟩,
    ⟨up (domSt 3 { st := .waking }), 3, by decide +kernel⟩⟩

theorem witness_WarmAndBlockResets :
    (∃ (s : State) (mask : Nat), s.engineUp = true ∧ s.pcieUp = true ∧ bitOf (s.eng.rd Reg.GLB_PEND) 1 = false ∧ s.eng.resetAllowed mask = false) ∧
    (∃ (s : State), s.engineUp = true ∧ s.pcieUp = true ∧ bitOf (s.eng.rd Reg.GLB_PEND) 1 = false ∧ s.eng.causeOn 5 = true) ∧
    (∃ (s : State) (d : Nat), s.engineUp = true ∧ s.pcieUp = true ∧ bitOf (s.eng.rd Reg.GLB_PEND) 1 = false ∧ d < 12 ∧ (s.eng.dom d).st = .on) ∧
    (∃ (s : State) (d : Nat), s.engineUp = true ∧ d < 12 ∧ (s.eng.dom d).st = .draining ∧ (s.eng.dom d).resetPend = true ∧ (s.eng.dom d).since + 62500 ≤ s.eng.cyc) ∧
    (∃ (s : State), s.pcieUp = true ∧ s.eng.is Fld.CLK_RST_STAT_BUSY = false ∧ bitOf (s.eng.rd Reg.GLB_PEND) 1 = false) ∧
    (∃ (s : State) (key : Nat), key ≠ 0x4160 ∧ bitOf (s.eng.rd Reg.GLB_PEND) 1 = false) ∧
    (∃ (s : State), s.pwr.released = true ∧ s.pwr.halted = false ∧ s.eng.is Fld.CLK_RST_STAT_BUSY = true ∧ s.eng.phys.hotspot < 1050) ∧
    (∃ (s : State) (t0 : Nat), s.engineUp = true ∧ s.eng.flg.resetAt = some t0 ∧ t0 ≤ s.eng.time) :=
  ⟨⟨up, 2 ^ 12, by decide +kernel⟩,
    ⟨up (fun e => e.put Fld.ERR_BYPASS_STAT_CAUSES 16), by decide +kernel⟩,
    ⟨up, 11, by decide +kernel⟩,
    ⟨up (fun e => { domSt 11 { st := .draining, resetPend := true } e with cyc := 62500 }), 11, by decide +kernel⟩,
    ⟨up, by decide +kernel⟩,
    ⟨up, 0x4161, by decide +kernel⟩,
    ⟨up (fun e => e.put Fld.CLK_RST_STAT_BUSY 1), by decide +kernel⟩,
    ⟨up (fun e => { e with flg := { e.flg with resetAt := some 0 } }), 0, by decide +kernel⟩⟩

theorem witness_BypassCausesFollowEvents :
    (∃ (s : State) (x : Int), s.engineUp = true ∧ 1050 ≤ x ∧ s.eng.causeOn 1 = false) ∧
    (∃ (s : State) (x : Int), s.pwr.released = true ∧ 1150 ≤ x) ∧
    (∃ (s : State) (x : Int), s.engineUp = true ∧ x ≤ 950 ∧ s.eng.get Fld.ERR_BYPASS_STAT_CAUSES = 1) ∧
    (∃ (s : State), s.engineUp = true ∧ s.stw.run = .running ∧ s.eng.causeOn 4 = false) ∧
    (∃ (s : State), s.engineUp = true ∧ s.stw.run = .running ∧ s.eng.err.railOkAt = none) ∧
    (∃ (s : State) (t0 : Nat), s.engineUp = true ∧ s.eng.err.railOkAt = some t0 ∧ t0 + 1250000000 ≤ s.eng.cyc ∧ s.eng.causeOn 4 = true) ∧
    (∃ (s : State), s.engineUp = true ∧ s.pcieUp = true ∧ bitOf (s.eng.rd Reg.GLB_PEND) 18 = false ∧ s.eng.causeOn 5 = false ∧ s.eng.inBypass = false) ∧
    (∃ (s : State), s.engineUp = true ∧ s.pcieUp = true ∧ bitOf (s.eng.rd Reg.GLB_PEND) 18 = false ∧ s.eng.causeOn 5 = true ∧ s.eng.inBypass = true ∧ s.eng.gft.live = none) ∧
    (∃ (s : State), s.engineUp = true ∧ s.pcieUp = true ∧ bitOf (s.eng.rd Reg.GLB_PEND) 18 = false ∧ s.eng.causeOn 2 = true ∧ s.eng.err.testing = []) ∧
    (∃ (s : State), s.engineUp = true ∧ s.eng.is Fld.ERR_BYPASS_STAT_SELFTEST = true ∧ s.eng.err.ueAgain = false ∧ s.eng.causeOn 2 = true) ∧
    (∃ (s : State) (a : Nat), s.engineUp = true ∧ s.eng.is Fld.ERR_CFG_SCRUB_EN = true ∧ a < 0x0C000000 ∧ (a / 8 * 8) ∉ s.eng.poison) ∧
    (∃ (s : State) (v : Nat), s.engineUp = true ∧ s.pcieUp = true ∧ bitOf (s.eng.rd Reg.GLB_PEND) 18 = false ∧ bitsOf v 31 16 = 0x4160) :=
  ⟨⟨up, 1050, by decide +kernel⟩,
    ⟨up, 1150, by decide +kernel⟩,
    ⟨up (fun e => (e.put Fld.ERR_BYPASS_STAT_CAUSES 1).put Fld.ERR_BYPASS_STAT_ACTIVE 1), 950, by decide +kernel⟩,
    ⟨up, by decide +kernel⟩,
    ⟨up, by decide +kernel⟩,
    ⟨up (fun e => { e.enterCause 4 with cyc := 1250000000, err := { e.err with railOkAt := some 0 } }), 0, by decide +kernel⟩,
    ⟨up, by decide +kernel⟩,
    ⟨up (fun e => e.enterCause 5), by decide +kernel⟩,
    ⟨up (fun e => e.engineUe 3), by decide +kernel⟩,
    ⟨up (fun e => (e.enterCause 2).put Fld.ERR_BYPASS_STAT_SELFTEST 1), by decide +kernel⟩,
    ⟨up (fun e => e.put Fld.ERR_CFG_SCRUB_EN 1), 0x0BFFFFFF, by decide +kernel⟩,
    ⟨up, 0x41608103, by decide +kernel⟩⟩

end WitD

namespace WitE

theorem witness_ProfilesReadBack :
    (∃ (s : State) (c : Instr) (v : Nat) (f : Fld) (b : Nat) (n : Nat), s.engineUp = true ∧ s.pcieUp = true ∧ s.eng.rd Reg.GLB_PEND = 0 ∧ profileOf c = some (v, f, b, n) ∧ v < n) ∧
    (∃ (s : State) (c : Instr) (v : Nat) (f : Fld) (b : Nat) (n : Nat), s.engineUp = true ∧ s.pcieUp = true ∧ s.eng.rd Reg.GLB_PEND = 0 ∧ profileOf c = some (v, f, b, n) ∧ n ≤ v) ∧
    (∃ (s : State) (c : Instr) (v : Nat) (f : Fld) (b : Nat) (n : Nat), s.engineUp = true ∧ s.pcieUp = true ∧ profileOf c = some (v, f, b, n) ∧ bitOf (s.eng.rd Reg.GLB_PEND) b = true) ∧
    (∃ (s : State) (b : Nat), s.engineUp = true ∧ b ∈ [1, 3, 4, 6, 7, 8, 9, 10, 11, 12, 13, 14, 15, 16, 17, 18]) :=
  ⟨⟨up, Instr.clkDomProfileSelect 1, 1, Fld.CLK_DOM_PROFILE_PROFILE, 1, 3, by decide +kernel⟩,
    ⟨up, Instr.shfProfileSelect 7, 7, Fld.SHF_PROFILE_PROFILE, 7, 3, by decide +kernel⟩,
    ⟨up (fun e => e.wr Reg.GLB_PEND 0x7FFFE), Instr.numProfileSelect 1, 1, Fld.NUM_PROFILE_PROFILE, 10, 4, by decide +kernel⟩,
    ⟨up (fun e => e.wr Reg.GLB_PEND 0x7FFFE), 14, by decide +kernel⟩⟩

theorem witness_ProfilesExpand :
    (∃ (s : State) (v : Nat), s.engineUp = true ∧ s.pcieUp = true ∧ s.eng.rd Reg.GLB_PEND = 0 ∧ v < 4) ∧
    (∃ (s : State) (v : Nat), s.engineUp = true ∧ s.pcieUp = true ∧ s.eng.rd Reg.GLB_PEND = 0 ∧ v < 3) ∧
    (∃ (s : State) (v : Nat), s.engineUp = true ∧ s.pcieUp = true ∧ s.eng.rd Reg.GLB_PEND = 0 ∧ v < 4) ∧
    (∃ (s : State) (v : Nat) (p : Nat), s.engineUp = true ∧ s.pcieUp = true ∧ s.eng.rd Reg.GLB_PEND = 0 ∧ v < 4 ∧ p < 32 ∧ s.eng.is (Fld.ITK_PORT_CTRL_UP p) = true) ∧
    (∃ (s : State) (v : Nat), s.engineUp = true ∧ s.pcieUp = true ∧ s.eng.rd Reg.GLB_PEND = 0 ∧ (v = 1 ∨ v = 2) ∧ s.eng.genState = 0 ∧ s.eng.hif.cmds = []) ∧
    (∃ (s : State) (v : Nat), s.engineUp = true ∧ s.pcieUp = true ∧ s.eng.rd Reg.GLB_PEND = 0 ∧ (v = 1 ∨ v = 2) ∧ s.eng.genState ≠ 0) ∧
    (∃ (s : State) (p : Nat), s.engineUp = true ∧ s.pcieUp = true ∧ s.eng.rd Reg.GLB_PEND = 0 ∧ p < 32 ∧ s.eng.present p = true) ∧
    (∃ (s : State) (p : Nat), s.engineUp = true ∧ s.pcieUp = true ∧ s.eng.rd Reg.GLB_PEND = 0 ∧ p < 32 ∧ s.eng.present p = true ∧ s.eng.get (Fld.SLC_PBASIC_RATE_MBPS p) = 0) ∧
    (∃ (s : State) (v : Nat), s.engineUp = true ∧ s.pcieUp = true ∧ s.eng.rd Reg.GLB_PEND = 0 ∧ v < 3) ∧
    (∃ (s : State) (v : Nat), s.engineUp = true ∧ s.pcieUp = true ∧ s.eng.rd Reg.GLB_PEND = 0 ∧ v ≤ 1 ∧ s.eng.ringsTouched 4096 = []) ∧
    (∃ (s : State), s.engineUp = true ∧ s.eng.rd Reg.GLB_PEND = 4 ∧ s.eng.hif.expanding = some 0) :=
  ⟨⟨up, 3, by decide +kernel⟩,
    ⟨up, 2, by decide +kernel⟩,
    ⟨up, 1, by decide +kernel⟩,
    ⟨up (fun e => e.put (Fld.ITK_PORT_CTRL_UP 31) 1), 3, 31, by decide +kernel⟩,
    ⟨up, 2, by decide +kernel⟩,
    ⟨up (fun e => e.put Fld.WNW_GEN_STAT_STATE 2), 1, by decide +kernel⟩,
    ⟨up (fun e => e.put (Fld.SLC_GCL_CTRL_EN 4) 1), 4, by decide +kernel⟩,
    ⟨up, 4, by decide +kernel⟩,
    ⟨up, 2, by decide +kernel⟩,
    ⟨up, 1, by decide +kernel⟩,
    ⟨up (fun e => { e.wr Reg.GLB_PEND 4 with hif := { e.hif with expanding := some 0 } }), by decide +kernel⟩⟩

end WitE

namespace WitF

theorem witness_HostRegisterAccesses :
    (∃ (s : State) (v : Nat), s.engineUp = true ∧ s.pcieUp = true ∧ v < 2 ^ 64) ∧
    (∃ (s : State) (v : Nat) (i : Nat), s.engineUp = true ∧ s.pcieUp = true ∧ v < 2 ^ 32 ∧ i < 4) ∧
    (∃ (s : State) (off : Nat) (w : Nat), s.engineUp = true ∧ s.pcieUp = true ∧ accessOk false off w = false) ∧
    (∃ (s : State) (off : Nat) (d : Bytes), s.engineUp = true ∧ s.pcieUp = true ∧ s.eng.is Fld.GLB_CAP_BAR4 = true ∧ s.eng.is Fld.HIF_BAR4_EN = true ∧ off < 2 ^ 36 ∧ s.eng.get Fld.HIF_BAR4_BASE = 0 ∧ off + d.length ≤ 0x0C000000) ∧
    (∃ (s : State) (off : Nat) (d : Bytes), s.engineUp = true ∧ s.pcieUp = true ∧ s.eng.is Fld.GLB_CAP_BAR4 = true ∧ s.eng.is Fld.HIF_BAR4_EN = true ∧ s.eng.get Fld.HIF_BAR4_BASE = 0 ∧ off + d.length ≤ 0x0C000000 ∧ s.eng.poison = [] ∧ s.eng.is Fld.ERR_INJECT_ARMED = false) ∧
    (∃ (s : State) (off : Nat), s.engineUp = true ∧ s.pcieUp = true ∧ s.eng.is Fld.GLB_CAP_BAR4 = true ∧ s.eng.is Fld.HIF_BAR4_EN = false ∧ off < 2 ^ 36) ∧
    (∃ (s : State), s.engineUp = true ∧ s.pcieUp = true ∧ s.eng.inLattice = false) ∧
    (∃ (s : State), s.engineUp = true ∧ s.pcieUp = true ∧ s.eng.inLattice = true ∧ s.eng.is Fld.FLG_TIME_CFG_ROOT = false) ∧
    (∃ (s : State), s.engineUp = true ∧ s.pcieUp = true ∧ s.eng.applyRefusal = 0) ∧
    (∃ (s : State), s.engineUp = true ∧ s.pcieUp = true ∧ s.eng.applyRefusal ≠ 0) ∧
    (∃ (s : State), s.engineUp = true ∧ s.eng.is Fld.GLB_PART_STAT_BUSY = true ∧ Memory.wf s.eng.mem) :=
  ⟨⟨up, 77, by decide +kernel⟩,
    ⟨up (fun e => e.wr Reg.GLB_EVT 15), 5, 2, by decide +kernel⟩,
    ⟨up, 0x3FFFFFC, 4, by decide +kernel⟩,
    ⟨up (fun e => (e.put Fld.GLB_CAP_BAR4 1).put Fld.HIF_BAR4_EN 1), 0x0BFFFFFC, ([1, 2, 3, 4] : Bytes), by decide +kernel⟩,
    ⟨up (fun e => ((e.put Fld.GLB_CAP_BAR4 1).put Fld.HIF_BAR4_EN 1).store 16 [9]), 16, ([0, 0] : Bytes), by decide +kernel⟩,
    ⟨up (fun e => e.put Fld.GLB_CAP_BAR4 1), 16, by decide +kernel⟩,
    ⟨up, by decide +kernel⟩,
    ⟨up (fun e => e.put (Fld.FLG_PORT_CFG_EN 0) 1), by decide +kernel⟩,
    ⟨up, by decide +kernel⟩,
    ⟨up (fun e => e.put Fld.GLN_TRACE_CFG_EN 1), by decide +kernel⟩,
    ⟨up (fun e => (e.put Fld.GLB_PART_STAT_BUSY 1).store 0x1234 [7]), by decide +kernel⟩⟩

theorem witness_RingsAndDoorbells :
    (∃ (s : State) (k : Nat) (v : Nat), s.engineUp = true ∧ s.pcieUp = true ∧ k < 4096 ∧ v < 2 ^ 32 ∧ s.eng.ringState k = 1 ∧ s.eng.hostRing k = true ∧ cntSub v (s.eng.cons k) ≤ s.eng.ringSize k ∧ cntSub (s.eng.prod k) (s.eng.cons k) ≤ cntSub v (s.eng.cons k)) ∧
    (∃ (s : State) (k : Nat) (v : Nat), s.engineUp = true ∧ s.pcieUp = true ∧ k < 4096 ∧ v < 2 ^ 32 ∧ s.eng.ringState k = 1 ∧ s.eng.hostRing k = true ∧ s.eng.ringSize k < cntSub v (s.eng.cons k)) ∧
    (∃ (s : State) (k : Nat) (v : Nat), s.engineUp = true ∧ s.pcieUp = true ∧ k < 4096 ∧ v < 2 ^ 32 ∧ s.eng.ringState k = 1 ∧ s.eng.hostRing k = false ∧ cntSub v (s.eng.cons k) ≤ cntSub (s.eng.prod k) (s.eng.cons k)) ∧
    (∃ (s : State) (w : Nat), s.engineUp = true ∧ s.pcieUp = true ∧ w ≠ 4) ∧
    (∃ (s : State) (k : Nat), s.engineUp = true ∧ s.pcieUp = true ∧ bitOf (s.eng.rd Reg.GLB_PEND) 2 = false ∧ k < 4096 ∧ s.eng.ringState k = 0 ∧ s.eng.ringOk k = true) ∧
    (∃ (s : State) (k : Nat), s.engineUp = true ∧ s.pcieUp = true ∧ bitOf (s.eng.rd Reg.GLB_PEND) 2 = false ∧ k < 4096 ∧ s.eng.ringState k = 0 ∧ s.eng.ringOk k = false) ∧
    (∃ (s : State) (k : Nat), s.engineUp = true ∧ s.pcieUp = true ∧ bitOf (s.eng.rd Reg.GLB_PEND) 2 = false ∧ k < 4096 ∧ s.eng.ringState k = 1) ∧
    (∃ (s : State) (k : Nat), s.engineUp = true ∧ k < 4096 ∧ s.eng.ringState k = 3 ∧ s.eng.cplIdle k = true) ∧
    (∃ (s : State) (k : Nat), s.engineUp = true ∧ s.pcieUp = true ∧ (s.eng.ring k).stale = true ∧ s.eng.hostRing k = false) ∧
    (∃ (s : State) (k : Nat) (v : Nat), s.engineUp = true ∧ s.pcieUp = true ∧ (s.eng.ring k).unsignalled ≠ 0 ∧ (s.eng.ring k).stale = false ∧ s.eng.get (Fld.HIF_RING_COAL_COAL_TIME k) ≠ 0 ∧ s.eng.get (Fld.HIF_RING_CFG_VECTOR k) = v ∧ s.eng.msixMasked v = false) ∧
    (∃ (s : State) (k : Nat) (v : Nat), s.engineUp = true ∧ s.pcieUp = true ∧ (s.eng.ring k).unsignalled ≠ 0 ∧ (s.eng.ring k).stale = false ∧ s.eng.get (Fld.HIF_RING_COAL_COAL_TIME k) ≠ 0 ∧ s.eng.get (Fld.HIF_RING_CFG_VECTOR k) = v ∧ s.eng.msixMasked v = true) :=
  ⟨⟨up (ringAt 4095 1 4 1), 4095, 16, by decide +kernel⟩,
    ⟨up (ringAt 4095 2 4 1), 4095, 17, by decide +kernel⟩,
    ⟨up (fun e => (ringAt 7 4 4 1 e).wr (Reg.HIF_RING_PROD 7) 3), 7, 2, by decide +kernel⟩,
    ⟨up, 8, by decide +kernel⟩,
    ⟨up (ringAt 4095 5 16 0), 4095, by decide +kernel⟩,
    ⟨up, 3, by decide +kernel⟩,
    ⟨up (ringAt 2 3 4 1), 2, by decide +kernel⟩,
    ⟨up (ringAt 2 3 4 3), 2, by decide +kernel⟩,
    ⟨up (fun e => (ringAt 2 3 4 1 e).setRing 2 fun r => { r with stale := true }), 2, by decide +kernel⟩,
    ⟨up (fun e => ({ (ringAt 2 3 4 1 e).put (Fld.HIF_RING_COAL_COAL_TIME 2) 3 with hif := { e.hif with msix := [(12, 0)] } } : Engine).setRing 2 fun r => { r with unsignalled := 1 }), 2, 0, by decide +kernel⟩,
    ⟨up (fun e => ((ringAt 2 3 4 1 e).put (Fld.HIF_RING_COAL_COAL_TIME 2) 3).setRing 2 fun r => { r with unsignalled := 1 }), 2, 0, by decide +kernel⟩⟩

theorem witness_CommandsFlowThroughRings :
    (∃ (s : State) (k : Nat), s.engineUp = true ∧ s.pcieUp = true ∧ s.eng.ringsTouched 4096 = [k] ∧ s.eng.ringState k = 1 ∧ s.eng.hostRing k = true ∧ s.eng.hif.rings = [] ∧ s.eng.hif.cmds = [] ∧ s.eng.inTransit k ≠ 0 ∧ s.eng.get Fld.HIF_FETCH_BURST ≠ 0 ∧ s.eng.quota (s.eng.ringPd k) ≠ 0) ∧
    (∃ (s : State) (k : Nat) (f : FetchReq) (r : List FetchReq), s.engineUp = true ∧ s.pcieUp = true ∧ (s.eng.ring k).fetches = f :: r ∧ f.discard = true) ∧
    (∃ (s : State) (k : Nat) (st : Nat) (comp : Nat), s.engineUp = true ∧ s.pcieUp = true ∧ (s.eng.ring k).fetches = [⟨st, 1, false⟩] ∧ s.eng.ringKind k = 1 ∧ comp < 4096 ∧ s.eng.compRingOk (s.eng.ringPd k) comp = true ∧ bitOf (s.eng.get (Fld.HIF_PD_CTRL_OPMASK (s.eng.ringPd k))) 0 = true) ∧
    (∃ (s : State) (k : Nat) (st : Nat) (d : Bytes), s.engineUp = true ∧ s.pcieUp = true ∧ (s.eng.ring k).fetches = [⟨st, 1, false⟩] ∧ s.eng.compRingOk (s.eng.ringPd k) (bitsOf (descWord d 0) 27 16) = false ∧ s.eng.is (Fld.HIF_PD_CTRL_DEF_EN (s.eng.ringPd k)) = false ∧ d.length = 64) ∧
    (∃ (s : State) (id : Nat) (c : Cmd), s.engineUp = true ∧ s.eng.startable id 0x00 = some c) ∧
    (∃ (s : State) (id : Nat) (c : Cmd), s.engineUp = true ∧ s.eng.startable id 0x01 = some c ∧ c.srcLoc = false ∧ c.dstLoc = true ∧ s.eng.is Fld.ERR_INJECT_ARMED = false) ∧
    (∃ (s : State) (id : Nat) (c : Cmd), s.engineUp = true ∧ s.eng.startable id 0x01 = some c ∧ c.srcLoc = true ∧ c.dstLoc = false ∧ s.eng.is Fld.ERR_INJECT_ARMED = false ∧ s.eng.poison = []) ∧
    (∃ (s : State) (id : Nat), s.engineUp = true ∧ s.eng.startable id 0x01 = none) ∧
    (∃ (s : State) (k : Nat) (x : Cpl) (r : List Cpl) (c : Cmd), s.engineUp = true ∧ s.pcieUp = true ∧ s.eng.ringKind k = 3 ∧ s.eng.ringState k = 1 ∧ (s.eng.ring k).queue = x :: r ∧ x.tally = none ∧ s.eng.cmd x.cmd = some c ∧ s.eng.ringRoom k = true) ∧
    (∃ (s : State) (k : Nat), s.engineUp = true ∧ s.pcieUp = true ∧ s.eng.ringRoom k = false ∧ s.eng.ringKind k = 3 ∧ s.eng.ringState k = 1) :=
  ⟨⟨up (fun e => ((ringAt 9 1 4 1 e).wr (Reg.HIF_RING_PROD 9) 3).put (Fld.HIF_PD_CTRL_QUOTA 0) 2), 9, by decide +kernel⟩,
    ⟨up (fun e => (ringAt 9 1 4 0 e).setRing 9 fun r => { r with fetches := [⟨0, 1, true⟩] }), 9, (⟨0, 1, true⟩ : FetchReq), ([] : List FetchReq), by decide +kernel⟩,
    ⟨up (fun e => (ringAt 9 1 4 1 (ringAt 4095 3 4 1 (e.put (Fld.HIF_PD_CTRL_OPMASK 0) 1))).setRing 9 fun r => { r with fetches := [⟨5, 1, false⟩] }), 9, 5, 4095, by decide +kernel⟩,
    ⟨up (fun e => (ringAt 9 1 4 1 e).setRing 9 fun r => { r with fetches := [⟨5, 1, false⟩] }), 9, 5, (List.replicate 64 0 : Bytes), by decide +kernel⟩,
    ⟨withC (cmdOf 0x00), 1, cmdOf 0x00, by decide +kernel⟩,
    ⟨withC (cmdOf 0x01 4 0x1000 0 64), 1, cmdOf 0x01 4 0x1000 0 64, by decide +kernel⟩,
    ⟨withC (cmdOf 0x01 4 0x0800 64 0) (fun e => e.store 64 [1, 2, 3, 4]), 1, cmdOf 0x01 4 0x0800 64 0, by decide +kernel⟩,
    ⟨up, 1, by decide +kernel⟩,
    ⟨withC (cmdOf 0x00) (fun e => (ringAt 1 3 4 1 e).setRing 1 fun r => { r with queue := [⟨1, 0, 0, 0, 0, 0, 0, none, 328, 0, none⟩] }), 1, (⟨1, 0, 0, 0, 0, 0, 0, none, 328, 0, none⟩ : Cpl), ([] : List Cpl), cmdOf 0x00, by decide +kernel⟩,
    ⟨withC (cmdOf 0x00) (fun e => ((ringAt 1 3 4 1 e).wr (Reg.HIF_RING_PROD 1) 16).setRing 1 fun r => { r with queue := [⟨1, 0, 0, 0, 0, 0, 0, none, 328, 0, none⟩] }), 1, by decide +kernel⟩⟩

end WitF

namespace WitG

theorem witness_PortsFollowTheirRules :
    (∃ (s : State) (p : Nat), s.engineUp = true ∧ s.pcieUp = true ∧ s.eng.pends 3 = false ∧ p < 32 ∧ s.eng.is (Fld.ITK_PORT_CTRL_UP p) = false ∧ s.eng.upAllowed p = true) ∧
    (∃ (s : State) (p : Nat), s.engineUp = true ∧ s.pcieUp = true ∧ s.eng.pends 3 = false ∧ p < 32 ∧ s.eng.is (Fld.ITK_PORT_CTRL_UP p) = false ∧ s.eng.upAllowed p = false) ∧
    (∃ (s : State) (p : Nat), s.engineUp = true ∧ s.pcieUp = true ∧ s.eng.pends 3 = false ∧ p < 32 ∧ s.eng.is (Fld.ITK_PORT_CTRL_UP p) = true ∧ (s.eng.rxOf p).cur = none) ∧
    (∃ (s : State) (p : Nat), s.engineUp = true ∧ p < 32) ∧
    (∃ (s : State) (p : Nat) (v : Nat), s.engineUp = true ∧ s.pcieUp = true ∧ s.eng.pends 3 = false ∧ p < 32 ∧ s.eng.is (Fld.ITK_PORT_CTRL_UP p) = false ∧ v % 4 ≠ 3 ∧ 1518 ≤ bitsOf v 23 10 ∧ bitsOf v 23 10 ≤ 9728) ∧
    (∃ (s : State) (p : Nat) (v : Nat), s.engineUp = true ∧ s.pcieUp = true ∧ s.eng.pends 3 = false ∧ p < 32 ∧ ((s.eng.is (Fld.ITK_PORT_CTRL_UP p) = true ∨ v % 4 = 3 ∨ bitsOf v 23 10 < 1518 ∨ 9728 < bitsOf v 23 10))) ∧
    (∃ (s : State) (c : Nat) (v : Nat), s.engineUp = true ∧ s.pcieUp = true ∧ s.eng.pends 3 = false ∧ c < 8 ∧ v < 3) ∧
    (∃ (s : State) (c : Nat) (k : Nat), s.engineUp = true ∧ s.pcieUp = true ∧ s.eng.pends 3 = false ∧ c < 8 ∧ k < 4 ∧ s.eng.is (Fld.ITK_PORT_CTRL_UP (4 * c + k)) = true) ∧
    (∃ (s : State) (v : Nat), s.engineUp = true ∧ s.pcieUp = true ∧ s.eng.pends 4 = false ∧ v < 2 ^ 32 ∧ v % 4 = 0) ∧
    (∃ (s : State) (v : Nat), s.engineUp = true ∧ s.pcieUp = true ∧ s.eng.pends 4 = false ∧ v % 4 ≠ 0) :=
  ⟨⟨up (fun e => e.put Fld.ERR_BYPASS_STAT_CAUSES 16), 0, by decide +kernel⟩,
    ⟨up, 0, by decide +kernel⟩,
    ⟨up (portAt 0), 0, by decide +kernel⟩,
    ⟨up (fun e => { portAt 0 e with phys := { e.phys with cages := List.replicate 8 { present := true } } }), 0, by decide +kernel⟩,
    ⟨up, 31, 2 ^ 10 * 1518 + 2 ^ 9, by decide +kernel⟩,
    ⟨up, 31, 2 ^ 10 * 9729, by decide +kernel⟩,
    ⟨up, 7, 2, by decide +kernel⟩,
    ⟨up (portAt 0), 0, 0, by decide +kernel⟩,
    ⟨up, 0xAAAAAAA8, by decide +kernel⟩,
    ⟨up, 1, by decide +kernel⟩⟩

theorem witness_FramesAreReceived :
    (∃ (s : State) (p : Nat), s.engineUp = true ∧ p < 32 ∧ s.eng.present p = true ∧ s.eng.portLive p = true ∧ s.eng.portMode p < 2 ∧ s.eng.rxOf p = { s.eng.rxOf p with cur := none, last := none } ∧ ceilDiv (s.eng.get (Fld.ITK_PORT_CFG_MAXLEN p)) 256 ≤ s.eng.cellsFree) ∧
    (∃ (s : State) (p : Nat), s.engineUp = true ∧ p < 32 ∧ s.eng.present p = true ∧ s.eng.portLive p = true ∧ s.eng.portMode p < 2 ∧ s.eng.rxOf p = { s.eng.rxOf p with cur := none, last := none } ∧ s.eng.cellsFree < ceilDiv (s.eng.get (Fld.ITK_PORT_CFG_MAXLEN p)) 256) ∧
    (∃ (s : State) (p : Nat), s.engineUp = true ∧ s.eng.present p = true ∧ s.eng.portLive p = true ∧ s.eng.portMode p = 2) ∧
    (∃ (s : State) (id : Nat) (p : Pkt), s.engineUp = true ∧ s.eng.pkt id = some p ∧ p.rx = true ∧ p.handed = false ∧ p.macc = false ∧ s.eng.is (Fld.ITK_PORT_CFG_MACCTL p.port) = false) ∧
    (∃ (s : State) (id : Nat) (p : Pkt) (d : Bytes), s.engineUp = true ∧ s.eng.pkt id = some p ∧ p.rx = true ∧ p.handed = false ∧ d.length < 14) ∧
    (∃ (s : State) (id : Nat) (p : Pkt) (d : Bytes), s.engineUp = true ∧ s.eng.pkt id = some p ∧ p.rx = true ∧ p.handed = false ∧ p.macc = true ∧ frameStatus d p.maxlen false = 0 ∧ p.port < 32) ∧
    (∃ (s : State) (id : Nat) (p : Pkt) (hdr : Bytes), s.engineUp = true ∧ s.eng.pkt id = some p ∧ p.rx = true ∧ p.handed = false ∧ p.macc = true ∧ p.byp = false ∧ (parseFrame hdr false).more = false ∧ s.eng.switchDue p.ts = false ∧ s.eng.tsBypass p.ts = false ∧ s.eng.genOf p.ts ≠ 0 ∧ s.eng.is Fld.ERR_INJECT_ARMED = false) ∧
    (∃ (s : State) (id : Nat) (p : Pkt) (hdr : Bytes), s.engineUp = true ∧ s.eng.pkt id = some p ∧ p.rx = true ∧ p.handed = false ∧ p.macc = true ∧ p.status = none ∧ (parseFrame hdr false).more = false ∧ s.eng.switchDue p.ts = false ∧ s.eng.tsBypass p.ts = true) ∧
    (∃ (s : State) (id : Nat) (p : Pkt), s.engineUp = true ∧ s.eng.pkt id = some p ∧ p.handed = true) :=
  ⟨⟨up (portAt 0), 0, by decide +kernel⟩,
    ⟨up (fun e => (portAt 0 e).put Fld.ITK_CELLS_TOTAL 3), 0, by decide +kernel⟩,
    ⟨up (portAt 2), 0, by decide +kernel⟩,
    ⟨withP { rxPkt with macc := false }, 7, { rxPkt with macc := false }, by decide +kernel⟩,
    ⟨withP rxPkt, 7, rxPkt, ([1, 2, 3] : Bytes), by decide +kernel⟩,
    ⟨withP rxPkt, 7, rxPkt, goodFrame, by decide +kernel⟩,
    ⟨withP rxPkt (fun e => e.wr Reg.WNW_GEN 1), 7, rxPkt, (List.replicate 200 5 : Bytes), by decide +kernel⟩,
    ⟨withP rxPkt (fun e => e.enterCause 5), 7, rxPkt, (List.replicate 200 5 : Bytes), by decide +kernel⟩,
    ⟨withP { rxPkt with handed := true }, 7, { rxPkt with handed := true }, by decide +kernel⟩⟩

end WitG

namespace WitH

def oldPkt : Pkt := { pathPkt with steps := 16 }
def verPkt : Pkt := { pathPkt with steps := 16, ver := some ⟨[], 0, none, false, false⟩ }
def drp : State := atStep 13
def rate (e : Engine) (u l k : Nat) : Engine := (e.takeRate u l k).getD e
def ruleImg (c : Nat) (lay : Nat) : Bytes := List.replicate 168 0 ++ natLE 4 (c + 2 ^ 31) ++ natLE 1 lay ++ List.replicate 19 0
def twoRules : Engine → Engine := fun e => { e with tab := { e.tab with shadow := (e.tab.shadow.writeItem 0 3 (ruleImg 9 2)).writeItem 0 5 (ruleImg 77 0) } }
def cls1 : State := atStep 1 pathPkt twoRules
def clsD : Engine := (disp cls1 1).2.2
def sub (x : Nat) : State := atStep x { pathPkt with epoch := some 4, pv := [0,0,0,0,3] }

theorem witness_StepsAreDispatched :
    (∃ (s : State) (c : Instr) (id : Nat) (k : Nat) (p : Pkt), s.engineUp = true ∧ stepRow c = some (id, k) ∧ s.eng.pkt id = some p ∧ (p.onPath = false ∨ p.failed = true ∨ entKind (s.eng.entryOf p) ≠ k)) ∧
    (∃ (s : State) (c : Instr) (id : Nat) (k : Nat) (p : Pkt), s.engineUp = true ∧ stepRow c = some (id, k) ∧ s.eng.pkt id = some p ∧ p.begun = none ∧ 16 ≤ p.steps) ∧
    (∃ (s : State) (c : Instr) (id : Nat) (k : Nat) (p : Pkt) (e : Engine), s.engineUp = true ∧ stepRow c = some (id, k) ∧ s.eng.pkt id = some p ∧ p.onPath = true ∧ p.failed = false ∧ entKind (s.eng.entryOf p) = k ∧ p.begun = none ∧ p.steps < 16 ∧ s.eng.takeRate 2 64 8 = some e ∧ e.is Fld.ERR_INJECT_ARMED = false ∧ (3, p.entry) ∈ (e.bankOf p).bad) ∧
    (∃ (s : State) (id : Nat) (p : Pkt) (e : Engine), s.engineUp = true ∧ s.eng.pkt id = some p ∧ p.onPath = true ∧ p.failed = false ∧ entKind (s.eng.entryOf p) = 13 ∧ p.begun = none ∧ p.steps < 16 ∧ s.eng.takeRate 2 64 8 = some e ∧ e.is Fld.ERR_INJECT_ARMED = false ∧ (3, p.entry) ∉ (e.bankOf p).bad) ∧
    (∃ (s : State) (id : Nat) (p : Pkt) (arg : Nat) (e : Engine), s.engineUp = true ∧ s.eng.dispatched id 13 = some (p, arg, e)) ∧
    (∃ (s : State) (id : Nat) (p : Pkt) (arg : Nat) (e : Engine), s.engineUp = true ∧ s.eng.dispatched id 15 = some (p, arg, e)) ∧
    (∃ (s : State) (id : Nat) (p : Pkt), s.engineUp = true ∧ s.eng.pkt id = some p ∧ p.onPath = true ∧ p.failed = false ∧ p.begun = none ∧ 16 ≤ p.steps ∧ p.ver.isSome = true) ∧
    (∃ (s : State) (id : Nat) (p : Pkt), s.engineUp = true ∧ s.eng.pkt id = some p ∧ p.onPath = true ∧ p.good = true ∧ p.begun = none ∧ 16 ≤ p.steps ∧ p.ver = none) ∧
    (∃ (s : State) (id : Nat) (p : Pkt) (arg : Nat) (e : Engine), s.engineUp = true ∧ s.eng.dispatched id 0 = some (p, arg, e) ∧ (p.epoch.isSome = true ∨ e.graftDue = false)) ∧
    (∃ (s : State) (id : Nat) (p : Pkt) (arg : Nat) (e : Engine), s.engineUp = true ∧ s.eng.dispatched id 0 = some (p, arg, e) ∧ p.epoch = none ∧ e.graftDue = true) ∧
    (∃ (s : State) (id : Nat) (p : Pkt) (arg : Nat) (e : Engine), s.engineUp = true ∧ s.eng.dispatched id 0 = some (p, arg, e) ∧ p.epoch.isSome = true ∧ entMode (e.entryOf p) = 0) ∧
    (∃ (s : State) (id : Nat) (p : Pkt) (arg : Nat) (e : Engine), s.engineUp = true ∧ s.eng.dispatched id 0 = some (p, arg, e) ∧ p.epoch.isSome = true ∧ entMode (e.entryOf p) = 1 ∧ entSel (e.entryOf p) = 1 ∧ entShift (e.entryOf p) = 0 ∧ entWidth (e.entryOf p) = 2) ∧
    (∃ (s : State) (id : Nat) (p : Pkt) (arg : Nat) (e : Engine), s.engineUp = true ∧ s.eng.dispatched id 0 = some (p, arg, e) ∧ p.epoch.isSome = true ∧ entMode (e.entryOf p) = 1 ∧ entSel (e.entryOf p) = 14) :=
  ⟨⟨drp, Instr.parse 7, 7, 0, pathPkt, by decide +kernel⟩,
    ⟨atStep 13 oldPkt, Instr.drop 7, 7, 13, oldPkt, by decide +kernel⟩,
    ⟨atStep 13 pathPkt (fun e => { e with tab := { e.tab with shadow := { e.tab.shadow with bad := [(3,0)] } } }), Instr.drop 7, 7, 13, pathPkt, rate (atStep 13 pathPkt (fun e => { e with tab := { e.tab with shadow := { e.tab.shadow with bad := [(3,0)] } } })).eng 2 64 8, by decide +kernel⟩,
    ⟨drp, 7, pathPkt, rate drp.eng 2 64 8, by decide +kernel⟩,
    ⟨drp, 7, (disp (drp) 13).1, (disp (drp) 13).2.1, (disp (drp) 13).2.2, by decide +kernel⟩,
    ⟨atStep 15, 7, (disp (atStep 15) 15).1, (disp (atStep 15) 15).2.1, (disp (atStep 15) 15).2.2, by decide +kernel⟩,
    ⟨withP verPkt, 7, verPkt, by decide +kernel⟩,
    ⟨withP oldPkt, 7, oldPkt, by decide +kernel⟩,
    ⟨atStep 0, 7, (disp (atStep 0) 0).1, (disp (atStep 0) 0).2.1, (disp (atStep 0) 0).2.2, by decide +kernel⟩,
    ⟨atStep 0 pathPkt (fun e => { e with gft := { e.gft with arm := some { mode := .time, t := 0, cmd := none } } }), 7, (disp (atStep 0 pathPkt (fun e => { e with gft := { e.gft with arm := some { mode := .time, t := 0, cmd := none } } })) 0).1, (disp (atStep 0 pathPkt (fun e => { e with gft := { e.gft with arm := some { mode := .time, t := 0, cmd := none } } })) 0).2.1, (disp (atStep 0 pathPkt (fun e => { e with gft := { e.gft with arm := some { mode := .time, t := 0, cmd := none } } })) 0).2.2, by decide +kernel⟩,
    ⟨sub (2 ^ 22 * 44), 7, (disp (sub (2 ^ 22 * 44)) 0).1, (disp (sub (2 ^ 22 * 44)) 0).2.1, (disp (sub (2 ^ 22 * 44)) 0).2.2, by decide +kernel⟩,
    ⟨sub (2 ^ 22 * 1023 + 16 + 64 + 2 ^ 15 * 2), 7, (disp (sub (2 ^ 22 * 1023 + 16 + 64 + 2 ^ 15 * 2)) 0).1, (disp (sub (2 ^ 22 * 1023 + 16 + 64 + 2 ^ 15 * 2)) 0).2.1, (disp (sub (2 ^ 22 * 1023 + 16 + 64 + 2 ^ 15 * 2)) 0).2.2, by decide +kernel⟩,
    ⟨sub (2 ^ 22 * 1023 + 16 + 14 * 64 + 2 ^ 15 * 10), 7, (disp (sub (2 ^ 22 * 1023 + 16 + 14 * 64 + 2 ^ 15 * 10)) 0).1, (disp (sub (2 ^ 22 * 1023 + 16 + 14 * 64 + 2 ^ 15 * 10)) 0).2.1, (disp (sub (2 ^ 22 * 1023 + 16 + 14 * 64 + 2 ^ 15 * 10)) 0).2.2, by decide +kernel⟩⟩

theorem witness_FirstRuleWins :
    (∃ (s : State) (id : Nat) (p : Pkt) (arg : Nat) (e : Engine) (e1 : Engine) (l1 : List Nat) (r : Nat) (l2 : List Nat), s.engineUp = true ∧ s.eng.dispatched id 1 = some (p, arg, e) ∧ e.earlierWaits p 1 1 = false ∧ e.takeRate 0 8 8 = some e1 ∧ e1.is Fld.ERR_INJECT_ARMED = false ∧ (e1.bankOf p).bad = [] ∧ (e1.bankOf p).validRules = l1 ++ r :: l2 ∧ (e1.bankOf p).ruleHolds ((e1.bankOf p).key (arg % 8) p) (arg % 8) r = true ∧ (l1.any fun x => (e1.bankOf p).ruleHolds ((e1.bankOf p).key (arg % 8) p) (arg % 8) x) = false) ∧
    (∃ (s : State) (id : Nat) (p : Pkt) (arg : Nat) (e : Engine) (e1 : Engine), s.engineUp = true ∧ s.eng.dispatched id 1 = some (p, arg, e) ∧ e.earlierWaits p 1 1 = false ∧ e.takeRate 0 8 8 = some e1 ∧ e1.is Fld.ERR_INJECT_ARMED = false ∧ (e1.bankOf p).bad = [] ∧ ((e1.bankOf p).validRules.any fun x => (e1.bankOf p).ruleHolds ((e1.bankOf p).key (arg % 8) p) (arg % 8) x) = false) ∧
    (∃ (s : State) (id : Nat) (p : Pkt) (arg : Nat) (e : Engine), s.engineUp = true ∧ s.eng.dispatched id 1 = some (p, arg, e) ∧ (e.earlierWaits p 1 1 = true ∨ e.takeRate 0 8 8 = none)) ∧
    (∃ (b : Bank), Tbl.wf (fun _ => (0 : Byte)) b.rules = true) ∧
    (∃ (b : Bank), Tbl.wf (fun _ => (0 : Byte)) b.rules = true) ∧
    (∃ (b : Bank), Tbl.wf (fun _ => (0 : Byte)) b.rules = true) :=
  ⟨⟨cls1, 7, (disp (cls1) 1).1, (disp (cls1) 1).2.1, (disp (cls1) 1).2.2, rate clsD 0 8 8, ([3] : List Nat), 5, ([] : List Nat), by decide +kernel⟩,
    ⟨atStep 1, 7, (disp (atStep 1) 1).1, (disp (atStep 1) 1).2.1, (disp (atStep 1) 1).2.2, rate (disp (atStep 1) 1).2.2 0 8 8, by decide +kernel⟩,
    ⟨atStep 1 pathPkt (fun e => { e with used := [(0, 8)] }), 7, (disp (atStep 1 pathPkt (fun e => { e with used := [(0, 8)] })) 1).1, (disp (atStep 1 pathPkt (fun e => { e with used := [(0, 8)] })) 1).2.1, (disp (atStep 1 pathPkt (fun e => { e with used := [(0, 8)] })) 1).2.2, by decide +kernel⟩,
    ⟨cls1.eng.tab.shadow, by decide +kernel⟩,
    ⟨cls1.eng.tab.shadow, by decide +kernel⟩,
    ⟨cls1.eng.tab.shadow, by decide +kernel⟩⟩

end WitH

namespace WitI

def fst : State := atStep 2
def fe : Engine := ((disp fst 2).2.2.takeRate 3 64 8).getD fst.eng
def ff : Fetched := (fe.sheafFetch (.pkt 7) (flowKey [] 0) 0 (fe.kvFor (disp fst 2).1) false true .clean).1.getD .none
def fq : State := atStep 2 { pathPkt with shf := some { key := [], done := true } }
def latt : Engine → Engine := fun e =>
  { (((((e.put (Fld.FLG_PORT_CFG_EN 0) 1).put Fld.SHF_HOME_N 1).put (Fld.SHF_HOMETAB_ID 0) 1).put (Fld.FLG_PORT_CFG_ROLE 0) 1).put (Fld.FLG_PORT_STAT_STATE 0) 3).put Fld.FLG_BASIC_DX 2 with flg := { e.flg with routes := [(1, ⟨0, 1⟩)] } }
def rem : State := atStep 2 pathPkt latt
def re : Engine := ((disp rem 2).2.2.takeRate 3 64 8).getD rem.eng
def reqAt (o : ReqOwner) (us : Nat) : State := up fun e => { e.put Fld.SHF_REMOTE_TIMEOUT_US us with flg := { e.flg with reqs := [⟨5, 1, 0x10, o, 0⟩] } }
def heldBy (h : Holder) : Engine := { State.reset.eng with shf := { State.reset.eng.shf with holds := [([1], h)] } }
def shv : Sheaf := { key := [1], tier := 0, gWay := some 0, sWay := some 0, lWay := none }
def withS (x : Sheaf) : Engine → Engine := fun e => { e with shf := { e.shf with sheaves := [x] } }
def full : Sheaf := { shv with undo0 := some (.pkt 1, 0), undo1 := some (.pkt 2, 0) }
def qv : PShf := { key := [1], done := true, present := true }
def cst : State := atStep 9 { pathPkt with shf := some qv } (withS shv)
def ce : Engine := ((disp cst 9).2.2.takeRate 3 64 8).getD cst.eng
def cr : Nat × Engine := (ce.sheafCommit (.pkt 7) [1] 0 0 (ce.kvFor (disp cst 9).1) false false none true (ce.modelFor (disp cst 9).1)).getD (0, ce)
def wst : State := atStep 9 { pathPkt with status := none, shf := some qv } (withS full)
def we : Engine := ((disp wst 9).2.2.takeRate 3 64 8).getD wst.eng
def undoS : State := up fun e => (withS { shv with undo0 := some (.remote 1 2, 0) } e).put Fld.CSC_ERV_CFG_RESOLVE_US 0
def veS : Pkt := { pathPkt with ver := some ⟨[], 0, none, false, false⟩ }
def unk : Pkt := { pathPkt with status := none }
def bad : Pkt := { pathPkt with status := some 1 }
def gone : Pkt := { pathPkt with status := some 1, ended := true }
def gone2 : Pkt := { gone with failDone := true }
def hold : Engine → Engine := fun e => e.put Fld.CSC_ERV_CFG_MODE 1
def ahead : Engine → Engine := fun e => e.put Fld.CSC_ERV_CFG_MODE 0

theorem witness_SheafFetchSteps :
    (∃ (s : State) (id : Nat) (p : Pkt) (arg : Nat) (e : Engine) (q : PShf), s.engineUp = true ∧ s.eng.dispatched id 2 = some (p, arg, e) ∧ p.shf = some q ∧ q.done = true) ∧
    (∃ (s : State) (id : Nat) (ecc : Ecc) (p : Pkt) (arg : Nat) (e : Engine) (e1 : Engine) (f : Fetched), s.engineUp = true ∧ s.eng.dispatched id 2 = some (p, arg, e) ∧ p.shf = none ∧ e.takeRate 3 64 8 = some e1 ∧ e1.homeOf (flowKey p.pv (arg % 8)) p.ts = e1.selfId ∧ (e1.sheafFetch (.pkt p.id) (flowKey p.pv (arg % 8)) p.ts (e1.kvFor p) (bitOf arg 3) p.good ecc).1 = some f) ∧
    (∃ (s : State) (id : Nat) (p : Pkt) (arg : Nat) (e : Engine) (e1 : Engine) (t : Nat), s.engineUp = true ∧ s.eng.dispatched id 2 = some (p, arg, e) ∧ p.shf = none ∧ e.takeRate 3 64 8 = some e1 ∧ e1.homeOf (flowKey p.pv (arg % 8)) p.ts ≠ e1.selfId ∧ ((e1.count (Reg.SHF_CNT 5)).flgRequest 0x10 (e1.homeOf (flowKey p.pv (arg % 8)) p.ts) (.fetch p.id) (natLE 4 p.ts ++ natLE 1 (arg % 16 + 16 * bit (!p.good)) ++ natLE 3 0) ((e1.count (Reg.SHF_CNT 5)).shfReqData p (flowKey p.pv (arg % 8)))).1 = some t ∧ s.eng.pktReq id = none) ∧
    (∃ (s : State) (id : Nat) (r : FlgReq), s.engineUp = true ∧ s.eng.pktReq id = some r ∧ r.owner = .fetch id ∧ r.at_ + s.eng.get Fld.SHF_REMOTE_TIMEOUT_US * usTicks ≤ s.eng.cyc) ∧
    (∃ (s : State) (id : Nat) (r : FlgReq), s.engineUp = true ∧ s.eng.pktReq id = some r ∧ r.owner = .commit id ∧ r.at_ + s.eng.get Fld.SHF_REMOTE_TIMEOUT_US * usTicks ≤ s.eng.cyc) ∧
    (∃ (s : State) (id : Nat) (r : FlgReq), s.engineUp = true ∧ s.eng.pktReq id = some r ∧ s.eng.cyc < r.at_ + s.eng.get Fld.SHF_REMOTE_TIMEOUT_US * usTicks) ∧
    (∃ (e : Engine) (h : Holder) (h' : Holder) (key : Bytes), e.holder key = some h' ∧ (e.shf.holds.any fun x => x.1 == key && x.2 == h) = false) ∧
    (∃ (e : Engine) (h : Holder) (key : Bytes) (ts : Nat), e.holder key = none ∧ (e.shf.waits.any fun x => x.1 == key && x.2.1 != h && decide (x.2.2 < ts)) = false ∧ e.sheaf key = none) ∧
    (∃ (hot : Bytes), hot.length = 128) :=
  ⟨⟨fq, 7, (disp (fq) 2).1, (disp (fq) 2).2.1, (disp (fq) 2).2.2, ({ key := [], done := true } : PShf), by decide +kernel⟩,
    ⟨fst, 7, Ecc.clean, (disp (fst) 2).1, (disp (fst) 2).2.1, (disp (fst) 2).2.2, fe, ff, by decide +kernel⟩,
    ⟨rem, 7, (disp (rem) 2).1, (disp (rem) 2).2.1, (disp (rem) 2).2.2, re, 0, by decide +kernel⟩,
    ⟨reqAt (.fetch 7) 0, 7, (⟨5, 1, 0x10, .fetch 7, 0⟩ : FlgReq), by decide +kernel⟩,
    ⟨reqAt (.commit 7) 0, 7, (⟨5, 1, 0x10, .commit 7, 0⟩ : FlgReq), by decide +kernel⟩,
    ⟨reqAt (.fetch 7) 1, 7, (⟨5, 1, 0x10, .fetch 7, 0⟩ : FlgReq), by decide +kernel⟩,
    ⟨heldBy (.pkt 3), Holder.pkt 4, Holder.pkt 3, ([1] : Bytes), by decide +kernel⟩,
    ⟨State.reset.eng, Holder.pkt 4, ([1] : Bytes), 0, by decide +kernel⟩,
    ⟨List.replicate 128 255, by decide +kernel⟩⟩

theorem witness_SheafCommitSteps :
    (∃ (s : State) (id : Nat) (p : Pkt) (arg : Nat) (e : Engine), s.engineUp = true ∧ s.eng.dispatched id 9 = some (p, arg, e) ∧ p.shf = none) ∧
    (∃ (s : State) (id : Nat) (p : Pkt) (arg : Nat) (e : Engine) (q : PShf), s.engineUp = true ∧ s.eng.dispatched id 9 = some (p, arg, e) ∧ p.shf = some q ∧ q.tag = none ∧ (q.committed = true ∨ q.present = false)) ∧
    (∃ (s : State) (id : Nat) (p : Pkt) (arg : Nat) (e : Engine) (q : PShf) (e1 : Engine) (fl : Nat) (e2 : Engine), s.engineUp = true ∧ s.eng.dispatched id 9 = some (p, arg, e) ∧ p.shf = some q ∧ q.tag = none ∧ q.committed = false ∧ q.present = true ∧ q.remote = false ∧ e.takeRate 3 64 8 = some e1 ∧ e1.sheafCommit (.pkt p.id) q.key p.ts p.len (e1.kvFor p) (bitOf arg 0) (bitOf arg 1) p.summary p.good (e1.modelFor p) = some (fl, e2)) ∧
    (∃ (s : State) (id : Nat) (p : Pkt) (arg : Nat) (e : Engine) (q : PShf) (e1 : Engine), s.engineUp = true ∧ s.eng.dispatched id 9 = some (p, arg, e) ∧ p.shf = some q ∧ q.tag = none ∧ q.committed = false ∧ q.present = true ∧ q.remote = false ∧ e.takeRate 3 64 8 = some e1 ∧ e1.sheafCommit (.pkt p.id) q.key p.ts p.len (e1.kvFor p) (bitOf arg 0) (bitOf arg 1) p.summary p.good (e1.modelFor p) = none) ∧
    (∃ (s : State) (src : Nat) (ptag : Nat) (x : Sheaf) (o : Nat), s.engineUp = true ∧ s.eng.undoSheaf (.remote src ptag) = some (x, o) ∧ ((if o = 96 then x.undo0 else x.undo1).map (·.2)).getD 0 + s.eng.get Fld.CSC_ERV_CFG_RESOLVE_US * usTicks ≤ s.eng.cyc) ∧
    (∃ (e : Engine) (h : Holder) (key : Bytes) (x : Sheaf), e.sheaf key = some x ∧ x.undoOf h = none ∧ x.undoFull = true) :=
  ⟨⟨atStep 9, 7, (disp (atStep 9) 9).1, (disp (atStep 9) 9).2.1, (disp (atStep 9) 9).2.2, by decide +kernel⟩,
    ⟨atStep 9 { pathPkt with shf := some { key := [], done := true } }, 7, (disp (atStep 9 { pathPkt with shf := some { key := [], done := true } }) 9).1, (disp (atStep 9 { pathPkt with shf := some { key := [], done := true } }) 9).2.1, (disp (atStep 9 { pathPkt with shf := some { key := [], done := true } }) 9).2.2, ({ key := [], done := true } : PShf), by decide +kernel⟩,
    ⟨cst, 7, (disp (cst) 9).1, (disp (cst) 9).2.1, (disp (cst) 9).2.2, qv, ce, cr.1, cr.2, by decide +kernel⟩,
    ⟨wst, 7, (disp (wst) 9).1, (disp (wst) 9).2.1, (disp (wst) 9).2.2, qv, we, by decide +kernel⟩,
    ⟨undoS, 1, 2, { shv with undo0 := some (.remote 1 2, 0) }, 96, by decide +kernel⟩,
    ⟨withS full State.reset.eng, Holder.pkt 4, ([1] : Bytes), full, by decide +kernel⟩⟩

theorem witness_OneVerdictPerPacket :
    (∃ (s : State) (id : Nat) (p : Pkt) (arg : Nat) (e : Engine), s.engineUp = true ∧ s.eng.dispatched id 10 = some (p, arg, e) ∧ p.good = true ∧ p.ver = none) ∧
    (∃ (s : State) (id : Nat) (p : Pkt) (arg : Nat) (e : Engine), s.engineUp = true ∧ s.eng.dispatched id 10 = some (p, arg, e) ∧ p.good = true ∧ p.ver.isSome = true) ∧
    (∃ (s : State) (id : Nat) (p : Pkt) (arg : Nat) (e : Engine), s.engineUp = true ∧ s.eng.dispatched id 10 = some (p, arg, e) ∧ p.good = false) ∧
    (∃ (s : State) (id : Nat) (p : Pkt) (arg : Nat) (e : Engine), s.engineUp = true ∧ s.eng.dispatched id 5 = some (p, arg, e) ∧ p.good = false ∧ e.is Fld.CSC_ERV_CFG_MODE = false ∧ p.ver = none) ∧
    (∃ (s : State) (id : Nat) (p : Pkt) (arg : Nat) (e : Engine), s.engineUp = true ∧ s.eng.dispatched id 5 = some (p, arg, e) ∧ p.good = false ∧ e.is Fld.CSC_ERV_CFG_MODE = true) ∧
    (∃ (s : State) (id : Nat) (p : Pkt) (arg : Nat) (e : Engine), s.engineUp = true ∧ s.eng.dispatched id 5 = some (p, arg, e) ∧ p.good = true ∧ p.ver = none ∧ p.why = 0) ∧
    (∃ (e : Engine) (id : Nat) (p : Pkt), e.pkt id = some p ∧ p.cls < 2 ^ 12 ∧ p.col < 4 ∧ p.que < 64) :=
  ⟨⟨atStep 10, 7, (disp (atStep 10) 10).1, (disp (atStep 10) 10).2.1, (disp (atStep 10) 10).2.2, by decide +kernel⟩,
    ⟨atStep 10 veS, 7, (disp (atStep 10 veS) 10).1, (disp (atStep 10 veS) 10).2.1, (disp (atStep 10 veS) 10).2.2, by decide +kernel⟩,
    ⟨atStep 10 unk, 7, (disp (atStep 10 unk) 10).1, (disp (atStep 10 unk) 10).2.1, (disp (atStep 10 unk) 10).2.2, by decide +kernel⟩,
    ⟨atStep 5 unk ahead, 7, (disp (atStep 5 unk ahead) 5).1, (disp (atStep 5 unk ahead) 5).2.1, (disp (atStep 5 unk ahead) 5).2.2, by decide +kernel⟩,
    ⟨atStep 5 unk hold, 7, (disp (atStep 5 unk hold) 5).1, (disp (atStep 5 unk hold) 5).2.1, (disp (atStep 5 unk hold) 5).2.2, by decide +kernel⟩,
    ⟨atStep 5, 7, (disp (atStep 5) 5).1, (disp (atStep 5) 5).2.1, (disp (atStep 5) 5).2.2, by decide +kernel⟩,
    ⟨(atStep 10).eng, 7, pathPkt, by decide +kernel⟩⟩

theorem witness_FailedFramesAreUndone :
    (∃ (s : State) (id : Nat) (p : Pkt), s.engineUp = true ∧ s.eng.pkt id = some p ∧ p.onPath = true ∧ p.failed = true) ∧
    (∃ (s : State) (id : Nat) (p : Pkt), s.engineUp = true ∧ s.eng.pkt id = some p ∧ (p.onPath = false ∨ p.failed = false)) ∧
    (∃ (s : State) (id : Nat) (p : Pkt), s.engineUp = true ∧ s.eng.pkt id = some p ∧ p.ended = true ∧ p.failed = true ∧ p.failDone = false ∧ p.byp = false) ∧
    (∃ (s : State) (id : Nat) (p : Pkt), s.engineUp = true ∧ s.eng.pkt id = some p ∧ p.failDone = true) ∧
    (∃ (ws : List Nat), ws.length = 4) :=
  ⟨⟨withP bad, 7, bad, by decide +kernel⟩,
    ⟨withP pathPkt, 7, pathPkt, by decide +kernel⟩,
    ⟨withP gone, 7, gone, by decide +kernel⟩,
    ⟨withP gone2, 7, gone2, by decide +kernel⟩,
    ⟨([1,2,3,4] : List Nat), by decide +kernel⟩⟩

end WitI

namespace WitJ

def ne : Pkt := { ep4 with noEval := true }
def gs : List (Nat × Nat × Bytes) := [(3, 0, natLE 2 1 ++ List.replicate 30 0), (4, 0, natLE 4 3 ++ List.replicate 60 0)]
def g3 : State := atStep 3 ep4 (live gs)
def r3 (s : State) : Engine := ((disp s 3).2.2.takeRate 1 8 8).getD s.eng
def r4 (s : State) : Engine := ((disp s 4).2.2.takeRate 4 64 8).getD s.eng
def sec (k i : Nat) : Sect := ((mdl gs).sect k i).getD ⟨0, 0, 0, 0, 0⟩
def b3 : Engine := ((r3 g3).count (Reg.ORC_CNT 1)).busy 290
def rs3 : Option Bytes × Engine := b3.readSect (mdl gs) (sec 3 0) 5 (b3.pktRef 0) .clean
def full1 : Engine → Engine := fun e => { e with used := [(1, 8)] }
def noHalf : Engine → Engine := fun e => domSt 12 { st := .gated } (domSt 13 { st := .gated } e)
def other : Engine → Engine := fun e => { e with orc := { e.orc with waiting := [.pkt 9] }, pkts := [{ ep4 with id := 9 }] }
def g4 : State := atStep 4 ep4 (live gs)
def oth : State := up fun e => { stepAt 4 e with orc := { e.orc with waiting := [.pkt 9] }, pkts := [{ ep4 with id := 9 }, ep4] }
def mode1 : Engine → Engine := fun e => { e.put (Fld.ORC_POLICY_MODE 0) 1 with orc := { e.orc with queued := 20000 } }
def bp4 : State := atStep 4 ep4 (fun e => mode1 (live gs e))
def ad : State := up fun e => { stepAt 4 e with orc := { e.orc with waiting := [.pkt 7] }, pkts := [ep4] }
def cg : Cmd := cmdOf 0x40 336
def cv : Cmd := cmdOf 0x41 1024 0 0 0 (natLE 4 0 ++ natLE 4 9)
def cv5 : Cmd := cmdOf 0x41 1024 0 0 0 (natLE 4 5 ++ natLE 4 9)
def got (n : Nat) : HostRead := .ok (List.replicate n 0)
def cgs : State := withC cg (live gs)
def cvs : State := withC cv (live gs)
def cvs5 : State := withC cv5 (live gs)
def st (s : State) (c : Cmd) (h : HostRead) : Option Bytes × Engine := ((s.eng.started c 290).orcLeave (.cmd 1)).cmdData c h
def rg : Option Bytes × Engine := (st cgs cg (got 336)).2.readSect (mdl gs) (sec 3 0) 5 ((st cgs cg (got 336)).2.cmdRef cg) .clean
def ed : Bytes := natLE 4 3 ++ List.replicate 60 0
def ee : Engine := (st cvs cv (got 1024)).2.admitTrees 3
def ev : Option (Nat × Nat) × Engine := ee.evalEnsemble (mdl gs) ed (List.replicate 256 0) 3 (ee.cmdRef cv) .clean
def cwait (c : Cmd) : State := withC c (fun e => { e with orc := { e.orc with waiting := [.pkt 7] }, pkts := [ep4] })

theorem witness_GradeBuildsTheVector :
    (∃ (s : State) (id : Nat) (p : Pkt) (arg : Nat) (e : Engine), s.engineUp = true ∧ s.eng.dispatched id 3 = some (p, arg, e) ∧ p.noEval = true) ∧
    (∃ (s : State) (id : Nat) (p : Pkt) (arg : Nat) (e : Engine), s.engineUp = true ∧ s.eng.dispatched id 3 = some (p, arg, e) ∧ p.noEval = false ∧ (e.earlierWaits p 3 1 = true ∨ e.takeRate 1 8 8 = none)) ∧
    (∃ (s : State) (id : Nat) (p : Pkt) (arg : Nat) (e : Engine) (e1 : Engine), s.engineUp = true ∧ s.eng.dispatched id 3 = some (p, arg, e) ∧ p.noEval = false ∧ e.earlierWaits p 3 1 = false ∧ e.takeRate 1 8 8 = some e1 ∧ (e1.modelFor p).bind (·.sect 3 arg) = none) ∧
    (∃ (s : State) (id : Nat) (ecc : Ecc) (p : Pkt) (arg : Nat) (e : Engine) (e1 : Engine) (m : Model) (x : Sect) (im : Bytes) (e2 : Engine), s.engineUp = true ∧ s.eng.dispatched id 3 = some (p, arg, e) ∧ p.noEval = false ∧ e.earlierWaits p 3 1 = false ∧ e.takeRate 1 8 8 = some e1 ∧ e1.modelFor p = some m ∧ m.sect 3 arg = some x ∧ ((e1.count (Reg.ORC_CNT 1)).busy 290).readSect m x 5 (((e1.count (Reg.ORC_CNT 1)).busy 290).pktRef p.ts) ecc = (some im, e2)) ∧
    (∃ (im : Bytes) (i : Nat), leAt im 0 2 ≤ i) :=
  ⟨⟨atStep 3 ne, 7, (disp (atStep 3 ne) 3).1, (disp (atStep 3 ne) 3).2.1, (disp (atStep 3 ne) 3).2.2, by decide +kernel⟩,
    ⟨atStep 3 ep4 full1, 7, (disp (atStep 3 ep4 full1) 3).1, (disp (atStep 3 ep4 full1) 3).2.1, (disp (atStep 3 ep4 full1) 3).2.2, by decide +kernel⟩,
    ⟨atStep 3 ep4, 7, (disp (atStep 3 ep4) 3).1, (disp (atStep 3 ep4) 3).2.1, (disp (atStep 3 ep4) 3).2.2, r3 (atStep 3 ep4), by decide +kernel⟩,
    ⟨g3, 7, Ecc.clean, (disp (g3) 3).1, (disp (g3) 3).2.1, (disp (g3) 3).2.2, r3 g3, mdl gs, sec 3 0, rs3.1.getD [], rs3.2, by decide +kernel⟩,
    ⟨natLE 2 3, 3, by decide +kernel⟩⟩

theorem witness_OrchardAdmitsInOrder :
    (∃ (s : State) (id : Nat) (p : Pkt) (arg : Nat) (e : Engine), s.engineUp = true ∧ s.eng.dispatched id 4 = some (p, arg, e) ∧ p.noEval = true) ∧
    (∃ (s : State) (id : Nat) (p : Pkt) (arg : Nat) (e : Engine), s.engineUp = true ∧ s.eng.dispatched id 4 = some (p, arg, e) ∧ p.noEval = false ∧ e.halves = []) ∧
    (∃ (s : State) (id : Nat) (p : Pkt) (arg : Nat) (e : Engine), s.engineUp = true ∧ s.eng.dispatched id 4 = some (p, arg, e) ∧ p.noEval = false ∧ e.halves ≠ [] ∧ e.orcTurn (.pkt p.id) = false) ∧
    (∃ (s : State) (id : Nat) (p : Pkt) (arg : Nat) (e : Engine) (e1 : Engine) (lim : Option Nat × Bool) (n : Nat), s.engineUp = true ∧ s.eng.dispatched id 4 = some (p, arg, e) ∧ p.noEval = false ∧ e.halves ≠ [] ∧ e.orcTurn (.pkt p.id) = true ∧ e.takeRate 4 64 8 = some e1 ∧ e.orcAdmit p (((Model.ensemble (e.modelFor p) arg).map ensTrees).getD 0) = some (lim, n)) ∧
    (∃ (s : State) (id : Nat) (p : Pkt) (arg : Nat) (e : Engine), s.engineUp = true ∧ s.eng.dispatched id 4 = some (p, arg, e) ∧ p.noEval = false ∧ e.halves ≠ [] ∧ e.orcTurn (.pkt p.id) = true ∧ e.orcAdmit p (((Model.ensemble (e.modelFor p) arg).map ensTrees).getD 0) = none) ∧
    (∃ (s : State) (id : Nat) (rest : List OrcWait), s.engineUp = true ∧ s.eng.orcWaiters = .pkt id :: rest) ∧
    (∃ (s : State), s.engineUp = true ∧ s.eng.orcWaiters = []) ∧
    (∃ (e : Engine) (p : Pkt) (t : Nat), p.limit = none ∧ e.is (Fld.ORC_POLICY_MODE p.cls) = false ∧ e.get Fld.ORC_CFG_BACKLOG_THR < e.backlog + t) ∧
    (∃ (e : Engine) (p : Pkt) (t : Nat), p.limit = none ∧ e.backlog + t ≤ e.get Fld.ORC_CFG_BACKLOG_THR) ∧
    (∃ (e : Engine) (p : Pkt) (t : Nat), p.limit = none ∧ e.is (Fld.ORC_POLICY_MODE p.cls) = true ∧ e.get Fld.ORC_CFG_BACKLOG_THR < e.backlog + t ∧ e.backlog ≠ 0) ∧
    (∃ (p : Pkt) (n : Nat), p.limit = some (some n, false)) :=
  ⟨⟨atStep 4 ne, 7, (disp (atStep 4 ne) 4).1, (disp (atStep 4 ne) 4).2.1, (disp (atStep 4 ne) 4).2.2, by decide +kernel⟩,
    ⟨atStep 4 ep4 noHalf, 7, (disp (atStep 4 ep4 noHalf) 4).1, (disp (atStep 4 ep4 noHalf) 4).2.1, (disp (atStep 4 ep4 noHalf) 4).2.2, by decide +kernel⟩,
    ⟨oth, 7, (disp (oth) 4).1, (disp (oth) 4).2.1, (disp (oth) 4).2.2, by decide +kernel⟩,
    ⟨g4, 7, (disp (g4) 4).1, (disp (g4) 4).2.1, (disp (g4) 4).2.2, r4 g4, ((none, false) : Option Nat × Bool), 3, by decide +kernel⟩,
    ⟨bp4, 7, (disp (bp4) 4).1, (disp (bp4) 4).2.1, (disp (bp4) 4).2.2, by decide +kernel⟩,
    ⟨ad, 7, ([] : List OrcWait), by decide +kernel⟩,
    ⟨up, by decide +kernel⟩,
    ⟨{ State.reset.eng with orc := { State.reset.eng.orc with queued := 20000 } }, ep4, 5, by decide +kernel⟩,
    ⟨State.reset.eng, ep4, 5, by decide +kernel⟩,
    ⟨mode1 State.reset.eng, ep4, 5, by decide +kernel⟩,
    ⟨{ ep4 with limit := some (some 2, false) }, 2, by decide +kernel⟩⟩

theorem witness_EnsemblesEvaluate :
    (∃ (node : Nat → Nat) (i : Nat), bitOf (node i) 40 = true) ∧
    (∃ (node : Nat → Nat) (vec : List Nat) (i : Nat), bitOf (node i) 40 = false ∧ bitOf (node i) 41 = false ∧ vec.getD (bitsOf (node i) 39 32) 0 < node i % 2 ^ 32) ∧
    (∃ (node : Nat → Nat) (vec : List Nat) (i : Nat), bitOf (node i) 40 = false ∧ bitOf (node i) 41 = false ∧ node i % 2 ^ 32 ≤ vec.getD (bitsOf (node i) 39 32) 0) ∧
    (∃ (d : Bytes), byteAt d 13 < 16) :=
  ⟨⟨(fun _ => 2 ^ 40 + 5), 1, by decide +kernel⟩,
    ⟨(fun i => if i = 1 then 2 ^ 33 + 2 ^ 44 * 7 + 9 else 2 ^ 40 + i), [1, 2, 3], 1, by decide +kernel⟩,
    ⟨(fun i => if i = 1 then 2 ^ 33 + 2 ^ 44 * 7 + 3 else 2 ^ 40 + i), [1, 2, 3], 1, by decide +kernel⟩,
    ⟨ed, by decide +kernel⟩⟩

theorem witness_OrchardCommands :
    (∃ (s : State) (id : Nat) (c : Cmd), s.engineUp = true ∧ s.eng.startable id 0x40 = some c ∧ s.eng.orcTurn (.cmd id) = false) ∧
    (∃ (s : State) (id : Nat) (c : Cmd), s.engineUp = true ∧ s.eng.startable id 0x40 = some c ∧ s.eng.orcTurn (.cmd id) = true ∧ (c.len ≠ 336 ∨ 1 < c.arg 33 1)) ∧
    (∃ (s : State) (id : Nat) (c : Cmd), s.engineUp = true ∧ s.eng.startable id 0x41 = some c ∧ s.eng.orcTurn (.cmd id) = true ∧ c.len = 1024 ∧ c.arg 33 1 = 0 ∧ s.eng.gft.live = none) ∧
    (∃ (s : State) (id : Nat) (h : HostRead) (c : Cmd) (m : Model) (b : Bytes) (e1 : Engine) (x : Sect) (im : Bytes) (e2 : Engine), s.engineUp = true ∧ s.eng.startable id 0x40 = some c ∧ s.eng.orcTurn (.cmd id) = true ∧ c.len = 336 ∧ c.arg 33 1 = 0 ∧ s.eng.gft.live = some m ∧ ((s.eng.started c 290).orcLeave (.cmd id)).cmdData c h = (some b, e1) ∧ m.sect 3 (c.arg 32 1) = some x ∧ e1.readSect m x 5 (e1.cmdRef c) .clean = (some im, e2)) ∧
    (∃ (s : State) (id : Nat) (h : HostRead) (c : Cmd) (m : Model) (b : Bytes) (e1 : Engine), s.engineUp = true ∧ s.eng.startable id 0x41 = some c ∧ s.eng.orcTurn (.cmd id) = true ∧ c.len = 1024 ∧ c.arg 33 1 = 0 ∧ s.eng.gft.live = some m ∧ ((s.eng.started c 290).orcLeave (.cmd id)).halves ≠ [] ∧ ((s.eng.started c 290).orcLeave (.cmd id)).cmdData c h = (some b, e1) ∧ m.sect 4 (c.arg 32 1) = none) ∧
    (∃ (s : State) (id : Nat) (h : HostRead) (c : Cmd) (m : Model) (b : Bytes) (e1 : Engine) (d : Bytes) (v : Nat) (fl : Nat) (e2 : Engine), s.engineUp = true ∧ s.eng.startable id 0x41 = some c ∧ s.eng.orcTurn (.cmd id) = true ∧ c.len = 1024 ∧ c.arg 33 1 = 0 ∧ s.eng.gft.live = some m ∧ ((s.eng.started c 290).orcLeave (.cmd id)).halves ≠ [] ∧ ((s.eng.started c 290).orcLeave (.cmd id)).cmdData c h = (some b, e1) ∧ Model.ensemble (some m) (c.arg 32 1) = some d ∧ (e1.admitTrees (min (ensTrees d) (c.arg 36 4))).evalEnsemble m d ((List.range 256).map fun i => leAt b (4 * i) 4) (min (ensTrees d) (c.arg 36 4)) ((e1.admitTrees (min (ensTrees d) (c.arg 36 4))).cmdRef c) .clean = (some (v, fl), e2)) :=
  ⟨⟨cwait cg, 1, cg, by decide +kernel⟩,
    ⟨withC (cmdOf 0x40 337), 1, cmdOf 0x40 337, by decide +kernel⟩,
    ⟨withC cv, 1, cv, by decide +kernel⟩,
    ⟨cgs, 1, got 336, cg, mdl gs, List.replicate 336 0, (st cgs cg (got 336)).2, sec 3 0, rg.1.getD [], rg.2, by decide +kernel⟩,
    ⟨cvs5, 1, got 1024, cv5, mdl gs, List.replicate 1024 0, (st cvs5 cv5 (got 1024)).2, by decide +kernel⟩,
    ⟨cvs, 1, got 1024, cv, mdl gs, List.replicate 1024 0, (st cvs cv (got 1024)).2, ed, (ev.1.getD (0,0)).1, (ev.1.getD (0,0)).2, ev.2, by decide +kernel⟩⟩

end WitJ

namespace WitK

def nev : Pkt := { ep4 with noEval := true, firstEnq := some 5 }
def fep : Pkt := { ep4 with firstEnq := some 5 }
def tm : List (Nat × Nat × Bytes) := [(5, 0, List.replicate 16 0)]
def q7 : State := atStep 7 fep (live tm)
def q7n : State := atStep 7 fep (fun e => domSt 8 { st := .gated } (domSt 9 { st := .gated } (domSt 10 { st := .gated } (domSt 11 { st := .gated } (live tm e)))))
def q7f : State := atStep 7 fep (fun e => (live tm e).put Fld.MIL_CFG_QDEPTH 0)
def se (s : State) : Engine := (disp s 7).2.2.setPkt 7 fun _ => (disp s 7).1
def ra (s : State) : Engine := ((se s).takeRate 1 8 8).getD s.eng
def sc5 : Sect := ((mdl tm).sect 5 0).getD ⟨0, 0, 0, 0, 0⟩
def e28 : Engine := ((ra q7).steer true 0).2.count (Reg.ORC_CNT 8)
def itm : MilItem := { no := 3, pkt := 7, epoch := 4, tmpl := 0, row := [], hist := [], histLen := 0, kScale := 0, vScale := 0, kZp := 0, vZp := 0 }
def inQ (l : List MilItem) : Engine → Engine := fun e => { e with mil := { e.mil with queues := [(0, l)] } }
def runs (w : MilWork) : Engine → Engine := fun e => e.setMilRun 1 (some w)
def hj (c : Nat) : MilJob := ⟨.cmd 1, false, [], 0, 0, 0, c, 0⟩
def allBusy : Engine → Engine := fun e => inQ [itm] ((List.range 8).foldl (fun e m => e.setMilRun m (some (.job (hj 2)))) e)
def helds (c : Nat) : Engine → Engine := fun e => { e with mil := { e.mil with suspended := [(1, [hj c])] } }
def jp : Pkt := { fep with items := [3] }
def jd : Pkt := { jp with results := [⟨3, 0, none, none, 0⟩] }
def j8 : Nat := 8 + 2 ^ 32 * 2
def jw : Pkt := { jp with begun := some 0, firstEnq := some 0 }
def j0 : State := atStep 8 jw
def out0 : TmplOut := ⟨{ e := State.reset.eng }, none, none⟩
def stg : Bytes := natLE 2 1 ++ natLE 2 1 ++ natLE 2 1 ++ natLE 2 0xF100 ++ natLE 2 0x0777 ++ natLE 4 0 ++ natLE 2 0xFFFF ++ natLE 4 0x3F800000 ++ natLE 4 0x3F800000 ++ natLE 4 0 ++ natLE 4 0x3F800000 ++ List.replicate 96 0
def okc (l : Nat) (a : Bytes) (op : Nat) : Cmd := cmdOf op l 0 0 0 a
def crun : Cmd := okc 128 [] 0x50
def ctm : Cmd := okc 1600 [] 0x51
def blk : Bytes := List.replicate 1540 0 ++ natLE 4 0x3F800000 ++ natLE 4 0x3F800000 ++ List.replicate 52 0
def sr : State := withC crun
def stm : State := withC ctm (live tm)
def cd (s : State) (c : Cmd) (h : HostRead) : Option Bytes × Engine := (s.eng.setCmd 1 fun c => { c with ph := .running }).cmdData c h
def sro : State := withC (okc 128 (natLE 1 0) 0x50) (domSt 8 { st := .gated })
def jr : MilJob := ⟨.cmd 1, false, [], 0, 0, 0, 2, 0⟩
def jt : MilJob := ⟨.cmd 1, true, blk, 0, 0, 0, 2, 0⟩
def running (op : Nat) (j : MilJob) : State := withC { cmdOf op 128 with ph := .running } (fun e => (live tm e).setMilRun 2 (some (.job j)))

theorem witness_MillEnqueueQueuesOneItem :
    (∃ (s : State) (id : Nat) (p : Pkt) (arg : Nat) (e : Engine), s.engineUp = true ∧ s.eng.dispatched id 7 = some (p, arg, e) ∧ p.noEval = true) ∧
    (∃ (s : State) (id : Nat) (p : Pkt) (arg : Nat) (e : Engine), s.engineUp = true ∧ s.eng.dispatched id 7 = some (p, arg, e) ∧ p.noEval = false ∧ p.firstEnq.isSome = true ∧ (e.modelFor p).bind (·.sect 5 arg) = none) ∧
    (∃ (s : State) (id : Nat) (p : Pkt) (arg : Nat) (e : Engine) (m : Model) (x : Sect) (e1 : Engine) (e2 : Engine), s.engineUp = true ∧ s.eng.dispatched id 7 = some (p, arg, e) ∧ p.noEval = false ∧ p.firstEnq.isSome = true ∧ e.modelFor p = some m ∧ m.sect 5 arg = some x ∧ (e.setPkt p.id fun _ => p).earlierWaits p 7 1 = false ∧ (e.setPkt p.id fun _ => p).takeRate 1 8 8 = some e1 ∧ e1.steer true p.fhash = (none, e2)) ∧
    (∃ (s : State) (id : Nat) (p : Pkt) (arg : Nat) (e : Engine) (m : Model) (x : Sect) (e1 : Engine) (k : Nat) (e2 : Engine), s.engineUp = true ∧ s.eng.dispatched id 7 = some (p, arg, e) ∧ p.noEval = false ∧ p.firstEnq.isSome = true ∧ e.modelFor p = some m ∧ m.sect 5 arg = some x ∧ (e.setPkt p.id fun _ => p).earlierWaits p 7 1 = false ∧ (e.setPkt p.id fun _ => p).takeRate 1 8 8 = some e1 ∧ e1.steer true p.fhash = (some k, e2) ∧ e2.get Fld.MIL_CFG_QDEPTH ≤ (e2.milQ k).length) ∧
    (∃ (s : State) (id : Nat) (ecc : Ecc) (p : Pkt) (arg : Nat) (e : Engine) (m : Model) (x : Sect) (e1 : Engine) (k : Nat) (e2 : Engine) (hist : Bytes) (n : Nat) (rd : Bool) (e3 : Engine), s.engineUp = true ∧ s.eng.dispatched id 7 = some (p, arg, e) ∧ p.noEval = false ∧ p.firstEnq.isSome = true ∧ e.modelFor p = some m ∧ m.sect 5 arg = some x ∧ (e.setPkt p.id fun _ => p).earlierWaits p 7 1 = false ∧ (e.setPkt p.id fun _ => p).takeRate 1 8 8 = some e1 ∧ e1.steer true p.fhash = (some k, e2) ∧ (e2.milQ k).length < e2.get Fld.MIL_CFG_QDEPTH ∧ m.sect 3 (byteAt (sectBytes m.image x) 1 % 64) = none ∧ (e2.count (Reg.ORC_CNT 8)).historyRead p ecc = (.got hist n rd, e3)) ∧
    (∃ (p : Pkt), p.shf = none) ∧
    (∃ (e : Engine) (p : Pkt) (q : PShf) (x : Sheaf), p.shf = some q ∧ q.present = true ∧ q.genReset = false ∧ histLen q.cur ≠ 0 ∧ q.remote = false ∧ e.sheaf q.key = some x ∧ e.get Fld.SHF_LIMIT_HIST_MAX ≤ e.shf.histReads.length) :=
  ⟨⟨atStep 7 nev, 7, (disp (atStep 7 nev) 7).1, (disp (atStep 7 nev) 7).2.1, (disp (atStep 7 nev) 7).2.2, by decide +kernel⟩,
    ⟨atStep 7 fep, 7, (disp (atStep 7 fep) 7).1, (disp (atStep 7 fep) 7).2.1, (disp (atStep 7 fep) 7).2.2, by decide +kernel⟩,
    ⟨q7n, 7, (disp (q7n) 7).1, (disp (q7n) 7).2.1, (disp (q7n) 7).2.2, mdl tm, sc5, ra q7n, ((ra q7n).steer true 0).2, by decide +kernel⟩,
    ⟨q7f, 7, (disp (q7f) 7).1, (disp (q7f) 7).2.1, (disp (q7f) 7).2.2, mdl tm, sc5, ra q7f, 0, ((ra q7f).steer true 0).2, by decide +kernel⟩,
    ⟨q7, 7, Ecc.clean, (disp (q7) 7).1, (disp (q7) 7).2.1, (disp (q7) 7).2.2, mdl tm, sc5, ra q7, 0, ((ra q7).steer true 0).2, ([] : Bytes), 0, false, e28, by decide +kernel⟩,
    ⟨ep4, by decide +kernel⟩,
    ⟨{ State.reset.eng.put Fld.SHF_LIMIT_HIST_MAX 0 with shf := { State.reset.eng.shf with sheaves := [{ key := [1], tier := 0, gWay := some 0, sWay := some 0, lWay := none }] } }, { ep4 with shf := some { key := [1], present := true, cur := List.replicate 128 1 } }, ({ key := [1], present := true, cur := List.replicate 128 1 } : PShf), ({ key := [1], tier := 0, gWay := some 0, sWay := some 0, lWay := none } : Sheaf), by decide +kernel⟩⟩

theorem witness_MillsRunBatches :
    (∃ (s : State) (m : Nat) (it : MilItem) (rest : List MilItem), s.engineUp = true ∧ m < 32 ∧ ((s.eng.dom (8 + m / 8)).st = .on ∨ (s.eng.dom (8 + m / 8)).st = .draining) ∧ s.eng.milRun m = none ∧ s.eng.milQ (m / 8) = it :: rest) ∧
    (∃ (s : State) (m : Nat), s.engineUp = true ∧ (32 ≤ m ∨ (s.eng.milRun m).isSome = true ∨ s.eng.milQ (m / 8) = [])) ∧
    (∃ (s : State) (m : Nat) (items : List MilItem), s.engineUp = true ∧ s.eng.milRun m = some (.batch items) ∧ s.eng.is Fld.ERR_INJECT_ARMED = false) ∧
    (∃ (s : State) (m : Nat) (items : List MilItem) (x : Ecc), s.engineUp = true ∧ s.eng.milRun m = some (.batch items) ∧ s.eng.is Fld.ERR_INJECT_ARMED = false ∧ (x = .ue ∨ x = .residue)) ∧
    (∃ (s : State) (m : Nat) (j : MilJob), s.engineUp = true ∧ m < 32 ∧ s.eng.milRun m = some (.job j) ∧ s.eng.milQ (m / 8) ≠ [] ∧ ((quadMills (m / 8)).any fun x => (s.eng.milRun x).isNone) = false) ∧
    (∃ (s : State) (m : Nat) (j : MilJob), s.engineUp = true ∧ s.eng.milRun m = none ∧ s.eng.milQ (m / 8) = [] ∧ (s.eng.milHeld m).find? (fun x => x.cls == 2) = some j) ∧
    (∃ (s : State) (m : Nat) (j : MilJob) (rest : List MilJob), s.engineUp = true ∧ s.eng.milRun m = none ∧ s.eng.milQ (m / 8) = [] ∧ s.eng.fgWaits (m / 8) = false ∧ (s.eng.milHeld m).find? (fun x => x.cls == 2) = none ∧ s.eng.milHeld m = j :: rest) :=
  ⟨⟨up (inQ [itm, { itm with no := 4, tmpl := 1 }]), 1, itm, [{ itm with no := 4, tmpl := 1 }], by decide +kernel⟩,
    ⟨up, 1, by decide +kernel⟩,
    ⟨up (runs (.batch [itm])), 1, [itm], by decide +kernel⟩,
    ⟨up (runs (.batch [itm])), 1, [itm], Ecc.ue, by decide +kernel⟩,
    ⟨up allBusy, 1, hj 2, by decide +kernel⟩,
    ⟨up (helds 2), 1, hj 2, by decide +kernel⟩,
    ⟨up (helds 3), 1, hj 3, ([] : List MilJob), by decide +kernel⟩⟩

theorem witness_JoinSetsSeq :
    (∃ (s : State) (id : Nat) (p : Pkt) (arg : Nat) (e : Engine), s.engineUp = true ∧ s.eng.dispatched id 8 = some (p, arg, e) ∧ (p.items.all fun i => p.results.any fun r => r.item == i) = false ∧ arg % 4096 ≠ 0 ∧ e.time < p.joinDeadline (arg % 4096)) ∧
    (∃ (s : State) (id : Nat) (p : Pkt) (arg : Nat) (e : Engine), s.engineUp = true ∧ s.eng.dispatched id 8 = some (p, arg, e) ∧ ((p.items.all fun i => p.results.any fun r => r.item == i) = true ∨ arg % 4096 = 0 ∨ p.joinDeadline (arg % 4096) ≤ e.time)) ∧
    (∃ (s : State) (id : Nat) (p : Pkt) (arg : Nat) (e : Engine), s.engineUp = true ∧ s.eng.dispatched id 8 = some (p, arg, e) ∧ entMode (e.entryOf p) ≠ 2 ∧ ((p.items.all fun i => p.results.any fun r => r.item == i) = true ∨ arg % 4096 = 0 ∨ p.joinDeadline (arg % 4096) ≤ e.time)) ∧
    (∃ (s : State) (id : Nat) (p : Pkt), s.engineUp = true ∧ s.eng.pkt id = some p ∧ p.onPath = true ∧ p.failed = false ∧ entKind (s.eng.entryOf p) = 8 ∧ p.begun.isSome = true ∧ p.joinDeadline (entArg (s.eng.entryOf p) % 4096) ≤ s.eng.time) ∧
    (∃ (it : MilItem), it.late = true) :=
  ⟨⟨atStep j8 jp, 7, (disp (atStep j8 jp) 8).1, (disp (atStep j8 jp) 8).2.1, (disp (atStep j8 jp) 8).2.2, by decide +kernel⟩,
    ⟨atStep j8 jd, 7, (disp (atStep j8 jd) 8).1, (disp (atStep j8 jd) 8).2.1, (disp (atStep j8 jd) 8).2.2, by decide +kernel⟩,
    ⟨atStep j8 jd, 7, (disp (atStep j8 jd) 8).1, (disp (atStep j8 jd) 8).2.1, (disp (atStep j8 jd) 8).2.2, by decide +kernel⟩,
    ⟨j0, 7, jw, by decide +kernel⟩,
    ⟨{ itm with late := true }, by decide +kernel⟩⟩

theorem witness_MillCommands :
    (∃ (s : State) (id : Nat) (h : HostRead) (c : Cmd) (d : Bytes) (e1 : Engine) (k : Nat) (m : Nat), s.engineUp = true ∧ s.eng.startable id 0x50 = some c ∧ (s.eng.setCmd id fun c => { c with ph := .running }).cmdData c h = (some d, e1) ∧ e1.quadFor (c.arg 32 1) = some (some k) ∧ e1.jobCheck ⟨.cmd c.id, false, d, 0, 0, 0, c.arg 33 1 + 2, 0⟩ = none ∧ e1.jobPlace ⟨.cmd c.id, false, d, 0, 0, 0, c.arg 33 1 + 2, k⟩ = some m) ∧
    (∃ (s : State) (id : Nat) (h : HostRead) (c : Cmd) (d : Bytes) (e1 : Engine) (k : Nat) (m : Nat), s.engineUp = true ∧ s.eng.startable id 0x51 = some c ∧ (s.eng.setCmd id fun c => { c with ph := .running }).cmdData c h = (some d, e1) ∧ e1.quadFor 0xFF = some (some k) ∧ e1.jobCheck ⟨.cmd c.id, true, d, c.arg 32 1, c.arg 33 1, c.dst, 2, 0⟩ = none ∧ e1.jobPlace ⟨.cmd c.id, true, d, c.arg 32 1, c.arg 33 1, c.dst, 2, k⟩ = some m) ∧
    (∃ (s : State) (id : Nat) (h : HostRead) (c : Cmd) (d : Bytes) (e1 : Engine), s.engineUp = true ∧ s.eng.startable id 0x50 = some c ∧ (s.eng.setCmd id fun c => { c with ph := .running }).cmdData c h = (some d, e1) ∧ e1.quadFor (c.arg 32 1) = some none ∧ e1.jobCheck ⟨.cmd c.id, false, d, 0, 0, 0, c.arg 33 1 + 2, 0⟩ = none) ∧
    (∃ (s : State) (id : Nat) (h : HostRead) (c : Cmd) (d : Bytes) (e1 : Engine) (k : Option Nat) (st : Nat) (res : Nat), s.engineUp = true ∧ s.eng.startable id 0x50 = some c ∧ (s.eng.setCmd id fun c => { c with ph := .running }).cmdData c h = (some d, e1) ∧ e1.quadFor (c.arg 32 1) = some k ∧ e1.jobCheck ⟨.cmd c.id, false, d, 0, 0, 0, c.arg 33 1 + 2, 0⟩ = some (st, res)) ∧
    (∃ (s : State) (id : Nat) (m : Nat) (j : MilJob), s.engineUp = true ∧ s.eng.startable id 0x50 = none ∧ s.eng.mil.waiting = [] ∧ s.eng.jobMill (.cmd id) = some m ∧ s.eng.milRun m = some (.job j) ∧ (((s.eng.setMilRun m none).busy (256 + m)).runJob j).out = none) ∧
    (∃ (s : State) (id : Nat) (m : Nat) (j : MilJob) (b : Bytes) (c : Cmd), s.engineUp = true ∧ s.eng.startable id 0x51 = none ∧ s.eng.mil.waiting = [] ∧ s.eng.jobMill (.cmd id) = some m ∧ s.eng.milRun m = some (.job j) ∧ (((s.eng.setMilRun m none).busy (256 + m)).runJob j).out = some b ∧ (((s.eng.setMilRun m none).busy (256 + m)).runJob j).e.cmd id = some c) ∧
    (∃ (s : State) (id : Nat), s.engineUp = true ∧ s.eng.startable id 0x50 = none ∧ s.eng.mil.waiting = []) :=
  ⟨⟨sr, 1, HostRead.ok stg, crun, stg, (cd sr crun (.ok stg)).2, 0, 0, by decide +kernel⟩,
    ⟨stm, 1, HostRead.ok blk, ctm, blk, (cd stm ctm (.ok blk)).2, 0, 0, by decide +kernel⟩,
    ⟨sro, 1, HostRead.ok stg, okc 128 (natLE 1 0) 0x50, stg, (cd sro (okc 128 (natLE 1 0) 0x50) (.ok stg)).2, by decide +kernel⟩,
    ⟨withC (okc 1 [] 0x50), 1, HostRead.ok [1], okc 1 [] 0x50, [1], (cd (withC (okc 1 [] 0x50)) (okc 1 [] 0x50) (.ok [1])).2, some 0, 0x10, 0, by decide +kernel⟩,
    ⟨running 0x50 jr, 1, 2, jr, by decide +kernel⟩,
    ⟨running 0x51 jt, 1, 2, jt, (((((running 0x51 jt).eng.setMilRun 2 none).busy 258).runJob jt).out).getD [], { cmdOf 0x51 128 with ph := .running }, by decide +kernel⟩,
    ⟨running 0x50 jr, 1, by decide +kernel⟩⟩

end WitK

namespace WitL

def txd : Pkt := { pathPkt with txStep := true }
def tap : Engine → Engine := fun e => e.put (Fld.ITK_PORT_CFG_MODE 0) 0
def inl : Engine → Engine := fun e => (e.put (Fld.ITK_PORT_CFG_MODE 0) 1).put (Fld.ITK_PORT_CFG_CUT 0) 0
def unk : Pkt := { pathPkt with status := none }
def fr : TxFrame := ⟨.pkt 7, 1, 0, 0, 0, 0, false⟩
def dp : Pkt := { pathPkt with data := List.replicate 64 1, len := 64 }
def port0 : Engine → Engine := fun e => ((e.put (Fld.ITK_PORT_CTRL_UP 0) 1).put (Fld.ITK_PORT_STAT_LINK 0) 1).setTxq 0 fun q => { q with frames := [fr] }
def lau : Engine := State.reset.eng.setTxq 0 fun q => { q with frames := [{ fr with launch := 9 }] }
def cur : TxCur := { q := 0, fr := fr, startAt := 0, stamp := 0, cut := false, stomp := false }
def sending (k : Nat) : Engine → Engine := fun e => { e.setTxp 0 fun x => { x with cur := some cur } with cyc := k }
def gcl : Gcl := ⟨[(0, 1000)], 1000, 0, 0⟩
def pend (g : Gcl) : Engine → Engine := fun e => e.setTxp 0 fun x => { x with pendGcl := some g }
def oper : Engine → Engine := fun e => { ((port0 e).setTxp 0 fun x => { x with oper := some gcl }).put (Fld.SLC_GCL_CTRL_EN 0) 1 with time := 5000 }
def cem : Cmd := cmdOf 0x10 64 0 0 0 (natLE 8 0 ++ natLE 1 0 ++ natLE 1 3)
def emitSt : State := withC cem (fun e => ((e.put (Fld.ITK_PORT_CFG_MODE 0) 2).put (Fld.ITK_PORT_CTRL_UP 0) 1).put Fld.ITK_CELLS_TOTAL 4096)
def emd : Option Bytes × Engine := (emitSt.eng.started cem 295).cmdData cem (.ok (List.replicate 64 1))
def samp (k : Nat) : State := up fun e => ((e.put Fld.SLC_SAMPLE_EN 1).put (Fld.HIF_RING_STAT_STATE 4) 1).put (Fld.HIF_RING_CFG_KIND 4) k

theorem witness_FramesAreEnqueued :
    (∃ (s : State) (id : Nat) (p : Pkt) (arg : Nat) (e : Engine), s.engineUp = true ∧ s.eng.dispatched id 11 = some (p, arg, e) ∧ p.txStep = true) ∧
    (∃ (s : State) (id : Nat) (p : Pkt) (arg : Nat) (e : Engine), s.engineUp = true ∧ s.eng.dispatched id 11 = some (p, arg, e) ∧ p.txStep = false ∧ e.portMode p.port = 0) ∧
    (∃ (s : State) (id : Nat) (p : Pkt) (arg : Nat) (e : Engine), s.engineUp = true ∧ s.eng.dispatched id 11 = some (p, arg, e) ∧ p.txStep = false ∧ e.portMode p.port ≠ 0 ∧ p.good = false ∧ (e.is (Fld.ITK_PORT_CFG_CUT p.port) = false ∨ e.is (Fld.SLC_POL_CFG_EN p.cls) = true)) ∧
    (∃ (s : State) (id : Nat) (p : Pkt) (arg : Nat) (e : Engine), s.engineUp = true ∧ s.eng.dispatched id 11 = some (p, arg, e) ∧ p.txStep = false ∧ e.portMode p.port ≠ 0 ∧ p.good = true) ∧
    (∃ (e : Engine) (p : Pkt), e.portLive (e.get (Fld.ITK_PORT_CFG_PAIR p.port)) = false) ∧
    (∃ (e : Engine) (p : Pkt) (t : Nat) (col : Nat), (e.txq t).depth + p.cells ≤ e.txLimit t col) ∧
    (∃ (e : Engine) (p : Pkt) (t : Nat) (col : Nat), e.txLimit t col < (e.txq t).depth + p.cells) ∧
    (∃ (e : Engine) (c : Nat) (len : Nat), e.get (Fld.SLC_POL_PBS_BYTES c) < len) ∧
    (∃ (e : Engine) (c : Nat) (len : Nat), len ≤ e.get (Fld.SLC_POL_CBS_BYTES c) ∧ len ≤ e.get (Fld.SLC_POL_PBS_BYTES c)) ∧
    (∃ (e : Engine) (c : Nat) (len : Nat), e.get (Fld.SLC_POL_CBS_BYTES c) < len ∧ len ≤ e.get (Fld.SLC_POL_PBS_BYTES c)) :=
  ⟨⟨atStep 11 txd, 7, (disp (atStep 11 txd) 11).1, (disp (atStep 11 txd) 11).2.1, (disp (atStep 11 txd) 11).2.2, by decide +kernel⟩,
    ⟨atStep 11 pathPkt tap, 7, (disp (atStep 11 pathPkt tap) 11).1, (disp (atStep 11 pathPkt tap) 11).2.1, (disp (atStep 11 pathPkt tap) 11).2.2, by decide +kernel⟩,
    ⟨atStep 11 unk inl, 7, (disp (atStep 11 unk inl) 11).1, (disp (atStep 11 unk inl) 11).2.1, (disp (atStep 11 unk inl) 11).2.2, by decide +kernel⟩,
    ⟨atStep 11 pathPkt inl, 7, (disp (atStep 11 pathPkt inl) 11).1, (disp (atStep 11 pathPkt inl) 11).2.1, (disp (atStep 11 pathPkt inl) 11).2.2, by decide +kernel⟩,
    ⟨State.reset.eng, pathPkt, by decide +kernel⟩,
    ⟨State.reset.eng, dp, 3, 0, by decide +kernel⟩,
    ⟨State.reset.eng.put (Fld.SLC_TXQ_RLIM_CELLS 3) 0, dp, 3, 2, by decide +kernel⟩,
    ⟨State.reset.eng, 5, 64, by decide +kernel⟩,
    ⟨State.reset.eng, 5, 1, by decide +kernel⟩,
    ⟨State.reset.eng.put (Fld.SLC_POL_PBS_BYTES 5) 100, 5, 64, by decide +kernel⟩⟩

theorem witness_PortsTransmit :
    (∃ (s : State) (p : Nat) (t : Nat) (f : TxFrame) (rest : List TxFrame), s.engineUp = true ∧ s.eng.present p = true ∧ (s.eng.txp p).cur = none ∧ (s.eng.txClamp p).txSelect p = some t ∧ ((s.eng.txClamp p).txq t).frames = f :: rest) ∧
    (∃ (s : State) (p : Nat), s.engineUp = true ∧ (s.eng.present p = false ∨ (s.eng.txp p).cur.isSome = true)) ∧
    (∃ (s : State) (p : Nat) (c : TxCur) (n : Nat), s.engineUp = true ∧ (s.eng.txp p).cur = some c ∧ s.eng.frameLen c.fr.src = some n ∧ c.startAt + s.eng.txDuration p n ≤ s.eng.cyc) ∧
    (∃ (s : State) (p : Nat) (c : TxCur) (n : Nat), s.engineUp = true ∧ (s.eng.txp p).cur = some c ∧ s.eng.frameLen c.fr.src = some n ∧ s.eng.cyc < c.startAt + s.eng.txDuration p n) ∧
    (∃ (s : State), s.engineUp = true) ∧
    (∃ (s : State), s.engineUp = true) ∧
    (∃ (e : Engine) (t : Nat) (f : TxFrame) (rest : List TxFrame), (e.txq t).frames = f :: rest ∧ e.time < f.launch) ∧
    (∃ (e : Engine) (p : Nat) (t : Nat), e.txSelect p = some t) ∧
    (∃ (e : Engine) (p : Nat) (t : Nat) (u : Nat), e.txSelect p = some t ∧ u ∈ e.portQueues p ∧ e.txEligible u = true) :=
  ⟨⟨withP dp port0, 0, 0, fr, ([] : List TxFrame), by decide +kernel⟩,
    ⟨withP dp (sending 0), 0, by decide +kernel⟩,
    ⟨withP dp (sending 1000), 0, cur, 64, by decide +kernel⟩,
    ⟨withP dp (sending 0), 0, cur, 64, by decide +kernel⟩,
    ⟨up, by decide +kernel⟩,
    ⟨up, by decide +kernel⟩,
    ⟨lau, 0, { fr with launch := 9 }, ([] : List TxFrame), by decide +kernel⟩,
    ⟨(withP dp port0).eng, 0, 0, by decide +kernel⟩,
    ⟨(withP dp port0).eng, 0, 0, 0, by decide +kernel⟩⟩

theorem witness_GatesEmitsAndSamples :
    (∃ (s : State) (p : Nat), s.engineUp = true ∧ s.pcieUp = true ∧ s.eng.pends 13 = false ∧ s.eng.present p = true ∧ s.eng.gclOk p = true) ∧
    (∃ (s : State) (p : Nat), s.engineUp = true ∧ s.pcieUp = true ∧ s.eng.pends 13 = false ∧ s.eng.present p = true ∧ s.eng.gclOk p = false) ∧
    (∃ (s : State) (p : Nat), s.engineUp = true ∧ s.pcieUp = true ∧ s.eng.pends 13 = false ∧ p < 32) ∧
    (∃ (s : State) (p : Nat) (g : Gcl), s.engineUp = true ∧ p < 32 ∧ (s.eng.txp p).pendGcl = some g ∧ g.act ≤ s.eng.time) ∧
    (∃ (s : State) (p : Nat) (g : Gcl), s.engineUp = true ∧ (s.eng.txp p).pendGcl = some g ∧ s.eng.time < g.act) ∧
    (∃ (s : State) (t : Nat) (g : Gcl) (f : TxFrame) (rest : List TxFrame) (w : Nat), s.engineUp = true ∧ (s.eng.txp (s.eng.txPortOf t)).oper = some g ∧ (s.eng.txq t).frames = f :: rest ∧ g.longest (s.eng.localQueue t) = some w ∧ s.eng.is (Fld.SLC_GCL_CTRL_EN (s.eng.txPortOf t)) = true ∧ w < s.eng.txDuration (s.eng.txPortOf t) (s.eng.frameLenMax f.src) ∧ f.headAt + g.cycle ≤ s.eng.time) ∧
    (∃ (s : State) (id : Nat) (c : Cmd) (st : Nat), s.engineUp = true ∧ s.eng.startable id 0x10 = some c ∧ s.eng.emitRefuse c = some st ∧ s.eng.slc.emits = []) ∧
    (∃ (s : State) (id : Nat) (h : HostRead) (c : Cmd) (d : Bytes) (e1 : Engine), s.engineUp = true ∧ s.eng.startable id 0x10 = some c ∧ s.eng.emitRefuse c = none ∧ ceilDiv c.len 256 ≤ s.eng.cellsFree ∧ (s.eng.started c (295 + c.arg 40 1)).cmdData c h = (some d, e1)) ∧
    (∃ (s : State) (k : Nat), s.engineUp = true ∧ s.pcieUp = true ∧ s.eng.is Fld.SLC_SAMPLE_EN = true ∧ s.eng.time % (s.eng.get Fld.SLC_SAMPLE_INTERVAL_US * usTicks) = 0 ∧ s.eng.slc.sampledAt = none ∧ s.eng.get Fld.SLC_SAMPLE_RING = k ∧ s.eng.ringState k = 1 ∧ s.eng.ringKind k = 5) ∧
    (∃ (s : State), s.engineUp = true ∧ s.pcieUp = true ∧ s.eng.is Fld.SLC_SAMPLE_EN = true ∧ s.eng.time % (s.eng.get Fld.SLC_SAMPLE_INTERVAL_US * usTicks) = 0 ∧ s.eng.slc.sampledAt = none ∧ (s.eng.ringState (s.eng.get Fld.SLC_SAMPLE_RING) ≠ 1 ∨ s.eng.ringKind (s.eng.get Fld.SLC_SAMPLE_RING) ≠ 5)) :=
  ⟨⟨up, 0, by decide +kernel⟩,
    ⟨up (fun e => e.put (Fld.SLC_GCL_CYCLE_TICKS 0) 0), 0, by decide +kernel⟩,
    ⟨up (pend gcl), 0, by decide +kernel⟩,
    ⟨up (pend gcl), 0, gcl, by decide +kernel⟩,
    ⟨up (pend { gcl with act := 5 }), 0, { gcl with act := 5 }, by decide +kernel⟩,
    ⟨withP dp oper, 0, gcl, fr, ([] : List TxFrame), 0, by decide +kernel⟩,
    ⟨withC (cmdOf 0x10 1), 1, cmdOf 0x10 1, 0x20, by decide +kernel⟩,
    ⟨emitSt, 1, HostRead.ok (List.replicate 64 1), cem, List.replicate 64 1, emd.2, by decide +kernel⟩,
    ⟨samp 5, 4, by decide +kernel⟩,
    ⟨samp 3, by decide +kernel⟩⟩

end WitL

namespace WitM

def qd (n a : Nat) : Engine → Engine := fun e => (e.put Fld.GAR_SP_CFG_QDEPTH n).put Fld.GAR_SP_CFG_FULL_ACT a
def sp (n a : Nat) : State := atStep 12 pathPkt (qd n a)
def sf (a : Nat) : SlowFr := { pkt := 7, reason := 3, act := a, snap := 256, slotLog := 9, base := 0 }
def inS (f : SlowFr) (g : Engine → Engine := id) : State := withP pathPkt fun e => { g e with gar := { (g e).gar with queue := [f] } }
def cust : Engine → Engine := fun e => { e with gar := { e.gar with custOk := true, custStarted := true } }
def rt (s : State) : Engine := (s.eng.takeRate 320 1000000 4).getD s.eng
def atC : State := inS { sf 2 with ph := 1 } cust
def hrec : Nat → Engine → Engine := fun k e => { ((e.put (Fld.HIF_RING_STAT_STATE 5) 1).put (Fld.HIF_RING_CFG_KIND 5) k).put (Fld.HIF_RING_CFG_LOG2 5) 10 with pkts := [pathPkt], gar := { e.gar with queue := [sf 0] } }
def hq1 : State := up fun e => ((((hrec 4 e).put (Fld.HIF_HBQ_MAP_EN 3) 1).put (Fld.HIF_HBQ_MAP_RING 3) 5).setHq 3 fun q => { q with recs := [{ words := [0, 0, 0, 2 ^ 56], at_ := 0 }] })
def srec : HRec := { words := List.replicate 8 0, at_ := 0, slow := some 7 }
def hq2 : State := up fun e => ((((hrec 7 e).put (Fld.HIF_HBQ_MAP_EN 248) 1).put (Fld.HIF_HBQ_MAP_RING 248) 5).setHq 248 fun q => { q with recs := [srec] })
def img : Bytes := List.replicate 64 7
def cl : Cmd := cmdOf 0xB1 64
def cf : Cmd := cmdOf 0xB3 8 0 0 0 (natLE 1 2 ++ natLE 1 0)
def c2 (a : Nat) : Cmd := cmdOf 0xB2 0 0 0 0 (natLE 1 a)

theorem witness_SlowPathFrames :
    (∃ (s : State) (id : Nat) (p : Pkt) (arg : Nat) (e : Engine), s.engineUp = true ∧ s.eng.dispatched id 12 = some (p, arg, e) ∧ e.get Fld.GAR_SP_CFG_QDEPTH ≤ e.gar.queue.length ∧ e.get Fld.GAR_SP_CFG_FULL_ACT = 0) ∧
    (∃ (s : State) (id : Nat) (p : Pkt) (arg : Nat) (e : Engine), s.engineUp = true ∧ s.eng.dispatched id 12 = some (p, arg, e) ∧ e.get Fld.GAR_SP_CFG_QDEPTH ≤ e.gar.queue.length ∧ e.get Fld.GAR_SP_CFG_FULL_ACT ≠ 0) ∧
    (∃ (s : State) (id : Nat) (p : Pkt) (arg : Nat) (e : Engine), s.engineUp = true ∧ s.eng.dispatched id 12 = some (p, arg, e) ∧ e.gar.queue.length < e.get Fld.GAR_SP_CFG_QDEPTH ∧ e.earlierWaits p 12 10 = false) ∧
    (∃ (s : State) (core : Nat) (f : SlowFr) (p : Pkt) (e1 : Engine), s.engineUp = true ∧ s.eng.slowCore = some core ∧ s.eng.gar.queue.find? s.eng.slowReady = some f ∧ s.eng.takeRate 320 1000000 4 = some e1 ∧ s.eng.pkt f.pkt = some p ∧ f.act = 1) ∧
    (∃ (s : State) (core : Nat) (f : SlowFr) (p : Pkt) (e1 : Engine), s.engineUp = true ∧ s.eng.slowCore = some core ∧ s.eng.gar.queue.find? s.eng.slowReady = some f ∧ s.eng.takeRate 320 1000000 4 = some e1 ∧ s.eng.pkt f.pkt = some p ∧ f.act ≠ 1 ∧ f.act ≠ 2) ∧
    (∃ (s : State) (core : Nat) (f : SlowFr) (p : Pkt) (e1 : Engine), s.engineUp = true ∧ s.eng.slowCore = some core ∧ s.eng.gar.queue.find? s.eng.slowReady = some f ∧ s.eng.takeRate 320 1000000 4 = some e1 ∧ s.eng.pkt f.pkt = some p ∧ f.act = 2 ∧ s.eng.custRun = true ∧ s.eng.domOn 17 = true) ∧
    (∃ (s : State) (id : Nat) (f : SlowFr) (p : Pkt), s.engineUp = true ∧ s.eng.atCustomer id = some (f, p)) ∧
    (∃ (s : State) (id : Nat) (f : SlowFr) (p : Pkt), s.engineUp = true ∧ s.eng.atCustomer id = some (f, p)) ∧
    (∃ (s : State) (id : Nat) (f : SlowFr) (p : Pkt), s.engineUp = true ∧ s.eng.atCustomer id = some (f, p)) :=
  ⟨⟨sp 0 0, 7, (disp (sp 0 0) 12).1, (disp (sp 0 0) 12).2.1, (disp (sp 0 0) 12).2.2, by decide +kernel⟩,
    ⟨sp 0 1, 7, (disp (sp 0 1) 12).1, (disp (sp 0 1) 12).2.1, (disp (sp 0 1) 12).2.2, by decide +kernel⟩,
    ⟨sp 9 0, 7, (disp (sp 9 0) 12).1, (disp (sp 9 0) 12).2.1, (disp (sp 9 0) 12).2.2, by decide +kernel⟩,
    ⟨inS (sf 1), 332, sf 1, pathPkt, rt (inS (sf 1)), by decide +kernel⟩,
    ⟨inS (sf 0), 332, sf 0, pathPkt, rt (inS (sf 0)), by decide +kernel⟩,
    ⟨inS (sf 2) cust, 332, sf 2, pathPkt, rt (inS (sf 2) cust), by decide +kernel⟩,
    ⟨atC, 7, { sf 2 with ph := 1 }, pathPkt, by decide +kernel⟩,
    ⟨atC, 7, { sf 2 with ph := 1 }, pathPkt, by decide +kernel⟩,
    ⟨atC, 7, { sf 2 with ph := 1 }, pathPkt, by decide +kernel⟩⟩

theorem witness_HostRecordsAndPairs :
    (∃ (s : State) (h : Nat) (e1 : Engine), s.engineUp = true ∧ s.pcieUp = true ∧ s.eng.hostTurn = (some h, e1)) ∧
    (∃ (s : State), s.engineUp = true ∧ s.pcieUp = true ∧ s.eng.hqBusy = [] ∧ ((List.range 8).any s.eng.slowMapBad) = false) ∧
    (∃ (s : State) (h : Nat) (e1 : Engine) (r : HRec) (rest : List HRec), s.engineUp = true ∧ s.pcieUp = true ∧ s.eng.hostTurn = (some h, e1) ∧ (e1.hq h).recs = r :: rest ∧ r.slow.isSome = true) ∧
    (∃ (s : State) (k : Nat), s.engineUp = true ∧ k < 4 ∧ s.eng.pairUp k = true) ∧
    (∃ (s : State) (k : Nat), s.engineUp = true ∧ (4 ≤ k ∨ s.eng.pairUp k = false)) ∧
    (∃ (s : State) (k : Nat), s.engineUp = true ∧ (s.eng.dom (14 + k)).st = .on) :=
  ⟨⟨hq1, 3, hq1.eng.hostTurn.2, by decide +kernel⟩,
    ⟨up, by decide +kernel⟩,
    ⟨hq2, 248, hq2.eng.hostTurn.2, srec, ([] : List HRec), by decide +kernel⟩,
    ⟨up, 1, by decide +kernel⟩,
    ⟨up, 9, by decide +kernel⟩,
    ⟨up, 2, by decide +kernel⟩⟩

theorem witness_GarnerCommands :
    (∃ (s : State) (id : Nat) (c : Cmd), s.engineUp = true ∧ s.eng.startable id 0xB0 = some c ∧ c.len = 64) ∧
    (∃ (s : State) (id : Nat) (c : Cmd), s.engineUp = true ∧ s.eng.startable id 0xB0 = some c ∧ c.len ≠ 64) ∧
    (∃ (s : State) (id : Nat) (c : Cmd), s.engineUp = true ∧ s.eng.startable id 0xB1 = some c ∧ 64 ≤ c.len ∧ c.len ≤ 2 ^ 24 ∧ (s.eng.started c 330).custRun = true) ∧
    (∃ (s : State) (id : Nat) (h : HostRead) (c : Cmd) (d : List (BitVec 8)) (e1 : Engine), s.engineUp = true ∧ s.eng.startable id 0xB1 = some c ∧ 64 ≤ c.len ∧ c.len ≤ 2 ^ 24 ∧ (s.eng.started c 330).custRun = false ∧ (s.eng.started c 330).cmdData c h = (some d, e1)) ∧
    (∃ (s : State) (id : Nat) (c : Cmd), s.engineUp = true ∧ s.eng.startable id 0xB2 = some c ∧ c.arg 32 1 = 0) ∧
    (∃ (s : State) (id : Nat) (c : Cmd), s.engineUp = true ∧ s.eng.startable id 0xB2 = some c ∧ c.arg 32 1 = 1 ∧ ((s.eng.started c 330).gar.custOk && (s.eng.started c 330).pairUp 3 && (s.eng.started c 330).domOn 17) = true) ∧
    (∃ (s : State) (id : Nat) (c : Cmd), s.engineUp = true ∧ s.eng.startable id 0xB2 = some c ∧ 2 ≤ c.arg 32 1) ∧
    (∃ (s : State) (id : Nat) (h : HostRead) (c : Cmd) (d : Bytes) (e1 : Engine), s.engineUp = true ∧ s.eng.startable id 0xB3 = some c ∧ c.arg 32 1 < 8 ∧ c.arg 33 1 < 3 ∧ c.arg 33 1 ≠ 1 ∧ (s.eng.started c 330).cmdData c h = (some d, e1)) ∧
    (∃ (s : State) (id : Nat) (c : Cmd), s.engineUp = true ∧ s.eng.startable id 0xB3 = some c ∧ 8 ≤ c.arg 32 1) :=
  ⟨⟨withC (cmdOf 0xB0 64), 1, cmdOf 0xB0 64, by decide +kernel⟩,
    ⟨withC (cmdOf 0xB0 65), 1, cmdOf 0xB0 65, by decide +kernel⟩,
    ⟨withC cl cust, 1, cl, by decide +kernel⟩,
    ⟨withC cl, 1, HostRead.ok img, cl, img, (((withC cl).eng.started cl 330).cmdData cl (.ok img)).2, by decide +kernel⟩,
    ⟨withC (c2 0) cust, 1, c2 0, by decide +kernel⟩,
    ⟨withC (c2 1) cust, 1, c2 1, by decide +kernel⟩,
    ⟨withC (c2 2), 1, c2 2, by decide +kernel⟩,
    ⟨withC cf, 1, HostRead.ok (List.replicate 8 0), cf, List.replicate 8 0, (((withC cf).eng.started cf 330).cmdData cf (.ok (List.replicate 8 0))).2, by decide +kernel⟩,
    ⟨withC (cmdOf 0xB3 8 0 0 0 (natLE 1 9)), 1, cmdOf 0xB3 8 0 0 0 (natLE 1 9), by decide +kernel⟩⟩

end WitM

namespace WitN

def tc (op len : Nat) (a : Bytes := []) : Cmd := cmdOf op len 0 0 0 a
def dt (s : State) (c : Cmd) (g : Nat) (h : HostRead) : Option Bytes × Engine := (s.eng.started c g).cmdData c h
def goodE : Bytes := natLE 8 13
def ldc : Cmd := tc 0x23 8
def lds : State := withC ldc
def ldh : HostRead := .ok goodE
def badE : HostRead := .ok (natLE 8 (3 * 16))
def stt (n : Nat) (f : Engine → Engine := id) : Engine → Engine := fun e => (f e).put Fld.WNW_GEN_STAT_STATE n
def swc (a : Bytes) : Cmd := tc 0x26 0 a
def okB : Bank := (((({} : Bank).writeItem 3 0 (natLE 8 (2 ^ 4 + 2 ^ 6 + 2 ^ 16))).writeItem 3 2 (natLE 8 12)).writeItem 3 3 (natLE 8 13))
def okBank : Engine → Engine := fun e => { e with tab := { e.tab with shadow := okB } }
def ret3 : Engine → Engine := fun e => { e with pkts := [{ pathPkt with gen := 3 }], tab := { e.tab with retGen := 3 } }
def okT (t : Nat) : Engine → Engine := fun e => { okBank e with time := t }
def pnd (m : Nat) (d : Bool) : Engine → Engine := fun e => { e with tab := { e.tab with pend := some ⟨m, 0, 1, d⟩ } }
def shv : Sheaf := { key := [1], tier := 0, gWay := some 0, sWay := some 0, lWay := none }
def withS (x : Sheaf) : Engine → Engine := fun e => { e with shf := { e.shf with sheaves := [x] } }
def mg (x : Sheaf) (d : Nat) (dirty : Bool) : Sheaf := { x with mig := some ⟨d, some 1, none, none, dirty⟩ }
def nd : ShfNeed := ⟨.pkt 9, [2], false, none⟩
def needs : Engine → Engine := fun e => { e with shf := { e.shf with needs := [nd] } }
def silo : Sheaf := { key := [1], tier := 1, gWay := none, sWay := some 0, lWay := none }
def kcm (op len : Nat) : Cmd := tc op len
def kst (op len : Nat) (g : Engine → Engine := id) : State := withC (kcm op len) g
def k48 : Bytes := List.replicate 48 1
def shk : Sheaf := { shv with key := k48 }
def kd (s : State) (op len : Nat) : Option Bytes × Engine := s.eng.cmdDataN (kcm op len) 48 (.ok k48) .clean
def kf (s : State) (op len : Nat) : Bool × Bool × Engine := (kd s op len).2.takeFlow (.cmd 1) k48 0
def kr (s : State) : Option Bytes × Engine := (((kf s 0x30 640).2.2.started (kcm 0x30 640) 294)).readSheaf k48
def upp : Engine → Engine := fun e => e.put (Fld.ITK_PORT_CTRL_UP 3) 1
def lof : Engine → Engine := fun e => e.put Fld.SHF_LOFT_EN 1
def lmap : Cmd := tc 0x33 0 (natLE 8 0 ++ natLE 8 (2 ^ 21) ++ natLE 8 0)
def win : Engine → Engine := fun e => { e with shf := { e.shf with windows := [⟨0, 2 ^ 21, 0⟩] } }
def len1 : Cmd := tc 0x34 0 (natLE 4 1 ++ natLE 4 5)
def hset : Cmd := tc 0x35 4 (natLE 4 3 ++ natLE 4 9)
def pdw : Engine → Engine := fun e => e.wr (Reg.HIF_PD_WIN_SIZE 0 0) (2 ^ 40)

theorem okB_check : okB.check = none := by decide +kernel

theorem witness_LoadsWriteTheShadow :
    (∃ (s : State) (t : Nat) (id : Nat) (h : HostRead) (c : Cmd) (d : Bytes) (e1 : Engine) (b : Bank), s.engineUp = true ∧ t < 5 ∧ s.eng.startable id (0x20 + t) = some c ∧ s.eng.genState = 0 ∧ c.len % itemSize t = 0 ∧ c.arg 32 4 + c.len / itemSize t ≤ tableItems t ∧ (s.eng.started c 292).cmdData c h = (some d, e1) ∧ e1.tab.shadow.load t (c.arg 32 4) (itemsOf t (c.len / itemSize t) d) = (b, none)) ∧
    (∃ (s : State) (t : Nat) (id : Nat) (h : HostRead) (c : Cmd) (d : Bytes) (e1 : Engine) (b : Bank) (i : Nat), s.engineUp = true ∧ t < 5 ∧ s.eng.startable id (0x20 + t) = some c ∧ s.eng.genState = 0 ∧ c.len % itemSize t = 0 ∧ c.arg 32 4 + c.len / itemSize t ≤ tableItems t ∧ (s.eng.started c 292).cmdData c h = (some d, e1) ∧ e1.tab.shadow.load t (c.arg 32 4) (itemsOf t (c.len / itemSize t) d) = (b, some i)) ∧
    (∃ (s : State) (t : Nat) (id : Nat) (c : Cmd), s.engineUp = true ∧ t < 5 ∧ s.eng.startable id (0x20 + t) = some c ∧ s.eng.genState = 1) ∧
    (∃ (s : State) (t : Nat) (id : Nat) (c : Cmd), s.engineUp = true ∧ t < 5 ∧ s.eng.startable id (0x20 + t) = some c ∧ s.eng.genState = 2) ∧
    (∃ (s : State) (t : Nat) (id : Nat) (c : Cmd), s.engineUp = true ∧ t < 5 ∧ s.eng.startable id (0x20 + t) = some c ∧ s.eng.genState = 0 ∧ c.len % itemSize t = 0 ∧ tableItems t < c.arg 32 4 + c.len / itemSize t) ∧
    (∃ (s : State) (id : Nat) (c : Cmd), s.engineUp = true ∧ s.eng.startable id 0x25 = some c ∧ s.eng.genState = 0 ∧ c.arg 32 1 ≤ 1) ∧
    (∃ (s : State) (id : Nat) (c : Cmd), s.engineUp = true ∧ s.eng.startable id 0x27 = some c ∧ c.arg 32 1 ≤ 4 ∧ c.arg 33 1 = 0 ∧ c.len % itemSize (c.arg 32 1) = 0 ∧ c.arg 36 4 + c.len / itemSize (c.arg 32 1) ≤ tableItems (c.arg 32 1) ∧ s.eng.tab.live.bad = []) ∧
    (∃ (t : Nat) (i : Nat) (j : Nat), t < 5 ∧ i ≠ j) ∧
    (∃ (t : Nat) (bs : Bytes), t < 5 ∧ bs.length = itemSize t) :=
  ⟨⟨lds, 3, 1, ldh, ldc, goodE, (dt lds ldc 292 ldh).2, ((dt lds ldc 292 ldh).2.tab.shadow.load 3 0 [goodE]).1, by decide +kernel⟩,
    ⟨lds, 3, 1, badE, ldc, natLE 8 (3 * 16), (dt lds ldc 292 badE).2, ((dt lds ldc 292 badE).2.tab.shadow.load 3 0 [natLE 8 (3 * 16)]).1, 0, by decide +kernel⟩,
    ⟨withC ldc (stt 1), 3, 1, ldc, by decide +kernel⟩,
    ⟨withC ldc (stt 2), 3, 1, ldc, by decide +kernel⟩,
    ⟨withC (tc 0x23 8 (natLE 4 1024)), 3, 1, tc 0x23 8 (natLE 4 1024), by decide +kernel⟩,
    ⟨withC (tc 0x25 0), 1, tc 0x25 0, by decide +kernel⟩,
    ⟨withC (tc 0x27 8 (natLE 4 3)), 1, tc 0x27 8 (natLE 4 3), by decide +kernel⟩,
    ⟨3, 4, 5, by decide +kernel⟩,
    ⟨3, goodE, by decide +kernel⟩⟩

theorem witness_GenerationsSwitch :
    (∃ (s : State) (id : Nat) (c : Cmd), s.engineUp = true ∧ s.eng.startable id 0x26 = some c ∧ c.arg 32 1 = 0 ∧ s.eng.genState = 0 ∧ s.eng.tab.shadow.check = none) ∧
    (∃ (s : State) (id : Nat) (c : Cmd) (r : Nat) (i : Nat), s.engineUp = true ∧ s.eng.startable id 0x26 = some c ∧ c.arg 32 1 < 3 ∧ s.eng.genState = 0 ∧ s.eng.tab.shadow.check = some (r, i)) ∧
    (∃ (s : State) (id : Nat) (c : Cmd), s.engineUp = true ∧ s.eng.startable id 0x26 = some c ∧ c.arg 32 1 = 2 ∧ s.eng.genState = 0 ∧ s.eng.tab.shadow.check = none ∧ c.arg 40 8 < s.eng.time) ∧
    (∃ (s : State) (id : Nat) (c : Cmd) (m : Nat), s.engineUp = true ∧ s.eng.startable id 0x26 = some c ∧ c.arg 32 1 = m ∧ (m = 1 ∨ m = 2) ∧ s.eng.genState = 0 ∧ s.eng.tab.shadow.check = none ∧ s.eng.time ≤ c.arg 40 8) ∧
    (∃ (s : State) (id : Nat) (c : Cmd) (x : PendSwitch), s.engineUp = true ∧ s.eng.startable id 0x26 = some c ∧ c.arg 32 1 = 3 ∧ s.eng.tab.pend = some x) ∧
    (∃ (s : State) (x : PendSwitch), s.engineUp = true ∧ s.eng.tab.pend = some x ∧ (x.due = true ∨ x.mode = 2 ∧ x.t ≤ s.eng.time)) ∧
    (∃ (s : State) (x : PendSwitch), s.engineUp = true ∧ s.eng.tab.pend = some x ∧ x.due = false ∧ x.mode = 1) ∧
    (∃ (s : State), s.engineUp = true ∧ s.eng.genState = 1 ∧ s.eng.retiringPkts = 0 ∧ (s.eng.pkts.any fun p => !p.handed && decide (p.ts < s.eng.rd Reg.WNW_SWITCH_TIME) && decide (s.eng.tab.retGen ≠ 0)) = false) ∧
    (∃ (s : State), s.engineUp = true ∧ s.eng.retiringPkts ≠ 0) :=
  ⟨⟨withC (swc []) okBank, 1, swc [], by exact ⟨by decide +kernel, by decide +kernel, by decide +kernel, by decide +kernel, okB_check⟩⟩,
    ⟨withC (swc []), 1, swc [], 7, 0, by decide +kernel⟩,
    ⟨withC (swc (natLE 8 2 ++ natLE 8 5)) (okT 9), 1, swc (natLE 8 2 ++ natLE 8 5), by exact ⟨by decide +kernel, by decide +kernel, by decide +kernel, by decide +kernel, okB_check, by decide +kernel⟩⟩,
    ⟨withC (swc (natLE 8 2 ++ natLE 8 5)) (okT 5), 1, swc (natLE 8 2 ++ natLE 8 5), 2, by exact ⟨by decide +kernel, by decide +kernel, by decide +kernel, by decide +kernel, by decide +kernel, okB_check, by decide +kernel⟩⟩,
    ⟨withC (swc (natLE 8 3)) (pnd 1 false), 1, swc (natLE 8 3), (⟨1, 0, 1, false⟩ : PendSwitch), by decide +kernel⟩,
    ⟨up (pnd 1 true), (⟨1, 0, 1, true⟩ : PendSwitch), by decide +kernel⟩,
    ⟨up (pnd 1 false), (⟨1, 0, 1, false⟩ : PendSwitch), by decide +kernel⟩,
    ⟨up (stt 1), by decide +kernel⟩,
    ⟨up ret3, by decide +kernel⟩⟩

theorem witness_SheavesMigrate :
    (∃ (s : State) (n : ShfNeed) (rest : List ShfNeed), s.engineUp = true ∧ s.eng.shf.needs = n :: rest ∧ (s.eng.serveNeed n).1 = true) ∧
    (∃ (s : State), s.engineUp = true ∧ s.eng.shf.needs = []) ∧
    (∃ (s : State) (key : Bytes) (x : Sheaf) (m : Mig), s.engineUp = true ∧ s.eng.sheaf key = some x ∧ x.mig = some m ∧ m.dirty = true) ∧
    (∃ (s : State) (key : Bytes) (x : Sheaf) (m : Mig), s.engineUp = true ∧ s.eng.sheaf key = some x ∧ x.mig = some m ∧ m.dirty = false ∧ m.dst = 1) ∧
    (∃ (s : State) (key : Bytes) (x : Sheaf) (m : Mig), s.engineUp = true ∧ s.eng.sheaf key = some x ∧ x.mig = some m ∧ m.dirty = false ∧ m.dst = 0 ∧ x.tier = 1) ∧
    (∃ (s : State) (key : Bytes), s.engineUp = true ∧ (s.eng.sheaf key).bind (·.mig) = none) :=
  ⟨⟨up needs, nd, ([] : List ShfNeed), by decide +kernel⟩,
    ⟨up, by decide +kernel⟩,
    ⟨up (withS (mg shv 1 true)), [1], mg shv 1 true, (⟨1, some 1, none, none, true⟩ : Mig), by decide +kernel⟩,
    ⟨up (withS (mg shv 1 false)), [1], mg shv 1 false, (⟨1, some 1, none, none, false⟩ : Mig), by decide +kernel⟩,
    ⟨up (withS (mg silo 0 false)), [1], mg silo 0 false, (⟨0, some 1, none, none, false⟩ : Mig), by decide +kernel⟩,
    ⟨up (withS shv), [1], by decide +kernel⟩⟩

theorem witness_SheafCommands :
    (∃ (s : State) (id : Nat) (c : Cmd), s.engineUp = true ∧ s.eng.startable id 0x30 = some c ∧ c.len ≠ 640) ∧
    (∃ (s : State) (id : Nat) (h : HostRead) (c : Cmd) (key : Bytes) (e1 : Engine) (b : Bool) (e2 : Engine), s.engineUp = true ∧ s.eng.startable id 0x30 = some c ∧ c.len = 640 ∧ s.eng.cmdDataN c 48 h .clean = (some key, e1) ∧ e1.homeOf key e1.time = e1.selfId ∧ e1.takeFlow (.cmd id) key c.at_ = (true, b, e2) ∧ e2.startable id 0x30 = some c ∧ (e2.started c 294).tierCode key = 0) ∧
    (∃ (s : State) (id : Nat) (h : HostRead) (c : Cmd) (key : Bytes) (e1 : Engine) (b : Bool) (e2 : Engine) (d : Bytes) (e3 : Engine), s.engineUp = true ∧ s.eng.startable id 0x30 = some c ∧ c.len = 640 ∧ s.eng.cmdDataN c 48 h .clean = (some key, e1) ∧ e1.homeOf key e1.time = e1.selfId ∧ e1.takeFlow (.cmd id) key c.at_ = (true, b, e2) ∧ e2.startable id 0x30 = some c ∧ (e2.started c 294).tierCode key ≠ 0 ∧ (e2.started c 294).readSheaf key = (some d, e3)) ∧
    (∃ (s : State) (id : Nat) (h : HostRead) (c : Cmd) (key : Bytes) (e1 : Engine) (b : Bool) (e2 : Engine), s.engineUp = true ∧ s.eng.startable id 0x31 = some c ∧ c.len = 48 ∧ s.eng.cmdDataN c 48 h .clean = (some key, e1) ∧ e1.homeOf key e1.time = e1.selfId ∧ e1.takeFlow (.cmd id) key c.at_ = (true, b, e2) ∧ (e2.sheaf key).bind (·.undo0) = none ∧ (e2.sheaf key).bind (·.undo1) = none ∧ e2.startable id 0x31 = some c ∧ (e2.started c 294).tierCode key ≠ 0) ∧
    (∃ (s : State) (id : Nat) (c : Cmd) (p : Nat), s.engineUp = true ∧ s.eng.startable id 0x32 = some c ∧ p < 32 ∧ s.eng.is (Fld.ITK_PORT_CTRL_UP p) = true) ∧
    (∃ (s : State) (id : Nat) (c : Cmd), s.engineUp = true ∧ s.eng.startable id 0x32 = some c) ∧
    (∃ (s : State) (id : Nat) (c : Cmd), s.engineUp = true ∧ s.eng.startable id 0x33 = some c ∧ s.eng.is Fld.SHF_LOFT_EN = true) ∧
    (∃ (s : State) (id : Nat) (c : Cmd), s.engineUp = true ∧ s.eng.startable id 0x33 = some c ∧ s.eng.is Fld.SHF_LOFT_EN = false ∧ s.eng.shf.windows = [] ∧ c.arg 32 8 % 2 ^ 21 = 0 ∧ c.arg 40 8 % 2 ^ 21 = 0 ∧ c.arg 48 8 % 2 ^ 21 = 0 ∧ c.arg 48 8 + c.arg 40 8 ≤ 2 ^ 40 ∧ (s.eng.started c 294).inWindow c.pd (c.arg 32 8) (c.arg 40 8) = true) ∧
    (∃ (s : State) (id : Nat) (c : Cmd), s.engineUp = true ∧ s.eng.startable id 0x34 = some c ∧ c.arg 32 1 = 0) ∧
    (∃ (s : State) (id : Nat) (c : Cmd), s.engineUp = true ∧ s.eng.startable id 0x34 = some c ∧ c.arg 32 1 = 1 ∧ s.eng.is Fld.SHF_LOFT_EN = false ∧ 0 < c.arg 36 4 ∧ c.arg 36 4 ≤ 2 ^ 27 ∧ covers s.eng.shf.windows 513 0 (c.arg 36 4 * 8192) = true) ∧
    (∃ (s : State) (id : Nat) (h : HostRead) (c : Cmd) (d : Bytes) (e1 : Engine), s.engineUp = true ∧ s.eng.startable id 0x35 = some c ∧ c.len % 2 = 0 ∧ (s.eng.started c 294).cmdData c h = (some d, e1)) :=
  ⟨⟨kst 0x30 641, 1, kcm 0x30 641, by decide +kernel⟩,
    ⟨kst 0x30 640, 1, HostRead.ok k48, kcm 0x30 640, k48, (kd (kst 0x30 640) 0x30 640).2, true, (kf (kst 0x30 640) 0x30 640).2.2, by decide +kernel⟩,
    ⟨kst 0x30 640 (withS shk), 1, HostRead.ok k48, kcm 0x30 640, k48, (kd (kst 0x30 640 (withS shk)) 0x30 640).2, true, (kf (kst 0x30 640 (withS shk)) 0x30 640).2.2, (kr (kst 0x30 640 (withS shk))).1.getD [], (kr (kst 0x30 640 (withS shk))).2, by decide +kernel⟩,
    ⟨kst 0x31 48 (withS shk), 1, HostRead.ok k48, kcm 0x31 48, k48, (kd (kst 0x31 48 (withS shk)) 0x31 48).2, true, (kf (kst 0x31 48 (withS shk)) 0x31 48).2.2, by decide +kernel⟩,
    ⟨kst 0x32 0 upp, 1, kcm 0x32 0, 3, by decide +kernel⟩,
    ⟨kst 0x32 0, 1, kcm 0x32 0, by decide +kernel⟩,
    ⟨kst 0x33 0 lof, 1, kcm 0x33 0, by decide +kernel⟩,
    ⟨withC lmap pdw, 1, lmap, by decide +kernel⟩,
    ⟨kst 0x34 0, 1, kcm 0x34 0, by decide +kernel⟩,
    ⟨withC len1 win, 1, len1, by decide +kernel⟩,
    ⟨withC hset, 1, HostRead.ok [1, 0, 2, 0], hset, [1, 0, 2, 0], (dt (withC hset) hset 294 (.ok [1, 0, 2, 0])).2, by decide +kernel⟩⟩

end WitN

namespace WitP

def ca (a : Bytes) (len : Nat) (op : Nat) : Cmd := cmdOf op len 0 0 0 a
def cvA : Bytes := natLE 4 0x0701 ++ natLE 4 0x3F800000 ++ natLE 4 0 ++ natLE 4 0x3F800000 ++ natLE 4 0 ++ natLE 2 0xFFFF
def cvc : Cmd := ca cvA 4 0xA0
def kk : NumConv := (numConv cvc).getD ⟨.f32, .f32, 9, 0, 0, 0, 0, 0⟩
def cvd : Option Bytes × Engine := ((withC cvc).eng.started cvc 330).cmdData cvc (.ok [1, 2, 3, 4])
def vv : List (NVal × Nat) := (List.range (kk.count 4)).map (fun i => codeValue kk.sf (elemAt kk.sf [1, 2, 3, 4] i) kk.sz (f32q kk.ss))

theorem witness_NumCommands :
    (∃ (s : State) (id : Nat) (c : Cmd), s.engineUp = true ∧ s.eng.startable id 0xA0 = some c ∧ numConv c = none) ∧
    (∃ (s : State) (id : Nat) (c : Cmd) (k : NumConv), s.engineUp = true ∧ s.eng.startable id 0xA0 = some c ∧ numConv c = some k ∧ k.ok (s.eng.started c 330) c.len = false) ∧
    (∃ (s : State) (id : Nat) (h : HostRead) (c : Cmd) (k : NumConv) (d : Bytes) (e1 : Engine) (vals : List (NVal × Nat)) (qs : List (Nat × Nat)), s.engineUp = true ∧ s.eng.startable id 0xA0 = some c ∧ numConv c = some k ∧ k.ok (s.eng.started c 330) c.len = true ∧ (s.eng.started c 330).cmdData c h = (some d, e1) ∧ k.mode = 0 ∧ k.ctx = 0xFFFF ∧ vals = (List.range (k.count c.len)).map (fun i => codeValue k.sf (elemAt k.sf d i) k.sz (f32q k.ss)) ∧ qs = vals.map (fun v => quantise k.df v.1 (f32q k.ds) k.dz)) ∧
    (∃ (s : State) (id : Nat) (c : Cmd), s.engineUp = true ∧ s.eng.startable id 0xA1 = some c ∧ c.len % 64 = 0 ∧ c.arg 32 4 + c.len / 64 ≤ 256) ∧
    (∃ (s : State) (id : Nat) (c : Cmd), s.engineUp = true ∧ s.eng.startable id 0xA1 = some c ∧ (c.len % 64 ≠ 0 ∨ 256 < c.arg 32 4 + c.len / 64)) ∧
    (∃ (s : State) (id : Nat) (c : Cmd), s.engineUp = true ∧ s.eng.startable id 0xA2 = some c ∧ c.arg 32 4 + c.arg 36 4 ≤ 256) ∧
    (∃ (s : State) (id : Nat) (c : Cmd), s.engineUp = true ∧ s.eng.startable id 0xA2 = some c ∧ 256 < c.arg 32 4 + c.arg 36 4) ∧
    (∃ (t : Nat), t < 256) :=
  ⟨⟨withC (ca (natLE 4 9) 4 0xA0), 1, ca (natLE 4 9) 4 0xA0, by decide +kernel⟩,
    ⟨withC (ca (natLE 4 0x30701) 4 0xA0), 1, ca (natLE 4 0x30701) 4 0xA0, (numConv (ca (natLE 4 0x30701) 4 0xA0)).getD kk, by decide +kernel⟩,
    ⟨withC cvc, 1, HostRead.ok [1, 2, 3, 4], cvc, kk, [1, 2, 3, 4], cvd.2, vv, vv.map (fun v => quantise kk.df v.1 (f32q kk.ds) kk.dz), by decide +kernel⟩,
    ⟨withC (ca [] 128 0xA1), 1, ca [] 128 0xA1, by decide +kernel⟩,
    ⟨withC (ca [] 127 0xA1), 1, ca [] 127 0xA1, by decide +kernel⟩,
    ⟨withC (ca (natLE 4 3 ++ natLE 4 2) 0 0xA2), 1, ca (natLE 4 3 ++ natLE 4 2) 0 0xA2, by decide +kernel⟩,
    ⟨withC (ca (natLE 4 300) 0 0xA2), 1, ca (natLE 4 300) 0 0xA2, by decide +kernel⟩,
    ⟨5, by decide +kernel⟩⟩

end WitP

namespace WitQ

def gc (op len : Nat) (a : Bytes := []) : Cmd := cmdOf op len 0 0 0 a
def gld : Cmd := gc 0x70 88
def im0 : Bytes := natLE 4 0x4D4C4D49 ++ natLE 2 1 ++ natLE 2 1 ++ natLE 4 5 ++ natLE 4 88 ++ natLE 4 0 ++ List.replicate 44 0
def im1 : Bytes := natLE 2 1 ++ natLE 2 0 ++ natLE 4 80 ++ natLE 4 8 ++ natLE 4 0 ++ natLE 8 0x1234
def im : Bytes := patch (im0 ++ im1) 16 (natLE 4 (crc32 im1))
def gst (f : Gft → Gft) (e : Engine) : Engine := { e with gft := f e.gft }
def ldg : State := withC { gld with ph := .running } (gst fun g => { g with loading := some 1, sst := .loading })
def ldd (b : Bytes) : Option Bytes × Engine := ldg.eng.cmdData { gld with ph := .running } (.ok b)
def tm : List (Nat × Nat × Bytes) := [(1, 0, List.replicate 8 0)]
def rdy (g : Gft) : Gft := { g with sst := .ready, shadow := some (mdl tm) }
def lv (g : Gft) : Gft := { g with live := some (mdl tm) }
def gt (m t : Nat) : Cmd := gc 0x71 0 (natLE 8 m ++ natLE 8 t)
def armT (g : Gft) : Gft := { rdy (lv g) with sst := .armed, arm := some { mode := .time, t := 0, cmd := none } }
def ret (g : Gft) : Gft := { g with retiring := some (mdl tm) }
def expc : Cmd := gc 0x73 (imgOf tm).length
def lpc (t : Nat) : Cmd := gc 0x74 0 (natLE 8 0 ++ natLE 8 t)
def co : Coord := { cmd := 1, epoch := 4, hash := [], tc := 0, parts := [0, 1], ok := [], decision := none, onTime := [], late := [], notDone := [] }
def wco (k : Coord) : Engine → Engine := gst fun g => { g with coord := some k }
def msg (op : Nat) (a d : Bytes) : FlgMsg := { id := 3, port := 0, vc := 2, cls := 0, flits := 1, src := 1, op := op, tag := 0, arg := a, data := d, buffered := false, at_ := 0 }
def withM (m : FlgMsg) (f : Engine → Engine := id) : State := up fun e => { f e with flg := { (f e).flg with inbox := [m] } }
def hsh : Model := { mdl tm with hash := List.replicate 8 0 }
def rdh (e : Engine) : Engine := (gst (fun g => { g with sst := .ready, shadow := some hsh }) e).put Fld.GFT_LATT_MARGIN_US 0
def nsu (e : Engine) : Engine := e.put Fld.FLG_TIME_STAT_SUSPECT 0
def pm : FlgMsg := msg 0xC1 (natLE 8 9) (natLE 4 4 ++ List.replicate 32 0)
def lck (sst : ShadowSt) (c tc : Nat) : Engine → Engine := fun e => (gst (fun g => { g with sst := sst, shadow := some hsh, lock := some ⟨c, tc⟩ }) e).put Fld.GFT_LATT_INDOUBT_US 1
def lt : List (Nat × Nat × Bytes) := [(1, 0, List.replicate 8 0), (9, 0, natLE 8 (2 ^ 8) ++ List.replicate 56 0)]
def lrn (e : Engine) : Engine := ((live lt e).put Fld.GFT_CFG_LEARN_EN 1).put Fld.MIL_CFG_HARVEST_EN 1
def lrnR (e : Engine) : Engine := gst (fun g => { g with learn := { g.learn with rows := 4 } }) (lrn e)
def jl : MilJob := ⟨.learn, true, [], 0, 1, 0, 3, 0⟩
def lrun (e : Engine) : Engine := e.setMilRun 2 (some (.job jl))
def stg (e : Engine) : Engine := gst (fun g => { g with sst := .ready, learn := { g.learn with staged := [(1, 2, 3)] } }) (lrn e)
def nb (e : Engine) : Engine := e.put Fld.ERR_BYPASS_STAT_CAUSES 0

theorem witness_ModelsLoadAndGraft :
    (∃ (s : State) (id : Nat) (c : Cmd), s.engineUp = true ∧ s.eng.startable id 0x70 = some c ∧ s.eng.gft.retiring = none ∧ s.eng.gft.loading = none ∧ s.eng.gft.busy = false ∧ s.eng.gft.shadow = none) ∧
    (∃ (s : State) (id : Nat) (h : HostRead) (c : Cmd) (im : Bytes) (e1 : Engine) (b : Nat × Nat), s.engineUp = true ∧ s.eng.startable id 0x70 = none ∧ s.eng.gft.loading = some id ∧ s.eng.cmd id = some c ∧ s.eng.cmdData c h = (some im, e1) ∧ e1.loadRefuse im c.len = none ∧ e1.placeModel im = some b) ∧
    (∃ (s : State) (id : Nat) (h : HostRead) (c : Cmd) (im : Bytes) (e1 : Engine) (r : Nat) (i : Nat), s.engineUp = true ∧ s.eng.startable id 0x70 = none ∧ s.eng.gft.loading = some id ∧ s.eng.cmd id = some c ∧ s.eng.cmdData c h = (some im, e1) ∧ e1.loadRefuse im c.len = some (r, i) ∧ e1.gft.sst = .loading) ∧
    (∃ (s : State) (id : Nat) (c : Cmd), s.engineUp = true ∧ s.eng.startable id 0x71 = some c ∧ c.arg 32 1 = 1 ∧ s.eng.gft.sst = .ready ∧ c.at_ ≤ c.arg 40 8) ∧
    (∃ (s : State) (id : Nat) (c : Cmd), s.engineUp = true ∧ s.eng.startable id 0x71 = some c ∧ c.arg 32 1 = 1 ∧ s.eng.gft.sst = .ready ∧ c.arg 40 8 < c.at_) ∧
    (∃ (s : State) (id : Nat) (c : Cmd) (m : Model), s.engineUp = true ∧ s.eng.startable id 0x71 = some c ∧ c.arg 32 1 = 0 ∧ s.eng.gft.sst = .ready ∧ s.eng.gft.live = some m) ∧
    (∃ (s : State) (id : Nat) (c : Cmd) (m : Model), s.engineUp = true ∧ s.eng.startable id 0x71 = some c ∧ c.arg 32 1 = 0 ∧ s.eng.gft.sst = .ready ∧ s.eng.gft.live = none ∧ s.eng.gft.shadow = some m ∧ s.eng.gft.retiring = none) ∧
    (∃ (s : State) (id : Nat) (c : Cmd), s.engineUp = true ∧ s.eng.startable id 0x71 = some c ∧ c.arg 32 1 ≤ 1 ∧ s.eng.gft.sst ≠ .ready) ∧
    (∃ (s : State) (id : Nat) (c : Cmd), s.engineUp = true ∧ s.eng.startable id 0x71 = some c ∧ c.arg 32 1 = 3 ∧ s.eng.gft.sst ≠ .armed) ∧
    (∃ (s : State) (m : Model), s.engineUp = true ∧ s.eng.armDue = true ∧ s.eng.gft.shadow = some m ∧ s.eng.gft.live.isSome = true) ∧
    (∃ (s : State), s.engineUp = true ∧ s.eng.armDue = false) ∧
    (∃ (s : State) (m : Model), s.engineUp = true ∧ s.eng.gft.retiring = some m ∧ s.eng.epochUsed m.epoch = false) ∧
    (∃ (s : State) (m : Model), s.engineUp = true ∧ s.eng.gft.retiring = some m ∧ s.eng.epochUsed m.epoch = true) ∧
    (∃ (s : State) (id : Nat) (c : Cmd), s.engineUp = true ∧ s.eng.startable id 0x72 = some c ∧ (s.eng.gft.sst = .ready ∨ s.eng.gft.sst = .empty)) ∧
    (∃ (s : State) (id : Nat) (c : Cmd), s.engineUp = true ∧ s.eng.startable id 0x72 = some c ∧ (s.eng.gft.sst = .armed ∨ s.eng.gft.sst = .locked ∨ s.eng.gft.sst = .preparing)) ∧
    (∃ (s : State) (id : Nat) (c : Cmd) (m : Model) (im : Bytes), s.engineUp = true ∧ s.eng.startable id 0x73 = some c ∧ c.arg 33 1 = 0 ∧ s.eng.gft.live = some m ∧ c.len = m.image.length ∧ (s.eng.started c 330).imageNow m = some im) ∧
    (∃ (s : State) (id : Nat) (c : Cmd), s.engineUp = true ∧ s.eng.startable id 0x73 = some c ∧ c.arg 33 1 = 0 ∧ s.eng.gft.live = none) ∧
    (∃ (s : State) (id : Nat) (c : Cmd), s.engineUp = true ∧ s.eng.startable id 0x76 = some c ∧ c.arg 32 1 ≤ 1) :=
  ⟨⟨withC gld, 1, gld, by decide +kernel⟩,
    ⟨ldg, 1, HostRead.ok im, { gld with ph := .running }, im, (ldd im).2, ((0, 0) : Nat × Nat), by decide +kernel⟩,
    ⟨ldg, 1, HostRead.ok (im0 ++ im1), { gld with ph := .running }, im0 ++ im1, (ldd (im0 ++ im1)).2, 2, 0, by decide +kernel⟩,
    ⟨withC (gt 1 5) (gst rdy), 1, gt 1 5, by decide +kernel⟩,
    ⟨withC ({ gt 1 5 with at_ := 6 } : Cmd) (gst rdy), 1, ({ gt 1 5 with at_ := 6 } : Cmd), by decide +kernel⟩,
    ⟨withC (gt 0 0) (gst fun g => rdy (lv g)), 1, gt 0 0, mdl tm, by decide +kernel⟩,
    ⟨withC (gt 0 0) (gst rdy), 1, gt 0 0, mdl tm, by decide +kernel⟩,
    ⟨withC (gt 0 0), 1, gt 0 0, by decide +kernel⟩,
    ⟨withC (gt 3 0), 1, gt 3 0, by decide +kernel⟩,
    ⟨up (gst armT), mdl tm, by decide +kernel⟩,
    ⟨up, by decide +kernel⟩,
    ⟨up (gst ret), mdl tm, by decide +kernel⟩,
    ⟨withP ep4 (gst ret), mdl tm, by decide +kernel⟩,
    ⟨withC (gc 0x72 0), 1, gc 0x72 0, by decide +kernel⟩,
    ⟨withC (gc 0x72 0) (gst armT), 1, gc 0x72 0, by decide +kernel⟩,
    ⟨withC expc (gst lv), 1, expc, mdl tm, (((withC expc (gst lv)).eng.started expc 330).imageNow (mdl tm)).getD [], by decide +kernel⟩,
    ⟨withC expc, 1, expc, by decide +kernel⟩,
    ⟨withC (gc 0x76 0), 1, gc 0x76 0, by decide +kernel⟩⟩

theorem witness_LatticeGraftsAndLearning :
    (∃ (s : State) (id : Nat) (c : Cmd), s.engineUp = true ∧ s.eng.startable id 0x74 = some c ∧ (s.eng.gft.lock.isSome = true ∨ s.eng.gft.coord.isSome = true ∨ c.arg 40 8 < c.at_ + 2 * s.eng.margin)) ∧
    (∃ (s : State) (id : Nat) (c : Cmd) (m : Model), s.engineUp = true ∧ s.eng.startable id 0x74 = some c ∧ s.eng.gft.lock = none ∧ s.eng.gft.coord = none ∧ c.at_ + 2 * s.eng.margin ≤ c.arg 40 8 ∧ s.eng.gft.shadow = some m ∧ s.eng.gft.sst = .ready ∧ s.eng.suspect = false ∧ s.eng.time + s.eng.margin ≤ c.arg 40 8 ∧ (s.eng.started c 330).reachable = [s.eng.selfId]) ∧
    (∃ (s : State) (id : Nat) (c : Cmd) (k : Coord), s.engineUp = true ∧ s.eng.startable id 0x75 = some c ∧ s.eng.gft.coord = some k ∧ k.decision = none) ∧
    (∃ (s : State) (id : Nat) (c : Cmd), s.engineUp = true ∧ s.eng.startable id 0x75 = some c ∧ s.eng.gft.coord = none) ∧
    (∃ (s : State) (id : Nat) (m : FlgMsg), s.engineUp = true ∧ s.eng.flgMsg id 0xC1 = some m ∧ s.eng.voteFor (leAt m.data 0 4) ((List.range 8).map fun i => leAt m.data (4 + 4 * i) 4) (leNat m.arg) = 0) ∧
    (∃ (s : State) (id : Nat) (m : FlgMsg), s.engineUp = true ∧ s.eng.flgMsg id 0xC1 = some m ∧ s.eng.voteFor (leAt m.data 0 4) ((List.range 8).map fun i => leAt m.data (4 + 4 * i) 4) (leNat m.arg) ≠ 0) ∧
    (∃ (s : State) (id : Nat) (m : FlgMsg), s.engineUp = true ∧ s.eng.flgMsg id 0xC2 = some m) ∧
    (∃ (e : Engine) (k : Coord), e.gft.coord = some k ∧ k.decision.isSome = true) ∧
    (∃ (e : Engine) (k : Coord) (src : Nat) (code : Nat), e.gft.coord = some k ∧ k.decision = none ∧ src ∈ k.parts ∧ src ∉ k.ok ∧ code ≠ 0) ∧
    (∃ (s : State) (k : Coord), s.engineUp = true ∧ s.eng.gft.coord = some k ∧ k.decision = none ∧ k.tc ≤ s.eng.time + s.eng.margin / 2) ∧
    (∃ (s : State), s.engineUp = true ∧ s.eng.gft.coord = none) ∧
    (∃ (s : State) (id : Nat) (m : FlgMsg) (l : Lock), s.engineUp = true ∧ s.eng.flgMsg id 0xC3 = some m ∧ s.eng.gft.lock = some l ∧ s.eng.gft.sst = .locked ∧ l.coord = m.src ∧ byteAt m.arg 0 = 0 ∧ s.eng.time ≤ l.tc) ∧
    (∃ (s : State) (id : Nat) (m : FlgMsg) (l : Lock), s.engineUp = true ∧ s.eng.flgMsg id 0xC3 = some m ∧ s.eng.gft.lock = some l ∧ s.eng.gft.sst = .locked ∧ l.coord = m.src ∧ byteAt m.arg 0 ≠ 0 ∧ m.src ≠ s.eng.selfId) ∧
    (∃ (s : State) (id : Nat) (m : FlgMsg), s.engineUp = true ∧ s.eng.flgMsg id 0xC4 = some m) ∧
    (∃ (s : State) (l : Lock), s.engineUp = true ∧ s.eng.gft.lock = some l ∧ s.eng.gft.sst = .locked ∧ l.tc + s.eng.indoubt ≤ s.eng.time ∧ l.coord ≠ s.eng.selfId) ∧
    (∃ (s : State) (l : Lock), s.engineUp = true ∧ s.eng.gft.lock = some l ∧ s.eng.time < l.tc + s.eng.indoubt) ∧
    (∃ (s : State) (k : Coord), s.engineUp = true ∧ s.eng.gft.coord = some k ∧ k.decision = some none ∧ k.tc + s.eng.indoubt ≤ s.eng.time) ∧
    (∃ (s : State) (k : Coord) (r : Nat) (who : Nat), s.engineUp = true ∧ s.eng.gft.coord = some k ∧ k.decision = some (some (r, who)) ∧ k.tc + s.eng.indoubt ≤ s.eng.time) ∧
    (∃ (s : State) (l : Bytes) (m : Model) (k : Nat) (n : Nat), s.engineUp = true ∧ s.eng.learnSect = some l ∧ s.eng.gft.live = some m ∧ s.eng.learning = true ∧ (s.eng.liveOf true).head? = some k ∧ s.eng.gft.learn.running = false ∧ s.eng.is Fld.MIL_CFG_HARVEST_EN = true ∧ s.eng.inBypass = false ∧ byteAt l 1 = n ∧ s.eng.gft.learn.seenRows + n ≤ s.eng.gft.learn.rows ∧ (s.eng.checkRead 0 (s.eng.mwAddr m + leAt l 4 4) (128 * byteAt l 8) .clean).1 = false) ∧
    (∃ (s : State), s.engineUp = true ∧ (s.eng.learning = false ∨ s.eng.gft.learn.running = true) ∧ s.eng.inBypass = false) ∧
    (∃ (s : State) (m : Nat) (j : MilJob), s.engineUp = true ∧ s.eng.mil.waiting = [] ∧ s.eng.jobMill .learn = some m ∧ s.eng.milRun m = some (.job j) ∧ (((s.eng.setMilRun m none).busy (256 + m)).runJob j).status ≠ 0) ∧
    (∃ (s : State), s.engineUp = true ∧ s.eng.gft.sst = .preparing) ∧
    (∃ (s : State) (m : Model), s.engineUp = true ∧ s.eng.gft.live = some m ∧ (m.sect 9 0).isSome = true ∧ s.eng.is Fld.GFT_CFG_LEARN_EN = true ∧ s.eng.gft.learn.staged ≠ [] ∧ s.eng.gft.sst = .ready) :=
  ⟨⟨withC (lpc 0) (lck .ready 0 0), 1, lpc 0, by decide +kernel⟩,
    ⟨withC (lpc 9) (fun e => rdh (nsu e)), 1, lpc 9, hsh, by decide +kernel⟩,
    ⟨withC (gc 0x75 0) (wco co), 1, gc 0x75 0, co, by decide +kernel⟩,
    ⟨withC (gc 0x75 0), 1, gc 0x75 0, by decide +kernel⟩,
    ⟨withM pm (fun e => rdh (nsu e)), 3, pm, by decide +kernel⟩,
    ⟨withM pm, 3, pm, by decide +kernel⟩,
    ⟨withM (msg 0xC2 [0] []), 3, msg 0xC2 [0] [], by decide +kernel⟩,
    ⟨wco { co with decision := some none } State.reset.eng, { co with decision := some none }, by decide +kernel⟩,
    ⟨wco co State.reset.eng, co, 1, 5, by decide +kernel⟩,
    ⟨up (wco co), co, by decide +kernel⟩,
    ⟨up, by decide +kernel⟩,
    ⟨withM (msg 0xC3 [0] []) (lck .locked 1 9), 3, msg 0xC3 [0] [], (⟨1, 9⟩ : Lock), by decide +kernel⟩,
    ⟨withM (msg 0xC3 [1] []) (lck .locked 1 9), 3, msg 0xC3 [1] [], (⟨1, 9⟩ : Lock), by decide +kernel⟩,
    ⟨withM (msg 0xC4 [0] []), 3, msg 0xC4 [0] [], by decide +kernel⟩,
    ⟨up (fun e => { lck .locked 1 0 e with time := 5000 }), (⟨1, 0⟩ : Lock), by decide +kernel⟩,
    ⟨up (lck .locked 1 9), (⟨1, 9⟩ : Lock), by decide +kernel⟩,
    ⟨up (fun e => { wco { co with decision := some none } e with time := 99000000 }), { co with decision := some none }, by decide +kernel⟩,
    ⟨up (fun e => { wco { co with decision := some (some (1, 2)) } e with time := 99000000 }), { co with decision := some (some (1, 2)) }, 1, 2, by decide +kernel⟩,
    ⟨up (fun e => nb (lrnR e)), (((mdl lt).sect 9 0).map fun x => sectBytes (imgOf lt) x).getD [], mdl lt, 0, 1, by decide +kernel⟩,
    ⟨up nb, by decide +kernel⟩,
    ⟨up lrun, 2, jl, by decide +kernel⟩,
    ⟨up (gst fun g => { g with sst := .preparing }), by decide +kernel⟩,
    ⟨up stg, mdl lt, by decide +kernel⟩⟩

end WitQ

namespace WitR

def pm3 : Model := { mdl [(6, 0, natLE 4 16 ++ natLE 4 3 ++ natLE 4 0 ++ natLE 4 1)] with mwBase := 0 }
def pm2 : Model := mdl [(6, 0, natLE 4 16 ++ natLE 4 3 ++ natLE 4 0 ++ natLE 4 2)]
def thr : Thread := { id := 65541, kind := 0, epoch := 4, limit := 0, pc := 142606336, regs := [(5, 0x10000040), (6, 9), (7, 1), (8, 2 ^ 60)] }
def word (w : Nat) : Engine → Engine := fun e => e.store 142606336 (natLE 4 w)
def tw (w : Nat) (t : Thread := thr) (f : Engine → Engine := id) : State := up fun e => f ((word w e).setThread t)
def iss (s : State) (c : RvCls) : Thread × Nat × Engine := (s.eng.issued 65541 c).getD (thr, 0, s.eng)
def addi : State := tw (0x13 + 2 ^ 7 * 3 + 2 ^ 15 * 5 + 2 ^ 20 * 7)
def ecall : State := tw 0x73
def ld : State := tw (0x3003 + 2 ^ 7 * 3 + 2 ^ 15 * 5)
def ldp : State := tw (0x3003 + 2 ^ 7 * 3 + 2 ^ 15 * 5) thr fun e => { e with poison := [0x10000040] }
def ldx : State := tw (0x3003 + 2 ^ 7 * 3 + 2 ^ 15 * 6)
def ldn : State := tw (0x3003 + 2 ^ 7 * 3 + 2 ^ 15 * 5) { thr with regs := [(5, 0x0C000000)] }
def ldf : State := tw (0x3003 + 2 ^ 7 * 3 + 2 ^ 15 * 5) { thr with regs := [(5, 2 ^ 42 + 8)] }
def sd : State := tw (0x3023 + 2 ^ 15 * 5 + 2 ^ 20 * 6)
def sdx : State := tw (0x3023 + 2 ^ 15 * 6 + 2 ^ 20 * 6)
def am : State := tw (0x302F + 2 ^ 7 * 3 + 2 ^ 15 * 5 + 2 ^ 20 * 6)
def amx : State := tw (0x302F + 2 ^ 7 * 3 + 2 ^ 15 * 7 + 2 ^ 20 * 6)
def lrs (f5 r1 : Nat) (t : Thread := thr) : State := tw (0x302F + 2 ^ 7 * 3 + 2 ^ 15 * r1 + 2 ^ 27 * f5) t
def fen : State := tw 0x0FF0000F
def fenW : State := tw 0x0FF0000F { thr with reqs := [⟨3, 5, .store⟩] }
def fenF : State := tw 0x0FF0000F { thr with fault := some (26, 5) }
def csr : State := tw (0x2073 + 2 ^ 7 * 3 + 2 ^ 20 * 0xCC0)
def csrX : State := tw (0x2073 + 2 ^ 7 * 3 + 2 ^ 20 * 0xCC8)
def tmd (m : Model) : Engine → Engine := fun e => { e with gft := { e.gft with live := some m } }
def full : Engine → Engine := fun e => { e with ril := { e.ril with threads := (List.range 32).map fun i => (i, { thr with id := i }) } }
def s6 (m : Model) (f : Engine → Engine := id) (p : Pkt := ep4) : State := atStep 6 p fun e => f (tmd m e)
def st6 (s : State) : Nat × Engine := let x := (disp s 6).2.2.steer false 0; (x.1.getD 0, x.2)
def noEv : Pkt := { ep4 with noEval := true }
def s6n : State := s6 pm3 id noEv
def allOff : Engine → Engine := fun e => (List.range 8).foldl (fun e d => domSt d { st := .gated } e) e
def cs : Cmd := cmdOf 0x60 256 0 0 0 [0, 0, 1, 2, 0, 0, 0, 0]
def csE (s : State) (c : Cmd) (h : HostRead) : Option Bytes × Engine := (s.eng.started c 34).cmdData c h
def hs1 : HostRead := .ok (List.replicate 256 5)
def csS : State := withC cs (tmd pm3)
def full1 : Engine → Engine := fun e => { e with ril := { e.ril with threads := (List.range 32).map fun i => (1024 + 64 + i, { thr with id := 1024 + 64 + i }) } }
def cs8 : Cmd := cmdOf 0x60 8
def ck : Cmd := cmdOf 0x61 0 0 0 0 (natLE 4 65541)
def cst : Cmd := cmdOf 0x62 8192
def rq : FlgReq := ⟨3, 5, 1, .thread 65541, 0⟩
def wq (c : Nat) : State := up fun e => { e with cyc := c, flg := { e.flg with reqs := [rq] } }
def en : Thread := { thr with st := .ending, ended := some .killed }
def wend (t : Thread) (f : Engine → Engine := id) : State := up fun e => (f e).setThread t
def ex : Thread := { thr with st := .ending, ended := some (.exit 7), waitEnd := some 1 }

theorem witness_ThreadsRunInstructions :
    (∃ (s : State) (c : Instr) (tid : Nat) (cls : RvCls), s.engineUp = true ∧ insnRow c = some (tid, cls) ∧ (s.eng.thread tid).any (fun t => t.st.issues) = false) ∧
    (∃ (s : State) (c : Instr) (tid : Nat) (cls : RvCls), s.engineUp = true ∧ insnRow c = some (tid, cls) ∧ cls ≠ .plain ∧ s.eng.issued tid cls = none) ∧
    (∃ (s : State) (tid : Nat) (t : Thread) (e1 : Engine) (e2 : Engine) (c : Nat) (v : Nat), s.engineUp = true ∧ s.eng.thread tid = some t ∧ t.st.issues = true ∧ s.eng.issueRate (coreOf tid) = some e1 ∧ e1.fetchWord t = (.error (c, v), e2)) ∧
    (∃ (s : State) (tid : Nat) (t : Thread) (w : Nat) (e : Engine) (rd : Nat) (v : Nat) (pc : Nat), s.engineUp = true ∧ s.eng.issued tid .plain = some (t, w, e) ∧ rvPlain t.reg t.pc w = .go rd v pc) ∧
    (∃ (s : State) (tid : Nat) (t : Thread) (w : Nat) (e : Engine) (c : Nat) (v : Nat), s.engineUp = true ∧ s.eng.issued tid .plain = some (t, w, e) ∧ rvPlain t.reg t.pc w = .trap c v) ∧
    (∃ (t : Thread), (t.limit = 0 ∨ t.instret + 1 < t.limit)) ∧
    (∃ (t : Thread), t.limit ≠ 0 ∧ t.limit ≤ t.instret + 1) ∧
    (∃ (e : Engine) (c : Nat), e.is Fld.RIL_CFG_FAULT_REC = false ∧ c ≠ 24) ∧
    (∃ (rd : Nat) (rs : Nat) (imm : Nat), rd < 32 ∧ rs < 32 ∧ imm < 4096) ∧
    (∃ (rd : Nat) (rs1 : Nat) (rs2 : Nat), rd < 32 ∧ rs1 < 32 ∧ rs2 < 32) ∧
    (∃ (s : State) (tid : Nat) (ecc : Ecc) (t : Thread) (w : Nat) (e : Engine) (a : Nat) (d : Bytes) (e1 : Engine), s.engineUp = true ∧ s.eng.issued tid .load = some (t, w, e) ∧ e.locate ((t.reg (rvRs1 w) + immI w) % 2 ^ 64) = .here a ∧ e.accRead a (2 ^ (rvF3 w % 4)) = .ok ∧ e.localRead a (2 ^ (rvF3 w % 4)) ecc = (some d, e1)) ∧
    (∃ (s : State) (tid : Nat) (ecc : Ecc) (t : Thread) (w : Nat) (e : Engine) (a : Nat) (e1 : Engine), s.engineUp = true ∧ s.eng.issued tid .load = some (t, w, e) ∧ e.locate ((t.reg (rvRs1 w) + immI w) % 2 ^ 64) = .here a ∧ e.accRead a (2 ^ (rvF3 w % 4)) = .ok ∧ e.localRead a (2 ^ (rvF3 w % 4)) ecc = (none, e1)) ∧
    (∃ (s : State) (tid : Nat) (t : Thread) (w : Nat) (e : Engine) (a : Nat), s.engineUp = true ∧ s.eng.issued tid .load = some (t, w, e) ∧ e.locate ((t.reg (rvRs1 w) + immI w) % 2 ^ 64) = .here a ∧ e.accRead a (2 ^ (rvF3 w % 4)) = .access) ∧
    (∃ (s : State) (tid : Nat) (t : Thread) (w : Nat) (e : Engine) (id : Nat) (a : Nat), s.engineUp = true ∧ s.eng.issued tid .load = some (t, w, e) ∧ e.locate ((t.reg (rvRs1 w) + immI w) % 2 ^ 64) = .far id a ∧ a % 2 ^ (rvF3 w % 4) = 0) ∧
    (∃ (s : State) (tid : Nat) (t : Thread) (w : Nat) (e : Engine) (a : Nat), s.engineUp = true ∧ s.eng.issued tid .store = some (t, w, e) ∧ e.locate ((t.reg (rvRs1 w) + immS w) % 2 ^ 64) = .here a ∧ e.accWrite a (2 ^ rvF3 w) = .ok ∧ t.limit = 0) ∧
    (∃ (s : State) (tid : Nat) (t : Thread) (w : Nat) (e : Engine) (a : Nat), s.engineUp = true ∧ s.eng.issued tid .store = some (t, w, e) ∧ e.locate ((t.reg (rvRs1 w) + immS w) % 2 ^ 64) = .here a ∧ e.accWrite a (2 ^ rvF3 w) = .access) ∧
    (∃ (s : State) (tid : Nat) (ecc : Ecc) (t : Thread) (w : Nat) (e : Engine) (a : Nat) (d : Bytes) (e1 : Engine) (v : Nat), s.engineUp = true ∧ s.eng.issued tid .amo = some (t, w, e) ∧ bitsOf w 26 25 = 0 ∧ t.reg (rvRs1 w) < 2 ^ 56 ∧ t.reg (rvRs1 w) % 2 ^ rvF3 w = 0 ∧ e.locate (t.reg (rvRs1 w)) = .here a ∧ e.accWrite a (2 ^ rvF3 w) = .ok ∧ e.localRead a (2 ^ rvF3 w) ecc = (some d, e1) ∧ amoNew (rvF5 w) (2 ^ rvF3 w) (leNat d) (t.reg (rvRs2 w)) 0 = some v) ∧
    (∃ (s : State) (tid : Nat) (t : Thread) (w : Nat) (e : Engine), s.engineUp = true ∧ s.eng.issued tid .amo = some (t, w, e) ∧ bitsOf w 26 25 = 0 ∧ t.reg (rvRs1 w) < 2 ^ 56 ∧ t.reg (rvRs1 w) % 2 ^ rvF3 w ≠ 0) ∧
    (∃ (s : State) (tid : Nat) (t : Thread) (w : Nat) (e : Engine) (a : Nat) (d : Bytes) (e1 : Engine), s.engineUp = true ∧ s.eng.issued tid .lr = some (t, w, e) ∧ bitsOf w 26 25 = 0 ∧ e.lrWhere (t.reg (rvRs1 w)) (2 ^ rvF3 w) = some a ∧ a % 2 ^ rvF3 w = 0 ∧ e.localRead a (2 ^ rvF3 w) .clean = (some d, e1)) ∧
    (∃ (s : State) (tid : Nat) (t : Thread) (w : Nat) (e : Engine), s.engineUp = true ∧ s.eng.issued tid .lr = some (t, w, e) ∧ bitsOf w 26 25 = 0 ∧ e.lrWhere (t.reg (rvRs1 w)) (2 ^ rvF3 w) = none) ∧
    (∃ (s : State) (tid : Nat) (t : Thread) (w : Nat) (e : Engine) (a : Nat), s.engineUp = true ∧ s.eng.issued tid .sc = some (t, w, e) ∧ bitsOf w 26 25 = 0 ∧ e.lrWhere (t.reg (rvRs1 w)) (2 ^ rvF3 w) = some a ∧ a % 2 ^ rvF3 w = 0) ∧
    (∃ (s : State) (tid : Nat) (t : Thread) (w : Nat) (e : Engine), s.engineUp = true ∧ s.eng.issued tid .fence = some (t, w, e) ∧ t.storesOut = false ∧ t.fault = none) ∧
    (∃ (s : State) (tid : Nat) (t : Thread) (w : Nat) (e : Engine), s.engineUp = true ∧ s.eng.issued tid .fence = some (t, w, e) ∧ t.storesOut = true ∧ bitsOf w 31 20 = 0x0FF) ∧
    (∃ (s : State) (tid : Nat) (t : Thread) (w : Nat) (e : Engine) (c : Nat) (a : Nat), s.engineUp = true ∧ s.eng.issued tid .fence = some (t, w, e) ∧ t.storesOut = false ∧ t.fault = some (c, a)) ∧
    (∃ (s : State) (tid : Nat) (t : Thread) (w : Nat) (e : Engine) (v : Nat), s.engineUp = true ∧ s.eng.issued tid .csr = some (t, w, e) ∧ e.csr t (bitsOf w 31 20) = some v ∧ rvF3 w % 4 ≠ 1 ∧ rvRs1 w = 0) ∧
    (∃ (s : State) (tid : Nat) (t : Thread) (w : Nat) (e : Engine), s.engineUp = true ∧ s.eng.issued tid .csr = some (t, w, e) ∧ (e.csr t (bitsOf w 31 20) = none ∨ rvF3 w % 4 = 1 ∨ rvRs1 w ≠ 0)) :=
  ⟨⟨up, Instr.rvInstruction 65541, 65541, RvCls.plain, by decide +kernel⟩,
    ⟨addi, Instr.load 65541 .clean, 65541, RvCls.load, by decide +kernel⟩,
    ⟨tw 0 { thr with pc := 8 }, 65541, ({ thr with pc := 8 } : Thread), (tw 0 { thr with pc := 8 }).eng, (tw 0 { thr with pc := 8 }).eng, 1, 8, by decide +kernel⟩,
    ⟨addi, 65541, (iss (addi) (.plain)).1, (iss (addi) (.plain)).2.1, (iss (addi) (.plain)).2.2, 3, 0x10000047, 142606340, by decide +kernel⟩,
    ⟨ecall, 65541, (iss (ecall) (.plain)).1, (iss (ecall) (.plain)).2.1, (iss (ecall) (.plain)).2.2, 8, 0, by decide +kernel⟩,
    ⟨thr, by decide +kernel⟩,
    ⟨({ thr with limit := 4, instret := 3 } : Thread), by decide +kernel⟩,
    ⟨((State.reset.eng).put Fld.RIL_CFG_FAULT_REC 0), 5, by decide +kernel⟩,
    ⟨3, 5, 4095, by decide +kernel⟩,
    ⟨3, 5, 6, by decide +kernel⟩,
    ⟨ld, 65541, Ecc.clean, (iss (ld) (.load)).1, (iss (ld) (.load)).2.1, (iss (ld) (.load)).2.2, 0x10000040, List.replicate 8 0, (iss ld .load).2.2, by decide +kernel⟩,
    ⟨ldp, 65541, Ecc.clean, (iss (ldp) (.load)).1, (iss (ldp) (.load)).2.1, (iss (ldp) (.load)).2.2, 0x10000040, ((iss ldp .load).2.2.localRead 0x10000040 8 .clean).2, by decide +kernel⟩,
    ⟨ldn, 65541, (iss (ldn) (.load)).1, (iss (ldn) (.load)).2.1, (iss (ldn) (.load)).2.2, 0x0C000000, by decide +kernel⟩,
    ⟨ldf, 65541, (iss (ldf) (.load)).1, (iss (ldf) (.load)).2.1, (iss (ldf) (.load)).2.2, 1, 8, by decide +kernel⟩,
    ⟨sd, 65541, (iss (sd) (.store)).1, (iss (sd) (.store)).2.1, (iss (sd) (.store)).2.2, 0x10000040, by decide +kernel⟩,
    ⟨sdx, 65541, (iss (sdx) (.store)).1, (iss (sdx) (.store)).2.1, (iss (sdx) (.store)).2.2, 9, by decide +kernel⟩,
    ⟨am, 65541, Ecc.clean, (iss (am) (.amo)).1, (iss (am) (.amo)).2.1, (iss (am) (.amo)).2.2, 0x10000040, List.replicate 8 0, (iss am .amo).2.2, 9, by decide +kernel⟩,
    ⟨amx, 65541, (iss (amx) (.amo)).1, (iss (amx) (.amo)).2.1, (iss (amx) (.amo)).2.2, by decide +kernel⟩,
    ⟨lrs 2 5, 65541, (iss (lrs 2 5) (.lr)).1, (iss (lrs 2 5) (.lr)).2.1, (iss (lrs 2 5) (.lr)).2.2, 0x10000040, List.replicate 8 0, (iss (lrs 2 5) .lr).2.2, by decide +kernel⟩,
    ⟨lrs 2 6, 65541, (iss (lrs 2 6) (.lr)).1, (iss (lrs 2 6) (.lr)).2.1, (iss (lrs 2 6) (.lr)).2.2, by decide +kernel⟩,
    ⟨lrs 3 5 { thr with resv := some 0x10000040 }, 65541, (iss (lrs 3 5 { thr with resv := some 0x10000040 }) (.sc)).1, (iss (lrs 3 5 { thr with resv := some 0x10000040 }) (.sc)).2.1, (iss (lrs 3 5 { thr with resv := some 0x10000040 }) (.sc)).2.2, 0x10000040, by decide +kernel⟩,
    ⟨fen, 65541, (iss (fen) (.fence)).1, (iss (fen) (.fence)).2.1, (iss (fen) (.fence)).2.2, by decide +kernel⟩,
    ⟨fenW, 65541, (iss (fenW) (.fence)).1, (iss (fenW) (.fence)).2.1, (iss (fenW) (.fence)).2.2, by decide +kernel⟩,
    ⟨fenF, 65541, (iss (fenF) (.fence)).1, (iss (fenF) (.fence)).2.1, (iss (fenF) (.fence)).2.2, 26, 5, by decide +kernel⟩,
    ⟨csr, 65541, (iss (csr) (.csr)).1, (iss (csr) (.csr)).2.1, (iss (csr) (.csr)).2.2, 65541, by decide +kernel⟩,
    ⟨csrX, 65541, (iss (csrX) (.csr)).1, (iss (csrX) (.csr)).2.1, (iss (csrX) (.csr)).2.2, by decide +kernel⟩⟩

theorem witness_ThreadsStartAndEnd :
    (∃ (ctx : Nat), ctx < 8192) ∧
    (∃ (s : State) (id : Nat) (p : Pkt) (arg : Nat) (e : Engine) (m : Model) (d : Bytes) (b : Nat) (e1 : Engine) (x : Nat), s.engineUp = true ∧ s.eng.dispatched id 6 = some (p, arg, e) ∧ p.noEval = false ∧ (e.liveOf false).isEmpty = false ∧ e.modelFor p = some m ∧ m.program (arg % 1024) = some d ∧ e.steer false p.fhash = (some b, e1) ∧ e1.coreCtx (32 * b + p.fhash / 8 % 32) = some x) ∧
    (∃ (s : State) (id : Nat) (p : Pkt) (arg : Nat) (e : Engine) (m : Model) (d : Bytes) (b : Nat) (e1 : Engine), s.engineUp = true ∧ s.eng.dispatched id 6 = some (p, arg, e) ∧ p.noEval = false ∧ (e.liveOf false).isEmpty = false ∧ e.modelFor p = some m ∧ m.program (arg % 1024) = some d ∧ byteAt d 12 = 1 ∧ e.steer false p.fhash = (some b, e1) ∧ e1.coreCtx (32 * b + p.fhash / 8 % 32) = none) ∧
    (∃ (s : State) (id : Nat) (p : Pkt) (arg : Nat) (e : Engine) (m : Model) (d : Bytes) (b : Nat) (e1 : Engine) (x : Nat), s.engineUp = true ∧ s.eng.dispatched id 6 = some (p, arg, e) ∧ p.noEval = false ∧ (e.liveOf false).isEmpty = false ∧ e.modelFor p = some m ∧ m.program (arg % 1024) = some d ∧ byteAt d 12 = 2 ∧ e.steer false p.fhash = (some b, e1) ∧ e1.coreCtx (32 * b + p.fhash / 8 % 32) = none ∧ (e1.firstCtx ((List.range 31).map fun i => 32 * b + (p.fhash / 8 % 32 + 1 + i) % 32)) = some x) ∧
    (∃ (s : State) (id : Nat) (p : Pkt) (arg : Nat) (e : Engine), s.engineUp = true ∧ s.eng.dispatched id 6 = some (p, arg, e) ∧ p.noEval = false ∧ (e.liveOf false).isEmpty = false ∧ ((e.modelFor p).bind fun m => m.program (arg % 1024)) = none) ∧
    (∃ (s : State) (id : Nat) (p : Pkt) (arg : Nat) (e : Engine), s.engineUp = true ∧ s.eng.dispatched id 6 = some (p, arg, e) ∧ p.noEval = true) ∧
    (∃ (s : State) (id : Nat) (h : HostRead) (c : Cmd) (m : Model) (d : Bytes) (x : Nat) (b : Bytes) (e1 : Engine), s.engineUp = true ∧ s.eng.startable id 0x60 = some c ∧ c.len = 256 ∧ c.arg 34 1 < 8 ∧ c.arg 35 1 < 32 ∧ c.arg 36 1 % 2 = 0 ∧ (s.eng.started c (32 * c.arg 34 1 + c.arg 35 1)).domOn (c.arg 34 1) = true ∧ s.eng.gft.live = some m ∧ m.program (c.arg 32 2) = some d ∧ (s.eng.started c (32 * c.arg 34 1 + c.arg 35 1)).firstCtx [32 * c.arg 34 1 + c.arg 35 1] = some x ∧ (s.eng.started c (32 * c.arg 34 1 + c.arg 35 1)).cmdData c h = (some b, e1)) ∧
    (∃ (s : State) (id : Nat) (c : Cmd) (m : Model) (d : Bytes), s.engineUp = true ∧ s.eng.startable id 0x60 = some c ∧ c.len = 256 ∧ c.arg 34 1 < 8 ∧ c.arg 35 1 < 32 ∧ (s.eng.started c (32 * c.arg 34 1 + c.arg 35 1)).domOn (c.arg 34 1) = true ∧ s.eng.gft.live = some m ∧ m.program (c.arg 32 2) = some d ∧ (s.eng.started c (32 * c.arg 34 1 + c.arg 35 1)).firstCtx [32 * c.arg 34 1 + c.arg 35 1] = none) ∧
    (∃ (s : State) (id : Nat) (c : Cmd), s.engineUp = true ∧ s.eng.startable id 0x60 = some c ∧ c.len ≠ 256 ∧ c.arg 34 1 < 8 ∧ c.arg 35 1 < 32) ∧
    (∃ (s : State) (id : Nat) (c : Cmd) (t : Thread), s.engineUp = true ∧ s.eng.startable id 0x61 = some c ∧ s.eng.thread (c.arg 32 4) = some t ∧ t.ended = none) ∧
    (∃ (s : State) (id : Nat) (c : Cmd), s.engineUp = true ∧ s.eng.startable id 0x61 = some c ∧ s.eng.thread (c.arg 32 4) = none) ∧
    (∃ (s : State) (id : Nat) (c : Cmd), s.engineUp = true ∧ s.eng.startable id 0x62 = some c ∧ c.len = 8192) ∧
    (∃ (s : State) (tag : Nat) (r : FlgReq) (tid : Nat), s.engineUp = true ∧ s.eng.flg.reqs.find? (fun r => r.tag == tag) = some r ∧ r.owner = .thread tid ∧ r.at_ + s.eng.get Fld.RIL_CFG_REMOTE_TIMEOUT_US * usTicks ≤ s.eng.cyc) ∧
    (∃ (s : State) (tag : Nat) (r : FlgReq) (tid : Nat), s.engineUp = true ∧ s.eng.flg.reqs.find? (fun r => r.tag == tag) = some r ∧ r.owner = .thread tid ∧ s.eng.cyc < r.at_ + s.eng.get Fld.RIL_CFG_REMOTE_TIMEOUT_US * usTicks) ∧
    (∃ (s : State) (tid : Nat) (t : Thread), s.engineUp = true ∧ s.eng.thread tid = some t ∧ (t.st ≠ .ending ∨ t.storesOut = true)) ∧
    (∃ (s : State) (tid : Nat) (t : Thread), s.engineUp = true ∧ s.eng.thread tid = some t ∧ t.st = .ending ∧ t.storesOut = false ∧ t.tickets = [] ∧ t.fault = none) ∧
    (∃ (s : State) (tid : Nat) (t : Thread) (v : Nat) (c : Nat), s.engineUp = true ∧ s.eng.thread tid = some t ∧ t.st = .ending ∧ t.ended = some (.exit v) ∧ t.storesOut = false ∧ t.tickets = [] ∧ t.fault = none ∧ t.waitEnd = some c ∧ t.killers = []) :=
  ⟨⟨1100, by decide +kernel⟩,
    ⟨s6 pm3, 7, (disp (s6 pm3) 6).1, (disp (s6 pm3) 6).2.1, (disp (s6 pm3) 6).2.2, pm3, (pm3.program 0).getD [], (st6 (s6 pm3)).1, (st6 (s6 pm3)).2, 0, by decide +kernel⟩,
    ⟨s6 pm3 full, 7, (disp (s6 pm3 full) 6).1, (disp (s6 pm3 full) 6).2.1, (disp (s6 pm3 full) 6).2.2, pm3, (pm3.program 0).getD [], (st6 (s6 pm3 full)).1, (st6 (s6 pm3 full)).2, by decide +kernel⟩,
    ⟨s6 pm2 full, 7, (disp (s6 pm2 full) 6).1, (disp (s6 pm2 full) 6).2.1, (disp (s6 pm2 full) 6).2.2, pm2, (pm2.program 0).getD [], (st6 (s6 pm2 full)).1, (st6 (s6 pm2 full)).2, 32, by decide +kernel⟩,
    ⟨atStep 6 ep4, 7, (disp (atStep 6 ep4) 6).1, (disp (atStep 6 ep4) 6).2.1, (disp (atStep 6 ep4) 6).2.2, by decide +kernel⟩,
    ⟨s6n, 7, (disp (s6n) 6).1, (disp (s6n) 6).2.1, (disp (s6n) 6).2.2, by decide +kernel⟩,
    ⟨csS, 1, hs1, cs, pm3, (pm3.program 0).getD [], 1088, ((csE csS cs hs1).1.getD []), (csE csS cs hs1).2, by decide +kernel⟩,
    ⟨withC cs (fun e => full1 (tmd pm3 e)), 1, cs, pm3, (pm3.program 0).getD [], by decide +kernel⟩,
    ⟨withC cs8, 1, cs8, by decide +kernel⟩,
    ⟨withC ck (fun e => e.setThread thr), 1, ck, thr, by decide +kernel⟩,
    ⟨withC ck, 1, ck, by decide +kernel⟩,
    ⟨withC cst, 1, cst, by decide +kernel⟩,
    ⟨wq 99000000, 3, rq, 65541, by decide +kernel⟩,
    ⟨wq 0, 3, rq, 65541, by decide +kernel⟩,
    ⟨wend thr, 65541, thr, by decide +kernel⟩,
    ⟨wend en, 65541, en, by decide +kernel⟩,
    ⟨wend ex (fun e => { e with hif := { e.hif with cmds := [cmdOf 0x60] } }), 65541, ex, 7, 1, by decide +kernel⟩⟩

end WitR

namespace WitS

def pm3 : Model := { mdl [(6, 0, natLE 4 16 ++ natLE 4 3 ++ natLE 4 0 ++ natLE 4 1)] with mwBase := 0 }
def tmd (m : Model) : Engine → Engine := fun e => { e with gft := { e.gft with live := some m } }
def thr : Thread := { id := 65541, kind := 0, epoch := 4, limit := 0, pc := 142606336 }
def x0b (op f3 f7 : Nat) : Nat := op + 2 ^ 7 * 3 + 2 ^ 12 * f3 + 2 ^ 15 * 5 + 2 ^ 20 * 6 + 2 ^ 25 * f7
def tt (r5 r6 r7 : Nat) : Thread := { thr with regs := [(5, r5), (6, r6), (7, r7)] }
def tw (w : Nat) (t : Thread) (f : Engine → Engine := id) : State := up fun e => f ((e.store 142606336 (natLE 4 w)).setThread t)
def iss (s : State) (c : RvCls) : Thread × Nat × Engine := (s.eng.issued 65541 c).getD (thr, 0, s.eng)
def ie (s : State) (x : Xm) : Engine := (iss s (.xm x)).2.2
def sc : Nat := 0x10000000
def endS : State := tw (0x0B + 2 ^ 15 * 5) (tt 7 0 0)
def spw (x : Nat) (f : Engine → Engine := id) : State := tw (x0b 0x0B 0 1) (tt sc x 0) fun e => f (tmd pm3 e)
def spe : Engine := ie (spw 1024) .spawn
def spO : State := spw 1024 (domSt 1 { st := .gated })
def slp (d : Nat) : State := tw (0x0B + 2 ^ 15 * 5 + 2 ^ 26) (tt d 0 0)
def slpW (d : Nat) : Thread := { thr with st := .waiting (.sleep d) }
def wn : State := tw (x0b 0x0B 1 28) (tt sc 4 9)
def wnW : Thread := { thr with st := .waiting (.waitne sc 0 9 3) }
def wc (l : Tbl (Option MilDone)) : State := tw (0x0B + 2 ^ 7 * 3 + 2 ^ 15 * 5 + 3 * 2 ^ 25) { tt 1 0 0 with tickets := l }
def don : MilDone := ⟨0x13, 2, 5, 1⟩
def shk : State := tw (x0b 0x0B 2 0) (tt sc (sc + 512) 0)
def shr : State := tw (x0b 0x0B 2 0x10) (tt sc (sc + 512) 0)
def shw : State := tw (x0b 0x0B 2 0x21) (tt sc 77 0)
def ge : Engine := (State.reset.eng.takeRate 3 64 8).getD State.reset.eng
def gs : List (Nat × Nat × Bytes) := [(3, 0, natLE 2 1 ++ List.replicate 30 0), (4, 0, natLE 4 3 ++ List.replicate 60 0)]
def og : State := tw (x0b 0x0B 3 (7 * 4)) (tt sc (sc + 1024) 0) (live gs)
def sec (k i : Nat) : Sect := ((mdl gs).sect k i).getD ⟨0, 0, 0, 0, 0⟩
def og2 : Engine := ((ie og .orcg).takeRate 1 8 8).getD State.reset.eng
def ogR : Option Bytes × Engine := og2.readSect (mdl gs) (sec 3 0) 5 (og2.thrRef 65541) .clean
def ogN : State := tw (x0b 0x0B 3 (7 * 4)) (tt sc (sc + 1024) 0)
def oe (x : Nat) : State := tw (x0b 0x0B 3 (7 * 4 + 1)) (tt sc x 9) (live gs)
def ed : Bytes := natLE 4 3 ++ List.replicate 60 0
def oe2 : Engine := ((ie (oe 0) .orce).takeRate 4 64 8).getD State.reset.eng
def oeV : Option (Nat × Nat) × Engine := ((oe2.orcLeave (.thr 65541)).admitTrees 3).evalEnsemble (mdl gs) ed (List.replicate 256 0) 3 (oe2.thrRef 65541) .clean
def stg : Bytes := natLE 2 1 ++ natLE 2 1 ++ natLE 2 1 ++ natLE 2 0xF100 ++ natLE 2 0x0777 ++ natLE 4 0 ++ natLE 2 0xFFFF ++ natLE 4 0x3F800000 ++ natLE 4 0x3F800000 ++ natLE 4 0 ++ natLE 4 0x3F800000 ++ List.replicate 96 0
def ml (b : Bytes) (t : Tbl (Option MilDone) := []) : State := tw (0x0B + 2 ^ 7 * 3 + 2 ^ 12 * 3 + 2 ^ 15 * 5 + 2 ^ 25 * 2) { tt sc 0 0 with tickets := t } fun e => (e.store sc b).store (sc + 4096) stg
def mlE : Bytes := List.replicate 32 0
def mlJ : Bytes := [0, 0xFF, 0, 1, 0, 0, 0, 0] ++ natLE 8 (sc + 4096) ++ List.replicate 16 0
def mlF : State := ml mlE [(0, none), (1, none), (2, none), (3, none)]
def subm (b : Bytes) : Except MilDone MilJob × Engine := (ie (ml b) .mill).submission (.thread 65541 0) b
def jobv : MilJob := ⟨.thread 65541 0, false, stg, 0, 0, 0, 2, 0xFF⟩
def mj : MilJob := { jobv with quad := 0 }
def mrun : State := up fun e => (e.setThread { thr with tickets := [(0, none)] }).setMilRun 2 (some (.job { jobv with quad := 0 }))
def ev (x : Nat) : State := tw (0x0B + 2 ^ 12 * 4 + 2 ^ 15 * 5 + 2 ^ 20 * 6) (tt sc x 0)
def mk : State := tw (0x0B + 2 ^ 12 * 5 + 2 ^ 15 * 5) (tt 9 0 0)
def at2 (f3 f7 : Nat) : State := tw (x0b 0x2B f3 f7) (tt (sc + 64) 0 9)
def nrw : State := tw (0x2B + 2 ^ 7 * 3 + 2 ^ 12 * 4 + 2 ^ 15 * 5 + 2 ^ 20 * 3) (tt 0x3F800000 0 0)
def nums (f7 r6 : Nat) : State := tw (x0b 0x2B 4 f7) (tt 0x3F800000 r6 0)
def cdq : Nat := 0x3F800000 + 2 ^ 40 * 4

theorem witness_XmelorInstructions :
    (∃ (s : State) (tid : Nat) (t : Thread) (w : Nat) (e : Engine), s.engineUp = true ∧ s.eng.issued tid (.xm .xend) = some (t, w, e)) ∧
    (∃ (s : State) (tid : Nat) (t : Thread) (w : Nat) (e : Engine) (a : Nat) (e1 : Engine) (m : Model) (d : Bytes) (c : Nat), s.engineUp = true ∧ s.eng.issued tid (.xm .spawn) = some (t, w, e) ∧ t.reg (rvRs2 w) < 2 ^ 18 ∧ t.storesOut = false ∧ t.fault = none ∧ e.buffer (t.reg (rvRs1 w)) 256 false = .ok a ∧ e.checkRead (localMem a) a 256 .clean = (false, e1) ∧ e1.domOn (bitsOf (t.reg (rvRs2 w)) 12 10) = true ∧ e1.modelOf t.epoch = some m ∧ m.program (t.reg (rvRs2 w) % 1024) = some d ∧ e1.firstCtx [32 * bitsOf (t.reg (rvRs2 w)) 12 10 + bitsOf (t.reg (rvRs2 w)) 17 13] = some c) ∧
    (∃ (s : State) (tid : Nat) (t : Thread) (w : Nat) (e : Engine) (a : Nat) (e1 : Engine), s.engineUp = true ∧ s.eng.issued tid (.xm .spawn) = some (t, w, e) ∧ t.reg (rvRs2 w) < 2 ^ 18 ∧ t.storesOut = false ∧ t.fault = none ∧ e.buffer (t.reg (rvRs1 w)) 256 false = .ok a ∧ e.checkRead (localMem a) a 256 .clean = (false, e1) ∧ e1.domOn (bitsOf (t.reg (rvRs2 w)) 12 10) = false) ∧
    (∃ (s : State) (tid : Nat) (t : Thread) (w : Nat) (e : Engine), s.engineUp = true ∧ s.eng.issued tid (.xm .spawn) = some (t, w, e) ∧ 2 ^ 19 ≤ t.reg (rvRs2 w)) ∧
    (∃ (s : State) (tid : Nat) (t : Thread) (w : Nat) (e : Engine), s.engineUp = true ∧ s.eng.issued tid (.xm .sleep) = some (t, w, e)) ∧
    (∃ (s : State) (tid : Nat) (t : Thread) (d : Nat), s.engineUp = true ∧ s.eng.thread tid = some t ∧ t.st = .waiting (.sleep d) ∧ d ≤ s.eng.time) ∧
    (∃ (s : State) (tid : Nat) (t : Thread) (d : Nat), s.engineUp = true ∧ s.eng.thread tid = some t ∧ t.st = .waiting (.sleep d) ∧ s.eng.time < d) ∧
    (∃ (s : State) (tid : Nat) (t : Thread) (w : Nat) (e : Engine) (a : Nat), s.engineUp = true ∧ s.eng.issued tid (.xm .waitne) = some (t, w, e) ∧ t.fault = none ∧ e.locate (t.reg (rvRs1 w)) = .here a ∧ a % 8 = 0 ∧ e.accRead a 8 = .ok) ∧
    (∃ (s : State) (tid : Nat) (t : Thread) (a : Nat) (cmp : Nat) (d : Nat) (rd : Nat) (b : Bytes) (e1 : Engine), s.engineUp = true ∧ s.eng.thread tid = some t ∧ t.st = .waiting (.waitne a cmp d rd) ∧ s.eng.localRead a 8 .clean = (some b, e1)) ∧
    (∃ (s : State) (tid : Nat) (t : Thread) (w : Nat) (e : Engine) (d : MilDone), s.engineUp = true ∧ s.eng.issued tid (.xm .waitc) = some (t, w, e) ∧ t.reg (rvRs1 w) < 4 ∧ t.storesOut = false ∧ t.fault = none ∧ Tbl.find t.tickets (t.reg (rvRs1 w)) = some (some d)) ∧
    (∃ (s : State) (tid : Nat) (t : Thread) (w : Nat) (e : Engine), s.engineUp = true ∧ s.eng.issued tid (.xm .waitc) = some (t, w, e) ∧ t.reg (rvRs1 w) < 4 ∧ t.storesOut = false ∧ t.fault = none ∧ Tbl.find t.tickets (t.reg (rvRs1 w)) = some none) ∧
    (∃ (s : State) (tid : Nat) (t : Thread) (w : Nat) (e : Engine), s.engineUp = true ∧ s.eng.issued tid (.xm .waitc) = some (t, w, e) ∧ t.reg (rvRs1 w) < 4 ∧ Tbl.find t.tickets (t.reg (rvRs1 w)) = none) ∧
    (∃ (s : State) (tid : Nat) (t : Thread) (w : Nat) (e : Engine) (a : Nat) (b : Nat) (e1 : Engine), s.engineUp = true ∧ s.eng.issued tid (.xm .shkey) = some (t, w, e) ∧ e.buffer (t.reg (rvRs2 w)) 48 true = .ok b ∧ e.buffer (t.reg (rvRs1 w)) 224 false = .ok a ∧ e.checkRead (localMem a) a 224 .clean = (false, e1)) ∧
    (∃ (s : State) (tid : Nat) (t : Thread) (w : Nat) (e : Engine) (a : Nat) (b : Nat) (e1 : Engine), s.engineUp = true ∧ s.eng.issued tid (.xm .shrd) = some (t, w, e) ∧ rvF7 w = 0x10 ∧ t.storesOut = false ∧ t.fault = none ∧ e.buffer (t.reg (rvRs2 w)) 128 true = .ok b ∧ e.buffer (t.reg (rvRs1 w)) 48 false = .ok a ∧ e.checkRead (localMem a) a 48 .clean = (false, e1)) ∧
    (∃ (s : State) (tid : Nat) (t : Thread) (w : Nat) (e : Engine) (a : Nat) (e1 : Engine), s.engineUp = true ∧ s.eng.issued tid (.xm .shwu) = some (t, w, e) ∧ rvF7 w < 0x24 ∧ t.storesOut = false ∧ t.fault = none ∧ e.buffer (t.reg (rvRs1 w)) 48 false = .ok a ∧ e.checkRead (localMem a) a 48 .clean = (false, e1)) ∧
    (∃ (e : Engine) (e1 : Engine) (t : Thread) (key : Bytes), t.st = .ready ∧ t.home = none ∧ e.homeOf key e.time = e.selfId ∧ e.takeRate 3 64 8 = some e1 ∧ (e1.takeFlow (.thread t.id) key e.time).1 = true) ∧
    (∃ (s : State) (tid : Nat) (t : Thread) (w : Nat) (e : Engine) (a : Nat) (b : Nat) (e1 : Engine) (e2 : Engine) (e3 : Engine) (m : Model) (g : Sect) (im : Bytes), s.engineUp = true ∧ s.eng.issued tid (.xm .orcg) = some (t, w, e) ∧ t.storesOut = false ∧ t.fault = none ∧ t.st = .ready ∧ e.modelOf t.epoch = some m ∧ m.sect 3 (t.reg (rvRs3 w) % 64) = some g ∧ e.buffer (t.reg (rvRs2 w)) 1024 true = .ok b ∧ e.buffer (t.reg (rvRs1 w)) 336 false = .ok a ∧ e.checkRead (localMem a) a 336 .clean = (false, e1) ∧ e1.graderBusy e.time = false ∧ e1.takeRate 1 8 8 = some e2 ∧ e2.readSect m g 5 (e2.thrRef t.id) .clean = (some im, e3)) ∧
    (∃ (s : State) (tid : Nat) (t : Thread) (w : Nat) (e : Engine), s.engineUp = true ∧ s.eng.issued tid (.xm .orcg) = some (t, w, e) ∧ t.storesOut = false ∧ t.fault = none ∧ e.modelOf t.epoch = none) ∧
    (∃ (s : State) (tid : Nat) (t : Thread) (w : Nat) (e : Engine) (a : Nat) (e1 : Engine) (e2 : Engine) (e3 : Engine) (m : Model) (d : Bytes) (v : Nat) (fl : Nat), s.engineUp = true ∧ s.eng.issued tid (.xm .orce) = some (t, w, e) ∧ t.reg (rvRs2 w) < 64 ∧ t.reg (rvRs3 w) < 2 ^ 32 ∧ t.storesOut = false ∧ t.fault = none ∧ e.modelOf t.epoch = some m ∧ Model.ensemble (some m) (t.reg (rvRs2 w)) = some d ∧ e.buffer (t.reg (rvRs1 w)) 1024 false = .ok a ∧ e.checkRead (localMem a) a 1024 .clean = (false, e1) ∧ e1.halves.isEmpty = false ∧ e1.orcTurn (.thr t.id) = true ∧ e1.takeRate 4 64 8 = some e2 ∧ ((e2.orcLeave (.thr t.id)).admitTrees (min (ensTrees d) (t.reg (rvRs3 w)))).evalEnsemble m d ((List.range 256).map fun i => leAt (e1.readMem a 1024) (4 * i) 4) (min (ensTrees d) (t.reg (rvRs3 w))) (e2.thrRef t.id) .clean = (some (v, fl), e3)) ∧
    (∃ (s : State) (tid : Nat) (t : Thread) (w : Nat) (e : Engine), s.engineUp = true ∧ s.eng.issued tid (.xm .orce) = some (t, w, e) ∧ 64 ≤ t.reg (rvRs2 w)) ∧
    (∃ (s : State) (tid : Nat) (t : Thread) (w : Nat) (e : Engine) (a : Nat) (e1 : Engine) (d : MilDone) (e2 : Engine), s.engineUp = true ∧ s.eng.issued tid (.xm .mill) = some (t, w, e) ∧ t.tickets = [] ∧ t.storesOut = false ∧ t.fault = none ∧ e.buffer (t.reg (rvRs1 w)) 32 false = .ok a ∧ e.checkRead (localMem a) a 32 .clean = (false, e1) ∧ e1.submission (.thread t.id 0) (e1.readMem a 32) = (.error d, e2)) ∧
    (∃ (s : State) (tid : Nat) (t : Thread) (w : Nat) (e : Engine) (a : Nat) (e1 : Engine) (j : MilJob) (e2 : Engine) (q : Nat), s.engineUp = true ∧ s.eng.issued tid (.xm .mill) = some (t, w, e) ∧ t.tickets = [] ∧ t.storesOut = false ∧ t.fault = none ∧ e.buffer (t.reg (rvRs1 w)) 32 false = .ok a ∧ e.checkRead (localMem a) a 32 .clean = (false, e1) ∧ e1.submission (.thread t.id 0) (e1.readMem a 32) = (.ok j, e2) ∧ e2.quadFor j.quad = some (some q) ∧ e2.jobCheck j = none) ∧
    (∃ (s : State) (tid : Nat) (t : Thread) (w : Nat) (e : Engine), s.engineUp = true ∧ s.eng.issued tid (.xm .mill) = some (t, w, e) ∧ ([0, 1, 2, 3].all fun k => (Tbl.find t.tickets k).isSome) = true) ∧
    (∃ (s : State) (tid : Nat) (k : Nat), s.engineUp = true ∧ ((s.eng.jobTurn (.thread tid k)).endJob (.thread tid k)).isNone = true) ∧
    (∃ (s : State) (tid : Nat) (k : Nat) (m : Nat) (j : MilJob), s.engineUp = true ∧ s.eng.mil.waiting = [] ∧ s.eng.jobMill (.thread tid k) = some m ∧ s.eng.milRun m = some (.job j) ∧ (((s.eng.setMilRun m none).busy (256 + m)).runJob j).out = none ∧ (((s.eng.setMilRun m none).busy (256 + m)).runJob j).status ≠ 0x10) ∧
    (∃ (s : State) (tid : Nat) (t : Thread) (w : Nat) (e : Engine) (a : Nat) (e1 : Engine), s.engineUp = true ∧ s.eng.issued tid (.xm .emitv) = some (t, w, e) ∧ t.reg (rvRs2 w) < 256 ∧ t.storesOut = false ∧ t.fault = none ∧ e.buffer (t.reg (rvRs1 w)) 32 false = .ok a ∧ e.checkRead (localMem a) a 32 .clean = (false, e1) ∧ leAt (e1.readMem a 32) 16 8 = 0 ∧ leAt (e1.readMem a 32) 24 8 = 0) ∧
    (∃ (s : State) (tid : Nat) (t : Thread) (w : Nat) (e : Engine), s.engineUp = true ∧ s.eng.issued tid (.xm .emitv) = some (t, w, e) ∧ 256 ≤ t.reg (rvRs2 w)) ∧
    (∃ (s : State) (tid : Nat) (t : Thread) (w : Nat) (e : Engine), s.engineUp = true ∧ s.eng.issued tid (.xm .mark) = some (t, w, e) ∧ e.is Fld.GLN_TRACE_CFG_EN = false) ∧
    (∃ (s : State) (tid : Nat) (t : Thread) (w : Nat) (e : Engine) (a : Nat) (e1 : Engine) (d : Bytes), s.engineUp = true ∧ s.eng.issued tid (.xm .casW) = some (t, w, e) ∧ bitsOf w 26 25 = 0 ∧ t.reg (rvRs1 w) < 2 ^ 56 ∧ t.reg (rvRs1 w) % 4 = 0 ∧ e.locate (t.reg (rvRs1 w)) = .here a ∧ e.accWrite a 4 = .ok ∧ e.localRead a 4 .clean = (some d, e1)) ∧
    (∃ (s : State) (tid : Nat) (t : Thread) (w : Nat) (e : Engine) (a : Nat) (e1 : Engine) (d : Bytes), s.engineUp = true ∧ s.eng.issued tid (.xm .casD) = some (t, w, e) ∧ bitsOf w 26 25 = 0 ∧ t.reg (rvRs1 w) < 2 ^ 56 ∧ t.reg (rvRs1 w) % 8 = 0 ∧ e.locate (t.reg (rvRs1 w)) = .here a ∧ e.accWrite a 8 = .ok ∧ e.localRead a 8 .clean = (some d, e1)) ∧
    (∃ (s : State) (tid : Nat) (t : Thread) (w : Nat) (e : Engine) (a : Nat) (e1 : Engine) (d : Bytes), s.engineUp = true ∧ s.eng.issued tid (.xm .saddD) = some (t, w, e) ∧ bitsOf w 26 25 = 0 ∧ t.reg (rvRs1 w) < 2 ^ 56 ∧ t.reg (rvRs1 w) % 8 = 0 ∧ e.locate (t.reg (rvRs1 w)) = .here a ∧ e.accWrite a 8 = .ok ∧ e.localRead a 8 .clean = (some d, e1)) ∧
    (∃ (s : State) (tid : Nat) (t : Thread) (w : Nat) (e : Engine), s.engineUp = true ∧ s.eng.issued tid (.xm .nrw) = some (t, w, e)) ∧
    (∃ (s : State) (tid : Nat) (t : Thread) (w : Nat) (e : Engine), s.engineUp = true ∧ s.eng.issued tid (.xm .qnt) = some (t, w, e) ∧ qntParams (t.reg (rvRs2 w)) = none) ∧
    (∃ (s : State) (tid : Nat) (t : Thread) (w : Nat) (e : Engine) (f : Fmt) (sc : Nat) (z : Nat), s.engineUp = true ∧ s.eng.issued tid (.xm .qnt) = some (t, w, e) ∧ qntParams (t.reg (rvRs2 w)) = some (f, sc, z) ∧ f ≠ .int4 ∧ f ≠ .int8) ∧
    (∃ (s : State) (tid : Nat) (t : Thread) (w : Nat) (e : Engine) (f : Fmt) (sc : Nat) (z : Nat), s.engineUp = true ∧ s.eng.issued tid (.xm .dqt) = some (t, w, e) ∧ qntParams (t.reg (rvRs2 w)) = some (f, sc, z) ∧ f ≠ .k20) ∧
    (∃ (s : State) (tid : Nat) (t : Thread) (w : Nat) (e : Engine) (a : NVal) (b : NVal), s.engineUp = true ∧ s.eng.issued tid (.xm .fadd) = some (t, w, e) ∧ decode .f32 (t.reg (rvRs1 w) % 2 ^ 32) = (a, 0) ∧ decode .f32 (t.reg (rvRs2 w) % 2 ^ 32) = (b, 0)) ∧
    (∃ (s : State) (tid : Nat) (t : Thread) (w : Nat) (e : Engine) (a : NVal) (b : NVal), s.engineUp = true ∧ s.eng.issued tid (.xm .fmul) = some (t, w, e) ∧ decode .f32 (t.reg (rvRs1 w) % 2 ^ 32) = (a, 0) ∧ decode .f32 (t.reg (rvRs2 w) % 2 ^ 32) = (b, 0)) :=
  ⟨⟨endS, 65541, (iss (endS) (.xm .xend)).1, (iss (endS) (.xm .xend)).2.1, (iss (endS) (.xm .xend)).2.2, by decide +kernel⟩,
    ⟨spw 1024, 65541, (iss (spw 1024) (.xm .spawn)).1, (iss (spw 1024) (.xm .spawn)).2.1, (iss (spw 1024) (.xm .spawn)).2.2, sc, spe, pm3, (pm3.program 0).getD [], 1024, by decide +kernel⟩,
    ⟨spO, 65541, (iss (spO) (.xm .spawn)).1, (iss (spO) (.xm .spawn)).2.1, (iss (spO) (.xm .spawn)).2.2, sc, ie spO .spawn, by decide +kernel⟩,
    ⟨spw (2 ^ 19), 65541, (iss (spw (2 ^ 19)) (.xm .spawn)).1, (iss (spw (2 ^ 19)) (.xm .spawn)).2.1, (iss (spw (2 ^ 19)) (.xm .spawn)).2.2, by decide +kernel⟩,
    ⟨slp 9, 65541, (iss (slp 9) (.xm .sleep)).1, (iss (slp 9) (.xm .sleep)).2.1, (iss (slp 9) (.xm .sleep)).2.2, by decide +kernel⟩,
    ⟨up fun e => e.setThread (slpW 0), 65541, slpW 0, 0, by decide +kernel⟩,
    ⟨up fun e => e.setThread (slpW 9), 65541, slpW 9, 9, by decide +kernel⟩,
    ⟨wn, 65541, (iss (wn) (.xm .waitne)).1, (iss (wn) (.xm .waitne)).2.1, (iss (wn) (.xm .waitne)).2.2, sc, by decide +kernel⟩,
    ⟨up fun e => e.setThread wnW, 65541, wnW, sc, 0, 9, 3, List.replicate 8 0, (up fun e => e.setThread wnW).eng, by decide +kernel⟩,
    ⟨wc [(1, some don)], 65541, (iss (wc [(1, some don)]) (.xm .waitc)).1, (iss (wc [(1, some don)]) (.xm .waitc)).2.1, (iss (wc [(1, some don)]) (.xm .waitc)).2.2, don, by decide +kernel⟩,
    ⟨wc [(1, none)], 65541, (iss (wc [(1, none)]) (.xm .waitc)).1, (iss (wc [(1, none)]) (.xm .waitc)).2.1, (iss (wc [(1, none)]) (.xm .waitc)).2.2, by decide +kernel⟩,
    ⟨wc [], 65541, (iss (wc []) (.xm .waitc)).1, (iss (wc []) (.xm .waitc)).2.1, (iss (wc []) (.xm .waitc)).2.2, by decide +kernel⟩,
    ⟨shk, 65541, (iss (shk) (.xm .shkey)).1, (iss (shk) (.xm .shkey)).2.1, (iss (shk) (.xm .shkey)).2.2, sc, sc + 512, ie shk .shkey, by decide +kernel⟩,
    ⟨shr, 65541, (iss (shr) (.xm .shrd)).1, (iss (shr) (.xm .shrd)).2.1, (iss (shr) (.xm .shrd)).2.2, sc, sc + 512, ie shr .shrd, by decide +kernel⟩,
    ⟨shw, 65541, (iss (shw) (.xm .shwu)).1, (iss (shw) (.xm .shwu)).2.1, (iss (shw) (.xm .shwu)).2.2, sc, ie shw .shwu, by decide +kernel⟩,
    ⟨State.reset.eng, ge, thr, List.replicate 48 0, by decide +kernel⟩,
    ⟨og, 65541, (iss (og) (.xm .orcg)).1, (iss (og) (.xm .orcg)).2.1, (iss (og) (.xm .orcg)).2.2, sc, sc + 1024, ie og .orcg, og2, ogR.2, mdl gs, sec 3 0, ogR.1.getD [], by decide +kernel⟩,
    ⟨ogN, 65541, (iss (ogN) (.xm .orcg)).1, (iss (ogN) (.xm .orcg)).2.1, (iss (ogN) (.xm .orcg)).2.2, by decide +kernel⟩,
    ⟨oe 0, 65541, (iss (oe 0) (.xm .orce)).1, (iss (oe 0) (.xm .orce)).2.1, (iss (oe 0) (.xm .orce)).2.2, sc, ie (oe 0) .orce, oe2, oeV.2, mdl gs, ed, (oeV.1.getD (0, 0)).1, (oeV.1.getD (0, 0)).2, by decide +kernel⟩,
    ⟨oe 64, 65541, (iss (oe 64) (.xm .orce)).1, (iss (oe 64) (.xm .orce)).2.1, (iss (oe 64) (.xm .orce)).2.2, by decide +kernel⟩,
    ⟨ml mlE, 65541, (iss (ml mlE) (.xm .mill)).1, (iss (ml mlE) (.xm .mill)).2.1, (iss (ml mlE) (.xm .mill)).2.2, sc, ie (ml mlE) .mill, (⟨1, 0, 0, 0⟩ : MilDone), (subm mlE).2, by decide +kernel⟩,
    ⟨ml mlJ, 65541, (iss (ml mlJ) (.xm .mill)).1, (iss (ml mlJ) (.xm .mill)).2.1, (iss (ml mlJ) (.xm .mill)).2.2, sc, ie (ml mlJ) .mill, jobv, (subm mlJ).2, 0, by decide +kernel⟩,
    ⟨mlF, 65541, (iss (mlF) (.xm .mill)).1, (iss (mlF) (.xm .mill)).2.1, (iss (mlF) (.xm .mill)).2.2, by decide +kernel⟩,
    ⟨up, 65541, 0, by decide +kernel⟩,
    ⟨mrun, 65541, 0, 2, mj, by decide +kernel⟩,
    ⟨ev 5, 65541, (iss (ev 5) (.xm .emitv)).1, (iss (ev 5) (.xm .emitv)).2.1, (iss (ev 5) (.xm .emitv)).2.2, sc, ie (ev 5) .emitv, by decide +kernel⟩,
    ⟨ev 256, 65541, (iss (ev 256) (.xm .emitv)).1, (iss (ev 256) (.xm .emitv)).2.1, (iss (ev 256) (.xm .emitv)).2.2, by decide +kernel⟩,
    ⟨mk, 65541, (iss (mk) (.xm .mark)).1, (iss (mk) (.xm .mark)).2.1, (iss (mk) (.xm .mark)).2.2, by decide +kernel⟩,
    ⟨at2 0 36, 65541, (iss (at2 0 36) (.xm .casW)).1, (iss (at2 0 36) (.xm .casW)).2.1, (iss (at2 0 36) (.xm .casW)).2.2, sc + 64, ie (at2 0 36) .casW, List.replicate 4 0, by decide +kernel⟩,
    ⟨at2 1 36, 65541, (iss (at2 1 36) (.xm .casD)).1, (iss (at2 1 36) (.xm .casD)).2.1, (iss (at2 1 36) (.xm .casD)).2.2, sc + 64, ie (at2 1 36) .casD, List.replicate 8 0, by decide +kernel⟩,
    ⟨at2 2 0, 65541, (iss (at2 2 0) (.xm .saddD)).1, (iss (at2 2 0) (.xm .saddD)).2.1, (iss (at2 2 0) (.xm .saddD)).2.2, sc + 64, ie (at2 2 0) .saddD, List.replicate 8 0, by decide +kernel⟩,
    ⟨nrw, 65541, (iss (nrw) (.xm .nrw)).1, (iss (nrw) (.xm .nrw)).2.1, (iss (nrw) (.xm .nrw)).2.2, by decide +kernel⟩,
    ⟨nums 1 0, 65541, (iss (nums 1 0) (.xm .qnt)).1, (iss (nums 1 0) (.xm .qnt)).2.1, (iss (nums 1 0) (.xm .qnt)).2.2, by decide +kernel⟩,
    ⟨nums 1 cdq, 65541, (iss (nums 1 cdq) (.xm .qnt)).1, (iss (nums 1 cdq) (.xm .qnt)).2.1, (iss (nums 1 cdq) (.xm .qnt)).2.2, Fmt.e5m2, 0x3F800000, 0, by decide +kernel⟩,
    ⟨nums 2 cdq, 65541, (iss (nums 2 cdq) (.xm .dqt)).1, (iss (nums 2 cdq) (.xm .dqt)).2.1, (iss (nums 2 cdq) (.xm .dqt)).2.2, Fmt.e5m2, 0x3F800000, 0, by decide +kernel⟩,
    ⟨nums 3 0x40000000, 65541, (iss (nums 3 0x40000000) (.xm .fadd)).1, (iss (nums 3 0x40000000) (.xm .fadd)).2.1, (iss (nums 3 0x40000000) (.xm .fadd)).2.2, (decode .f32 0x3F800000).1, (decode .f32 0x40000000).1, by decide +kernel⟩,
    ⟨nums 4 0x40000000, 65541, (iss (nums 4 0x40000000) (.xm .fmul)).1, (iss (nums 4 0x40000000) (.xm .fmul)).2.1, (iss (nums 4 0x40000000) (.xm .fmul)).2.2, (decode .f32 0x3F800000).1, (decode .f32 0x40000000).1, by decide +kernel⟩⟩

end WitS

namespace WitT

def lk (p st : Nat) (f : FlgPort → FlgPort := id) : State := up fun e => (e.put (Fld.FLG_PORT_STAT_STATE p) st).setFport p f
def f0 : Bytes := flitBytes (8 + 1 * 32 + 64 + 1 + 2 ^ 20 * 4095) (natLE 2 5)
def gZ : Bytes := List.replicate 2304 0
def f9 : Bytes := flitBytes (8 + 1 * 32 + 64 + 1 + 2 ^ 8 * 9 + 2 ^ 20 * 4095) []
def fOld : Bytes := flitBytes (8 + 1 * 32 + 64 + 1 + 2 ^ 8 * 4090 + 2 ^ 20 * 4095) []
def l3 : Engine := (lk 2 3).eng
def h0 (f : Bytes) : Nat := leAt f 0 8
def rtr (c t : Nat) : State := up fun e => { ((e.put (Fld.FLG_PORT_STAT_STATE 2) 3).setFport 2 fun q => { q with retrain := some t, ctrl := [(5, [1])] }) with cyc := c }
def trn : Engine → Engine := fun e => ((((e.wr Reg.FLG_BASIC (77 + 2 ^ 32 * 4 + 2 ^ 40 + 2 ^ 48)).put (Fld.FLG_PORT_CFG_ROLE 2) 1).put (Fld.FLG_PORT_CFG_EN 2) 1).put (Fld.FLG_PORT_STAT_STATE 2) 2)
def rec0 (q : Nat) (v : Nat := 1) : Bytes := ([1, 3, 2, BitVec.ofNat 8 v, BitVec.ofNat 8 v, 4, 1, 1] : Bytes) ++ natLE 4 77 ++ natLE 2 1 ++ [BitVec.ofNat 8 q, 0] ++ natLE 4 (trn State.reset.eng).cfgHash ++ List.replicate 8 0 ++ List.replicate 8 16 ++ natLE 2 0
def trS (b : Bytes) : State := up fun e => (trn e).setFport 2 fun q => { q with ctrl := [(5, b)] }
def trE : Engine := (trn State.reset.eng).setFport 2 fun q => { q with ctrl := [] }
def det : State := up fun e => { trn e with phys := { e.phys with cable := List.replicate 8 true } }
def at1 (st : Nat) (c : Nat) : State := up fun e => { (trn e).put (Fld.FLG_PORT_STAT_STATE 2) st with cyc := c }

theorem gfMul_zero (a : Nat) : gfMul 0 a = 0 := by simp [gfMul, List.range_succ, gfX]

theorem foldl_gf_zero (a n : Nat) : (List.replicate n 0).foldl (fun s b => gfMul s a ^^^ b) 0 = 0 := by
  induction n with
  | zero => rfl
  | succ n ih => simp [List.replicate_succ, gfMul_zero, ih]

theorem rsDecode_zero (n : Nat) : rsDecode (List.replicate n 0) = some (List.replicate n 0, 0) := by
  have h : (rsSyndromes (List.replicate n 0)).all (· == 0) = true := by simp [rsSyndromes, foldl_gf_zero]
  simp only [rsDecode, h, if_true]

theorem byteAt_zero (n k : Nat) : byteAt (List.replicate n 0) k = 0 := by
  simp [byteAt, List.getD_eq_getElem?_getD, List.getElem?_replicate]; split <;> rfl

theorem gZ_length : gZ.length = 2304 := List.length_replicate

theorem gZ_symbols (i : Nat) : ((List.range 144).map fun j => byteAt gZ (i + 16 * j)) = List.replicate 144 0 := by
  rw [List.eq_replicate_iff]
  refine ⟨by rw [List.length_map, List.length_range], fun b hb => ?_⟩
  obtain ⟨j, -, rfl⟩ := List.mem_map.1 hb
  exact byteAt_zero 2304 _

/-- A group of zero bytes has no error. -/
theorem groupFlits_zero : groupFlits gZ = ((groupFlits gZ).1, 0, false) := by
  refine Prod.ext rfl ?_
  unfold groupFlits
  simp only [gZ_symbols, rsDecode_zero, List.map_const', List.length_range]
  decide +kernel

theorem witness_LinksTrainAndRetry :
    (∃ (s : State) (p : Nat) (g : Bytes), s.engineUp = true ∧ (8 ≤ p ∨ g.length ≠ 2304 ∨ s.eng.fstate p < 2 ∨ s.eng.fstate p = 5)) ∧
    (∃ (s : State) (p : Nat) (g : Bytes) (fs : List Bytes), s.engineUp = true ∧ p < 8 ∧ g.length = 2304 ∧ s.eng.fstate p = 3 ∧ groupFlits g = (fs, 0, false)) ∧
    (∃ (e : Engine) (p : Nat) (f : Bytes), crc64 (slice f 0 248) ≠ leAt f 248 8 ∧ e.fstate p = 3 ∧ (e.fport p).retrain = none) ∧
    (∃ (e : Engine) (e1 : Engine) (p : Nat) (f : Bytes), crc64 (slice f 0 248) = leAt f 248 8 ∧ leAt f 0 8 < 2 ^ 43 ∧ bitsOf (leAt f 0 8) 4 3 = 1 ∧ e.fstate p = 3 ∧ e.flitNotices p (leAt f 0 8) = e1 ∧ e1.fcarries p (bitsOf (leAt f 0 8) 1 0) = true ∧ (e1.fport p).rxExp = bitsOf (leAt f 0 8) 19 8) ∧
    (∃ (e : Engine) (e1 : Engine) (p : Nat) (f : Bytes), crc64 (slice f 0 248) = leAt f 248 8 ∧ leAt f 0 8 < 2 ^ 43 ∧ bitsOf (leAt f 0 8) 4 3 = 1 ∧ e.fstate p = 3 ∧ e.flitNotices p (leAt f 0 8) = e1 ∧ e1.fcarries p (bitsOf (leAt f 0 8) 1 0) = true ∧ 2048 < ((e1.fport p).rxExp + 4096 - bitsOf (leAt f 0 8) 19 8) % 4096 ∧ (e1.fport p).discarding = false) ∧
    (∃ (e : Engine) (e1 : Engine) (p : Nat) (f : Bytes), crc64 (slice f 0 248) = leAt f 248 8 ∧ leAt f 0 8 < 2 ^ 43 ∧ bitsOf (leAt f 0 8) 4 3 = 1 ∧ e.fstate p = 3 ∧ e.flitNotices p (leAt f 0 8) = e1 ∧ (e1.fport p).rxExp ≠ bitsOf (leAt f 0 8) 19 8 ∧ ((e1.fport p).rxExp + 4096 - bitsOf (leAt f 0 8) 19 8) % 4096 ≤ 2048) ∧
    (∃ (s : State) (p : Nat), s.engineUp = true ∧ (s.eng.fport p).nak = none) ∧
    (∃ (s : State) (p : Nat) (n : Nat), s.engineUp = true ∧ (s.eng.fport p).nak = some n) ∧
    (∃ (s : State) (p : Nat), s.engineUp = true ∧ p < 8 ∧ s.eng.canRetrain p = true) ∧
    (∃ (s : State) (p : Nat), s.engineUp = true ∧ s.eng.canRetrain p = true ∧ 16 ≤ (s.eng.fport p).nakRun) ∧
    (∃ (s : State) (p : Nat), s.engineUp = true ∧ (s.eng.fport p).nakRun < 16 ∧ (s.eng.fport p).nakTimes.length < 64) ∧
    (∃ (s : State) (p : Nat) (t : Nat), s.engineUp = true ∧ (s.eng.fport p).retrain = some t ∧ t + 2500000 < s.eng.cyc) ∧
    (∃ (s : State) (p : Nat) (t : Nat) (stamp : Nat) (b : Bytes) (e1 : Engine), s.engineUp = true ∧ (s.eng.fport p).retrain = some t ∧ s.eng.cyc ≤ t + 2500000 ∧ s.eng.takeCtrl p 1 = some ((stamp, b), e1)) ∧
    (∃ (s : State) (p : Nat), s.engineUp = true ∧ (s.eng.fport p).retrain = none) ∧
    (∃ (s : State) (p : Nat), s.engineUp = true ∧ s.eng.fstate p = 1 ∧ s.eng.portWanted p = true ∧ s.eng.phys.cable.getD p false = true) ∧
    (∃ (s : State) (p : Nat), s.engineUp = true ∧ (s.eng.fstate p ≠ 1 ∨ s.eng.portWanted p = false)) ∧
    (∃ (s : State) (p : Nat), s.engineUp = true ∧ s.eng.fstate p = 2 ∧ (s.eng.fport p).since + 625000000 ≤ s.eng.cyc) ∧
    (∃ (s : State) (p : Nat), s.engineUp = true ∧ s.eng.cyc < (s.eng.fport p).since + 625000000) ∧
    (∃ (s : State) (p : Nat), s.engineUp = true ∧ s.eng.fstate p = 5 ∧ s.eng.portWanted p = true ∧ (s.eng.fport p).since + 1250000000 ≤ s.eng.cyc) ∧
    (∃ (s : State) (p : Nat), s.engineUp = true ∧ s.eng.cyc < (s.eng.fport p).since + 1250000000) ∧
    (∃ (s : State) (p : Nat), s.engineUp = true ∧ (s.eng.fstate p = 3 ∨ s.eng.fstate p = 4) ∧ (s.eng.fport p).retrain = none ∧ (s.eng.fport p).trainAt + 12500000 ≤ s.eng.cyc) ∧
    (∃ (s : State) (p : Nat) (stamp : Nat) (b : Bytes) (e1 : Engine), s.engineUp = true ∧ p < 8 ∧ s.eng.fstate p = 2 ∧ (s.eng.fport p).retrain = none ∧ s.eng.takeCtrl p 1 = some ((stamp, b), e1) ∧ s.eng.trainReason p b = 0 ∧ byteAt b 14 = 0) ∧
    (∃ (s : State) (p : Nat) (stamp : Nat) (b : Bytes) (e1 : Engine) (r : Nat), s.engineUp = true ∧ p < 8 ∧ s.eng.fstate p = 2 ∧ (s.eng.fport p).retrain = none ∧ s.eng.takeCtrl p 1 = some ((stamp, b), e1) ∧ s.eng.trainReason p b = r ∧ r ≠ 0) ∧
    (∃ (s : State) (p : Nat) (stamp : Nat) (b : Bytes) (e1 : Engine), s.engineUp = true ∧ p < 8 ∧ s.eng.fstate p = 2 ∧ (s.eng.fport p).retrain = none ∧ s.eng.takeCtrl p 1 = some ((stamp, b), e1) ∧ s.eng.trainReason p b = 0 ∧ byteAt b 14 ≠ 0) ∧
    (∃ (s : State), s.engineUp = true ∧ s.pcieUp = true ∧ s.eng.pends 15 = false) ∧
    (∃ (e : Engine) (v : Nat), e.idInside (v % 2 ^ 14) = false) ∧
    (∃ (e : Engine) (p : Nat) (v : Nat), p < 8 ∧ e.rd (Reg.FLG_PORT_CFG p) = v % 16 ∧ e.inLattice = false) :=
  ⟨⟨up, 2, ([] : Bytes), by decide +kernel⟩,
    ⟨lk 2 3, 2, gZ, (groupFlits gZ).1, by exact ⟨by decide +kernel, by decide +kernel, gZ_length, by decide +kernel, groupFlits_zero⟩⟩,
    ⟨l3, 2, List.replicate 256 1, by decide +kernel⟩,
    ⟨l3, l3.flitNotices 2 (h0 f0), 2, f0, by decide +kernel⟩,
    ⟨l3, l3.flitNotices 2 (h0 f9), 2, f9, by decide +kernel⟩,
    ⟨l3, l3.flitNotices 2 (h0 fOld), 2, fOld, by decide +kernel⟩,
    ⟨lk 2 3, 2, by decide +kernel⟩,
    ⟨lk 2 3 (fun q => { q with nak := some 4, replay := [(5, ⟨0, 0, true, true, []⟩)] }), 2, 4, by decide +kernel⟩,
    ⟨lk 2 3 (fun q => { q with replay := [(5, ⟨0, 0, true, true, []⟩)] }), 2, by decide +kernel⟩,
    ⟨lk 2 3 (fun q => { q with nakRun := 16 }), 2, by decide +kernel⟩,
    ⟨lk 2 3, 2, by decide +kernel⟩,
    ⟨rtr 2500001 0, 2, 0, by decide +kernel⟩,
    ⟨rtr 2500000 0, 2, 0, 5, ([1] : Bytes), (rtr 2500000 0).eng.setFport 2 fun q => { q with ctrl := [] }, by decide +kernel⟩,
    ⟨lk 2 3, 2, by decide +kernel⟩,
    ⟨{ det with eng := det.eng.put (Fld.FLG_PORT_STAT_STATE 2) 1 }, 2, by decide +kernel⟩,
    ⟨det, 2, by decide +kernel⟩,
    ⟨at1 2 625000000, 2, by decide +kernel⟩,
    ⟨at1 2 624999999, 2, by decide +kernel⟩,
    ⟨at1 5 1250000000, 2, by decide +kernel⟩,
    ⟨at1 5 1249999999, 2, by decide +kernel⟩,
    ⟨at1 3 12500000, 2, by decide +kernel⟩,
    ⟨trS (rec0 0), 2, 5, rec0 0, trE, by decide +kernel⟩,
    ⟨trS (rec0 0 2), 2, 5, rec0 0 2, trE, 1, by decide +kernel⟩,
    ⟨trS (rec0 3), 2, 5, rec0 3, trE, by decide +kernel⟩,
    ⟨up, by decide +kernel⟩,
    ⟨(up fun e => e.wr Reg.FLG_BASIC (2 ^ 32 + 2 ^ 40 + 2 ^ 48)).eng, 5, by decide +kernel⟩,
    ⟨State.reset.eng, 2, 0, by decide +kernel⟩⟩

end WitT

namespace WitU

def msg (op : Nat) (a d : Bytes) (vc : Nat := 0) : FlgMsg := { id := 3, port := 0, vc := vc, cls := 0, flits := 1, src := 1, op := op, tag := 9, arg := a, data := d, buffered := false, at_ := 0 }
def withM (m : FlgMsg) (f : Engine → Engine := id) : State := up fun e => { f e with flg := { (f e).flg with inbox := [m] } }
def rdA : Bytes := natLE 8 (0x10000000 + 2 ^ 42 * 3)
def wrA : Bytes := natLE 8 (0x10000000 + 2 ^ 42 * 3 + 2 ^ 48)
def noR : Bytes := natLE 8 (0x0C000000 + 2 ^ 42 * 3)
def mrd : FlgMsg := msg 1 rdA []
def mrx : FlgMsg := msg 1 noR []
def mwr : FlgMsg := msg 2 rdA (natLE 8 77)
def mwx : FlgMsg := msg 2 noR (natLE 8 77)
def mam : FlgMsg := msg 3 rdA (natLE 8 77)
def mfe : FlgMsg := msg 0x10 (natLE 4 6 ++ [0, 0, 0, 0]) (List.replicate 76 0)
def te (s : State) : Engine := (s.eng.takeRate 3 64 8).getD s.eng
def fe : Option Fetched × Engine := (te (withM mfe)).sheafFetch mfe.holder (List.replicate 48 0) 0 (List.replicate 16 0) false true .clean
def ff : Fetched := fe.1.getD .none
def fh : Bool × Bytes × Engine := fe.2.homeHistory (List.replicate 48 0) ff
def mco : FlgMsg := msg 0x11 (natLE 4 6 ++ [0, 0, 0, 0]) (List.replicate 76 0)
def shv : Sheaf := { key := List.replicate 48 0, tier := 0, gWay := some 0, sWay := some 0, lWay := none }
def cst : State := withM mco (fun e => { e with shf := { e.shf with sheaves := [shv], holds := [(List.replicate 48 0, .remote 1 6)] } })
def mre (r : Nat) : FlgMsg := msg 0x12 (natLE 4 6 ++ natLE 4 r) []
def hres : HeldRes := ⟨1, 6, true, 0⟩
def mins : FlgMsg := msg 0x13 (natLE 4 0 ++ natLE 1 0x10 ++ natLE 3 0) (List.replicate 56 0)
def req (op : Nat) (o : ReqOwner) : FlgReq := ⟨9, 1, op, o, 0⟩
def thr (k : ThrReqKind) : Thread := { id := 65541, kind := 0, epoch := 4, limit := 0, pc := 142606336, st := .waiting (.remote 9), reqs := [⟨9, 5, k⟩] }
def rsp (m : FlgMsg) (r : FlgReq) (f : Engine → Engine := id) : State := up fun e => { f e with flg := { (f e).flg with inbox := [m], reqs := [r] } }
def trsp (op : Nat) (d : Bytes) (k : ThrReqKind) : State := rsp (msg (op + 0x80) [4] d 1) (req op (.thread 65541)) fun e => e.setThread (thr k)
def ldK : ThrReqKind := .load 8 3 false
def amK : ThrReqKind := .amo 8 3
def shK : ThrReqKind := .sheaf 3 0x10000000 8
def mfr : FlgMsg := msg 0x90 (natLE 8 0) (List.replicate 640 0) 1
def pq : Pkt := { ep4 with shf := some { key := [1], tag := some 9 } }
def mak : FlgMsg := msg 0x91 (natLE 8 0) [] 1
def mna : FlgMsg := msg 0xFE (natLE 8 1) [] 1
def fS (f : Flg → Flg) (c : Nat := 0) (g : Engine → Engine := id) : State := up fun e => { g e with cyc := c, flg := f (g e).flg }
def lsa1 : Lsa := ⟨7, 0, false, false, [], 0⟩
def inf : LsaInfo := ⟨0, false, false, []⟩
def mls (n : Nat) : FlgMsg := msg 0xC0 (natLE 8 n) [] 2
def mem1 : Engine → Engine := fun e => (e.put (Fld.FLG_PORT_CFG_EN 0) 1).put Fld.FLG_TIME_CFG_ROOT 0
def root : Engine → Engine := fun e => (e.put Fld.FLG_TIME_CFG_ROOT 1).put Fld.FLG_TIME_CFG_SRC 1
def par : Engine → Engine := fun e => (((mem1 e).put Fld.FLG_TIME_STAT_PARENT_VALID 1).put (Fld.FLG_PORT_STAT_STATE 0) 3).put Fld.FLG_TIME_STAT_PARENT 0
def ctr (f : Engine → Engine) (b : Bytes) (g : Flg → Flg := id) : State := up fun e => let e := (f e).setFport 0 fun q => { q with ctrl := [(160, b)] }; { e with flg := g e.flg }
def took (s : State) : Engine := s.eng.setFport 0 fun q => { q with ctrl := [] }
def syb : Bytes := natLE 8 3 ++ natLE 8 100 ++ natLE 8 5000 ++ natLE 8 5050 ++ natLE 8 0
def mlr : FlgMsg := msg 0xC5 (natLE 8 9) [] 2
def lc (op len : Nat) (a : Bytes) : Cmd := cmdOf op len 0 0 0 a

theorem witness_MembersServeEachOther :
    (∃ (s : State) (id : Nat) (ecc : Ecc) (m : FlgMsg) (d : Bytes) (e1 : Engine), s.engineUp = true ∧ s.eng.flgMsg id 1 = some m ∧ bitOf (s.eng.rd Reg.GLB_PEND) 0 = false ∧ s.eng.accRead m.addr m.size = .ok ∧ s.eng.localRead m.addr m.size ecc = (some d, e1)) ∧
    (∃ (s : State) (id : Nat) (m : FlgMsg), s.engineUp = true ∧ s.eng.flgMsg id 1 = some m ∧ bitOf (s.eng.rd Reg.GLB_PEND) 0 = false ∧ s.eng.accRead m.addr m.size ≠ .ok) ∧
    (∃ (s : State) (id : Nat) (m : FlgMsg), s.engineUp = true ∧ s.eng.flgMsg id 2 = some m ∧ bitOf (s.eng.rd Reg.GLB_PEND) 0 = false ∧ s.eng.accWrite m.addr m.size = .ok) ∧
    (∃ (s : State) (id : Nat) (m : FlgMsg), s.engineUp = true ∧ s.eng.flgMsg id 2 = some m ∧ (bitOf (s.eng.rd Reg.GLB_PEND) 0 = true ∨ s.eng.accWrite m.addr m.size ≠ .ok)) ∧
    (∃ (s : State) (id : Nat) (ecc : Ecc) (m : FlgMsg) (d : Bytes) (e1 : Engine) (v : Nat), s.engineUp = true ∧ s.eng.flgMsg id 3 = some m ∧ bitOf (s.eng.rd Reg.GLB_PEND) 0 = false ∧ s.eng.accWrite m.addr m.size = .ok ∧ m.addr % m.size = 0 ∧ s.eng.localRead m.addr m.size ecc = (some d, e1) ∧ amoNew (byteAt m.arg 6) m.size (leNat d) (leAt m.data 0 m.size) (leAt m.data m.size m.size) = some v) ∧
    (∃ (s : State) (id : Nat) (ecc : Ecc) (m : FlgMsg) (e1 : Engine) (f : Fetched) (e2 : Engine) (e3 : Engine) (no : Bool) (hist : Bytes), s.engineUp = true ∧ s.eng.flgMsg id 0x10 = some m ∧ bitOf (s.eng.rd Reg.GLB_PEND) 0 = false ∧ s.eng.takeRate 3 64 8 = some e1 ∧ e1.sheafFetch m.holder (slice m.data 0 48) (leAt m.data 48 8) (slice m.data 60 16) (bitOf (byteAt m.arg 4) 3) (!bitOf (byteAt m.arg 4) 4) ecc = (some f, e2) ∧ e2.homeHistory (slice m.data 0 48) f = (no, hist, e3)) ∧
    (∃ (s : State) (id : Nat) (m : FlgMsg), s.engineUp = true ∧ s.eng.flgMsg id 0x10 = some m ∧ bitOf (s.eng.rd Reg.GLB_PEND) 0 = false ∧ s.eng.takeRate 3 64 8 = none) ∧
    (∃ (s : State) (id : Nat) (m : FlgMsg) (e1 : Engine), s.engineUp = true ∧ s.eng.flgMsg id 0x11 = some m ∧ bitOf (s.eng.rd Reg.GLB_PEND) 0 = false ∧ s.eng.takeRate 3 64 8 = some e1 ∧ bitOf (byteAt m.arg 4) 2 = false ∧ ((e1.sheafCommit m.holder (slice m.data 0 48) (leAt m.data 48 8) (leAt m.arg 6 2) (slice m.data 60 16) (bitOf (byteAt m.arg 4) 0) (bitOf (byteAt m.arg 4) 1) none (!bitOf (byteAt m.arg 4) 3) (e1.modelOf (leAt m.data 56 4))).map fun x => x.2).isSome = true) ∧
    (∃ (s : State) (id : Nat) (m : FlgMsg), s.engineUp = true ∧ s.eng.flgMsg id 0x12 = some m ∧ ((s.eng.freeMsg m).undoSheaf m.holder).isNone = true ∧ ((s.eng.freeMsg m).shf.holds.any fun x => x.2 == m.holder) = false) ∧
    (∃ (s : State) (id : Nat) (m : FlgMsg), s.engineUp = true ∧ s.eng.flgMsg id 0x12 = some m ∧ ((s.eng.freeMsg m).shf.holds.any fun x => x.2 == m.holder) = true ∧ (s.eng.freeMsg m).shPending m.holder = false ∧ byteAt m.arg 4 = 0) ∧
    (∃ (s : State), s.engineUp = true) ∧
    (∃ (s : State) (id : Nat) (m : FlgMsg) (e1 : Engine), s.engineUp = true ∧ s.eng.flgMsg id 0x13 = some m ∧ bitOf (s.eng.rd Reg.GLB_PEND) 0 = false ∧ s.eng.takeRate 3 64 8 = some e1 ∧ (e1.takeFlow (.remote m.src (2 ^ 32 + m.tag)) (slice m.data 0 48) m.at_).1 = true) ∧
    (∃ (s : State) (id : Nat) (m : FlgMsg) (r : FlgReq) (tid : Nat) (t : Thread) (q : ThrReq) (n : Nat) (rd : Nat) (signed : Bool), s.engineUp = true ∧ s.eng.flgMsg id 0x81 = some m ∧ (s.eng.freeMsg m).flg.reqs.find? (fun r => r.tag == m.tag && r.dst == m.src && (r.op == 1)) = some r ∧ r.owner = .thread tid ∧ ((s.eng.freeMsg m).dropReq r.tag).thread tid = some t ∧ t.req r.tag = some q ∧ q.kind = .load n rd signed ∧ t.st = .waiting (.remote r.tag)) ∧
    (∃ (s : State) (id : Nat) (m : FlgMsg) (r : FlgReq) (tid : Nat) (t : Thread) (q : ThrReq), s.engineUp = true ∧ s.eng.flgMsg id 0x82 = some m ∧ (s.eng.freeMsg m).flg.reqs.find? (fun r => r.tag == m.tag && r.dst == m.src && (r.op == 2)) = some r ∧ r.owner = .thread tid ∧ ((s.eng.freeMsg m).dropReq r.tag).thread tid = some t ∧ t.req r.tag = some q ∧ q.kind = .store) ∧
    (∃ (s : State) (id : Nat) (m : FlgMsg) (r : FlgReq) (tid : Nat) (t : Thread) (q : ThrReq) (n : Nat) (rd : Nat), s.engineUp = true ∧ s.eng.flgMsg id 0x83 = some m ∧ (s.eng.freeMsg m).flg.reqs.find? (fun r => r.tag == m.tag && r.dst == m.src && (r.op == 3)) = some r ∧ r.owner = .thread tid ∧ ((s.eng.freeMsg m).dropReq r.tag).thread tid = some t ∧ t.req r.tag = some q ∧ q.kind = .amo n rd ∧ t.st = .waiting (.remote r.tag)) ∧
    (∃ (s : State) (id : Nat) (m : FlgMsg) (r : FlgReq) (tid : Nat) (t : Thread) (q : ThrReq) (rd : Nat) (buf : Nat) (len : Nat), s.engineUp = true ∧ s.eng.flgMsg id 0x93 = some m ∧ (s.eng.freeMsg m).flg.reqs.find? (fun r => r.tag == m.tag && r.dst == m.src && (r.op == 0x13)) = some r ∧ r.owner = .thread tid ∧ ((s.eng.freeMsg m).dropReq r.tag).thread tid = some t ∧ t.req r.tag = some q ∧ q.kind = .sheaf rd buf len ∧ t.st = .waiting (.remote r.tag) ∧ m.data ≠ []) ∧
    (∃ (s : State) (id : Nat) (m : FlgMsg) (r : FlgReq) (p : Pkt) (q : PShf) (pk : Nat), s.engineUp = true ∧ s.eng.flgMsg id 0x90 = some m ∧ (s.eng.freeMsg m).flg.reqs.find? (fun r => r.tag == m.tag && r.dst == m.src && (r.op == 0x10)) = some r ∧ r.owner = .fetch pk ∧ ((s.eng.freeMsg m).dropReq r.tag).waitingPkt pk = some (p, q) ∧ byteAt m.arg 0 = 0) ∧
    (∃ (s : State) (id : Nat) (m : FlgMsg) (r : FlgReq) (pk : Nat), s.engineUp = true ∧ s.eng.flgMsg id 0x91 = some m ∧ (s.eng.freeMsg m).flg.reqs.find? (fun r => r.tag == m.tag && r.dst == m.src && (r.op == 0x11)) = some r ∧ r.owner = .commit pk ∧ ((s.eng.freeMsg m).dropReq r.tag).waitingPkt pk = none) ∧
    (∃ (s : State) (id : Nat) (m : FlgMsg) (r : FlgReq) (tid : Nat), s.engineUp = true ∧ s.eng.flgMsg id 0xFE = some m ∧ (s.eng.freeMsg m).flg.reqs.find? (fun r => r.tag == m.tag && r.dst == m.src) = some r ∧ r.owner = .thread tid) ∧
    (∃ (s : State) (id : Nat) (m : FlgMsg), s.engineUp = true ∧ s.eng.flgMsg id 0x81 = some m ∧ (s.eng.freeMsg m).flg.reqs = []) :=
  ⟨⟨withM mrd, 3, Ecc.clean, mrd, List.replicate 8 0, (withM mrd).eng, by decide +kernel⟩,
    ⟨withM mrx, 3, mrx, by decide +kernel⟩,
    ⟨withM mwr, 3, mwr, by decide +kernel⟩,
    ⟨withM mwx, 3, mwx, by decide +kernel⟩,
    ⟨withM mam, 3, Ecc.clean, mam, List.replicate 8 0, (withM mam).eng, 77, by decide +kernel⟩,
    ⟨withM mfe, 3, Ecc.clean, mfe, te (withM mfe), ff, fe.2, fh.2.2, fh.1, fh.2.1, by decide +kernel⟩,
    ⟨withM mfe (fun e => { e with used := [(3, 64)] }), 3, mfe, by decide +kernel⟩,
    ⟨cst, 3, mco, te cst, by decide +kernel⟩,
    ⟨withM (mre 0), 3, mre 0, by decide +kernel⟩,
    ⟨withM (mre 0) (fun e => { e with shf := { e.shf with holds := [([], .remote 1 6)] } }), 3, mre 0, by decide +kernel⟩,
    ⟨up (fun e => { e with cyc := 99000000000, shf := { e.shf with heldRes := [hres] } }), by decide +kernel⟩,
    ⟨withM mins, 3, mins, te (withM mins), by decide +kernel⟩,
    ⟨trsp 1 (natLE 8 5) ldK, 3, msg 0x81 [4] (natLE 8 5) 1, req 1 (.thread 65541), 65541, thr ldK, (⟨9, 5, ldK⟩ : ThrReq), 8, 3, false, by decide +kernel⟩,
    ⟨trsp 2 [] .store, 3, msg 0x82 [4] [] 1, req 2 (.thread 65541), 65541, thr .store, (⟨9, 5, .store⟩ : ThrReq), by decide +kernel⟩,
    ⟨trsp 3 (natLE 8 5) amK, 3, msg 0x83 [4] (natLE 8 5) 1, req 3 (.thread 65541), 65541, thr amK, (⟨9, 5, amK⟩ : ThrReq), 8, 3, by decide +kernel⟩,
    ⟨trsp 0x13 (natLE 8 5) shK, 3, msg 0x93 [4] (natLE 8 5) 1, req 0x13 (.thread 65541), 65541, thr shK, (⟨9, 5, shK⟩ : ThrReq), 3, 0x10000000, 8, by decide +kernel⟩,
    ⟨rsp mfr (req 0x10 (.fetch 7)) (fun e => { e with pkts := [pq] }), 3, mfr, req 0x10 (.fetch 7), pq, ({ key := [1], tag := some 9 } : PShf), 7, by decide +kernel⟩,
    ⟨rsp mak (req 0x11 (.commit 7)), 3, mak, req 0x11 (.commit 7), 7, by decide +kernel⟩,
    ⟨rsp mna (req 1 (.thread 65541)) (fun e => e.setThread (thr ldK)), 3, mna, req 1 (.thread 65541), 65541, by decide +kernel⟩,
    ⟨withM (msg 0x81 [] [] 1), 3, msg 0x81 [] [] 1, by decide +kernel⟩⟩

theorem witness_LatticeKeepsRoutesAndTime :
    (∃ (s : State), s.engineUp = true ∧ s.eng.flg.lsaDue = false ∧ s.eng.cyc < s.eng.flg.lsaAt + 1250000000) ∧
    (∃ (s : State), s.engineUp = true ∧ (s.eng.flg.lsaDue = true ∨ s.eng.flg.lsaAt + 1250000000 ≤ s.eng.cyc) ∧ s.eng.lsaPorts = []) ∧
    (∃ (s : State) (id : Nat) (m : FlgMsg) (l : Lsa), s.engineUp = true ∧ s.eng.flgMsg id 0xC0 = some m ∧ Tbl.find (s.eng.freeMsg m).flg.lsas m.src = some l ∧ seqNewer (leAt m.arg 0 4) l.seq = false) ∧
    (∃ (s : State) (id : Nat) (m : FlgMsg) (info : LsaInfo), s.engineUp = true ∧ s.eng.flgMsg id 0xC0 = some m ∧ m.src ≠ (s.eng.freeMsg m).selfId ∧ Tbl.find (s.eng.freeMsg m).flg.lsas m.src = none ∧ info.root = false ∧ (s.eng.freeMsg m).lsaPorts = []) ∧
    (∃ (s : State) (m : Nat) (l : Lsa), s.engineUp = true ∧ Tbl.find s.eng.flg.lsas m = some l ∧ l.at_ + 3750000000 ≤ s.eng.cyc ∧ s.eng.flg.reach.contains m = true) ∧
    (∃ (s : State) (m : Nat) (l : Lsa), s.engineUp = true ∧ Tbl.find s.eng.flg.lsas m = some l ∧ s.eng.cyc < l.at_ + 3750000000) ∧
    (∃ (s : State), s.engineUp = true ∧ s.eng.flg.routesDue = none) ∧
    (∃ (s : State) (t : Nat), s.engineUp = true ∧ s.eng.flg.routesDue = some t) ∧
    (∃ (e : Engine) (mg : Bool) (r : Route), e.routeTo mg e.selfId = some r) ∧
    (∃ (s : State), s.engineUp = true ∧ (s.eng.is Fld.FLG_TIME_CFG_ROOT = true ∨ s.eng.is Fld.FLG_TIME_STAT_PARENT_VALID = false ∨ s.eng.cyc < s.eng.flg.syncAt + 1250000)) ∧
    (∃ (s : State), s.engineUp = true ∧ s.eng.is Fld.FLG_TIME_CFG_ROOT = false ∧ s.eng.is Fld.FLG_TIME_STAT_PARENT_VALID = true ∧ s.eng.fstate (s.eng.get Fld.FLG_TIME_STAT_PARENT) = 3 ∧ (s.eng.fport (s.eng.get Fld.FLG_TIME_STAT_PARENT)).retrain = none ∧ s.eng.flg.syncAt + 1250000 ≤ s.eng.cyc) ∧
    (∃ (s : State) (p : Nat) (t2 : Nat) (b : Bytes) (e1 : Engine), s.engineUp = true ∧ s.eng.takeCtrl p 2 = some ((t2, b), e1) ∧ s.eng.is Fld.FLG_TIME_CFG_ROOT = true) ∧
    (∃ (s : State) (p : Nat) (t4 : Nat) (b : Bytes) (e1 : Engine) (off : Int), s.engineUp = true ∧ s.eng.takeCtrl p 3 = some ((t4, b), e1) ∧ s.eng.is Fld.FLG_TIME_CFG_ROOT = false ∧ s.eng.is Fld.FLG_TIME_STAT_PARENT_VALID = true ∧ p = s.eng.get Fld.FLG_TIME_STAT_PARENT ∧ int64 b 32 - (((leAt b 16 8 : Int) - (leAt b 8 8 : Int)) - ((t4 : Int) - (leAt b 24 8 : Int))) / 2 = off) ∧
    (∃ (e : Engine) (off : Int), e.is Fld.FLG_TIME_CFG_ROOT = false ∧ e.inLattice = true ∧ e.flg.outRun = 2 ∧ 4000 < off.natAbs) ∧
    (∃ (e : Engine) (off : Int), e.is Fld.FLG_TIME_CFG_ROOT = false ∧ e.inLattice = true ∧ e.flg.inRun = 2 ∧ off.natAbs ≤ 2000) ∧
    (∃ (s : State), s.engineUp = true ∧ s.eng.is Fld.FLG_TIME_CFG_ROOT = false ∧ s.eng.inLattice = true ∧ s.eng.flg.rspAt + 12500000 ≤ s.eng.cyc) ∧
    (∃ (s : State), s.engineUp = true ∧ (s.eng.is Fld.FLG_TIME_CFG_ROOT = true ∨ s.eng.inLattice = false ∨ s.eng.cyc < s.eng.flg.rspAt + 12500000)) ∧
    (∃ (s : State), s.engineUp = true ∧ s.eng.is Fld.FLG_TIME_CFG_ROOT = true ∧ s.eng.get Fld.FLG_TIME_CFG_SRC = 1 ∧ s.eng.flg.ppsLost = false ∧ s.eng.flg.ppsAt + 2500000000 ≤ s.eng.cyc) ∧
    (∃ (s : State) (id : Nat) (m : FlgMsg), s.engineUp = true ∧ s.eng.flgMsg id 0xC5 = some m ∧ s.eng.time ≤ leNat m.arg ∧ (s.eng.freeMsg m).time = s.eng.time) ∧
    (∃ (s : State) (id : Nat) (c : Cmd), s.engineUp = true ∧ s.eng.startable id 0x81 = some c ∧ c.arg 40 8 < c.at_ + 1250000) ∧
    (∃ (s : State) (id : Nat) (c : Cmd), s.engineUp = true ∧ s.eng.startable id 0x81 = some c ∧ c.at_ + 1250000 ≤ c.arg 40 8 ∧ (s.eng.started c 331).reachable.filter (fun m => m != (s.eng.started c 331).selfId) = []) ∧
    (∃ (s : State) (id : Nat) (c : Cmd), s.engineUp = true ∧ s.eng.startable id 0x80 = some c ∧ c.len = 262144) ∧
    (∃ (s : State) (id : Nat) (c : Cmd), s.engineUp = true ∧ s.eng.startable id 0x82 = some c ∧ c.arg 32 1 ≤ 7 ∧ c.arg 33 1 ≤ 1) ∧
    (∃ (s : State) (id : Nat) (c : Cmd), s.engineUp = true ∧ s.eng.startable id 0x82 = some c ∧ (7 < c.arg 32 1 ∨ 2 < c.arg 33 1)) ∧
    (∃ (s : State) (id : Nat) (c : Cmd), s.engineUp = true ∧ s.eng.startable id 0x83 = some c) :=
  ⟨⟨fS (fun g => { g with lsaDue := false }), by decide +kernel⟩,
    ⟨fS (fun g => { g with lsaDue := true }), by decide +kernel⟩,
    ⟨withM (mls 7) (fun e => { e with flg := { e.flg with lsas := [(1, lsa1)] } }), 3, mls 7, lsa1, by decide +kernel⟩,
    ⟨withM (mls 7), 3, mls 7, inf, by decide +kernel⟩,
    ⟨fS (fun g => { g with lsas := [(1, lsa1)], reach := [1] }) 3750000000, 1, lsa1, by decide +kernel⟩,
    ⟨fS (fun g => { g with lsas := [(1, lsa1)], reach := [1] }) 3749999999, 1, lsa1, by decide +kernel⟩,
    ⟨fS (fun g => { g with routesDue := none }), by decide +kernel⟩,
    ⟨fS (fun g => { g with routesDue := some 5 }), 5, by decide +kernel⟩,
    ⟨State.reset.eng, false, (⟨0, 0⟩ : Route), by decide +kernel⟩,
    ⟨up, by decide +kernel⟩,
    ⟨fS (fun g => { g with syncAt := 0 }) 1250000 par, by decide +kernel⟩,
    ⟨ctr root (natLE 8 2 ++ natLE 8 44), 0, 160, natLE 8 2 ++ natLE 8 44, took (ctr root (natLE 8 2 ++ natLE 8 44)), by decide +kernel⟩,
    ⟨ctr par syb, 0, 160, syb, took (ctr par syb), (-4895 : Int), by decide +kernel⟩,
    ⟨{ mem1 State.reset.eng with flg := { State.reset.eng.flg with outRun := 2 } }, (4001 : Int), by decide +kernel⟩,
    ⟨{ mem1 State.reset.eng with flg := { State.reset.eng.flg with inRun := 2 } }, (-2000 : Int), by decide +kernel⟩,
    ⟨fS id 12500000 mem1, by decide +kernel⟩,
    ⟨up, by decide +kernel⟩,
    ⟨fS (fun g => { g with ppsLost := false, ppsAt := 0 }) 2500000000 root, by decide +kernel⟩,
    ⟨withM mlr, 3, mlr, by decide +kernel⟩,
    ⟨withC (lc 0x81 0 (List.replicate 16 0)), 1, lc 0x81 0 (List.replicate 16 0), by decide +kernel⟩,
    ⟨withC (lc 0x81 0 (natLE 8 0 ++ natLE 8 1250000)), 1, lc 0x81 0 (natLE 8 0 ++ natLE 8 1250000), by decide +kernel⟩,
    ⟨withC (lc 0x80 262144 []), 1, lc 0x80 262144 [], by decide +kernel⟩,
    ⟨withC (lc 0x82 0 [2, 1]), 1, lc 0x82 0 [2, 1], by decide +kernel⟩,
    ⟨withC (lc 0x82 0 [8, 1]), 1, lc 0x82 0 [8, 1], by decide +kernel⟩,
    ⟨withC (lc 0x83 0 []), 1, lc 0x83 0 [], by decide +kernel⟩⟩

end WitU

namespace WitV

def msg (a d : Bytes) : FlgMsg := { id := 3, port := 0, vc := 3, cls := 0, flits := 1, src := 1, op := 0xE0, tag := 9, arg := a, data := d, buffered := false, at_ := 0 }
def withM (m : FlgMsg) (f : Engine → Engine := id) : State := up fun e => { f e with flg := { (f e).flg with inbox := [m] } }
def nobd : State := up fun e => { e.put Fld.GLN_TALLY_CFG_MODE 0 with time := 0, gln := { e.gln with nextT := 9 } }
def bd (f : Engine → Engine := id) : State := up fun e => let e := f (e.put Fld.GLN_TALLY_CFG_MODE 0); { e with time := 9, gln := { e.gln with nextT := 9 } }
def tlo : Engine → Engine := fun e => e.put Fld.HIF_TALLY_EN 0
def tle : Engine → Engine := fun e => (e.put Fld.HIF_TALLY_EN 1).put Fld.HIF_TALLY_RING 5
def cns : Cmd := cmdOf 0x90 8 (2 ^ 11 * 0) 0 0 ([0, 0, 0, 0, 0, 0, 0, 0] ++ natLE 8 0x10000000 ++ natLE 4 4096)
def cnsL : Cmd := { cns with desc := fitTo 64 (natLE 8 (0x90 + 2 ^ 32 * 8 + 2 ^ 12) ++ natLE 8 77 ++ natLE 8 0 ++ natLE 8 0 ++ [0, 0, 0, 0, 0, 0, 0, 0] ++ natLE 8 0x10000000 ++ natLE 4 4096) }
def lst : Bytes := natLE 8 (0x100 + 2 ^ 32 * 2)
def lstX : Bytes := natLE 8 (0x101 + 2 ^ 32 * 2)
def sD (s : State) (c : Cmd) (h : HostRead) : Option Bytes × Engine := (s.eng.started c 335).cmdData c h
def ccl : Cmd := cmdOf 0x91 0 0 0 0 (natLE 4 6)
def cfl : Cmd := { cmdOf 0x92 with staged := 4, inStage := 3 }
def stgE (n : Nat) : Engine → Engine := fun e => { e with gln := { e.gln with staging := [List.replicate 32 1, List.replicate 32 2], drained := n } }
def reg1 (w : Nat) (fm : Nat) : Engine := { (State.reset.eng.put Fld.GLN_REGION_SIZE_64M 1).put Fld.GLN_TRACE_CFG_FULL_MODE fm with glnKeep := { State.reset.eng.glnKeep with write := w } }
def en : Engine → Engine := fun e => (e.put Fld.GLN_TRACE_CFG_EN 1).put Fld.GLN_TRACE_CFG_DEST 0
def mtr : FlgMsg := msg (natLE 8 2) (List.replicate 64 5)
def hng (f : Engine → Engine) : State := up fun e => { f (e.put Fld.GLN_HANG_US 1) with time := 99999 }
def ord : Engine → Engine := fun e => { e with hif := { e.hif with cmds := [{ cmdOf 0x01 with ph := .running }, { cmdOf 0x01 0 256 with id := 2, cnt := 1 }] } }
def wr1 : WaitReg := ((hng ord).eng.waitRegs).headD ⟨0, 0, 0, 0, 0⟩
def cha (n : Nat) : Cmd := cmdOf 0x93 n

theorem witness_CountersTracesAndWaits :
    (∃ (s : State), s.engineUp = true ∧ s.eng.boundaryDue = none) ∧
    (∃ (s : State) (t : Nat) (trig : Bool), s.engineUp = true ∧ s.eng.boundaryDue = some (t, trig) ∧ s.eng.is Fld.HIF_TALLY_EN = false ∧ s.eng.num = []) ∧
    (∃ (s : State) (t : Nat) (trig : Bool) (i : Nat), s.engineUp = true ∧ s.eng.boundaryDue = some (t, trig) ∧ s.eng.is Fld.HIF_TALLY_EN = false ∧ s.eng.num = [] ∧ i < 1024 ∧ s.eng.is Fld.SHF_HOME_PEND = false ∧ s.eng.rd (Reg.CSC_ENTCNT i) ≠ 0) ∧
    (∃ (s : State) (t : Nat) (trig : Bool), s.engineUp = true ∧ s.eng.boundaryDue = some (t, trig) ∧ s.eng.is Fld.HIF_TALLY_EN = true ∧ s.eng.num = [] ∧ s.eng.ringState (s.eng.get Fld.HIF_TALLY_RING) ≠ 1) ∧
    (∃ (e : Engine) (off : Nat) (n : Nat), bitsOf (e.rd off) 47 0 + n < 2 ^ 48 ∧ bitsOf (e.rd off) 63 48 = 0) ∧
    (∃ (e : Engine) (off : Nat) (n : Nat), 2 ^ 48 ≤ bitsOf (e.rd off) 47 0 + n) ∧
    (∃ (e : Engine) (off : Nat) (n : Nat), 2 ^ 40 ≤ bitsOf (e.rd off) 39 0 + n) ∧
    (∃ (s : State) (id : Nat) (h : HostRead) (c : Cmd) (b : Bytes) (e1 : Engine) (rs : List (Nat × Nat)), s.engineUp = true ∧ s.eng.startable id 0x90 = some c ∧ c.len % 8 = 0 ∧ c.arg 32 1 = 0 ∧ c.dst = 0 ∧ c.dstLoc = true ∧ (s.eng.started c 335).cmdData c h = (some b, e1) ∧ snapRanges b = some rs ∧ 32 + 8 * (rs.map Prod.snd).sum ≤ c.arg 48 4) ∧
    (∃ (s : State) (id : Nat) (h : HostRead) (c : Cmd) (b : Bytes) (e1 : Engine), s.engineUp = true ∧ s.eng.startable id 0x90 = some c ∧ c.len % 8 = 0 ∧ c.arg 32 1 ≤ 1 ∧ c.dst = 0 ∧ (s.eng.started c 335).cmdData c h = (some b, e1) ∧ snapRanges b = none) ∧
    (∃ (s : State) (id : Nat) (c : Cmd), s.engineUp = true ∧ s.eng.startable id 0x91 = some c ∧ c.arg 32 4 < 2 ^ 20) ∧
    (∃ (m : Nat) (off : Nat), ((regFind off).any fun x => x.1.kind == .event && bitOf m x.1.blk) = true) ∧
    (∃ (m : Nat) (off : Nat), ((regFind off).any fun x => x.1.kind == .event && bitOf m x.1.blk) = false) ∧
    (∃ (s : State) (id : Nat) (c : Cmd), s.engineUp = true ∧ s.eng.startable id 0x92 = some c ∧ c.staged ≤ s.eng.gln.drained) ∧
    (∃ (s : State) (id : Nat) (c : Cmd), s.engineUp = true ∧ s.eng.startable id 0x92 = some c ∧ s.eng.gln.drained < c.staged) ∧
    (∃ (s : State), s.engineUp = true ∧ s.eng.gln.staging = []) ∧
    (∃ (s : State) (r : Bytes) (rs : List Bytes), s.engineUp = true ∧ s.eng.gln.staging = r :: rs ∧ s.eng.get Fld.GLN_TRACE_CFG_DEST = 0) ∧
    (∃ (e : Engine) (r : Bytes), e.gln.stopped = false ∧ e.glnKeep.write + 32 ≤ e.glnSize ∧ r.length = 32) ∧
    (∃ (e : Engine), e.gln.stopped = false ∧ e.glnSize < e.glnKeep.write + 32 ∧ e.is Fld.GLN_TRACE_CFG_FULL_MODE = false) ∧
    (∃ (e : Engine), e.glnSize < e.glnKeep.write + 32 ∧ e.is Fld.GLN_TRACE_CFG_FULL_MODE = true) ∧
    (∃ (s : State) (id : Nat) (m : FlgMsg), s.engineUp = true ∧ s.eng.flgMsg id 0xE0 = some m ∧ (s.eng.freeMsg m).is Fld.GLN_TRACE_CFG_EN = true ∧ (s.eng.freeMsg m).get Fld.GLN_TRACE_CFG_DEST < 2) ∧
    (∃ (s : State) (id : Nat) (m : FlgMsg), s.engineUp = true ∧ s.eng.flgMsg id 0xE0 = some m ∧ (s.eng.freeMsg m).is Fld.GLN_TRACE_CFG_EN = false) ∧
    (∃ (s : State), s.engineUp = true ∧ (s.eng.is Fld.GLN_TRACE_CFG_PC_EN = false ∨ s.eng.gln.pcAt = some s.eng.cyc)) ∧
    (∃ (s : State), s.engineUp = true ∧ s.eng.is Fld.GLN_TRACE_CFG_EN = true ∧ s.eng.is Fld.GLN_TRACE_CFG_PC_EN = true ∧ s.eng.gln.pcAt = none ∧ s.eng.cyc % 2 ^ s.eng.get Fld.GLN_TRACE_CFG_PC_LOG2 = 0) ∧
    (∃ (s : State), s.engineUp = true ∧ s.eng.get Fld.GLN_HANG_US = 0) ∧
    (∃ (s : State), s.engineUp = true ∧ s.eng.get Fld.GLN_HANG_US ≠ 0 ∧ (s.eng.waitRegs.any fun w => decide (s.eng.get Fld.GLN_HANG_US * usTicks < s.eng.time - w.at_)) = false) ∧
    (∃ (s : State) (w : WaitReg), s.engineUp = true ∧ s.eng.get Fld.GLN_HANG_US ≠ 0 ∧ s.eng.waitRegs = [w] ∧ s.eng.gln.suspects = [] ∧ s.eng.get Fld.GLN_HANG_US * usTicks < s.eng.time - w.at_) ∧
    (∃ (s : State) (id : Nat) (c : Cmd), s.engineUp = true ∧ s.eng.startable id 0x93 = some c ∧ c.len < 64 ∧ s.eng.domOn 16 = true) ∧
    (∃ (s : State) (id : Nat) (c : Cmd), s.engineUp = true ∧ s.eng.startable id 0x93 = some c ∧ 64 ≤ c.len ∧ s.eng.domOn 16 = true ∧ ((s.eng.started c 335).waitRegs.filter fun w => w.waiter != (s.eng.started c 335).cmdRef c) = []) :=
  ⟨⟨nobd, by decide +kernel⟩,
    ⟨bd tlo, 9, false, by decide +kernel⟩,
    ⟨bd (fun e => (tlo e).wr (Reg.CSC_ENTCNT 5) 77), 9, false, 5, by decide +kernel⟩,
    ⟨bd tle, 9, false, by decide +kernel⟩,
    ⟨State.reset.eng, Reg.CLK_CNT 1, 5, by decide +kernel⟩,
    ⟨State.reset.eng.wr (Reg.CLK_CNT 1) (2 ^ 48 - 1), Reg.CLK_CNT 1, 1, by decide +kernel⟩,
    ⟨State.reset.eng.wr (Reg.CLK_CNT 1) (2 ^ 40 - 1), Reg.CLK_CNT 1, 1, by decide +kernel⟩,
    ⟨withC cnsL, 1, HostRead.ok lst, cnsL, lst, (sD (withC cnsL) cnsL (.ok lst)).2, ([(0x100, 2)] : List (Nat × Nat)), by decide +kernel⟩,
    ⟨withC cnsL, 1, HostRead.ok lstX, cnsL, lstX, (sD (withC cnsL) cnsL (.ok lstX)).2, by decide +kernel⟩,
    ⟨withC ccl, 1, ccl, by decide +kernel⟩,
    ⟨2, Reg.CLK_CNT 1, by decide +kernel⟩,
    ⟨4, Reg.CLK_CNT 1, by decide +kernel⟩,
    ⟨withC cfl (stgE 4), 1, cfl, by decide +kernel⟩,
    ⟨withC cfl (stgE 3), 1, cfl, by decide +kernel⟩,
    ⟨up, by decide +kernel⟩,
    ⟨up (fun e => stgE 0 (e.put Fld.GLN_TRACE_CFG_DEST 0)), List.replicate 32 1, [List.replicate 32 2], by decide +kernel⟩,
    ⟨reg1 4096 0, List.replicate 32 5, by decide +kernel⟩,
    ⟨reg1 (2 ^ 26) 0, by decide +kernel⟩,
    ⟨reg1 (2 ^ 26) 1, by decide +kernel⟩,
    ⟨withM mtr en, 3, mtr, by decide +kernel⟩,
    ⟨withM mtr (fun e => e.put Fld.GLN_TRACE_CFG_EN 0), 3, mtr, by decide +kernel⟩,
    ⟨up (fun e => e.put Fld.GLN_TRACE_CFG_PC_EN 0), by decide +kernel⟩,
    ⟨up (fun e => { (en e).put Fld.GLN_TRACE_CFG_PC_EN 1 with cyc := 65536 }), by decide +kernel⟩,
    ⟨up (fun e => e.put Fld.GLN_HANG_US 0), by decide +kernel⟩,
    ⟨up (fun e => e.put Fld.GLN_HANG_US 1), by decide +kernel⟩,
    ⟨hng ord, wr1, by decide +kernel⟩,
    ⟨withC (cha 63), 1, cha 63, by decide +kernel⟩,
    ⟨withC (cha 64), 1, cha 64, by decide +kernel⟩⟩

end WitV

namespace WitHand

theorem witness_StewardReadsAnswer :
    (∃ s : State, s.stw.run = .running) ∧
    (∃ (s : State) (i : Nat) (b : Bytes), s.stw.run = .running ∧ s.stw.smb.calSel = some i ∧
      s.stw.calUser.find? (fun r => r.1 == i) = some (i, b)) ∧
    (∃ s : State, s.stw.run = .running ∧ s.stw.smb.logSel < s.stw.log.length) ∧
    (∃ s : State, s.stw.run = .running ∧ s.stw.smb.labelPage ≤ 251 ∧ s.stw.label.active = none ∧
      s.stw.smb.labelPage ∉ s.stw.label.crcBad) :=
  ⟨⟨up, by decide +kernel⟩,
    ⟨sw fun w => { w with smb := { w.smb with calSel := some 4 }, calUser := [(4, [7])] }, 4, [7], by decide +kernel⟩,
    ⟨sw fun w => { w with log := [.powerDown] }, by decide +kernel⟩,
    ⟨sw fun w => { w with smb := { w.smb with labelPage := 251 } }, by decide +kernel⟩⟩

theorem witness_StewardWritesTakeEffect :
    (∃ s : State, s.stw.run = .running ∧ (51#8 : Byte).toNat ≤ 51 ∧ (2#8 : Byte).toNat < 3 ∧ (1#8 : Byte).toNat ≤ 1) ∧
    (∃ a b c d : Byte, 20 ≤ a.toNat ∧ a.toNat ≤ 100 ∧ -10 ≤ sextOf 8 b.toNat ∧ sextOf 8 b.toNat ≤ 5 ∧ 1 ≤ c.toNat ∧ c.toNat ≤ 20 ∧
      d.toNat ≤ 3) ∧
    (∃ (s : State) (d : Bytes), s.stw.run = .running ∧ d.length = 128 ∧ s.stw.smb.labelHalf = 0) ∧
    (∃ (s : State) (n : Byte) (d : Bytes), s.stw.run = .running ∧ 128 ≤ n.toNat ∧ n.toNat ≤ 251 ∧
      s.stw.smb.stage0 = some (n.toNat, d) ∧ s.stw.smb.stage1 = none) ∧
    (∃ (s : State) (d : Bytes), s.stw.run = .running ∧ d.length = 8 ∧
      limsAllowed (pointInfo s.stw.smb.page).lims ((List.range 4).map fun j =>
        ((pointInfo s.stw.smb.page).lims.getD j none).map fun _ => ptValue (pointInfo s.stw.smb.page).kind (leAt d (2 * j) 2) * 1000) =
          true) ∧
    (∃ s : State, s.stw.run = .running ∧ s.pwr.phase = .running ∧ (s.pwr.rail 11).enabled = true) ∧
    (∃ s : State, s.stw.run = .running ∧ s.pwr.phase = .standby ∧ s.pwr.slot12V = true ∧ s.pwr.psuOk = true ∧ s.pwr.efuseOpen = false) ∧
    (∃ s : State, s.stw.run = .running ∧ s.pwr.phase = .hold ∧ s.pwr.enable = true ∧ s.pwr.efuseOpen = false) ∧
    (∃ s : State, s.stw.run = .running ∧ s.pwr.released = true) :=
  ⟨⟨up, by decide +kernel⟩, ⟨20, 0xF6, 20, 3, by decide +kernel⟩, ⟨up, List.replicate 128 5, by decide +kernel⟩,
    ⟨sw fun w => { w with smb := { w.smb with stage0 := some (251, [5]) } }, 251, [5], by decide +kernel⟩,
    ⟨up, (natLE 2 11500 ++ natLE 2 12500 ++ natLE 2 11000 ++ natLE 2 13000), by decide +kernel⟩,
    ⟨up, by decide +kernel⟩, ⟨pw fun p => { p with phase := .standby }, by decide +kernel⟩,
    ⟨pw fun p => { p with phase := .hold }, by decide +kernel⟩, ⟨up, by decide +kernel⟩⟩

theorem witness_FirmwareSessions :
    (∃ s : State, s.stw.run = .running ∧ s.stw.session = none) ∧
    (∃ (s : State) (x : FwSession) (b : Bytes), s.stw.run = .running ∧ s.stw.session = some x ∧ b.length ≤ 128 ∧ 4 + b.length ≤ x.len) ∧
    (∃ (s : State) (x : FwSession) (d : Bytes), s.stw.run = .running ∧ s.stw.session = some x ∧ x.target = 0 ∧ d.length = 4 ∧
      crc32 (Tbl.readBytes x.data 0 x.len) = leNat d) ∧
    (∃ s : State, s.stw.run = .running ∧ (s.stw.engineFw.copy (!s.stw.engineFw.runningB)).valid = true) :=
  ⟨⟨sw fun w => { w with session := none }, by decide +kernel⟩,
    ⟨sw fun w => { w with session := some ⟨0, 9, [], 0⟩ }, ⟨0, 9, [], 0⟩, [1, 2], by decide +kernel⟩,
    ⟨sw fun w => { w with session := some ⟨0, 1, [], 0⟩ }, ⟨0, 1, [], 0⟩, natLE 4 (crc32 [0]), by decide +kernel⟩,
    ⟨sw fun w => { w with engineFw := { w.engineFw with
      copyA := { w.engineFw.copyA with valid := true }, copyB := { w.engineFw.copyB with valid := true } } }, by decide +kernel⟩⟩

theorem witness_StewardInterfaces :
    (∃ r, r ∈ stewardRows ∧ r.1 = 0xFF - 7) ∧
    (∃ (s : State) (q : MbReq), s.stw.run = .running ∧ s.stw.req = some q ∧ q.code = 0x79 ∧ q.answer = none) ∧
    (∃ s : State, s.pcieUp = true ∧ s.eng.is Fld.CLK_RST_STAT_BUSY = false ∧ s.eng.is Fld.STW_MB_STAT_BUSY = false) ∧
    (∃ (s : State) (q : MbReq) (a : Nat × Bytes), s.stw.run = .running ∧ s.pwr.released = true ∧ s.stw.req = some q ∧ q.discard = false ∧
      q.answer = some a ∧ q.code ≠ 0xE2 ∧ a.1 < 8) ∧
    (∃ s : State, s.pwr.released = true ∧ s.pwr.halted = false ∧ s.eng.is Fld.STW_MB_STAT_BUSY = true) :=
  ⟨⟨(0xF8, .logRead), by simp [stewardRows], rfl⟩,
    ⟨sw fun w => { w with req := some ⟨0x79, [], none, false⟩ }, ⟨0x79, [], none, false⟩, by decide +kernel⟩,
    ⟨{ up with pwr := { up.pwr with perst := false } }, by decide +kernel⟩,
    ⟨sw fun w => { w with req := some ⟨0x79, [], some (7, [1]), false⟩ }, ⟨0x79, [], some (7, [1]), false⟩, (7, [1]), by decide +kernel⟩,
    ⟨up fun e => e.put Fld.STW_MB_STAT_BUSY 1, by decide +kernel⟩⟩

/-- A frame with its CRC, or with another. -/
def frm (len typ x : Nat) : KolFrame := ⟨typ, 0, len, [1, 1], (crc16 (kolBody ⟨typ, 0, len, [1, 1], 0⟩) + x) % 65536⟩

theorem witness_KolberDiscardsBadFrames :
    (∃ (s : State) (fr : KolFrame), s.engineUp = true ∧ s.eng.is Fld.KOL_CTRL_EN = true ∧ crc16 (kolBody fr) ≠ fr.crc) ∧
    (∃ (s : State) (fr : KolFrame), s.engineUp = true ∧ s.eng.is Fld.KOL_CTRL_EN = true ∧ crc16 (kolBody fr) = fr.crc ∧ 35 < fr.len) ∧
    (∃ fr : KolFrame, crc16 (kolBody fr) = fr.crc ∧ kolLen fr.typ = none) ∧
    (∃ s : State, s.fld.powered = true) ∧
    (∃ s : State, s.engineUp = true ∧ s.eng.is Fld.KOL_CTRL_EN = true ∧ s.fld.labelReq.isSome = true) :=
  ⟨⟨up fun e => e.put Fld.KOL_CTRL_EN 1, frm 2 1 1, by decide +kernel⟩, ⟨up fun e => e.put Fld.KOL_CTRL_EN 1, frm 36 1 0, by decide +kernel⟩,
    ⟨frm 2 0x7F 0, by decide +kernel⟩, ⟨up, by decide +kernel⟩,
    ⟨{ (up fun e => e.put Fld.KOL_CTRL_EN 1) with fld := { Field.init with labelReq := some (3, 0, 0) } }, by decide +kernel⟩⟩

/-- The machine whose engine is held, and the machine about to lose its PLL's lock, and as it then is. -/
def heldSt : State := { State.reset with pwr := { State.reset.pwr with released := false } }
def lockedSt : State := { State.reset with pending := [.pllLoss] }
def lostSt : State :=
  { State.reset with pwr := { State.reset.pwr with released := false, phase := .pllWait, cause := 5 }, eng := State.reset.eng.cold }

theorem witness_StepTakesTheFrontCommand :
    (∃ s : State, s.pending = [] ∧ s.engineUp = true) ∧ (∃ s : State, s.pending = [] ∧ s.pwr.released = false) :=
  ⟨⟨State.reset, by decide +kernel⟩, ⟨heldSt, by decide +kernel⟩⟩

theorem witness_EngineRowsStayInTheEngine :
    (∃ c s t, besideEngine c = false ∧ exec c s = .next t) ∧ (∃ (c : Instr) (s : State), besideEngine c = false ∧ s.engineUp = false) :=
  ⟨⟨.parse 7, heldSt, heldSt, rfl, rfl⟩, ⟨.parse 7, heldSt, rfl, by decide +kernel⟩⟩

theorem witness_StepsKeepPowerInOrder : ∃ s t, s.powerInOrder = true ∧ step s = .next t :=
  ⟨lockedSt, lostSt, by decide +kernel, rfl⟩

end WitHand

end Sys2Proof
end

/-!
SUPPORT and PROOFS. The discard of bad Kolber frames (R64): what the receive checks find, what each end does with a frame that fails
them, and that every message of an end then leaves the count alone as its effect.
-/
namespace Sys2Proof.Machine

/-! ### The receive checks of R64 -/

theorem kolCheck_of_crc_ne {f : KolFrame} (hcrc : crc16 (kolBody f) ≠ f.crc) : kolCheck f = .crcFail := if_pos hcrc

/-- A TYPE outside Table KOL-1 fails the check of LEN against the table's length. -/
theorem kolCheck_of_len_or_type {f : KolFrame} (hcrc : crc16 (kolBody f) = f.crc) (hbad : 35 < f.len ∨ kolLen f.typ = none) :
    kolCheck f = .bad := by
  have hfails : 35 < f.len ∨ f.payload.length ≠ f.len ∨ kolLen f.typ ≠ some f.len := by
    rcases hbad with hlen | htyp
    · exact .inl hlen
    · exact .inr (.inr (by simp [htyp]))
  rw [kolCheck, if_neg (not_not.mpr hcrc), if_pos hfails]

/-! ### The two receivers -/

/-- The enabled host end counts a frame whose CRC fails in KOL_CNT0, whatever message it was meant as. -/
theorem Engine.kolReceive_crcFail {e : Engine} {f : KolFrame} (hen : e.is Fld.KOL_CTRL_EN = true) (hc : kolCheck f = .crcFail)
    (typ : Nat) : e.kolReceive typ f = (e.count (Reg.KOL_CNT 0), none) := by simp [Engine.kolReceive, hen, hc]

/-- It counts any other bad frame in KOL_CNT1. -/
theorem Engine.kolReceive_bad {e : Engine} {f : KolFrame} (hen : e.is Fld.KOL_CTRL_EN = true) (hc : kolCheck f = .bad)
    (typ : Nat) : e.kolReceive typ f = (e.count (Reg.KOL_CNT 1), none) := by simp [Engine.kolReceive, hen, hc]

theorem Field.receive_crcFail {d : Field} {f : KolFrame} (hp : d.powered = true) (hc : kolCheck f = .crcFail) (typ : Nat) :
    d.receive typ f = ({ d with crcFail := d.crcFail + 1 }, none) := by simp [Field.receive, hp, hc]

theorem Field.receive_bad {d : Field} {f : KolFrame} (hp : d.powered = true) (hc : kolCheck f = .bad) (typ : Nat) :
    d.receive typ f = ({ d with badFrame := d.badFrame + 1 }, none) := by simp [Field.receive, hp, hc]

/-! ### The messages -/

/-- A frame that the host end discards, counting it in `reg`, has that count as the whole effect of its message. LABEL_READ also
moves the field end, so it has a lemma of its own. -/
theorem does_count_of_kolReceive_none {s : State} {fr : KolFrame} {reg : Nat} (hup : s.engineUp = true)
    (hr : ∀ typ, s.eng.kolReceive typ fr = (s.eng.count reg, none)) :
    ∀ c ∈ [Instr.linkHello, .triggerIn, .ppsEdge, .refState, .fixtureId, .fieldAlarm], Does (c fr) s fun e => e.count reg := by
  simp only [List.forall_mem_cons, List.not_mem_nil, false_imp_iff, implies_true, and_true]
  refine ⟨?linkHello, ?triggerIn, ?ppsEdge, ?refState, ?fixtureId, ?fieldAlarm⟩ <;>
    exact (Does.engine rfl hup).congr (by simp only [hr])

/-- LABEL_READ, where the field end has a request outstanding and so does not begin one with this frame. -/
theorem labelRead_does_count_of_kolReceive_none {s : State} {fr : KolFrame} {reg : Nat} (hup : s.engineUp = true)
    (hreq : s.fld.labelReq.isSome = true) (hr : ∀ typ, s.eng.kolReceive typ fr = (s.eng.count reg, none)) :
    Does (.labelRead fr) s fun e => e.count reg := by
  have hfld : (s.fld.powered && s.fld.labelReq.isNone) = false := by simp [Option.isNone_eq_false_iff.mpr hreq]
  change execLabelRead fr s = _
  simp [execLabelRead, hfld, hup, hr, State.onEng]

/-- A frame that the field end discards leaves the field end as the receiver has it, and all else as it was. -/
theorem exec_of_fieldReceive_none {s : State} {fr : KolFrame} {d : Field} (hr : ∀ typ, s.fld.receive typ fr = (d, none)) :
    ∀ c ∈ [Instr.triggerOut, .labelData], exec (c fr) s = .next { s with fld := d } := by
  simp only [List.forall_mem_cons, List.not_mem_nil, false_imp_iff, implies_true, and_true]
  refine ⟨?triggerOut, ?labelData⟩
  case triggerOut =>
    change execTriggerOut fr s = _
    simp only [execTriggerOut, hr]
  case labelData =>
    change execLabelData fr s = _
    simp only [execLabelData, hr]

/-- Settles O8: each receiver answers a frame that fails a check with its count alone, and every message of that end passes the
receiver's answer on. -/
theorem kolberDiscardsBadFrames : Obligations.KolberDiscardsBadFrames := by
  refine ⟨fun s fr hup hen c hc => ⟨fun hcrc => ?_, fun hcrc hbad => ?_⟩,
    fun s fr hp c hc => ⟨fun hcrc => ?_, fun hcrc hbad => ?_⟩,
    fun s fr hup hen hreq => ⟨fun hcrc => ?_, fun hcrc hbad => ?_⟩⟩
  · exact does_count_of_kolReceive_none hup (Engine.kolReceive_crcFail hen (kolCheck_of_crc_ne hcrc)) c hc
  · exact does_count_of_kolReceive_none hup (Engine.kolReceive_bad hen (kolCheck_of_len_or_type hcrc hbad)) c hc
  · exact exec_of_fieldReceive_none (Field.receive_crcFail hp (kolCheck_of_crc_ne hcrc)) c hc
  · exact exec_of_fieldReceive_none (Field.receive_bad hp (kolCheck_of_len_or_type hcrc hbad)) c hc
  · exact labelRead_does_count_of_kolReceive_none hup hreq (Engine.kolReceive_crcFail hen (kolCheck_of_crc_ne hcrc))
  · exact labelRead_does_count_of_kolReceive_none hup hreq (Engine.kolReceive_bad hen (kolCheck_of_len_or_type hcrc hbad))

end Sys2Proof.Machine

/-!
SUPPORT and PROOFS. The instructions of the rill threads (R447 to R463): what leaves memory as it is, what a thread's update and its end
record, how each row's instruction acts, and that a row does the instruction its thread issues.
-/
namespace Sys2Proof.Machine

/-! ### What leaves memory as it is -/

@[simp] theorem Engine.message_mem (e : Engine) (v : Nat) : (e.message v).mem = e.mem := by
  unfold Engine.message; split <;> rfl

@[simp] theorem Engine.busy_mem (e : Engine) (i : Nat) : (e.busy i).mem = e.mem := by
  unfold Engine.busy; split <;> rfl

@[simp] theorem Engine.signal_mem (e : Engine) (k : Nat) : (e.signal k).mem = e.mem := by
  unfold Engine.signal; split <;> simp [Engine.writeBack]

@[simp] theorem Engine.putRecord_mem (e : Engine) (k : Nat) (ws : List Nat) (irq : Bool) : (e.putRecord k ws irq).mem = e.mem := by
  unfold Engine.putRecord; dsimp only; split <;> simp

@[simp] theorem Engine.gapAdd_mem (e : Engine) (k time : Nat) : (e.gapAdd k time).mem = e.mem := Engine.setRing_mem ..

@[simp] theorem Engine.flushGap_mem (e : Engine) (k : Nat) : (e.flushGap k).mem = e.mem := by
  unfold Engine.flushGap; split
  · rfl
  · split <;> simp

/-- An error record goes to a ring in host memory, or is counted (R685). -/
@[simp] theorem Engine.errRecord_mem (e : Engine) (code sev blk mem count addr obj d4 d5 d6 : Nat) :
    (e.errRecord code sev blk mem count addr obj d4 d5 d6).mem = e.mem := by
  unfold Engine.errRecord; dsimp only; split
  · split <;> simp
  · simp

@[simp] theorem Engine.memCe_mem (e : Engine) (m a : Nat) : (e.memCe m a).mem = e.mem := by
  unfold Engine.memCe; dsimp only; split <;> simp [Engine.fresh]

/-- An uncorrectable error marks the word as poisoned and leaves its bytes (R684). -/
@[simp] theorem Engine.memUe_mem (e : Engine) (m a : Nat) (patrol : Bool) : (e.memUe m a patrol).mem = e.mem := by
  simp [Engine.memUe, Engine.fresh]

@[simp] theorem Engine.takeInject_mem (e : Engine) (m : Nat) (ecc : Ecc) : (e.takeInject m ecc).2.mem = e.mem := by
  unfold Engine.takeInject; split <;> simp

/-- A read changes no byte, whatever the protection finds. -/
@[simp] theorem Engine.checkRead_mem (e : Engine) (m a n : Nat) (ecc : Ecc) : (e.checkRead m a n ecc).2.mem = e.mem := by
  unfold Engine.checkRead; split
  · rfl
  · dsimp only; split
    · simp
    · split <;> simp

theorem Engine.takeRate_mem {e e' : Engine} {unit limit every : Nat} (h : e.takeRate unit limit every = some e') :
    e'.mem = e.mem := by
  unfold Engine.takeRate at h
  split at h <;> dsimp only at h <;> split at h <;> cases h <;> rfl

theorem Engine.issueRate_mem {e e' : Engine} {core : Nat} (h : e.issueRate core = some e') : e'.mem = e.mem := by
  unfold Engine.issueRate at h
  split at h
  · exact Engine.takeRate_mem h
  · cases h; rfl

/-- A fetch that gives a word reads memory only. -/
theorem Engine.fetchWord_mem {e e' : Engine} {t : Thread} {w : Nat} (h : e.fetchWord t = (.ok w, e')) : e'.mem = e.mem := by
  unfold Engine.fetchWord at h
  dsimp only at h
  split at h
  · cases h
  · have hmem := e.checkRead_mem 0 (t.pc % 2 ^ 42) 4 .clean
    split at h
    · rename_i hr; rw [hr] at hmem; cases h; exact hmem
    · cases h

/-! ### The instruction that a thread issues -/

theorem Engine.thread_id {e : Engine} {tid : Nat} {t : Thread} (h : e.thread tid = some t) : t.id = tid := by
  simp only [Engine.thread, Option.bind_eq_some_iff] at h
  obtain ⟨u, -, hu⟩ := h
  split at hu
  · next hid => cases hu; exact hid
  · cases hu

/-- Everything that must hold for a thread to issue an instruction of a class. -/
theorem Engine.issued_eq_some_iff {e e' : Engine} {tid w : Nat} {cls : RvCls} {t : Thread} :
    e.issued tid cls = some (t, w, e') ↔ e.thread tid = some t ∧ t.st.issues = true ∧ rvClass w = cls ∧
      ∃ e1 e2, e.issueRate (coreOf tid) = some e1 ∧ e1.fetchWord t = (.ok w, e2) ∧ e' = e2.busy (coreOf tid) := by
  unfold Engine.issued
  constructor
  · intro h
    obtain ⟨u, hthread, h⟩ := Option.bind_eq_some_iff.mp h
    split at h
    · cases h
    · next hst =>
      obtain ⟨e1, hrate, h⟩ := Option.bind_eq_some_iff.mp h
      split at h
      · next w' e2 hfetch =>
        split at h
        · next hw => cases h; exact ⟨hthread, by simpa using hst, hw, e1, e2, hrate, hfetch, rfl⟩
        · cases h
      · cases h
  · rintro ⟨hthread, hst, hw, e1, e2, hrate, hfetch, rfl⟩
    simp [hthread, hst, hw, hrate, hfetch]

theorem Engine.issued_id {e e' : Engine} {tid w : Nat} {cls : RvCls} {t : Thread} (h : e.issued tid cls = some (t, w, e')) :
    t.id = tid := Engine.thread_id (Engine.issued_eq_some_iff.mp h).1

theorem Engine.issued_mem {e e' : Engine} {tid w : Nat} {cls : RvCls} {t : Thread} (h : e.issued tid cls = some (t, w, e')) :
    e'.mem = e.mem := by
  obtain ⟨-, -, -, e1, e2, hrate, hfetch, rfl⟩ := Engine.issued_eq_some_iff.mp h
  rw [Engine.busy_mem, Engine.fetchWord_mem hfetch, Engine.issueRate_mem hrate]

/-- A context that cannot issue has no instruction done. -/
theorem Engine.issue_idle {e : Engine} {tid : Nat} {cls : RvCls} {f : Thread → Nat → Engine → Engine}
    (h : (e.thread tid).any (fun t => t.st.issues) = false) : e.issue tid cls f = e := by
  unfold Engine.issue
  cases ht : e.thread tid with
  | none => rfl
  | some t =>
    rw [ht, Option.any_some] at h
    simp [h]

/-- A row other than the plain one does nothing where no instruction of its class is issued: a fetch that faults is the plain
row's. -/
theorem Engine.issue_none {e : Engine} {tid : Nat} {cls : RvCls} {f : Thread → Nat → Engine → Engine} (hcls : cls ≠ .plain)
    (h : e.issued tid cls = none) : e.issue tid cls f = e := by
  unfold Engine.issued at h
  unfold Engine.issue
  cases ht : e.thread tid with
  | none => rfl
  | some t =>
    simp only [ht, Option.bind_some] at h
    dsimp only
    split
    · rfl
    · next hst =>
      rw [if_neg hst] at h
      cases hr : e.issueRate (coreOf tid) with
      | none => rfl
      | some e1 =>
        simp only [hr, Option.bind_some] at h
        dsimp only
        split
        · rfl
        · next w e2 hf =>
          simp only [hf] at h
          split at h
          · cases h
          · next hw => exact if_neg hw

/-- The plain row takes the exception of a fetch that faults. -/
theorem Engine.issue_fetch_error {e e1 e2 : Engine} {tid c v : Nat} {t : Thread} {f : Thread → Nat → Engine → Engine}
    (ht : e.thread tid = some t) (hst : t.st.issues = true) (hrate : e.issueRate (coreOf tid) = some e1)
    (hfetch : e1.fetchWord t = (.error (c, v), e2)) : e.issue tid .plain f = e2.thrExcept t c v := by
  simp [Engine.issue, ht, hst, hrate, hfetch]

/-- Every instruction row is a step of the engine in which its thread issues. -/
theorem exec_eq_issue_of_insnRow {c : Instr} {tid : Nat} {cls : RvCls} (h : insnRow c = some (tid, cls)) :
    ∃ f, ∀ s, exec c s = engineStep s fun e => e.issue tid cls f := by
  unfold insnRow at h
  split at h <;> cases h <;> exact ⟨_, fun _ => rfl⟩

/-- A row whose thread's instruction is not done leaves the state as it is. -/
theorem exec_of_issue_eq_self {c : Instr} {s : State} {tid : Nat} {cls : RvCls} (hrow : insnRow c = some (tid, cls))
    (hup : s.engineUp = true) (h : ∀ f, s.eng.issue tid cls f = s.eng) : exec c s = .next s := by
  obtain ⟨f, hf⟩ := exec_eq_issue_of_insnRow hrow
  rw [hf, engineStep_up hup, State.onEng, h f]

/-- A row does what the instruction that its thread issues comes to. -/
theorem does_of_issued {c : Instr} {s : State} {tid w : Nat} {cls : RvCls} {t : Thread} {e e' : Engine}
    {f : Thread → Nat → Engine → Engine} (hx : exec c s = engineStep s fun e => e.issue tid cls f) (hup : s.engineUp = true)
    (hi : s.eng.issued tid cls = some (t, w, e)) (hf : f t w e = e') : Does c s fun _ => e' :=
  (Does.engine hx hup).congr ((Engine.issue_some hi).trans hf)

/-! ### A thread's registers and its place in its context -/

/-- x0 reads zero and discards its writes; another register reads as written. -/
theorem Thread.reg_setReg (t : Thread) (rd v r : Nat) :
    (t.setReg rd v).reg r = if r = 0 then 0 else if r = rd then v % 2 ^ 64 else t.reg r := by
  rcases eq_or_ne r 0 with rfl | hr
  · simp [Thread.reg]
  rcases eq_or_ne rd 0 with rfl | hrd
  · simp [Thread.setReg, hr]
  rcases eq_or_ne r rd with rfl | hne
  · simp [Thread.setReg, Thread.reg, hr, wrap64]
  · simp [Thread.setReg, Thread.reg, hr, hrd, hne, Tbl.get_set_other]

@[simp] theorem Thread.setReg_id (t : Thread) (rd v : Nat) : (t.setReg rd v).id = t.id := by
  unfold Thread.setReg; split <;> rfl

@[simp] theorem Engine.thread_setThread_same (e : Engine) (t : Thread) : (e.setThread t).thread t.id = some t := by
  simp [Engine.thread, Engine.setThread]

@[simp] theorem Engine.alwaysN_thread (e : Engine) (off n tid : Nat) : (e.alwaysN off n).thread tid = e.thread tid := rfl

@[simp] theorem Engine.releaseFlow_mem (e : Engine) (h : Holder) : (e.releaseFlow h).mem = e.mem := rfl

@[simp] theorem Engine.releaseFlow_rd (e : Engine) (h : Holder) (off : Nat) : (e.releaseFlow h).rd off = e.rd off := rfl

@[simp] theorem Engine.store_mem (e : Engine) (a : Nat) (bs : Bytes) : (e.store a bs).mem = Tbl.writeBytes e.mem a bs := rfl

/-! ### Exceptions (R463) -/

/-- A thread that an exception of cause `c` has ended. -/
def Thread.excepted (t : Thread) (c : Nat) : Thread := { t with st := .ending, ended := some (.cause c) }

/-- The engine once an exception has been counted and flagged. -/
def Engine.faultCounted (e : Engine) (tid : Nat) : Engine :=
  ((e.releaseFlow (.thread tid)).count (Reg.RIL_CNT 6)).evt Fld.RIL_EVT_FAULT

/-- The fault registers of a thread's bank take an exception. -/
def Engine.faultLatched (e : Engine) (t : Thread) (c v : Nat) : Engine :=
  ((e.wr (Reg.RIL_FAULT (rillBank t.id)) (c + 2 ^ 32 * t.id)).wr (Reg.RIL_FAULT_PC (rillBank t.id)) t.pc).wr
    (Reg.RIL_FAULT_TVAL (rillBank t.id)) v

/-- The engine once an exception stands in its counters and its bank's fault registers; INSN_LIMIT has a counter of its own. -/
def Engine.faultNoted (e : Engine) (t : Thread) (c v : Nat) : Engine :=
  (if c = 24 then (e.faultCounted t.id).count (Reg.RIL_CNT 10) else e.faultCounted t.id).faultLatched t c v

/-- An exception is noted, with FAULT_REC put on the error ring, and ends the thread. -/
theorem Engine.thrExcept_eq (e : Engine) (t : Thread) (c v : Nat) :
    e.thrExcept t c v =
      (if (e.faultNoted t c v).is Fld.RIL_CFG_FAULT_REC then
        (e.faultNoted t c v).errInfo 0x03 11 ((e.faultNoted t c v).thrRef t.id) (t.id + 2 ^ 32 * c) t.pc v
      else e.faultNoted t c v).setThread (t.excepted c) := rfl

theorem Engine.faultNoted_mem (e : Engine) (t : Thread) (c v : Nat) : (e.faultNoted t c v).mem = e.mem := by
  unfold Engine.faultNoted; split <;> simp [Engine.faultLatched, Engine.faultCounted]

/-- The exception ends the thread, whatever is recorded. -/
theorem Engine.thrExcept_thread (e : Engine) (t : Thread) (c v : Nat) : (e.thrExcept t c v).thread t.id = some (t.excepted c) := by
  rw [Engine.thrExcept_eq]
  exact Engine.thread_setThread_same _ (t.excepted c)

theorem Engine.thrExcept_mem (e : Engine) (t : Thread) (c v : Nat) : (e.thrExcept t c v).mem = e.mem := by
  rw [Engine.thrExcept_eq, Engine.setThread_mem]
  split
  · rw [Engine.errInfo, Engine.errRecord_mem, Engine.faultNoted_mem]
  · exact e.faultNoted_mem t c v

/-- An exception latches no register but the three of its thread's bank. -/
theorem Engine.faultLatched_rd_other (e : Engine) (t : Thread) (c v : Nat) {off : Nat}
    (h : off ≠ Reg.RIL_FAULT (rillBank t.id)) (hpc : off ≠ Reg.RIL_FAULT_PC (rillBank t.id))
    (htval : off ≠ Reg.RIL_FAULT_TVAL (rillBank t.id)) : (e.faultLatched t c v).rd off = e.rd off := by
  rw [Engine.faultLatched, Engine.rd_wr_other _ _ htval, Engine.rd_wr_other _ _ hpc, Engine.rd_wr_other _ _ h]

theorem Engine.faultLatched_rd_fault (e : Engine) (t : Thread) (c v : Nat) :
    (e.faultLatched t c v).rd (Reg.RIL_FAULT (rillBank t.id)) = (c + 2 ^ 32 * t.id) % 2 ^ 64 := by
  rw [Engine.faultLatched, Engine.rd_wr_other _ _ (by simp [Reg.RIL_FAULT, Reg.RIL_FAULT_TVAL]),
    Engine.rd_wr_other _ _ (by simp [Reg.RIL_FAULT, Reg.RIL_FAULT_PC]), Engine.rd_wr_same]

theorem Engine.faultLatched_rd_pc (e : Engine) (t : Thread) (c v : Nat) :
    (e.faultLatched t c v).rd (Reg.RIL_FAULT_PC (rillBank t.id)) = t.pc % 2 ^ 64 := by
  rw [Engine.faultLatched, Engine.rd_wr_other _ _ (by simp [Reg.RIL_FAULT_PC, Reg.RIL_FAULT_TVAL]), Engine.rd_wr_same]

theorem Engine.faultLatched_rd_tval (e : Engine) (t : Thread) (c v : Nat) :
    (e.faultLatched t c v).rd (Reg.RIL_FAULT_TVAL (rillBank t.id)) = v % 2 ^ 64 := Engine.rd_wr_same ..

/-- No register outside RIL_CNT6, RIL_EVT changes as an exception is counted. -/
theorem Engine.faultCounted_rd_other (e : Engine) (tid : Nat) {off : Nat} (hcnt : off ≠ Reg.RIL_CNT 6) (hevt : off ≠ Reg.RIL_EVT) :
    (e.faultCounted tid).rd off = e.rd off := by
  rw [Engine.faultCounted, Engine.evt, Engine.rd_put_other _ _ _ hevt, Engine.count, Engine.countN, Engine.rd_wr_other _ _ hcnt,
    Engine.releaseFlow_rd]

theorem satCount_lt {w c : Nat} (n : Nat) (hw : 0 < w) (hw' : w < 64) (hc : c < 2 ^ 64) : satCount w c n < 2 ^ 64 := by
  unfold satCount
  dsimp only
  split
  · exact withBits_lt _ _ _ _ _ hc (by omega) (by omega)
  · have : 2 ^ w ≤ 2 ^ 63 := Nat.pow_le_pow_right (by decide) (by omega)
    omega

theorem Engine.rd_count_same (e : Engine) (off : Nat) : (e.count off).rd off = satCount 48 (e.rd off) 1 := by
  rw [Engine.count, Engine.countN, Engine.rd_wr_same, Nat.mod_eq_of_lt (satCount_lt 1 (by decide) (by decide) (e.rd_lt off))]

theorem Engine.faultCounted_rd_cnt (e : Engine) (tid : Nat) :
    (e.faultCounted tid).rd (Reg.RIL_CNT 6) = satCount 48 (e.rd (Reg.RIL_CNT 6)) 1 := by
  rw [Engine.faultCounted, Engine.evt, Engine.rd_put_other _ _ _ (by decide), Engine.rd_count_same, Engine.releaseFlow_rd]

/-- With FAULT_REC clear an exception is recorded in its bank's fault registers alone. -/
theorem Engine.thrExcept_of_not_faultRec {e : Engine} {c : Nat} (t : Thread) (v : Nat)
    (hrec : e.is Fld.RIL_CFG_FAULT_REC = false) (hc : c ≠ 24) :
    e.thrExcept t c v = ((e.faultCounted t.id).faultLatched t c v).setThread (t.excepted c) := by
  have hnoted : e.faultNoted t c v = (e.faultCounted t.id).faultLatched t c v := by rw [Engine.faultNoted, if_neg hc]
  have hcfg : ((e.faultCounted t.id).faultLatched t c v).is Fld.RIL_CFG_FAULT_REC = false := by
    rw [← hrec]
    simp only [Engine.is, Engine.get]
    rw [Engine.faultLatched_rd_other, Engine.faultCounted_rd_other] <;>
      simp [Fld.RIL_CFG_FAULT_REC, Reg.RIL_CFG, Reg.RIL_FAULT, Reg.RIL_FAULT_PC, Reg.RIL_FAULT_TVAL, Reg.RIL_CNT, Reg.RIL_EVT] <;>
      omega
  rw [Engine.thrExcept_eq, hnoted, hcfg, if_neg Bool.false_ne_true]

/-- The fault registers, the counter and the thread after an exception that is not on the error ring. -/
theorem Engine.thrExcept_records {e : Engine} {c : Nat} (t : Thread) (v : Nat) (hrec : e.is Fld.RIL_CFG_FAULT_REC = false)
    (hc : c ≠ 24) :
    (e.thrExcept t c v).rd (Reg.RIL_FAULT (rillBank t.id)) = (c + 2 ^ 32 * t.id) % 2 ^ 64 ∧
    (e.thrExcept t c v).rd (Reg.RIL_FAULT_PC (rillBank t.id)) = t.pc % 2 ^ 64 ∧
    (e.thrExcept t c v).rd (Reg.RIL_FAULT_TVAL (rillBank t.id)) = v % 2 ^ 64 ∧
    (e.thrExcept t c v).rd (Reg.RIL_CNT 6) = satCount 48 (e.rd (Reg.RIL_CNT 6)) 1 := by
  rw [Engine.thrExcept_of_not_faultRec t v hrec hc]
  simp only [Engine.setThread_rd]
  refine ⟨Engine.faultLatched_rd_fault .., Engine.faultLatched_rd_pc .., Engine.faultLatched_rd_tval .., ?_⟩
  rw [Engine.faultLatched_rd_other, Engine.faultCounted_rd_cnt] <;>
    simp [Reg.RIL_FAULT, Reg.RIL_FAULT_PC, Reg.RIL_FAULT_TVAL, Reg.RIL_CNT] <;> omega

/-! ### Retirement (R447) -/

/-- A thread whose instruction has retired with a value for a register and a next pc. -/
def Thread.retired (t : Thread) (rd v pc : Nat) : Thread :=
  { t.setReg rd v with pc := pc, instret := t.instret + 1, st := .ready, home := none }

@[simp] theorem Thread.retired_id (t : Thread) (rd v pc : Nat) : (t.retired rd v pc).id = t.id := t.setReg_id rd v

@[simp] theorem Thread.setReg_limit (t : Thread) (rd v : Nat) : (t.setReg rd v).limit = t.limit := by
  unfold Thread.setReg; split <;> rfl

/-- The engine once a retirement has been counted. -/
def Engine.retireCounted (e : Engine) (t : Thread) (rd v pc : Nat) : Engine :=
  (e.setThread (t.retired rd v pc)).alwaysN Reg.RIL_INSNS 1

@[simp] theorem Engine.retireCounted_mem (e : Engine) (t : Thread) (rd v pc : Nat) : (e.retireCounted t rd v pc).mem = e.mem := rfl

theorem Engine.retireCounted_thread (e : Engine) (t : Thread) (rd v pc : Nat) :
    (e.retireCounted t rd v pc).thread t.id = some (t.retired rd v pc) := by
  rw [Engine.retireCounted, Engine.alwaysN_thread, ← t.retired_id rd v pc, Engine.thread_setThread_same]

theorem Engine.retireCounted_rd_insns (e : Engine) (t : Thread) (rd v pc : Nat) :
    (e.retireCounted t rd v pc).rd Reg.RIL_INSNS = (e.rd Reg.RIL_INSNS + 1) % 2 ^ 64 := by
  rw [Engine.retireCounted, Engine.alwaysN, Engine.rd_wr_same, Nat.mod_mod, Engine.setThread_rd]

theorem Engine.retire_below_limit (e : Engine) {t : Thread} (rd v pc : Nat) (h : t.limit = 0 ∨ t.instret + 1 < t.limit) :
    e.retire t rd v pc = e.retireCounted t rd v pc := by
  refine if_neg ?_
  simp only [Thread.setReg_limit]
  omega

/-- The thread's last instruction takes effect before INSN_LIMIT does. -/
theorem Engine.retire_at_limit (e : Engine) {t : Thread} (rd v pc : Nat) (h0 : t.limit ≠ 0) (h : t.limit ≤ t.instret + 1) :
    e.retire t rd v pc = (e.retireCounted t rd v pc).thrExcept (t.retired rd v pc) 24 (t.retired rd v pc).limit := by
  refine if_pos ?_
  simp only [Thread.setReg_limit]
  exact ⟨h0, h⟩

/-- The last instruction of a thread at its limit retires, and then INSN_LIMIT ends it. -/
theorem Engine.retire_at_limit_ends (e : Engine) {t : Thread} (rd v pc : Nat) (h0 : t.limit ≠ 0) (h : t.limit ≤ t.instret + 1) :
    (e.retire t rd v pc).thread t.id = some ((t.retired rd v pc).excepted 24) ∧ (e.retire t rd v pc).mem = e.mem := by
  rw [e.retire_at_limit rd v pc h0 h]
  refine ⟨?_, ?_⟩
  · rw [← t.retired_id rd v pc, Engine.thrExcept_thread]
  · rw [Engine.thrExcept_mem, Engine.retireCounted_mem]

/-! ### Plain instructions (R448, log entry 17) -/

theorem plainInstr_go {t : Thread} {w rd v pc : Nat} (e : Engine) (h : rvPlain t.reg t.pc w = .go rd v pc) :
    plainInstr t w e = e.retire t rd v pc := by simp [plainInstr, h]

theorem plainInstr_trap {t : Thread} {w c v : Nat} (e : Engine) (h : rvPlain t.reg t.pc w = .trap c v) :
    plainInstr t w e = e.thrExcept t c v := by simp [plainInstr, h]

/-- ADDI: an immediate in OP-IMM with funct3 0. -/
theorem rvPlain_addi (reg : Nat → Nat) (pc : Nat) {rd rs imm : Nat} (hrd : rd < 32) (hrs : rs < 32) (himm : imm < 4096) :
    rvPlain reg pc (0x13 + 2 ^ 7 * rd + 2 ^ 15 * rs + 2 ^ 20 * imm) =
      .go rd ((reg rs + sx 12 imm) % 2 ^ 64) ((pc + 4) % 2 ^ 64) := by
  generalize hw : 0x13 + 2 ^ 7 * rd + 2 ^ 15 * rs + 2 ^ 20 * imm = w
  have hop : rvOp w = 0x13 := by rw [rvOp, bitsOf_eq]; omega
  have hf3 : rvF3 w = 0 := by rw [rvF3, bitsOf_eq]; omega
  have hRd : rvRd w = rd := by rw [rvRd, bitsOf_eq]; omega
  have hRs1 : rvRs1 w = rs := by rw [rvRs1, bitsOf_eq]; omega
  have hImm : bitsOf w 31 20 = imm := by rw [bitsOf_eq]; omega
  simp [rvPlain, hop, hf3, hRd, hRs1, immI, hImm, rvAlu, wrap64]

/-- DIVU: OP with funct7 1 and funct3 5. -/
theorem rvPlain_divu (reg : Nat → Nat) (pc : Nat) {rd rs1 rs2 : Nat} (hrd : rd < 32) (hrs1 : rs1 < 32) (hrs2 : rs2 < 32) :
    rvPlain reg pc (0x33 + 2 ^ 7 * rd + 2 ^ 12 * 5 + 2 ^ 15 * rs1 + 2 ^ 20 * rs2 + 2 ^ 25) =
      .go rd (if reg rs2 % 2 ^ 64 = 0 then 2 ^ 64 - 1 else reg rs1 % 2 ^ 64 / (reg rs2 % 2 ^ 64)) ((pc + 4) % 2 ^ 64) := by
  generalize hw : 0x33 + 2 ^ 7 * rd + 2 ^ 12 * 5 + 2 ^ 15 * rs1 + 2 ^ 20 * rs2 + 2 ^ 25 = w
  have hop : rvOp w = 0x33 := by rw [rvOp, bitsOf_eq]; omega
  have hf3 : rvF3 w = 5 := by rw [rvF3, bitsOf_eq]; omega
  have hf7 : rvF7 w = 1 := by rw [rvF7, bitsOf_eq]; omega
  have hRd : rvRd w = rd := by rw [rvRd, bitsOf_eq]; omega
  have hRs1 : rvRs1 w = rs1 := by rw [rvRs1, bitsOf_eq]; omega
  have hRs2 : rvRs2 w = rs2 := by rw [rvRs2, bitsOf_eq]; omega
  simp [rvPlain, hop, hf3, hf7, hRd, hRs1, hRs2, rvMul, rvDiv, wrap64]

/-! ### Loads and stores (R450 to R458) -/

section
variable {t : Thread} {w a : Nat} {e : Engine}

theorem loadInstr_ok {ecc : Ecc} {d : Bytes} {e1 : Engine} (hloc : e.locate ((t.reg (rvRs1 w) + immI w) % 2 ^ 64) = .here a)
    (hacc : e.accRead a (2 ^ (rvF3 w % 4)) = .ok) (hread : e.localRead a (2 ^ (rvF3 w % 4)) ecc = (some d, e1)) :
    loadInstr ecc t w e = e1.retireNext t (rvRd w) (loadValue (2 ^ (rvF3 w % 4)) (decide (rvF3 w < 4)) d) := by
  simp only [loadInstr, wrap64, hloc, hacc, hread]

theorem loadInstr_poison {ecc : Ecc} {e1 : Engine} (hloc : e.locate ((t.reg (rvRs1 w) + immI w) % 2 ^ 64) = .here a)
    (hacc : e.accRead a (2 ^ (rvF3 w % 4)) = .ok) (hread : e.localRead a (2 ^ (rvF3 w % 4)) ecc = (none, e1)) :
    loadInstr ecc t w e = e1.thrPoison t 3 a (2 ^ (rvF3 w % 4)) := by
  simp only [loadInstr, wrap64, hloc, hacc, hread]

theorem loadInstr_access {ecc : Ecc} (hloc : e.locate ((t.reg (rvRs1 w) + immI w) % 2 ^ 64) = .here a)
    (hacc : e.accRead a (2 ^ (rvF3 w % 4)) = .access) :
    loadInstr ecc t w e = e.thrExcept t 5 ((t.reg (rvRs1 w) + immI w) % 2 ^ 64) := by
  simp only [loadInstr, wrap64, hloc, hacc]

theorem farAcc_aligned {n : Nat} (h : a % n = 0) : farAcc a n = .ok := if_pos h

theorem loadInstr_far {ecc : Ecc} {id : Nat} (hloc : e.locate ((t.reg (rvRs1 w) + immI w) % 2 ^ 64) = .far id a)
    (halign : a % 2 ^ (rvF3 w % 4) = 0) :
    loadInstr ecc t w e =
      e.remoteWait t 1 id a (2 ^ (rvF3 w % 4)) 0 ((t.reg (rvRs1 w) + immI w) % 2 ^ 64)
        (.load (2 ^ (rvF3 w % 4)) (rvRd w) (decide (rvF3 w < 4))) [] := by
  simp only [loadInstr, wrap64, hloc, farAcc_aligned halign]

theorem storeInstr_ok (hloc : e.locate ((t.reg (rvRs1 w) + immS w) % 2 ^ 64) = .here a) (hacc : e.accWrite a (2 ^ rvF3 w) = .ok) :
    storeInstr t w e = (e.store a (natLE (2 ^ rvF3 w) (t.reg (rvRs2 w)))).retireNext t 0 0 := by
  simp only [storeInstr, wrap64, hloc, hacc]

theorem storeInstr_access (hloc : e.locate ((t.reg (rvRs1 w) + immS w) % 2 ^ 64) = .here a)
    (hacc : e.accWrite a (2 ^ rvF3 w) = .access) :
    storeInstr t w e = e.thrExcept t 7 ((t.reg (rvRs1 w) + immS w) % 2 ^ 64) := by
  simp only [storeInstr, wrap64, hloc, hacc]

/-! ### Atomics (R461, R462) -/

/-- An atomic with aq and rl clear is no ordering point. -/
theorem aq_rl_clear (h : bitsOf w 26 25 = 0) : bitOf w 26 = false ∧ bitOf w 25 = false := by
  rw [bitsOf_eq] at h
  simp only [bitOf, Nat.shiftRight_eq_div_pow, beq_eq_false_iff_ne]
  omega

theorem amoInstr_ok {ecc : Ecc} {d : Bytes} {e1 : Engine} {v : Nat} (hbits : bitsOf w 26 25 = 0) (hlt : t.reg (rvRs1 w) < 2 ^ 56)
    (halign : t.reg (rvRs1 w) % 2 ^ rvF3 w = 0) (hloc : e.locate (t.reg (rvRs1 w)) = .here a)
    (hacc : e.accWrite a (2 ^ rvF3 w) = .ok) (hread : e.localRead a (2 ^ rvF3 w) ecc = (some d, e1))
    (hnew : amoNew (rvF5 w) (2 ^ rvF3 w) (leNat d) (t.reg (rvRs2 w)) 0 = some v) :
    amoInstr ecc t w e = (e1.store a (natLE (2 ^ rvF3 w) v)).retireNext t (rvRd w) (loadValue (2 ^ rvF3 w) true d) := by
  obtain ⟨haq, hrl⟩ := aq_rl_clear hbits
  simp [-Nat.reducePow, amoInstr, Engine.amo, haq, hrl, Nat.div_eq_of_lt hlt, halign, hloc, hacc, hread, hnew]

/-- The alignment of an atomic is judged before its access (log entry 63). -/
theorem amoInstr_misaligned {ecc : Ecc} (hbits : bitsOf w 26 25 = 0) (hlt : t.reg (rvRs1 w) < 2 ^ 56)
    (halign : t.reg (rvRs1 w) % 2 ^ rvF3 w ≠ 0) : amoInstr ecc t w e = e.thrExcept t 6 (t.reg (rvRs1 w)) := by
  obtain ⟨haq, hrl⟩ := aq_rl_clear hbits
  simp [-Nat.reducePow, amoInstr, Engine.amo, haq, hrl, Nat.div_eq_of_lt hlt, halign]

theorem lrInstr_ok {d : Bytes} {e1 : Engine} (hbits : bitsOf w 26 25 = 0) (hwhere : e.lrWhere (t.reg (rvRs1 w)) (2 ^ rvF3 w) = some a)
    (halign : a % 2 ^ rvF3 w = 0) (hread : e.localRead a (2 ^ rvF3 w) .clean = (some d, e1)) :
    lrInstr t w e = e1.retireNext { t with resv := some (a / 8 * 8) } (rvRd w) (loadValue (2 ^ rvF3 w) true d) := by
  obtain ⟨haq, hrl⟩ := aq_rl_clear hbits
  simp [lrInstr, haq, hrl, hwhere, halign, hread]

theorem lrInstr_access (hbits : bitsOf w 26 25 = 0) (hwhere : e.lrWhere (t.reg (rvRs1 w)) (2 ^ rvF3 w) = none) :
    lrInstr t w e = e.thrExcept t 5 (t.reg (rvRs1 w)) := by
  obtain ⟨haq, hrl⟩ := aq_rl_clear hbits
  simp [lrInstr, haq, hrl, hwhere]

theorem scInstr_ok (hbits : bitsOf w 26 25 = 0) (hwhere : e.lrWhere (t.reg (rvRs1 w)) (2 ^ rvF3 w) = some a)
    (halign : a % 2 ^ rvF3 w = 0) :
    scInstr t w e =
      if t.resv = some (a / 8 * 8) then
        (e.store a (natLE (2 ^ rvF3 w) (t.reg (rvRs2 w)))).retireNext { t with resv := none } (rvRd w) 0
      else e.retireNext { t with resv := none } (rvRd w) 1 := by
  obtain ⟨haq, hrl⟩ := aq_rl_clear hbits
  simp [scInstr, haq, hrl, hwhere, halign]

/-! ### Order and control registers (R449, R455, R459) -/

theorem Engine.ordered_waits {f : Engine → Engine} (h : t.storesOut = true) : e.ordered t true f = e.thrWait t (.retry 9) := by
  simp [Engine.ordered, h]

/-- With no store outstanding an ordering point reports a store that failed. -/
theorem Engine.ordered_fault {f : Engine → Engine} {waits : Bool} {c v : Nat} (h : t.storesOut = false) (hf : t.fault = some (c, v)) :
    e.ordered t waits f = e.thrExcept { t with fault := none } c v := by simp [Engine.ordered, h, hf]

theorem Engine.ordered_acts {f : Engine → Engine} {waits : Bool} (h : t.storesOut = false) (hf : t.fault = none) :
    e.ordered t waits f = f e := by simp [Engine.ordered, h, hf]

/-- FENCE iorw,iorw orders the thread's stores. -/
theorem fenceInstr_waits (hw : bitsOf w 31 20 = 0x0FF) (h : t.storesOut = true) : fenceInstr t w e = e.thrWait t (.retry 9) := by
  have hpred : bitsOf w 27 24 = 15 := by rw [bitsOf_eq] at hw ⊢; omega
  have hsucc : bitsOf w 23 20 = 15 := by rw [bitsOf_eq] at hw ⊢; omega
  have hfm : bitsOf w 31 28 = 0 := by rw [bitsOf_eq] at hw ⊢; omega
  have hwaits : (bitsOf w 31 28 == 8 || (bitOf (bitsOf w 27 24) 0 || bitOf (bitsOf w 27 24) 2) && bitsOf w 23 20 != 0) = true := by
    rw [hpred, hsucc, hfm]; decide
  rw [fenceInstr, hwaits, Engine.ordered_waits h]

theorem fenceInstr_acts (h : t.storesOut = false) (hf : t.fault = none) : fenceInstr t w e = e.retireNext t 0 0 := by
  rw [fenceInstr, Engine.ordered_acts h hf]

theorem fenceInstr_fault {c v : Nat} (h : t.storesOut = false) (hf : t.fault = some (c, v)) :
    fenceInstr t w e = e.thrExcept { t with fault := none } c v := by rw [fenceInstr, Engine.ordered_fault h hf]

theorem csrInstr_read {n : Nat} (hcsr : e.csr t (bitsOf w 31 20) = some n) (hf3 : rvF3 w % 4 ≠ 1) (hrs1 : rvRs1 w = 0) :
    csrInstr t w e = e.retireNext t (rvRd w) n := by simp [csrInstr, hcsr, hf3, hrs1]

/-- Another register, or a write, is illegal (R449). -/
theorem csrInstr_illegal (h : e.csr t (bitsOf w 31 20) = none ∨ rvF3 w % 4 = 1 ∨ rvRs1 w ≠ 0) :
    csrInstr t w e = e.thrExcept t 2 w := by
  unfold csrInstr
  cases hcsr : e.csr t (bitsOf w 31 20) with
  | none => rfl
  | some v =>
    have hwrites : rvF3 w % 4 = 1 ∨ rvRs1 w ≠ 0 := h.resolve_left (by simp [hcsr])
    exact if_pos (by simpa using hwrites)

end

/-! ### The rows (R447 to R463) -/

/-- A store that is permitted writes its bytes, and its thread goes on at the next instruction. -/
theorem store_runs {s : State} {tid w a : Nat} {t : Thread} {e : Engine} (hup : s.engineUp = true)
    (hi : s.eng.issued tid .store = some (t, w, e)) (hloc : e.locate ((t.reg (rvRs1 w) + immS w) % 2 ^ 64) = .here a)
    (hacc : e.accWrite a (2 ^ rvF3 w) = .ok) (hlim : t.limit = 0) :
    Runs (.store tid) s fun u => u.eng.mem = Tbl.writeBytes s.eng.mem a (natLE (2 ^ rvF3 w) (t.reg (rvRs2 w))) ∧
      (u.eng.thread tid).map (fun x => (x.pc, x.st)) = some ((t.pc + 4) % 2 ^ 64, .ready) := by
  refine ⟨_, does_of_issued rfl hup hi (storeInstr_ok hloc hacc), ?_⟩
  simp only [State.onEng_eng, Engine.retireNext, Engine.retire_below_limit _ 0 0 _ (.inl hlim)]
  refine ⟨?_, ?_⟩
  · rw [Engine.retireCounted_mem, Engine.store_mem, Engine.issued_mem hi]
  · rw [← Engine.issued_id hi, Engine.retireCounted_thread]; rfl

/-- Settles O49: every row is a step in which its thread issues, each instruction has its equation, and a retirement and an exception
leave the thread, the counters and memory as their lemmas say. -/
theorem threadsRunInstructions : Obligations.ThreadsRunInstructions := by
  refine ⟨?idle, ?notIssued, ?fetchFault, ?plainGo, ?plainTrap, ?retires, Thread.reg_setReg, ?limit, ?exception, ?addi, ?divu,
    ?load, ?loadPoison, ?loadAccess, ?loadFar, ?store, ?storeAccess, ?amo, ?amoMisaligned, ?lr, ?lrAccess, ?sc,
    ?fence, ?fenceWaits, ?fenceFault, ?csr, ?csrIllegal⟩
  case idle =>
    intro s c tid cls hup hrow hidle
    exact exec_of_issue_eq_self hrow hup fun f => Engine.issue_idle hidle
  case notIssued =>
    intro s c tid cls hup hrow hcls hnone
    exact exec_of_issue_eq_self hrow hup fun f => Engine.issue_none hcls hnone
  case fetchFault =>
    intro s tid t e1 e2 c v hup ht hst hrate hfetch
    exact (Does.engine rfl hup).congr (Engine.issue_fetch_error ht hst hrate hfetch)
  case plainGo =>
    intro s tid t w e rd v pc hup hi hgo
    exact does_of_issued rfl hup hi (plainInstr_go e hgo)
  case plainTrap =>
    intro s tid t w e c v hup hi htrap
    exact does_of_issued rfl hup hi (plainInstr_trap e htrap)
  case retires =>
    intro e t rd v pc hlim
    rw [e.retire_below_limit rd v pc hlim]
    exact ⟨e.retireCounted_thread t rd v pc, e.retireCounted_mem t rd v pc, e.retireCounted_rd_insns t rd v pc⟩
  case limit =>
    intro e t rd v pc h0 h
    obtain ⟨hthread, hmem⟩ := e.retire_at_limit_ends rd v pc h0 h
    exact ⟨by rw [hthread]; rfl, hmem⟩
  case exception =>
    intro e t c v hrec hc
    obtain ⟨hfault, hpc, htval, hcnt⟩ := Engine.thrExcept_records t v hrec hc
    exact ⟨e.thrExcept_thread t c v, hfault, hpc, htval, hcnt, e.thrExcept_mem t c v⟩
  case addi => exact fun reg pc rd rs imm hrd hrs himm => rvPlain_addi reg pc hrd hrs himm
  case divu => exact fun reg pc rd rs1 rs2 hrd hrs1 hrs2 => rvPlain_divu reg pc hrd hrs1 hrs2
  case load =>
    intro s tid ecc t w e a d e1 hup hi hloc hacc hread
    exact does_of_issued rfl hup hi (loadInstr_ok hloc hacc hread)
  case loadPoison =>
    intro s tid ecc t w e a e1 hup hi hloc hacc hread
    exact does_of_issued rfl hup hi (loadInstr_poison hloc hacc hread)
  case loadAccess =>
    intro s tid ecc t w e a hup hi hloc hacc
    exact does_of_issued rfl hup hi (loadInstr_access hloc hacc)
  case loadFar =>
    intro s tid ecc t w e id a hup hi hloc halign
    exact does_of_issued rfl hup hi (loadInstr_far hloc halign)
  case store => exact fun s tid t w e a hup hi hloc hacc hlim => store_runs hup hi hloc hacc hlim
  case storeAccess =>
    intro s tid t w e a hup hi hloc hacc
    exact does_of_issued rfl hup hi (storeInstr_access hloc hacc)
  case amo =>
    intro s tid ecc t w e a d e1 v hup hi hbits hlt halign hloc hacc hread hnew
    exact does_of_issued rfl hup hi (amoInstr_ok hbits hlt halign hloc hacc hread hnew)
  case amoMisaligned =>
    intro s tid ecc t w e hup hi hbits hlt halign
    exact does_of_issued rfl hup hi (amoInstr_misaligned hbits hlt halign)
  case lr =>
    intro s tid t w e a d e1 hup hi hbits hwhere halign hread
    exact does_of_issued rfl hup hi (lrInstr_ok hbits hwhere halign hread)
  case lrAccess =>
    intro s tid t w e hup hi hbits hwhere
    exact does_of_issued rfl hup hi (lrInstr_access hbits hwhere)
  case sc =>
    intro s tid t w e a hup hi hbits hwhere halign
    exact does_of_issued rfl hup hi (scInstr_ok hbits hwhere halign)
  case fence =>
    intro s tid t w e hup hi hout hfault
    exact does_of_issued rfl hup hi (fenceInstr_acts hout hfault)
  case fenceWaits =>
    intro s tid t w e hup hi hout hw
    exact does_of_issued rfl hup hi (fenceInstr_waits hw hout)
  case fenceFault =>
    intro s tid t w e c a hup hi hout hfault
    exact does_of_issued rfl hup hi (fenceInstr_fault hout hfault)
  case csr =>
    intro s tid t w e v hup hi hcsr hf3 hrs1
    exact does_of_issued rfl hup hi (csrInstr_read hcsr hf3 hrs1)
  case csrIllegal =>
    intro s tid t w e hup hi h
    exact does_of_issued rfl hup hi (csrInstr_illegal h)

end Sys2Proof.Machine

/-!
SUPPORT and PROOFS. The Xmelor instructions (R475 to R509): what an operand, a buffer, a ticket and an atomic come to, and what each
instruction and each wake comes to.
-/
namespace Sys2Proof.Machine

/-! ### Operands, buffers and atomics (R461, R477, R480, R499) -/

section
variable {t : Thread} {w a n addr : Nat} {e e1 : Engine}

/-- A source buffer that keeps the rule and holds no poisoned data gives its bytes. -/
theorem Engine.withSource_ok {f : Bytes → Engine → Engine} (hbuf : e.buffer addr n false = .ok a)
    (hread : e.checkRead (localMem a) a n .clean = (false, e1)) : e.withSource t addr n f = f (e1.readMem a n) e1 := by
  simp only [Engine.withSource, hbuf, hread]

theorem Engine.withDest_ok {f : Nat → Engine} (hbuf : e.buffer addr n true = .ok a) : e.withDest t addr n f = f a := by
  simp only [Engine.withDest, hbuf]

/-- An atomic that is no ordering point, on a permitted word of this module. -/
theorem Engine.amo_here {func x y rd : Nat} {ecc : Ecc} {d : Bytes} (hlt : addr < 2 ^ 56) (halign : addr % n = 0)
    (hloc : e.locate addr = .here a) (hacc : e.accWrite a n = .ok) (hread : e.localRead a n ecc = (some d, e1)) :
    e.amo t n func addr x y rd false false ecc =
      ((amoNew func n (leNat d) x y).elim e1 fun v => e1.store a (natLE n v)).retireNext t rd (loadValue n true d) := by
  simp only [Engine.amo, Nat.div_eq_of_lt hlt, halign, hloc, hacc, hread]
  cases amoNew func n (leNat d) x y <;> rfl

/-- A compare-and-swap writes where the word is the one compared (R499). -/
theorem xCasInstr_here {d : Bytes} (hbits : bitsOf w 26 25 = 0) (hlt : t.reg (rvRs1 w) < 2 ^ 56) (halign : t.reg (rvRs1 w) % n = 0)
    (hloc : e.locate (t.reg (rvRs1 w)) = .here a) (hacc : e.accWrite a n = .ok) (hread : e.localRead a n .clean = (some d, e1)) :
    xCasInstr n t w e =
      (if leNat d = t.reg (rvRs2 w) % 2 ^ (8 * n) then e1.store a (natLE n (t.reg (rvRs3 w) % 2 ^ (8 * n))) else e1).retireNext t
        (rvRd w) (loadValue n true d) := by
  obtain ⟨haq, hrl⟩ := aq_rl_clear hbits
  rw [xCasInstr, haq, hrl, Engine.amo_here hlt halign hloc hacc hread]
  simp only [amoNew]
  split <;> rfl

/-- A saturating add stops at the greatest word (R500). -/
theorem xSaddInstr_here {d : Bytes} (hbits : bitsOf w 26 25 = 0) (hlt : t.reg (rvRs1 w) < 2 ^ 56) (halign : t.reg (rvRs1 w) % 8 = 0)
    (hloc : e.locate (t.reg (rvRs1 w)) = .here a) (hacc : e.accWrite a 8 = .ok) (hread : e.localRead a 8 .clean = (some d, e1)) :
    xSaddInstr t w e =
      (e1.store a (natLE 8 (min (leNat d + t.reg (rvRs2 w)) (2 ^ 64 - 1)))).retireNext t (rvRd w) (loadValue 8 true d) := by
  obtain ⟨haq, hrl⟩ := aq_rl_clear hbits
  rw [xSaddInstr, haq, hrl, Engine.amo_here hlt halign hloc hacc hread]
  rfl

end

/-! ### Thread control (R482 to R485) -/

section
variable {t : Thread} {w a : Nat} {e e1 : Engine}

/-- X.END ends its thread with the exit value and changes no memory. -/
theorem xEndInstr_ends (t : Thread) (w : Nat) (e : Engine) :
    (xEndInstr t w e).thread t.id =
      some { t with st := .ending, ended := some (.exit (t.reg (rvRs1 w) % 2 ^ 24)), instret := t.instret + 1 } ∧
    (xEndInstr t w e).mem = e.mem :=
  ⟨Engine.thread_setThread_same e
    { t with st := .ending, ended := some (.exit (t.reg (rvRs1 w) % 2 ^ 24)), instret := t.instret + 1 }, rfl⟩

/-- Bits of rs2 above ANYCORE are an operand that breaks the rule (R483). -/
theorem xSpawnInstr_badOperand (hx : 2 ^ 19 ≤ t.reg (rvRs2 w)) : xSpawnInstr t w e = e.thrExcept t 28 (t.reg (rvRs2 w)) :=
  if_pos (.inl (Nat.div_pos hx (by decide)).ne')

/-- An operand that names one core asks neither for any core nor for reserved bits. -/
theorem spawn_names_core {x : Nat} (hx : x < 2 ^ 18) : x / 2 ^ 19 = 0 ∧ bitOf x 18 = false := by
  refine ⟨Nat.div_eq_of_lt (by omega), ?_⟩
  rw [bitOf, Nat.shiftRight_eq_div_pow, Nat.div_eq_of_lt hx]
  rfl

theorem xWaitneInstr_reads (hfault : t.fault = none) (hloc : e.locate (t.reg (rvRs1 w)) = .here a) (halign : a % 8 = 0)
    (hacc : e.accRead a 8 = .ok) :
    xWaitneInstr t w e = e.waitneRead t a (t.reg (rvRs2 w)) (t.reg (rvRs3 w)) (rvRd w) := by
  simp [xWaitneInstr, Engine.ordered, hfault, hloc, halign, hacc]

theorem Engine.waitneRead_good {cmp d rd : Nat} {b : Bytes} (hread : e.localRead a 8 .clean = (some b, e1)) :
    e.waitneRead t a cmp d rd =
      if leNat b ≠ cmp ∨ d ≤ e1.time then e1.retireNext t rd (leNat b) else e1.thrWait t (.waitne a cmp d rd) := by
  simp only [Engine.waitneRead, hread]

theorem xWaitneWake_reads {tid cmp d rd : Nat} (ht : e.thread tid = some t) (hst : t.st = .waiting (.waitne a cmp d rd)) :
    xWaitneWake tid e = e.waitneRead t a cmp d rd := by
  simp only [xWaitneWake, ht, hst]

/-- A sleeper's wake looks at its deadline again (R484). -/
theorem xSleepWake_sleeping {tid d : Nat} (ht : e.thread tid = some t) (hst : t.st = .waiting (.sleep d)) :
    xSleepWake tid e = if d ≤ e.time then e.retireNext t 0 0 else e := by
  simp only [xSleepWake, ht, hst]

/-! ### What breaks a rule before an instruction orders anything (R477, R493, R494, R496, R497) -/

theorem xWaitcInstr_noTicket (hx : t.reg (rvRs1 w) < 4) (hk : Tbl.find t.tickets (t.reg (rvRs1 w)) = none) :
    xWaitcInstr t w e = e.thrExcept t 30 (t.reg (rvRs1 w)) := by
  simp only [xWaitcInstr, Nat.div_eq_of_lt hx, hk, ne_eq, not_true_eq_false, if_false]

theorem xOrceInstr_badOperand (hx : 64 ≤ t.reg (rvRs2 w)) : xOrceInstr t w e = e.thrExcept t 28 (t.reg (rvRs2 w)) :=
  if_pos (Nat.div_pos hx (by decide)).ne'

theorem xEmitvInstr_badOperand (hx : 256 ≤ t.reg (rvRs2 w)) : xEmitvInstr t w e = e.thrExcept t 28 (t.reg (rvRs2 w)) :=
  if_pos (Nat.div_pos hx (by decide)).ne'

/-- A thread that holds no ticket takes ticket 0. -/
theorem lowest_free_ticket_zero (h : t.tickets = []) :
    ([0, 1, 2, 3].find? fun k => (Tbl.find t.tickets k).isNone) = some 0 := by
  rw [h]
  rfl

/-- A thread holds four tickets and no fifth (R494). -/
theorem xMillInstr_noTicket (h : ([0, 1, 2, 3].all fun k => (Tbl.find t.tickets k).isSome) = true) :
    xMillInstr t w e = e.thrExcept t 30 4 := by
  have hfull : ([0, 1, 2, 3].find? fun k => (Tbl.find t.tickets k).isNone) = none := by
    rw [List.find?_eq_none]
    intro k hk
    rw [Option.isNone_iff_eq_none, ← Option.not_isSome_iff_eq_none, not_not]
    exact List.all_eq_true.mp h k hk
  simp only [xMillInstr, hfull]

end

/-! ### Sheaves (R486 to R490) -/

section
variable {t : Thread} {w a b : Nat} {e e1 : Engine}

theorem xShkeyInstr_ok (hdst : e.buffer (t.reg (rvRs2 w)) 48 true = .ok b) (hsrc : e.buffer (t.reg (rvRs1 w)) 224 false = .ok a)
    (hread : e.checkRead (localMem a) a 224 .clean = (false, e1)) :
    xShkeyInstr t w e =
      (e1.store b (flowKey (e1.readMem a 224) (rvF7 w))).retireNext t (rvRd w) (flowHash (flowKey (e1.readMem a 224) (rvF7 w))) := by
  rw [xShkeyInstr, Engine.withDest_ok hdst, Engine.withSource_ok hsrc hread]

/-- At its home a sheaf instruction that has its turn and its flow acts, lets the flow go and retires. -/
theorem Engine.sheafThread_home {key : Bytes} {f7 x rs1 rd buf len : Nat} (hst : t.st = .ready) (hhome : t.home = none)
    (hself : e.homeOf key e.time = e.selfId) (hrate : e.takeRate 3 64 8 = some e1)
    (hflow : (e1.takeFlow (.thread t.id) key e.time).1 = true) :
    e.sheafThread t key f7 x rs1 rd buf len =
      ((((if ((e1.takeFlow (.thread t.id) key e.time).2.2.sheafInsn key f7 x).2.1.isEmpty = true then
        ((e1.takeFlow (.thread t.id) key e.time).2.2.sheafInsn key f7 x).2.2
      else ((e1.takeFlow (.thread t.id) key e.time).2.2.sheafInsn key f7 x).2.2.store buf
        ((e1.takeFlow (.thread t.id) key e.time).2.2.sheafInsn key f7 x).2.1).busy 294).releaseFlow (.thread t.id)).retireNext
        { t with home := some e.selfId } rd ((e1.takeFlow (.thread t.id) key e.time).2.2.sheafInsn key f7 x).1) := by
  simp [Engine.sheafThread, hst, hhome, hself, hrate, hflow]

end

/-! ### Instructions that are ordering points (R459, R483, R488 to R497) -/

section
variable {t : Thread} {w a b : Nat} {e e1 : Engine} (hout : t.storesOut = false) (hfault : t.fault = none)
include hout hfault

/-- A spawn on a core whose bank's domain is not on starts no thread (R483). -/
theorem xSpawnInstr_domainOff (hx : t.reg (rvRs2 w) < 2 ^ 18) (hbuf : e.buffer (t.reg (rvRs1 w)) 256 false = .ok a)
    (hread : e.checkRead (localMem a) a 256 .clean = (false, e1))
    (hoff : e1.domOn (bitsOf (t.reg (rvRs2 w)) 12 10) = false) :
    xSpawnInstr t w e = (e1.count (Reg.CLK_CNT 3)).retireNext t (rvRd w) (2 ^ 63 + 2) := by
  obtain ⟨hhigh, hany⟩ := spawn_names_core hx
  simp [-Nat.reducePow, xSpawnInstr, hhigh, hany, Engine.ordered_acts hout hfault, Engine.withSource_ok hbuf hread, hoff]

/-- A spawn on a core with a FREE context starts a thread there with the start block read. -/
theorem xSpawnInstr_starts {m : Model} {d : Bytes} {c : Nat} (hx : t.reg (rvRs2 w) < 2 ^ 18)
    (hbuf : e.buffer (t.reg (rvRs1 w)) 256 false = .ok a) (hread : e.checkRead (localMem a) a 256 .clean = (false, e1))
    (hon : e1.domOn (bitsOf (t.reg (rvRs2 w)) 12 10) = true) (hm : e1.modelOf t.epoch = some m)
    (hd : m.program (t.reg (rvRs2 w) % 1024) = some d)
    (hc : e1.firstCtx [32 * bitsOf (t.reg (rvRs2 w)) 12 10 + bitsOf (t.reg (rvRs2 w)) 17 13] = some c) :
    xSpawnInstr t w e =
      (e1.startThread c 2 (t.reg (rvRs2 w) % 1024) m d (e1.readMem a 256)).2.retireNext t (rvRd w)
        (e1.startThread c 2 (t.reg (rvRs2 w) % 1024) m d (e1.readMem a 256)).1 := by
  obtain ⟨hhigh, hany⟩ := spawn_names_core hx
  simp [-Nat.reducePow, xSpawnInstr, hhigh, hany, Engine.ordered_acts hout hfault, Engine.withSource_ok hbuf hread, hon, hm, hd, hc]

/-- A held ticket is freed, or waited for (R496). -/
theorem xWaitcInstr_ticket {d : Option MilDone} (hx : t.reg (rvRs1 w) < 4) (hk : Tbl.find t.tickets (t.reg (rvRs1 w)) = some d) :
    xWaitcInstr t w e =
      d.elim (e.thrWait t (.ticket (t.reg (rvRs1 w)) (rvRd w))) fun d => e.ticketDone t (t.reg (rvRs1 w)) (rvRd w) d := by
  simp only [xWaitcInstr, Nat.div_eq_of_lt hx, hk, Engine.ordered_acts hout hfault]
  cases d <;> rfl

theorem xShrdInstr_hot (hf7 : rvF7 w = 0x10) (hdst : e.buffer (t.reg (rvRs2 w)) 128 true = .ok b)
    (hsrc : e.buffer (t.reg (rvRs1 w)) 48 false = .ok a) (hread : e.checkRead (localMem a) a 48 .clean = (false, e1)) :
    xShrdInstr t w e = e1.sheafThread t (e1.readMem a 48) 0x10 0 (t.reg (rvRs1 w)) (rvRd w) b 128 := by
  simp only [xShrdInstr, hf7, Engine.ordered_acts hout hfault]
  exact (Engine.withDest_ok hdst).trans (Engine.withSource_ok hsrc hread)

theorem xShwuInstr_user0 (hf7 : rvF7 w < 0x24) (hsrc : e.buffer (t.reg (rvRs1 w)) 48 false = .ok a)
    (hread : e.checkRead (localMem a) a 48 .clean = (false, e1)) :
    xShwuInstr t w e =
      e1.sheafThread t (e1.readMem a 48) (rvF7 w) (t.reg (rvRs2 w)) (t.reg (rvRs1 w)) (rvRd w) 0 0 := by
  simp only [xShwuInstr, Engine.ordered_acts hout hfault]
  rw [if_neg fun h => absurd h.1 (by omega), Engine.withSource_ok hsrc hread]

theorem xOrcgInstr_noModel (hm : e.modelOf t.epoch = none) : xOrcgInstr t w e = e.thrExcept t 29 (t.reg (rvRs3 w) % 64) := by
  simp [xOrcgInstr, Engine.ordered_acts hout hfault, hm]

theorem xOrcgInstr_grades {e2 e3 : Engine} {m : Model} {g : Sect} {im : Bytes} (hst : t.st = .ready)
    (hm : e.modelOf t.epoch = some m) (hg : m.sect 3 (t.reg (rvRs3 w) % 64) = some g)
    (hdst : e.buffer (t.reg (rvRs2 w)) 1024 true = .ok b) (hsrc : e.buffer (t.reg (rvRs1 w)) 336 false = .ok a)
    (hread : e.checkRead (localMem a) a 336 .clean = (false, e1)) (hbusy : e1.graderBusy e.time = false)
    (hrate : e1.takeRate 1 8 8 = some e2) (hsect : e2.readSect m g 5 (e2.thrRef t.id) .clean = (some im, e3)) :
    xOrcgInstr t w e =
      ((e3.busy 290).store b (packElems .f32 (gradeVector im (e1.readMem a 336)).1)).retireNext t (rvRd w)
        (rdFlags (gradeVector im (e1.readMem a 336)).2) := by
  simp [xOrcgInstr, Engine.ordered_acts hout hfault, hst, hm, hg, Engine.withDest_ok hdst, Engine.withSource_ok hsrc hread, hbusy,
    hrate, hsect]

theorem xOrceInstr_evaluates {e2 e3 : Engine} {m : Model} {d : Bytes} {v fl : Nat} (hx : t.reg (rvRs2 w) < 64)
    (hy : t.reg (rvRs3 w) < 2 ^ 32) (hm : e.modelOf t.epoch = some m)
    (hd : Model.ensemble (some m) (t.reg (rvRs2 w)) = some d) (hsrc : e.buffer (t.reg (rvRs1 w)) 1024 false = .ok a)
    (hread : e.checkRead (localMem a) a 1024 .clean = (false, e1)) (hhalves : e1.halves.isEmpty = false)
    (hturn : e1.orcTurn (.thr t.id) = true) (hrate : e1.takeRate 4 64 8 = some e2)
    (heval : ((e2.orcLeave (.thr t.id)).admitTrees (min (ensTrees d) (t.reg (rvRs3 w)))).evalEnsemble m d
      ((List.range 256).map fun i => leAt (e1.readMem a 1024) (4 * i) 4) (min (ensTrees d) (t.reg (rvRs3 w))) (e2.thrRef t.id) .clean =
        (some (v, fl), e3)) :
    xOrceInstr t w e =
      e3.retireNext t (rvRd w)
        (v + 2 ^ 32 * bucketOf d v (decide (min (ensTrees d) (t.reg (rvRs3 w)) < ensTrees d)) + rdFlags fl) := by
  have hx' : t.reg (rvRs2 w) / 2 ^ 6 = 0 := Nat.div_eq_of_lt hx
  have hy' : t.reg (rvRs3 w) / 2 ^ 32 = 0 := Nat.div_eq_of_lt hy
  have hens : ((e.modelOf t.epoch).bind fun m => (Model.ensemble (some m) (t.reg (rvRs2 w))).map fun d => (m, d)) = some (m, d) := by
    rw [hm, Option.bind_some, hd, Option.map_some]
  simp only [xOrceInstr, hx', hy', Engine.ordered_acts hout hfault, hens, Engine.withSource_ok hsrc hread, hhalves, hturn, hrate, heval]
  rfl

/-- Work that is refused at once holds the lowest free ticket with its status (R494, R495). -/
theorem xMillInstr_refused {e2 : Engine} {d : MilDone} {k : Nat}
    (hfree : ([0, 1, 2, 3].find? fun k => (Tbl.find t.tickets k).isNone) = some k)
    (hsrc : e.buffer (t.reg (rvRs1 w)) 32 false = .ok a) (hread : e.checkRead (localMem a) a 32 .clean = (false, e1))
    (hsub : e1.submission (.thread t.id k) (e1.readMem a 32) = (.error d, e2)) :
    xMillInstr t w e = e2.retireNext { t with tickets := Tbl.put t.tickets k (some d) } (rvRd w) k := by
  simp only [xMillInstr, hfree, Engine.ordered_acts hout hfault, Engine.withSource_ok hsrc hread, hsub]

/-- Work that passes its checks is placed, and its ticket stays without a result. -/
theorem xMillInstr_placed {e2 : Engine} {j : MilJob} {k q : Nat}
    (hfree : ([0, 1, 2, 3].find? fun k => (Tbl.find t.tickets k).isNone) = some k)
    (hsrc : e.buffer (t.reg (rvRs1 w)) 32 false = .ok a) (hread : e.checkRead (localMem a) a 32 .clean = (false, e1))
    (hsub : e1.submission (.thread t.id k) (e1.readMem a 32) = (.ok j, e2)) (hquad : e2.quadFor j.quad = some (some q))
    (hcheck : e2.jobCheck j = none) :
    xMillInstr t w e =
      (e2.placeJob { j with quad := q }).retireNext { t with tickets := Tbl.put t.tickets k none } (rvRd w) k := by
  simp only [xMillInstr, hfree, Engine.ordered_acts hout hfault, Engine.withSource_ok hsrc hread, hsub, hquad, hcheck]

/-- A record image with words 2 and 3 zero goes out with MODULE, EPOCH and KIND set by the engine (R497). -/
theorem xEmitvInstr_plain (hx : t.reg (rvRs2 w) < 256) (hsrc : e.buffer (t.reg (rvRs1 w)) 32 false = .ok a)
    (hread : e.checkRead (localMem a) a 32 .clean = (false, e1)) (hw2 : leAt (e1.readMem a 32) 16 8 = 0)
    (hw3 : leAt (e1.readMem a 32) 24 8 = 0) :
    xEmitvInstr t w e =
      (e1.pushVerdict (t.reg (rvRs2 w)) { words := [leAt (e1.readMem a 32) 0 8,
          leAt (e1.readMem a 32) 8 6 + 2 ^ 48 * (e1.selfId % 2 ^ 14), 0, t.epoch % 2 ^ 32 + 2 ^ 56], at_ := e1.time }
        (leAt (e1.readMem a 32) 0 8)).2.retireNext t 0 0 := by
  have hx' : t.reg (rvRs2 w) / 2 ^ 8 = 0 := Nat.div_eq_of_lt hx
  have hzero (hi lo : Nat) : bitsOf 0 hi lo = 0 := by simp [bitsOf]
  simp only [xEmitvInstr, hx', Engine.ordered_acts hout hfault, Engine.withSource_ok hsrc hread, hw2, hw3, hzero]
  rfl

end

/-! ### The end of mill work (R495, R496) -/

section
variable {e : Engine} {tid k m : Nat} {j : MilJob}

theorem Engine.jobTurn_of_no_waiting {o : MilOwner} (h : e.mil.waiting = []) : e.jobTurn o = e := by
  simp only [Engine.jobTurn, h, List.find?_nil]

theorem Engine.endJob_running {o : MilOwner} (hmill : e.jobMill o = some m) (hrun : e.milRun m = some (.job j)) :
    e.endJob o = some (m, j, ((e.setMilRun m none).busy (256 + m)).runJob j) := by
  simp only [Engine.endJob, hmill, Option.bind_some, hrun]

theorem xmillComplete_running (h : ((e.jobTurn (.thread tid k)).endJob (.thread tid k)).isNone = true) :
    xmillComplete tid k e = e.jobTurn (.thread tid k) := by
  simp only [xmillComplete, Option.isNone_iff_eq_none.mp h]

/-- Work without an output that ends well gives its ticket the status, the cycles and the flags. -/
theorem xmillComplete_ends {r : JobEnd} (hwait : e.mil.waiting = []) (hend : e.endJob (.thread tid k) = some (m, j, r))
    (hnone : r.out = none) (hstatus : r.status ≠ 0x10) :
    xmillComplete tid k e =
      (r.e.traceWork j 3 (256 + m) r.status).ticketEnds tid k ⟨r.status, 0, r.cycles, r.flags⟩ := by
  simp only [xmillComplete, Engine.jobTurn_of_no_waiting hwait, hend, hnone, if_neg hstatus]

end

/-! ### Markers and numbers (R501 to R503) -/

section
variable {t : Thread} {w : Nat} {e : Engine}

theorem gleanMarkInstr_untraced (h : e.is Fld.GLN_TRACE_CFG_EN = false) : gleanMarkInstr t w e = e.retireNext t 0 0 := by
  simp only [gleanMarkInstr, Engine.trace, h, Bool.false_and, if_neg Bool.false_ne_true]

theorem xQntInstr_badOperand (h : qntParams (t.reg (rvRs2 w)) = none) : xQntInstr t w e = e.thrExcept t 28 (t.reg (rvRs2 w)) := by
  simp only [xQntInstr, h, Engine.badOperand]

/-- A code of a format that is not sign-extended is the register's value (R502). -/
theorem xQntInstr_code {f : Fmt} {sc z : Nat} (hq : qntParams (t.reg (rvRs2 w)) = some (f, sc, z)) (h4 : f ≠ .int4) (h8 : f ≠ .int8) :
    xQntInstr t w e =
      e.retireNext t (rvRd w) ((quantise f (decode .f32 (t.reg (rvRs1 w) % 2 ^ 32)).1 (f32q sc) z).1 +
        rdNumFlags ((decode .f32 (t.reg (rvRs1 w) % 2 ^ 32)).2 |||
          (quantise f (decode .f32 (t.reg (rvRs1 w) % 2 ^ 32)).1 (f32q sc) z).2)) := by
  simp only [xQntInstr, hq, h4, h8, or_self, if_false]

theorem xDqtInstr_code {f : Fmt} {sc z : Nat} (hq : qntParams (t.reg (rvRs2 w)) = some (f, sc, z)) (hk : f ≠ .k20) :
    xDqtInstr t w e =
      e.retireNext t (rvRd w) ((dequantise f (t.reg (rvRs1 w) % 2 ^ f.bits) z (f32q sc) .f32).1 +
        rdNumFlags (dequantise f (t.reg (rvRs1 w) % 2 ^ f.bits) z (f32q sc) .f32).2) := by
  simp only [xDqtInstr, hq, if_neg hk]

/-- Operands that decode without a flag leave the flags of the result's narrowing alone (R501). -/
theorem xArithInstr_exact {op : NVal → NVal → NVal} {a b : NVal} (ha : decode .f32 (t.reg (rvRs1 w) % 2 ^ 32) = (a, 0))
    (hb : decode .f32 (t.reg (rvRs2 w) % 2 ^ 32) = (b, 0)) :
    xArithInstr op t w e = e.retireNext t (rvRd w) ((toF32 (op a b)).1 + rdNumFlags (toF32 (op a b)).2) := by
  simp only [xArithInstr, ha, hb, Nat.zero_or]

end

/-! ### The rows (R475 to R509) -/

theorem xEnd_runs {s : State} {tid w : Nat} {t : Thread} {e : Engine} (hup : s.engineUp = true)
    (hi : s.eng.issued tid (.xm .xend) = some (t, w, e)) :
    Runs (.xEnd tid) s fun u =>
      u.eng.thread tid = some { t with st := .ending, ended := some (.exit (t.reg (rvRs1 w) % 2 ^ 24)), instret := t.instret + 1 } ∧
      u.eng.mem = s.eng.mem := by
  obtain ⟨hthread, hmem⟩ := xEndInstr_ends t w e
  refine ⟨_, does_of_issued rfl hup hi rfl, ?_, ?_⟩
  · rw [← Engine.issued_id hi]
    exact hthread
  · exact hmem.trans (Engine.issued_mem hi)

/-- Settles O51: every row is a step in which its thread issues or wakes, and each instruction has its equation; what can end a thread
is judged before the instruction acts. -/
theorem xmelorInstructions : Obligations.XmelorInstructions := by
  refine ⟨?xend, ?spawn, ?spawnOff, ?spawnBad, ?sleep, ?sleepWake, ?sleepStays, ?waitne, ?waitneWake, ?waitc, ?waitcWaits, ?waitcNone,
    ?shkey, ?shrd, ?shwu, ?sheafHome, ?userOps, ?orcg, ?orcgNone, ?orce, ?orceBad, ?millRefused, ?millPlaced, ?millNone, ?millRuns,
    ?millEnds, ?emitv, ?emitvBad, ?mark, ?casW, ?casD, ?saddD, ?nrw, ?qntBad, ?qnt, ?dqt, ?fadd, ?fmul⟩
  case xend => exact fun s tid t w e hup hi => xEnd_runs hup hi
  case spawn =>
    intro s tid t w e a e1 m d c hup hi hx hout hfault hbuf hread hon hm hd hc
    exact does_of_issued rfl hup hi (xSpawnInstr_starts hout hfault hx hbuf hread hon hm hd hc)
  case spawnOff =>
    intro s tid t w e a e1 hup hi hx hout hfault hbuf hread hoff
    exact does_of_issued rfl hup hi (xSpawnInstr_domainOff hout hfault hx hbuf hread hoff)
  case spawnBad => exact fun s tid t w e hup hi hx => does_of_issued rfl hup hi (xSpawnInstr_badOperand hx)
  case sleep => exact fun s tid t w e hup hi => does_of_issued rfl hup hi rfl
  case sleepWake =>
    intro s tid t d hup ht hst hd
    exact (Does.engine rfl hup).congr ((xSleepWake_sleeping ht hst).trans (if_pos hd))
  case sleepStays =>
    intro s tid t d hup ht hst hd
    exact (Does.engine rfl hup).congr (g := id) ((xSleepWake_sleeping ht hst).trans (if_neg hd.not_ge))
  case waitne =>
    intro s tid t w e a hup hi hfault hloc halign hacc
    exact does_of_issued rfl hup hi (xWaitneInstr_reads hfault hloc halign hacc)
  case waitneWake =>
    intro s tid t a cmp d rd b e1 hup ht hst hread
    exact (Does.engine rfl hup).congr ((xWaitneWake_reads ht hst).trans (Engine.waitneRead_good hread))
  case waitc =>
    intro s tid t w e d hup hi hx hout hfault hk
    exact does_of_issued rfl hup hi (xWaitcInstr_ticket hout hfault hx hk)
  case waitcWaits =>
    intro s tid t w e hup hi hx hout hfault hk
    exact does_of_issued rfl hup hi (xWaitcInstr_ticket hout hfault hx hk)
  case waitcNone => exact fun s tid t w e hup hi hx hk => does_of_issued rfl hup hi (xWaitcInstr_noTicket hx hk)
  case shkey =>
    intro s tid t w e a b e1 hup hi hdst hsrc hread
    exact does_of_issued rfl hup hi (xShkeyInstr_ok hdst hsrc hread)
  case shrd =>
    intro s tid t w e a b e1 hup hi hf7 hout hfault hdst hsrc hread
    exact does_of_issued rfl hup hi (xShrdInstr_hot hout hfault hf7 hdst hsrc hread)
  case shwu =>
    intro s tid t w e a e1 hup hi hf7 hout hfault hsrc hread
    exact does_of_issued rfl hup hi (xShwuInstr_user0 hout hfault hf7 hsrc hread)
  case sheafHome =>
    intro e e1 t key f7 x rs1 rd buf len hst hhome hself hrate hflow
    exact Engine.sheafThread_home hst hhome hself hrate hflow
  case userOps => exact fun old x => ⟨rfl, rfl, rfl, rfl⟩
  case orcg =>
    intro s tid t w e a b e1 e2 e3 m g im hup hi hout hfault hst hm hg hdst hsrc hread hbusy hrate hsect
    exact does_of_issued rfl hup hi (xOrcgInstr_grades hout hfault hst hm hg hdst hsrc hread hbusy hrate hsect)
  case orcgNone => exact fun s tid t w e hup hi hout hfault hm => does_of_issued rfl hup hi (xOrcgInstr_noModel hout hfault hm)
  case orce =>
    intro s tid t w e a e1 e2 e3 m d v fl hup hi hx hy hout hfault hm hd hsrc hread hhalves hturn hrate heval
    exact does_of_issued rfl hup hi (xOrceInstr_evaluates hout hfault hx hy hm hd hsrc hread hhalves hturn hrate heval)
  case orceBad => exact fun s tid t w e hup hi hx => does_of_issued rfl hup hi (xOrceInstr_badOperand hx)
  case millRefused =>
    intro s tid t w e a e1 d e2 hup hi htickets hout hfault hsrc hread hsub
    have hmill := xMillInstr_refused hout hfault (lowest_free_ticket_zero htickets) hsrc hread hsub
    rw [htickets] at hmill
    exact does_of_issued rfl hup hi hmill
  case millPlaced =>
    intro s tid t w e a e1 j e2 q hup hi htickets hout hfault hsrc hread hsub hquad hcheck
    have hmill := xMillInstr_placed hout hfault (lowest_free_ticket_zero htickets) hsrc hread hsub hquad hcheck
    rw [htickets] at hmill
    exact does_of_issued rfl hup hi hmill
  case millNone => exact fun s tid t w e hup hi h => does_of_issued rfl hup hi (xMillInstr_noTicket h)
  case millRuns => exact fun s tid k hup h => (Does.engine rfl hup).congr (xmillComplete_running h)
  case millEnds =>
    intro s tid k m j hup hwait hmill hrun hnone hstatus
    exact (Does.engine rfl hup).congr (xmillComplete_ends hwait (Engine.endJob_running hmill hrun) hnone hstatus)
  case emitv =>
    intro s tid t w e a e1 hup hi hx hout hfault hsrc hread hw2 hw3
    exact does_of_issued rfl hup hi (xEmitvInstr_plain hout hfault hx hsrc hread hw2 hw3)
  case emitvBad => exact fun s tid t w e hup hi hx => does_of_issued rfl hup hi (xEmitvInstr_badOperand hx)
  case mark => exact fun s tid t w e hup hi h => does_of_issued rfl hup hi (gleanMarkInstr_untraced h)
  case casW =>
    intro s tid t w e a e1 d hup hi hbits hlt halign hloc hacc hread
    exact does_of_issued rfl hup hi (xCasInstr_here hbits hlt halign hloc hacc hread)
  case casD =>
    intro s tid t w e a e1 d hup hi hbits hlt halign hloc hacc hread
    exact does_of_issued rfl hup hi (xCasInstr_here hbits hlt halign hloc hacc hread)
  case saddD =>
    intro s tid t w e a e1 d hup hi hbits hlt halign hloc hacc hread
    exact does_of_issued rfl hup hi (xSaddInstr_here hbits hlt halign hloc hacc hread)
  case nrw => exact fun s tid t w e hup hi => does_of_issued rfl hup hi rfl
  case qntBad => exact fun s tid t w e hup hi h => does_of_issued rfl hup hi (xQntInstr_badOperand h)
  case qnt => exact fun s tid t w e f sc z hup hi hq h4 h8 => does_of_issued rfl hup hi (xQntInstr_code hq h4 h8)
  case dqt => exact fun s tid t w e f sc z hup hi hq hk => does_of_issued rfl hup hi (xDqtInstr_code hq hk)
  case fadd => exact fun s tid t w e a b hup hi ha hb => does_of_issued rfl hup hi (xArithInstr_exact ha hb)
  case fmul => exact fun s tid t w e a b hup hi ha hb => does_of_issued rfl hup hi (xArithInstr_exact ha hb)

end Sys2Proof.Machine

/-!
SUPPORT and PROOFS. The block as a whole (O56 to O60): what a step takes up, that every row answers a next state with the queue as it
was, which rows stay in the engine, and that every row keeps power in order.
-/
namespace Sys2Proof.Machine

/-! ### Which gate a row of the engine has (log entry 8) -/

/-- A row of the engine is a step of it, or of the host at it. -/
theorem exec_gate {c : Instr} (hb : besideEngine c = false) :
    (∃ f, ∀ s, exec c s = engineStep s f) ∨ ∃ f, ∀ s, exec c s = hostStep s f := by
  cases c with
  | completionWrite | writeBackRefresh | msixCoalesceTimeout | doorbell | descriptorFetch | ringEnable | ringDisable
  | hifProfileSelect | portUp | itkPortCfgWrite | itkCageCfgWrite | itkProfileSelect | thrProfileSelect | thrMalActWrite
  | orcProfileSelect | shfProfileSelect | milProfileSelect | hostRecordWrite | slowPathRecordWrite | garProfileSelect
  | cscProfileSelect | rilProfileSelect | gftProfileSelect | flgConfigWrite | flgProfileSelect | glnProfileSelect
  | numProfileSelect | fetchDataReturn | domainGate | domainWake | clkDomProfileSelect | bypassCmd | errBypassAck | errInject
  | errProfileSelect | portDown | kolCtrlWrite | kolProfileSelect | kolTrigoutArm | kolTrigoutCancel | blockReset | gclCommit
  | gclDisable | sampleInstant | slcPprofileSelect | slcHprofileSelect | cscErvProfileSelect | glbTimeSet | partApply
  | glbPartProfileSelect | bar4Access => exact .inr ⟨_, fun _ => rfl⟩
  | slot12vApplied | slot12vRemoved | powerEnableQualified | railEnable | railPowerGood | railWakeTimeout | pllLock
  | pllLockTimeout | wakeRetry | powerDownStart | pwrUndervoltage | railDisableNext | efuseOpen | offTimeEnd | bootOk
  | bootTimeout | perstNAssert | pllLoss | coldReset | warmReset | warmResetComplete | latticeResetTime | heartbeat
  | pointSample | fanFailure | watchdogKick | watchdogExpiry | stewardResume | thermalTrip105 | thermalHalt115 | mailboxGo
  | mailboxTimeout | page | clearFaults | statusWord | mfrId | mfrModel | mfrRevision | mfrSerial | readPoint | pointLimits
  | readAll | pointStatus | powerCtrlOff | powerCtrlOn | powerCtrlRetry | powerCtrlEngineReset | powerState | fanProfile
  | fanConfig | fanStatus | lastStatus | labelSel | smbLabelDataRead | smbLabelDataWrite | labelCommit | labelVis
  | labelWriteStart | labelWriteCommit | fwBegin | fwData | fwEnd | fwActivate | fwStatus | fwAbort | fwSessionTimeout
  | calWrite | calRead | calRestoreFactory | logRead | linkHelloSend | triggerOut | labelRead | labelData | refGateEnd
  | fidPresSettled | vfldOvercurrent | vfldRetry | fieldAlarmRepeat | labelReadRetry | opticsInsert | opticsRemove | railLost
  | badAccess | registerWrite | mailboxAnswer | perstNDeassert | railOk | falmNChange | refPresenceChange
  | cblPresChange => cases hb
  | _ => exact .inl ⟨_, fun _ => rfl⟩

/-- What the gate of an engine's row lets happen: the engine changes, or nothing does. -/
theorem exec_engineRow {c : Instr} (hb : besideEngine c = false) (s : State) :
    exec c s = .next s ∨ s.engineUp = true ∧ ∃ f, exec c s = .next (s.onEng f) := by
  cases hup : s.engineUp with
  | false =>
    obtain ⟨f, hf⟩ | ⟨f, hf⟩ := exec_gate hb
    · exact .inl ((hf s).trans (engineStep_down hup))
    · exact .inl ((hf s).trans (hostStep_down (.inl hup)))
  | true =>
    obtain ⟨f, hf⟩ | ⟨f, hf⟩ := exec_gate hb
    · exact .inr ⟨rfl, f, (hf s).trans (engineStep_up hup)⟩
    · cases hp : s.pcieUp with
      | false => exact .inl ((hf s).trans (hostStep_down (.inr hp)))
      | true => exact .inr ⟨rfl, f, (hf s).trans (hostStep_up hup hp)⟩

/-- Settles O58: a row of the engine passes a gate that lets it change the engine alone, and nothing while the engine is down. -/
theorem engineRowsStayInTheEngine : Obligations.EngineRowsStayInTheEngine := by
  refine ⟨fun c s t hb ht => ?_, fun c s hb hup => ?_⟩
  · obtain h | ⟨-, f, h⟩ := exec_engineRow hb s <;> cases h.symm.trans ht <;> exact ⟨rfl, rfl, rfl⟩
  · obtain h | ⟨h, -⟩ := exec_engineRow hb s
    · exact h
    · rw [hup] at h; cases h

/-- Settles O56: the two cases of a step, and that no row of the operation table has bits. -/
theorem stepTakesTheFrontCommand : Obligations.StepTakesTheFrontCommand := by
  refine ⟨fun _ _ => rfl, fun s hq hup => ?_, fun s hq hheld => ?_, fun _ _ _ => rfl⟩
  · rw [step_nil _ hq, State.tick, if_pos hup]
  · have hup : s.engineUp = false := by simp [State.engineUp, hheld]
    rw [step_nil _ hq, State.tick, if_neg (by simp [hup]), if_neg (by simp [hheld])]

/-- Settles O59: each part is a closed fact about the model's reset state. -/
theorem resetIsInOrder : Obligations.ResetIsInOrder := ⟨by decide +kernel, reset_memory_wf, rfl⟩

end Sys2Proof.Machine

/-!
SUPPORT and PROOFS. Power in order (R94 to R103): what raising, dropping and resetting do to the rails, that every row beside the
engine keeps power in order and leaves the queue alone, and so does every step (O57, O60).
-/
namespace Sys2Proof.Machine

/-! ### Power in order -/

/-- Power in order, read off the rails one by one: the statement's check as its parts. -/
structure Pwr.InOrder (p : Pwr) (run : StwRun) : Prop where
  len : p.rails.length = 11
  enabled : ∀ i, (p.rails.getD i {}).enabled = decide (i < p.phase.count)
  good : ∀ i, (p.rails.getD i {}).good = true → (p.rails.getD i {}).enabled = true
  inRange : p.phase.inRange = true
  released : p.released = true → p.phase = .running
  off : p.phase = .noSlot → run = .off

theorem PwrPhase.count_le {p : PwrPhase} (h : p.inRange = true) : p.count ≤ 11 := by
  cases p <;> simp [PwrPhase.inRange, PwrPhase.count] at h ⊢ <;> omega

/-- The rails that are enabled are the first `n`, checked one by one. -/
theorem railsUpTo_iff {rs : List Rail} {n : Nat} (hn : n ≤ 11) :
    railsUpTo rs n = true ↔ rs.length = 11 ∧ ∀ i, (rs.getD i {}).enabled = decide (i < n) := by
  simp only [railsUpTo, Bool.and_eq_true, beq_iff_eq, List.all_eq_true, Bool.not_eq_true', and_assoc]
  refine and_congr_right fun hlen => ⟨fun ⟨htake, hdrop⟩ i => ?_, fun h => ⟨fun r hr => ?_, fun r hr => ?_⟩⟩
  · by_cases hi : i < rs.length
    · rw [List.getD_eq_getElem _ _ hi]
      by_cases hin : i < n
      · rw [decide_eq_true hin]
        exact htake _ (List.mem_take_iff_getElem.mpr ⟨i, by omega, rfl⟩)
      · rw [decide_eq_false hin]
        exact hdrop _ (List.mem_drop_iff_getElem.mpr ⟨i - n, by omega, by congr 1; omega⟩)
    · rw [List.getD_eq_default _ _ (by omega), decide_eq_false (by omega)]
  · obtain ⟨i, hi, rfl⟩ := List.mem_take_iff_getElem.mp hr
    have := h i
    rw [List.getD_eq_getElem _ _ (by omega), decide_eq_true (by omega)] at this
    exact this
  · obtain ⟨i, hi, rfl⟩ := List.mem_drop_iff_getElem.mp hr
    have := h (n + i)
    rw [List.getD_eq_getElem _ _ (by omega), decide_eq_false (by omega)] at this
    exact this

theorem State.powerInOrder_iff {s : State} : s.powerInOrder = true ↔ s.pwr.InOrder s.stw.run := by
  have hgood : s.pwr.rails.all (fun r => !r.good || r.enabled) = true ↔
      ∀ i, (s.pwr.rails.getD i {}).good = true → (s.pwr.rails.getD i {}).enabled = true := by
    rw [List.all_eq_true]
    refine ⟨fun h i hg => ?_, fun h r hr => ?_⟩
    · by_cases hi : i < s.pwr.rails.length
      · rw [List.getD_eq_getElem _ _ hi] at hg ⊢
        simpa [hg] using h _ (List.getElem_mem hi)
      · rw [List.getD_eq_default _ _ (by omega)] at hg; cases hg
    · obtain ⟨i, hi, rfl⟩ := List.getElem_of_mem hr
      have := h i
      rw [List.getD_eq_getElem _ _ hi] at this
      cases hg : (s.pwr.rails[i]).good <;> simp_all
  have hrel : (!s.pwr.released || s.pwr.phase == .running) = true ↔ (s.pwr.released = true → s.pwr.phase = .running) := by
    cases s.pwr.released <;> simp
  have hoff : (s.pwr.phase != .noSlot || s.stw.run == .off) = true ↔ (s.pwr.phase = .noSlot → s.stw.run = .off) := by
    simp [imp_iff_not_or]
  simp only [State.powerInOrder, Bool.and_eq_true, hgood, hrel, hoff]
  constructor
  · rintro ⟨⟨⟨⟨hr, hi⟩, hg⟩, hp⟩, ho⟩
    obtain ⟨hlen, he⟩ := (railsUpTo_iff (PwrPhase.count_le hi)).mp hr
    exact ⟨hlen, he, hg, hi, hp, ho⟩
  · rintro ⟨hlen, he, hg, hi, hp, ho⟩
    exact ⟨⟨⟨⟨(railsUpTo_iff (PwrPhase.count_le hi)).mpr ⟨hlen, he⟩, hi⟩, hg⟩, hp⟩, ho⟩

/-! ### Rails as they change -/

theorem Pwr.setRail_rails (p : Pwr) (k : Nat) (f : Rail → Rail) : (p.setRail k f).rails = modAt p.rails (k - 1) f := rfl

/-- A change of one rail shows at that rail alone. -/
theorem getD_modAt (rs : List Rail) (k i : Nat) (f : Rail → Rail) :
    (modAt rs k f).getD i {} = if i = k ∧ k < rs.length then f (rs.getD k {}) else rs.getD i {} := by
  simp only [modAt, List.getD_eq_getElem?_getD, List.getElem?_modify]
  rcases eq_or_ne k i with rfl | hne
  · by_cases hk : k < rs.length <;> simp [hk]
  · simp [hne, hne.symm]

theorem getD_off (n i : Nat) : (List.replicate n ({} : Rail)).getD i {} = {} := List.getElem?_getD_replicate_default_eq ..

/-- A list of rails after the first, all off. -/
theorem getD_cons_off (r : Rail) (n i : Nat) : (r :: List.replicate n ({} : Rail)).getD i {} = if i = 0 then r else {} := by
  cases i
  · rfl
  · exact getD_off ..

theorem length_modAt (rs : List Rail) (k : Nat) (f : Rail → Rail) : (modAt rs k f).length = rs.length := by simp [modAt]

/-- The highest enabled rail below `k`, where the first `n` rails are enabled: rail `n`, unless it is VSTBY. -/
theorem Pwr.topRail_eq {p : Pwr} {n k : Nat} (he : ∀ i, (p.rails.getD i {}).enabled = decide (i < n)) (hn : 1 ≤ n) (hk : n < k) :
    p.topRail k = if 2 ≤ n then some n else none := by
  have hrail : ∀ r, 2 ≤ r → (p.rail r).enabled = decide (r ≤ n) := fun r hr => by
    rw [Pwr.rail, he]; congr 1; simp; omega
  induction k with
  | zero => omega
  | succ k ih =>
    have hstep : p.topRail (k + 1) = if (decide (2 ≤ k) && (p.rail k).enabled) = true then some k else p.topRail k := by
      simp only [Pwr.topRail, List.range_succ, List.reverse_append, List.reverse_cons, List.reverse_nil, List.nil_append,
        List.cons_append, List.find?_cons]
      cases (decide (2 ≤ k) && (p.rail k).enabled) <;> rfl
    rw [hstep]
    by_cases h2 : 2 ≤ k
    · rw [hrail k h2]
      by_cases hkn : n = k
      · subst hkn; simp [h2]
      · rw [if_neg (by simp; omega), ih (by omega)]
    · have h1 : n = 1 := by omega
      subst h1
      have : k = 1 := by omega
      subst this
      simp [Pwr.topRail, List.range_succ]

/-- Dropping the rails one by one keeps power in order: from the first `n` rails it goes to the first `n - 1`, and the phase says so. -/
theorem Pwr.InOrder.dropBelow {p : Pwr} {run : StwRun} {n k : Nat} {a : AfterDrop} (hlen : p.rails.length = 11)
    (he : ∀ i, (p.rails.getD i {}).enabled = decide (i < n))
    (hg : ∀ i, (p.rails.getD i {}).good = true → (p.rails.getD i {}).enabled = true) (hn : 1 ≤ n) (hn' : n ≤ 11) (hk : n < k)
    (hrel : p.released = false) : (p.dropBelow k a).InOrder run := by
  rw [Pwr.dropBelow, Pwr.topRail_eq he hn hk]
  by_cases h2 : 2 ≤ n
  · rw [if_pos h2]
    have hget : ∀ i, (modAt p.rails (n - 1) (fun x => { x with enabled := false, good := false })).getD i {} =
        if i = n - 1 then { (p.rails.getD (n - 1) {}) with enabled := false, good := false } else p.rails.getD i {} := fun i => by
      rw [getD_modAt, hlen]
      exact if_congr (by omega) rfl rfl
    refine ⟨by simp [Pwr.setRail_rails, length_modAt, hlen], fun i => ?_, fun i => ?_, by simp [PwrPhase.inRange]; omega,
      fun h => ?_, fun h => by cases h⟩
    · change ((modAt p.rails (n - 1) _).getD i {}).enabled = decide (i < n - 1)
      rw [hget]
      split
      · simp; omega
      · rw [he]; congr 1; simp; omega
    · change ((modAt p.rails (n - 1) _).getD i {}).good = true → ((modAt p.rails (n - 1) _).getD i {}).enabled = true
      rw [hget]
      split
      · simp
      · exact hg i
    · exact absurd (hrel.symm.trans h) (by decide)
  · rw [if_neg h2]
    have h1 : n = 1 := by omega
    subst h1
    refine ⟨hlen, fun i => ?_, hg, by cases a <;> rfl, fun h => ?_, fun h => by cases a <;> cases h⟩
    · rw [he]; cases a <;> rfl
    · exact absurd (hrel.symm.trans h) (by decide)

/-! ### Orderly changes -/

/-- A change that leaves the queue alone and keeps power in order. -/
structure Orderly (s t : State) : Prop where
  pending : t.pending = s.pending
  inOrder : s.pwr.InOrder s.stw.run → t.pwr.InOrder t.stw.run

theorem Orderly.refl (s : State) : Orderly s s := ⟨rfl, id⟩

theorem Orderly.trans {s t u : State} (h : Orderly s t) (h' : Orderly t u) : Orderly s u :=
  ⟨h'.pending.trans h.pending, h'.inOrder ∘ h.inOrder⟩

theorem Orderly.ite {s t u : State} {c : Prop} [Decidable c] (ht : c → Orderly s t) (hu : ¬ c → Orderly s u) :
    Orderly s (if c then t else u) := by
  split
  · next h => exact ht h
  · next h => exact hu h

/-- A change made on a condition, after one that is orderly. -/
theorem Orderly.andThen {s t u : State} {c : Prop} [Decidable c] (h : Orderly s t) (hu : c → Orderly t u) :
    Orderly s (if c then u else t) := h.trans (.ite hu fun _ => .refl t)

theorem Orderly.foldl {α : Type} {f : State → α → State} (h : ∀ s x, Orderly s (f s x)) : ∀ (l : List α) (s : State),
    Orderly s (l.foldl f s)
  | [], s => .refl s
  | x :: r, s => (h s x).trans (Orderly.foldl h r (f s x))

/-- A change outside power, with the steward running as before. -/
theorem Orderly.of_eq {s t : State} (hq : t.pending = s.pending) (hp : t.pwr = s.pwr) (hr : t.stw.run = s.stw.run) : Orderly s t :=
  ⟨hq, fun h => by rw [hp, hr]; exact h⟩

theorem Orderly.onEng (s : State) (f : Engine → Engine) : Orderly s (s.onEng f) := .of_eq rfl rfl rfl

theorem Orderly.onStw {s : State} {f : Stw → Stw} (h : (f s.stw).run = s.stw.run) : Orderly s (s.onStw f) := .of_eq rfl rfl h

theorem Orderly.thenEng {s t : State} (h : Orderly s t) (f : Engine → Engine) : Orderly s (t.onEng f) := h.trans (.onEng t f)

theorem Orderly.thenStw {s t : State} {f : Stw → Stw} (h : Orderly s t) (hf : (f t.stw).run = t.stw.run) : Orderly s (t.onStw f) :=
  h.trans (.onStw hf)

theorem Orderly.thenFoldl {α : Type} {f : State → α → State} {s t : State} (h : Orderly s t) (hf : ∀ s x, Orderly s (f s x))
    (l : List α) : Orderly s (l.foldl f t) := h.trans (.foldl hf l t)

/-- A change of power that leaves the rails, their phase and the steward alone, and releases nothing. -/
theorem Orderly.of_rails {s t : State} (hq : t.pending = s.pending) (hrails : t.pwr.rails = s.pwr.rails)
    (hphase : t.pwr.phase = s.pwr.phase) (hrel : t.pwr.released = true → s.pwr.released = true) (hr : t.stw.run = s.stw.run) :
    Orderly s t :=
  ⟨hq, fun ⟨hlen, he, hg, hi, hp, ho⟩ => ⟨by rw [hrails]; exact hlen, by rw [hrails, hphase]; exact he,
    by rw [hrails]; exact hg, by rw [hphase]; exact hi, fun h => by rw [hphase]; exact hp (hrel h),
    fun h => by rw [hr]; exact ho (by rw [← hphase]; exact h)⟩⟩

/-- A phase in which as many rails are on: the sequence goes on at another place. -/
theorem Orderly.of_phase {s t : State} (hq : t.pending = s.pending) (hrails : t.pwr.rails = s.pwr.rails)
    (hcount : t.pwr.phase.count = s.pwr.phase.count) (hrange : t.pwr.phase.inRange = true) (hon : t.pwr.phase ≠ .noSlot)
    (hrel : t.pwr.released = true → t.pwr.phase = .running) : Orderly s t :=
  ⟨hq, fun ⟨hlen, he, hg, _, _, _⟩ => ⟨by rw [hrails]; exact hlen, by rw [hrails, hcount]; exact he, by rw [hrails]; exact hg,
    hrange, hrel, fun h => absurd h hon⟩⟩

theorem Orderly.followVfld (s : State) : Orderly s s.followVfld := by
  unfold State.followVfld
  dsimp only
  split
  · exact .refl s
  · split <;> exact .of_eq rfl rfl rfl

/-- A power-down starts from a phase in which the rails from rail 2 on are up (R100, R101). -/
theorem Orderly.startDown {s : State} (a : AfterDrop) (hup : s.pwr.phase.isUp = true) : Orderly s (s.startDown a) := by
  refine Orderly.trans ?_ (Orderly.followVfld _)
  refine ⟨rfl, fun h => ?_⟩
  have hcount : 1 ≤ s.pwr.phase.count := by
    have := h.inRange
    cases hph : s.pwr.phase <;> simp_all [PwrPhase.isUp, PwrPhase.inRange, PwrPhase.count] <;> omega
  exact Pwr.InOrder.dropBelow h.len h.enabled h.good hcount (PwrPhase.count_le h.inRange)
    (Nat.lt_succ_of_le (PwrPhase.count_le h.inRange)) rfl

/-- A phase that is not the running one has the engine in reset. -/
theorem Pwr.InOrder.held {p : Pwr} {run : StwRun} (h : p.InOrder run) (hp : p.phase ≠ .running) : p.released = false :=
  Bool.eq_false_iff.mpr fun hr => hp (h.released hr)

/-- A change that is orderly where power is in order. -/
theorem Orderly.of_inOrder {s t : State} (hq : t.pending = s.pending) (h : s.pwr.InOrder s.stw.run → Orderly s t) : Orderly s t :=
  ⟨hq, fun hi => (h hi).inOrder hi⟩

theorem Orderly.powerDown (s : State) : Orderly s s.powerDown := by
  unfold State.powerDown
  split
  · next hup => exact .startDown _ hup
  · next hdown =>
    split
    · next k hph =>
      refine .of_inOrder rfl fun hi => .of_phase rfl rfl ?_ rfl (by simp) fun h => absurd (hi.released h) (by simp [hph])
      have := hi.inRange
      simp only [hph, PwrPhase.isUp, PwrPhase.inRange, Bool.and_eq_true, decide_eq_true_eq] at hdown this
      simp only [hph, PwrPhase.count]; omega
    · next hph =>
      exact .of_inOrder rfl fun hi => .of_phase rfl rfl (by simp [hph, PwrPhase.count]) rfl (by simp)
        fun h => absurd (hi.released h) (by simp [hph])
    · exact .refl s

theorem Orderly.thenPowerDown {s t : State} (h : Orderly s t) : Orderly s t.powerDown := h.trans (.powerDown t)

/-! ### Power's own operations -/

/-- Power held in reset with the first rail alone on: a new place in the sequence is in order. -/
theorem Orderly.of_standing {s t : State} (hq : t.pending = s.pending) (hrails : t.pwr.rails = s.pwr.rails)
    (hrel : t.pwr.released = s.pwr.released) (hs : s.pwr.phase.count = 1) (ht : t.pwr.phase.count = 1)
    (hrange : t.pwr.phase.inRange = true) : Orderly s t := by
  refine .of_inOrder hq fun hi => .of_phase hq hrails (ht.trans hs.symm) hrange (fun h => by simp [h, PwrPhase.count] at ht) fun h => ?_
  exact absurd (hi.released (hrel ▸ h)) fun hp => by simp [hp, PwrPhase.count] at hs

theorem Pwr.upIfEnabled_rails (p : Pwr) : p.upIfEnabled.rails = p.rails := by unfold Pwr.upIfEnabled; split <;> rfl
theorem Pwr.upIfEnabled_released (p : Pwr) : p.upIfEnabled.released = p.released := by unfold Pwr.upIfEnabled; split <;> rfl
theorem Pwr.upIfEnabled_count (p : Pwr) : p.upIfEnabled.phase.count = 1 := by unfold Pwr.upIfEnabled; split <;> rfl
theorem Pwr.upIfEnabled_inRange (p : Pwr) : p.upIfEnabled.phase.inRange = true := by unfold Pwr.upIfEnabled; split <;> rfl

/-- Power-up begins, or waits for its enable, from a phase with the first rail alone on (R94, R103). -/
theorem Orderly.upIfEnabled {s : State} {p : Pwr} (hrails : p.rails = s.pwr.rails) (hrel : p.released = s.pwr.released)
    (hs : s.pwr.phase.count = 1) : Orderly s { s with pwr := p.upIfEnabled } :=
  .of_standing rfl (p.upIfEnabled_rails.trans hrails) (p.upIfEnabled_released.trans hrel) hs p.upIfEnabled_count p.upIfEnabled_inRange

theorem Orderly.wakeFailure {s : State} (code : Nat) (hup : s.pwr.phase.isUp = true) : Orderly s (s.wakeFailure code) := by
  unfold State.wakeFailure
  split <;> refine .trans ?_ (.startDown _ hup) <;> exact .of_rails rfl rfl rfl id rfl

/-- A cold reset releases the engine, so it asks for the running phase (R96). -/
theorem Orderly.coldReset {s : State} {cause : Nat} {copyB subst : Bool}
    (hrun : s.pwr.InOrder s.stw.run → s.pwr.phase = .running) : Orderly s (s.coldReset cause copyB subst) :=
  ⟨rfl, fun h => ⟨h.len, h.enabled, h.good, h.inRange, fun _ => hrun h, h.off⟩⟩

theorem Orderly.coldBoot {s : State} {cause : Nat} (hrun : s.pwr.InOrder s.stw.run → s.pwr.phase = .running) :
    Orderly s (s.coldBoot cause) := .coldReset hrun

/-- One rail comes up: the next after those that are on. -/
theorem Pwr.InOrder.raise {p q : Pwr} {run run' : StwRun} {k : Nat} {r : Rail} (h : p.InOrder run') (hk : 1 ≤ k) (hk' : k ≤ 11)
    (hcount : p.phase.count = k - 1 ∨ p.phase.count = k) (hrails : q.rails = modAt p.rails (k - 1) fun _ => r) (hr : r.enabled = true)
    (hq : q.phase.count = k) (hrange : q.phase.inRange = true) (hrel : q.released = true → q.phase = .running)
    (hoff : q.phase = .noSlot → run = .off) : q.InOrder run := by
  have hget : ∀ i, q.rails.getD i {} = if i = k - 1 then r else p.rails.getD i {} := fun i => by
    rw [hrails, getD_modAt, h.len]
    exact if_congr (by omega) rfl rfl
  refine ⟨by rw [hrails, length_modAt, h.len], fun i => ?_, fun i => ?_, hrange, hrel, hoff⟩
  · rw [hget, hq]
    split
    · rw [hr]; simp; omega
    · rw [h.enabled]; congr 1; simp; omega
  · rw [hget]
    split
    · exact fun _ => hr
    · exact h.good i

/-! ### The rows of power -/

/-- The answer of a row: a next state that an orderly change leads to. -/
def Answers (s : State) (r : Res) : Prop := ∃ t, r = .next t ∧ Orderly s t

theorem Answers.next {s t : State} (h : Orderly s t) : Answers s (.next t) := ⟨t, rfl, h⟩

theorem Answers.steward {s : State} {f : State → State} (h : s.stw.run = .running → Orderly s (f s)) :
    Answers s (stewardStep s f) := by
  by_cases hr : s.stw.run = .running
  · exact ⟨_, stewardStep_run hr, h hr⟩
  · exact ⟨_, stewardStep_idle hr, .refl s⟩

theorem Answers.engine (s : State) (f : Engine → Engine) : Answers s (engineStep s f) :=
  .next (.ite (fun _ => .onEng ..) fun _ => .refl s)

theorem Answers.host (s : State) (f : Engine → Engine) : Answers s (hostStep s f) :=
  .next (.ite (fun _ => .onEng ..) fun _ => .refl s)

theorem abortSession_run (w : Stw) : w.abortSession.run = w.run := by
  unfold Stw.abortSession
  split
  · rfl
  · split <;> rfl

theorem execSlot12vApplied_answers (s : State) : Answers s (execSlot12vApplied s) := by
  unfold execSlot12vApplied
  split
  · next hph =>
    refine .next ⟨rfl, fun h => h.raise (k := 1) (by decide) (by decide) (.inl (by rw [hph]; rfl)) rfl rfl rfl rfl
      (fun hr => absurd (h.released hr) (by simp [hph])) (fun hn => by cases hn)⟩
  · exact .next (.refl s)

theorem execSlot12vRemoved_answers (s : State) : Answers s (execSlot12vRemoved s) := by
  refine .next ⟨rfl, fun _ => ⟨rfl, fun i => ?_, fun i h => ?_, rfl, fun h => (Bool.false_ne_true h).elim, fun _ => rfl⟩⟩
  · exact (congrArg Rail.enabled (getD_off 11 i)).trans (decide_eq_false (Nat.not_lt_zero i)).symm
  · exact (Bool.false_ne_true ((congrArg Rail.good (getD_off 11 i)).symm.trans h)).elim

theorem execPowerEnableQualified_answers (s : State) : Answers s (execPowerEnableQualified s) := .steward fun _ => by
  dsimp only
  split
  · next hph => exact .upIfEnabled rfl rfl (by rw [show s.pwr.phase = _ from hph]; rfl)
  · exact .of_rails rfl rfl rfl id rfl

theorem execRailEnable_answers (s : State) : Answers s (execRailEnable s) := .steward fun _ => by
  dsimp only
  split
  · next k hph =>
    refine ⟨rfl, fun h => ?_⟩
    have hr := h.inRange
    simp only [hph, PwrPhase.inRange, Bool.and_eq_true, decide_eq_true_eq] at hr
    exact h.raise (k := k) (by omega) hr.2 (.inl (by rw [hph]; rfl)) rfl rfl rfl (by simpa [PwrPhase.inRange] using hr)
      (fun hrel => absurd (h.released hrel) (by simp [hph])) (fun hn => by cases hn)
  · exact .refl s

theorem execRailPowerGood_answers (s : State) : Answers s (execRailPowerGood s) := .steward fun _ => by
  dsimp only
  split
  · next k hph =>
    refine Orderly.trans ?_ (Orderly.followVfld _)
    refine ⟨rfl, fun h => ?_⟩
    have hr := h.inRange
    simp only [hph, PwrPhase.inRange, Bool.and_eq_true, decide_eq_true_eq] at hr
    refine h.raise (k := k) (by omega) hr.2 (.inr (by rw [hph]; rfl)) rfl rfl ?_ ?_
      (fun hrel => absurd (h.released hrel) (by simp [hph])) (fun hn => ?_)
    · change (if k < 11 then PwrPhase.ready (k + 1) else .pllWait).count = k
      split
      · rfl
      · simp only [PwrPhase.count]; omega
    · change (if k < 11 then PwrPhase.ready (k + 1) else .pllWait).inRange = true
      split
      · simp [PwrPhase.inRange]; omega
      · rfl
    · change (if k < 11 then PwrPhase.ready (k + 1) else .pllWait) = .noSlot at hn
      split at hn <;> cases hn
  · exact .refl s

theorem execRailWakeTimeout_answers (s : State) : Answers s (execRailWakeTimeout s) := .steward fun _ => by
  split
  · next hph => exact .wakeFailure _ (by rw [hph]; rfl)
  · exact .refl s

theorem execPllLock_answers (s : State) : Answers s (execPllLock s) := .steward fun _ => by
  dsimp only
  split
  · next hph =>
    refine .trans ?_ (.coldBoot fun _ => rfl)
    exact .of_phase rfl rfl (by rw [hph]; rfl) rfl (by simp) fun _ => rfl
  · exact .refl s

theorem execPllLockTimeout_answers (s : State) : Answers s (execPllLockTimeout s) := .steward fun _ => by
  dsimp only
  split
  · next hph =>
    refine .trans ?_ (.wakeFailure _ (by rw [show s.pwr.phase = _ from hph]; rfl))
    exact .of_rails rfl rfl rfl id rfl
  · exact .refl s

theorem execWakeRetry_answers (s : State) : Answers s (execWakeRetry s) := .steward fun _ => by
  dsimp only
  split
  · next hph =>
    have h1 : s.pwr.phase.count = 1 := by rw [hph]; rfl
    split
    · exact .of_standing rfl rfl rfl h1 rfl rfl
    · exact .of_standing rfl rfl rfl h1 rfl rfl
  · exact .refl s

theorem execPowerDownStart_answers (s : State) : Answers s (execPowerDownStart s) := .steward fun _ => .powerDown s

theorem execPwrUndervoltage_answers (s : State) : Answers s (execPwrUndervoltage s) := by
  have hpsu : Orderly s { s with pwr := { s.pwr with psuOk := false } } := .of_rails rfl rfl rfl id rfl
  unfold execPwrUndervoltage
  dsimp only
  split
  · exact .next (hpsu.trans (.powerDown _))
  · exact .next (hpsu.trans (.of_eq rfl rfl rfl))
  · exact .next hpsu

/-- The sequence goes down by one rail from a phase that drops rail `k` (R101). -/
theorem Orderly.dropNext {s t : State} {k : Nat} {a : AfterDrop} (hst : Orderly s t)
    (ht : t.pwr.phase = .dropping k a) : Orderly s (State.followVfld { t with pwr := t.pwr.dropBelow k a }) := by
  refine Orderly.trans ?_ (Orderly.followVfld _)
  refine ⟨hst.pending, fun h => ?_⟩
  have h' := hst.inOrder h
  have hr := h'.inRange
  have hcount : t.pwr.phase.count = k - 1 := by rw [ht]; rfl
  simp only [ht, PwrPhase.inRange, Bool.and_eq_true, decide_eq_true_eq] at hr
  exact Pwr.InOrder.dropBelow h'.len (hcount ▸ h'.enabled) h'.good (by omega) (by omega) (by omega) (h'.held (by simp [ht]))

/-- A change of one rail that switches nothing on or off. -/
theorem Orderly.of_setRail {s t : State} {k : Nat} {f : Rail → Rail} (hq : t.pending = s.pending)
    (ht : t.pwr = s.pwr.setRail k f) (he : ∀ x, (f x).enabled = x.enabled) (hg : ∀ x, (f x).good = x.good)
    (hr : t.stw.run = s.stw.run) : Orderly s t := by
  have hget : ∀ i, (t.pwr.rails.getD i {}).enabled = (s.pwr.rails.getD i {}).enabled ∧
      (t.pwr.rails.getD i {}).good = (s.pwr.rails.getD i {}).good := fun i => by
    rw [ht, Pwr.setRail_rails, getD_modAt]
    split
    · next h => rw [he, hg, h.1]; exact ⟨rfl, rfl⟩
    · exact ⟨rfl, rfl⟩
  refine ⟨hq, fun h => ⟨?_, fun i => ?_, fun i => ?_, ?_, ?_, ?_⟩⟩
  · rw [ht, Pwr.setRail_rails, length_modAt, h.len]
  · rw [(hget i).1, ht]; exact h.enabled i
  · rw [(hget i).1, (hget i).2]; exact h.good i
  · rw [ht]; exact h.inRange
  · rw [ht]; exact h.released
  · rw [ht, hr]; exact h.off

theorem execRailDisableNext_answers (how : RailFall) (s : State) : Answers s (execRailDisableNext how s) := .steward fun _ => by
  dsimp only
  split
  · next k a hph =>
    split
    · exact .dropNext (.of_setRail rfl rfl (fun _ => rfl) (fun _ => rfl) rfl) hph
    · exact .dropNext (.of_rails rfl rfl rfl id rfl) hph
  · exact .refl s

/-- Where the sequence stands once the eFuse has opened (R102). -/
def PwrPhase.afterEfuse (p : PwrPhase) : PwrPhase :=
  match p with
  | .dropping _ a => a.phase
  | .retryWait => .retryWait
  | .hold => .hold
  | .standby => .standby
  | _ => .offTime

theorem PwrPhase.afterEfuse_standing (p : PwrPhase) : p.afterEfuse.count = 1 ∧ p.afterEfuse.inRange = true := by
  cases p with
  | dropping k a => cases a <;> exact ⟨rfl, rfl⟩
  | _ => exact ⟨rfl, rfl⟩

/-- A state with the standby rail alone on and the engine in reset is in order, whatever it was before. -/
theorem Pwr.InOrder.of_standby {p : Pwr} {run : StwRun} (hrails : p.rails = ⟨true, true, true⟩ :: List.replicate 10 {})
    (hcount : p.phase.count = 1) (hrange : p.phase.inRange = true) (hrel : p.released = false) : p.InOrder run := by
  refine ⟨by rw [hrails]; rfl, fun i => ?_, fun i => ?_, hrange, fun h => absurd (hrel.symm.trans h) (by decide),
    fun h => by simp [h, PwrPhase.count] at hcount⟩
  · rw [hrails, hcount, getD_cons_off]
    split
    · next h => rw [h]; rfl
    · simp; omega
  · rw [hrails, getD_cons_off]
    split <;> exact id

theorem execEfuseOpen_answers (s : State) : Answers s (execEfuseOpen s) := .steward fun _ => by
  dsimp only
  split
  · refine Orderly.trans ?_ (Orderly.followVfld _)
    obtain ⟨hcount, hrange⟩ := s.pwr.phase.afterEfuse_standing
    exact ⟨rfl, fun _ => .of_standby rfl hcount hrange rfl⟩
  · exact .refl s

theorem execOffTimeEnd_answers (s : State) : Answers s (execOffTimeEnd s) := .steward fun _ => by
  split
  · next hph => exact .upIfEnabled rfl rfl (by rw [hph]; rfl)
  · exact .refl s

theorem execBootOk_answers (s : State) : Answers s (execBootOk s) :=
  .next (.ite (fun _ => .of_eq rfl rfl rfl) fun _ => .refl s)

theorem execBootTimeout_answers (s : State) : Answers s (execBootTimeout s) := .steward fun _ => by
  dsimp only
  split
  · exact .refl s
  · next hrel =>
    split
    · refine ⟨rfl, fun h => ?_⟩
      have : s.pwr.released = true := by cases hr : s.pwr.released <;> simp [hr] at hrel ⊢
      exact ⟨h.len, h.enabled, h.good, h.inRange, fun _ => h.released this, h.off⟩
    · exact .of_eq rfl rfl rfl
    · exact .refl s

theorem execPerstNAssert_answers (ld : Bool) (s : State) : Answers s (execPerstNAssert ld s) := by
  have hperst : Orderly s { s with pwr := { s.pwr with perst := s.pwr.perst || !ld } } := .of_rails rfl rfl rfl id rfl
  exact .next (.ite (fun hrel => hperst.trans (.coldBoot fun h => h.released hrel)) fun _ => hperst)

theorem execPllLoss_answers (s : State) : Answers s (execPllLoss s) := by
  refine .next (.ite (fun hrel => .of_inOrder rfl fun h => .of_phase rfl rfl ?_ rfl (by simp) fun hr => by cases hr) fun _ => .refl s)
  rw [h.released hrel]; rfl

/-- A reset that the host asks for finds the engine released. -/
theorem State.pcieUp_released {s : State} (h : s.pcieUp = true) : s.pwr.released = true := by
  simp only [State.pcieUp, Bool.and_eq_true] at h
  exact h.1.1

theorem execColdReset_answers (key : Nat) (s : State) : Answers s (execColdReset key s) := by
  refine .next (.ite (fun _ => .refl s) fun hup => .ite (fun _ => .onEng ..) fun _ => .ite (fun _ => .coldBoot fun h => ?_)
    fun _ => .refl s)
  refine h.released (State.pcieUp_released ?_)
  cases hp : s.pcieUp <;> simp [hp] at hup ⊢

/-! ### The rows of warm resets and of the die's sensor -/

theorem Orderly.warmReset (s : State) (cause : Nat) : Orderly s (s.warmReset cause) := .of_eq rfl rfl rfl

theorem execWarmReset_answers (key : Nat) (s : State) : Answers s (execWarmReset key s) :=
  .next (.ite (fun _ => .refl s) fun _ => .ite (fun _ => .onEng ..) fun _ => .ite (fun _ => .warmReset ..) fun _ => .refl s)

theorem execWarmResetComplete_answers (s : State) : Answers s (execWarmResetComplete s) :=
  .next (.ite (fun _ => .onEng ..) fun _ => .refl s)

theorem execLatticeResetTime_answers (s : State) : Answers s (execLatticeResetTime s) := by
  refine .next (.ite (fun _ => ?_) fun _ => .refl s)
  split
  · exact .ite (fun _ => .warmReset ..) fun _ => .refl s
  · exact .refl s

theorem execThermalTrip105_answers (x : Int) (s : State) : Answers s (execThermalTrip105 x s) :=
  .next (.ite (fun _ => .refl s) fun _ => .ite (fun _ => .thenEng (.onEng ..) _) fun _ => .onEng ..)

theorem execThermalHalt115_answers (x : Int) (s : State) : Answers s (execThermalHalt115 x s) :=
  .next (.ite (fun _ => .refl s) fun _ => .of_rails rfl rfl rfl id rfl)

theorem execRailLost_answers (s : State) : Answers s (execRailLost s) :=
  .steward fun _ => .ite (fun _ => .onEng ..) fun _ => .refl s

theorem execRailOk_answers (s : State) : Answers s (execRailOk s) :=
  .steward fun _ => .ite (fun _ => .onEng ..) fun _ => .refl s

/-! ### The steward's command set (Table STW-3) -/

theorem setIfc_run (w : Stw) (mb : Bool) (f : MgmtIf → MgmtIf) : (w.setIfc mb f).run = w.run := by
  unfold Stw.setIfc; split <;> rfl

theorem setPart_run (w : Stw) (t : Nat) (f : FwPart → FwPart) : (w.setPart t f).run = w.run := by
  unfold Stw.setPart; split <;> rfl

/-- What serving a command leaves of the state is an orderly change. -/
def Svc.Keeps (v : Svc) (s : State) : Prop := Orderly s v.s

theorem Svc.Keeps.ok (s : State) (b : Bytes) : (svcOk s b).Keeps s := .refl s
theorem Svc.Keeps.err (s : State) (n : Nat) : (svcErr s n).Keeps s := .refl s

theorem Svc.Keeps.stw {s : State} {f : Stw → Stw} (h : (f s.stw).run = s.stw.run) (b : Bytes) : (svcOk (s.onStw f) b).Keeps s :=
  .onStw h

theorem Svc.Keeps.ite {v w : Svc} {s : State} {c : Prop} [Decidable c] (hv : c → v.Keeps s) (hw : ¬ c → w.Keeps s) :
    (if c then v else w).Keeps s := by
  split
  · next h => exact hv h
  · next h => exact hw h

theorem Svc.Keeps.read (s : State) (wr : Bool) (b : Bytes) : (svcRead s wr b).Keeps s := .ite (fun _ => .err ..) fun _ => .ok ..

theorem svcPage_keeps (mb wr : Bool) (d : Bytes) (s : State) : (svcPage mb wr d s).Keeps s :=
  .ite (fun _ => .ite (fun _ => .stw (setIfc_run ..) _) fun _ => .err ..) fun _ => .ok ..

theorem svcClearFaults_keeps (mb wr : Bool) (d : Bytes) (s : State) : (svcClearFaults mb wr d s).Keeps s :=
  .ite (fun _ => .stw rfl _) fun _ => .err ..

theorem svcPointLimits_keeps (mb wr : Bool) (d : Bytes) (s : State) : (svcPointLimits mb wr d s).Keeps s :=
  .ite (fun _ => .ite (fun _ => .err ..) fun _ => .ite (fun _ => .stw rfl _) fun _ => .err ..) fun _ => .ok ..

theorem powerCtrlOff_orderly (s : State) : Orderly s (powerCtrlOff s) := by
  refine .trans ?_ (.powerDown _)
  exact .of_rails rfl rfl rfl id rfl

theorem powerCtrlOn_orderly (s : State) : Orderly s (powerCtrlOn s) := by
  unfold powerCtrlOn
  dsimp only
  split
  · next hph => exact .upIfEnabled rfl rfl (by rw [hph]; rfl)
  · exact .of_rails rfl rfl rfl id rfl

theorem powerCtrlRetry_orderly (s : State) : Orderly s (powerCtrlRetry s) := by
  unfold powerCtrlRetry
  split
  · next hph => exact .upIfEnabled rfl rfl (by rw [hph]; rfl)
  · exact .refl s

theorem powerCtrlEngineReset_orderly (s : State) : Orderly s (powerCtrlEngineReset s) :=
  .ite (fun hrel => .coldBoot fun h => h.released hrel) fun _ => .refl s

theorem svcPowerCtrl_keeps (wr : Bool) (d : Bytes) (s : State) : (svcPowerCtrl wr d s).Keeps s := by
  refine .ite (fun _ => .err ..) fun _ => .ite (fun _ => .err ..) fun _ => ?_
  split
  · exact powerCtrlOff_orderly s
  · exact powerCtrlOn_orderly s
  · exact powerCtrlRetry_orderly s
  · exact powerCtrlEngineReset_orderly s
  · exact .err ..

theorem svcFanProfile_keeps (mb wr : Bool) (d : Bytes) (s : State) : (svcFanProfile mb wr d s).Keeps s := by
  refine .ite (fun _ => .ite (fun _ => .err ..) fun _ => ?_) fun _ => .ok ..
  split
  · exact .stw rfl _
  · exact .err ..

theorem svcFanConfig_keeps (mb wr : Bool) (d : Bytes) (s : State) : (svcFanConfig mb wr d s).Keeps s :=
  .ite (fun _ => .ite (fun _ => .stw rfl _) fun _ => .err ..) fun _ => .ok ..

theorem svcLabelSel_keeps (mb wr : Bool) (d : Bytes) (s : State) : (svcLabelSel mb wr d s).Keeps s :=
  .ite (fun _ => .err ..) fun _ => .ite (fun _ => .stw (setIfc_run ..) _) fun _ => .err ..

theorem svcLabelRead_keeps (mb : Bool) (s : State) : (svcLabelRead mb s).1.Keeps s := by
  unfold svcLabelRead
  dsimp only
  split
  · exact .err ..
  · split
    · exact .of_eq rfl rfl rfl
    · split
      · exact .err ..
      · exact .ok ..

theorem svcLabelWrite_keeps (mb : Bool) (d : Bytes) (s : State) : (svcLabelWrite mb d s).Keeps s :=
  .ite (fun _ => .stw (setIfc_run ..) _) fun _ => .ite (fun _ => .stw (setIfc_run ..) _) fun _ => .of_eq rfl rfl (setIfc_run ..)

theorem svcLabelCommit_keeps (mb wr : Bool) (d : Bytes) (s : State) : (svcLabelCommit mb wr d s).Keeps s :=
  .ite (fun _ => .err ..) fun _ => .ite (fun _ => .err ..) fun _ => .ite (fun _ => .err ..) fun _ => .ite (fun _ => .err ..)
    fun _ => .stw (setIfc_run ..) _

theorem svcLabelVis_keeps (mb wr : Bool) (d : Bytes) (s : State) : (svcLabelVis mb wr d s).Keeps s :=
  .ite (fun _ => .err ..) fun _ => .ite (fun _ => .err ..) fun _ => .ite (fun _ => .err ..) fun _ => .stw rfl _

theorem svcFwBegin_keeps (mb wr : Bool) (d : Bytes) (s : State) : (svcFwBegin mb wr d s).Keeps s :=
  .ite (fun _ => .err ..) fun _ => .ite (fun _ => .err ..) fun _ => .ite (fun _ => .err ..) fun _ => .stw (setPart_run ..) _

theorem svcFwData_keeps (mb wr : Bool) (d : Bytes) (s : State) : (svcFwData mb wr d s).Keeps s := by
  refine .ite (fun _ => .err ..) fun _ => ?_
  split
  · exact .err ..
  · exact .ite (fun _ => .err ..) fun _ => .stw rfl _

theorem svcFwEnd_keeps (mb wr : Bool) (d : Bytes) (s : State) : (svcFwEnd mb wr d s).Keeps s := by
  refine .ite (fun _ => .err ..) fun _ => ?_
  split
  · exact .err ..
  · exact .ite (fun _ => .err ..) fun _ => .ite (fun _ => .stw (setPart_run ..) _) fun _ => .onStw (abortSession_run ..)

/-- A new steward image restarts the steward, which runs only with slot 12 V (R156). -/
theorem svcFwActivate_keeps (mb wr : Bool) (d : Bytes) {s : State} (hrun : s.stw.run = .running) :
    (svcFwActivate mb wr d s).Keeps s := by
  refine .ite (fun _ => .err ..) fun _ => .ite (fun _ => .err ..) fun _ => .ite (fun _ => .stw (setPart_run ..) _) fun _ => ?_
  exact ⟨rfl, fun h => ⟨h.len, h.enabled, h.good, h.inRange, h.released, fun hoff => by cases hrun.symm.trans (h.off hoff)⟩⟩

theorem svcFwAbort_keeps (mb wr : Bool) (d : Bytes) (s : State) : (svcFwAbort mb wr d s).Keeps s :=
  .ite (fun _ => .stw (abortSession_run ..) _) fun _ => .err ..

theorem svcCalWrite_keeps (mb wr : Bool) (d : Bytes) (s : State) : (svcCalWrite mb wr d s).Keeps s :=
  .ite (fun _ => .err ..) fun _ => .ite (fun _ => .err ..) fun _ => .ite (fun _ => .stw (setIfc_run ..) _) fun _ => .stw rfl _

theorem svcCalRead_keeps (mb wr : Bool) (d : Bytes) (s : State) : (svcCalRead mb wr d s).Keeps s := by
  unfold svcCalRead
  split
  · exact .ite (fun _ => .err ..) fun _ => .err ..
  · split <;> exact .read ..

theorem svcCalRestore_keeps (mb wr : Bool) (d : Bytes) (s : State) : (svcCalRestore mb wr d s).Keeps s :=
  .ite (fun _ => .err ..) fun _ => .ite (fun _ => .err ..) fun _ => .ite (fun _ => .err ..) fun _ => .stw rfl _

theorem svcLogRead_keeps (mb wr : Bool) (d : Bytes) (s : State) : (svcLogRead mb wr d s).Keeps s :=
  .ite (fun _ => .err ..) fun _ => .ite (fun _ => .err ..) fun _ =>
    show Orderly s (if wr then _ else s) from .ite (fun _ => .onStw (setIfc_run ..)) fun _ => .refl s

/-- Serving any command of a running steward. -/
theorem serve_keeps (code : Nat) (mb wr : Bool) (d : Bytes) {s : State} (hrun : s.stw.run = .running) :
    (serve code mb wr d s).1.Keeps s := by
  unfold serve
  split
  case h_1 => exact svcPage_keeps mb wr d s
  case h_2 => exact svcClearFaults_keeps mb wr d s
  case h_9 => exact svcPointLimits_keeps mb wr d s
  case h_12 => exact svcPowerCtrl_keeps ..
  case h_14 => exact svcFanProfile_keeps mb wr d s
  case h_15 => exact svcFanConfig_keeps mb wr d s
  case h_18 => exact svcLabelSel_keeps mb wr d s
  case h_19 =>
    split
    · exact svcLabelWrite_keeps mb d s
    · exact svcLabelRead_keeps mb s
  case h_20 => exact svcLabelCommit_keeps mb wr d s
  case h_21 => exact svcLabelVis_keeps mb wr d s
  case h_22 => exact svcFwBegin_keeps mb wr d s
  case h_23 => exact svcFwData_keeps mb wr d s
  case h_24 => exact svcFwEnd_keeps mb wr d s
  case h_25 => exact svcFwActivate_keeps mb wr d hrun
  case h_27 => exact svcFwAbort_keeps mb wr d s
  case h_28 => exact svcCalWrite_keeps mb wr d s
  case h_29 => exact svcCalRead_keeps mb wr d s
  case h_30 => exact svcCalRestore_keeps mb wr d s
  case h_31 => exact svcLogRead_keeps mb wr d s
  case h_32 => exact .err ..
  all_goals exact .read ..

theorem Orderly.endSmb {s : State} {v : Svc} (code : Nat) (waits : Bool) (h : v.Keeps s) : Orderly s (endSmb code v waits) :=
  .trans h (.onStw rfl)

theorem Orderly.endMb {s : State} {v : Svc} (code : Nat) (waits : Bool) (h : v.Keeps s) : Orderly s (endMb code v waits) :=
  .trans h (.onStw rfl)

theorem Orderly.serveMailbox (code : Nat) {s : State} (hrun : s.stw.run = .running) : Orderly s (serveMailbox code s) := by
  unfold Machine.serveMailbox
  split
  · exact .refl s
  · exact .ite (fun _ => .endMb _ _ (serve_keeps _ _ _ _ hrun)) fun _ => .refl s

theorem stewardRow_answers (code : Nat) (tr : StwTr) (s : State) : Answers s (stewardRow code tr s) := .steward fun hrun => by
  split
  · exact .ite (fun _ => .endSmb _ _ (serve_keeps _ _ _ _ hrun)) fun _ => .refl s
  · exact .serveMailbox _ hrun

theorem powerCtrlRow_answers (v : Nat) (tr : StwTr) (s : State) : Answers s (powerCtrlRow v tr s) := by
  unfold powerCtrlRow
  split
  · exact stewardRow_answers ..
  · split
    · exact stewardRow_answers ..
    · exact .next (.refl s)

theorem directedRow_answers (code : Nat) (w : Bool) (tr : StwTr) (s : State) : Answers s (directedRow code w tr s) := by
  unfold directedRow
  split
  · exact stewardRow_answers ..
  · split
    · exact stewardRow_answers ..
    · exact .next (.refl s)

/-! ### What the steward does on its own -/

/-- A fault's action: a power-down, a log entry, or low power for the cages of a group (R139). -/
theorem Orderly.pointChange (s : State) (i : Nat) (old new : PtState) : Orderly s (s.pointChange i old new) := by
  refine .ite (fun _ => .refl s) fun _ => .andThen (.andThen (.andThen (.onStw rfl) fun _ => ?_) fun _ => ?_) fun _ => .onEng ..
  · exact .thenEng (.onStw rfl) _
  · generalize (pointInfo i).action = a
    cases a with
    | shutdown => exact .thenPowerDown (.thenStw (.thenEng (.onStw rfl) _) rfl)
    | log => exact .thenEng (.onStw rfl) _
    | opticsLp => exact .thenEng (.thenEng (.onStw rfl) _) _

theorem execPointSample_answers (rs : List (Option Nat)) (sp : List Nat) (s : State) : Answers s (execPointSample rs sp s) :=
  .steward fun _ => .thenStw (.thenFoldl (.thenEng (.onStw rfl) _) (fun t _ => .pointChange t ..) _) rfl

theorem execFanFailure_answers (fan : Nat) (s : State) : Answers s (execFanFailure fan s) :=
  .steward fun _ => .ite (fun _ => .of_eq rfl rfl rfl) fun _ => .refl s

theorem execHeartbeat_answers (s : State) : Answers s (execHeartbeat s) :=
  .steward fun _ => .ite (fun _ => .onEng ..) fun _ => .refl s

theorem execWatchdogKick_answers (s : State) : Answers s (execWatchdogKick s) := .steward fun _ => .onStw rfl

/-- The watchdog restarts a steward that has slot 12 V (R143). -/
theorem execWatchdogExpiry_answers (s : State) : Answers s (execWatchdogExpiry s) := by
  refine .next (.ite (fun _ => .refl s) fun hoff => .trans ?_ (.onEng ..))
  exact ⟨rfl, fun h => ⟨h.len, h.enabled, h.good, h.inRange, h.released, fun hn => absurd (h.off hn) hoff⟩⟩

theorem execStewardResume_answers (s : State) : Answers s (execStewardResume s) := by
  refine .next (.ite (fun hrun => ?_) fun _ => .refl s)
  dsimp only
  have hres : ∀ (f : Stw → Stw) (g : Engine → Engine), Orderly s ((s.onStw f).onEng g) := fun f g =>
    ⟨rfl, fun h => ⟨h.len, h.enabled, h.good, h.inRange, h.released, fun hn => by cases hrun.symm.trans (h.off hn)⟩⟩
  split
  · exact (hres _ _).trans (.powerDown _)
  · exact (hres _ _).trans (.powerDown _)
  · exact (hres _ _).trans (.powerDown _)
  · next hph => exact .dropNext (hres _ _) hph
  · split
    · exact (hres _ _).trans (.powerDown _)
    · exact hres _ _
  · exact hres _ _

theorem execLabelWriteStart_answers (s : State) : Answers s (execLabelWriteStart s) :=
  .steward fun _ => .onStw (by split <;> rfl)

theorem Orderly.serveWaiting (s : State) (p : Nat) (r : LabelReader) : Orderly s (s.serveWaiting p r) := by
  cases r with
  | field => exact .ite (fun _ => .onEng ..) fun _ => .refl s
  | smb h => exact .of_eq rfl rfl rfl
  | mailbox h => exact .of_eq rfl rfl rfl

theorem execLabelWriteCommit_answers (s : State) : Answers s (execLabelWriteCommit s) := .steward fun _ => by
  split
  · exact .refl s
  · exact .thenFoldl (.onStw rfl) (fun t _ => .serveWaiting t ..) _

theorem Orderly.mailboxGo (v : Nat) (s : State) : Orderly s (mailboxGo v s) :=
  .andThen (.onEng ..) fun _ => .of_eq rfl rfl rfl

theorem execMailboxGo_answers (v : Nat) (s : State) : Answers s (execMailboxGo v s) :=
  .next (.ite (fun _ => .ite (fun _ => .refl s) fun _ => .mailboxGo v s) fun _ => .refl s)

theorem execMailboxTimeout_answers (s : State) : Answers s (execMailboxTimeout s) :=
  .next (.ite (fun _ => .of_eq rfl rfl rfl) fun _ => .refl s)

theorem execMailboxAnswer_answers (s : State) : Answers s (execMailboxAnswer s) := .steward fun hrun => by
  dsimp only
  split
  · exact .refl s
  · next r _ =>
    refine .ite (fun _ => .of_eq rfl rfl rfl) fun _ => ?_
    have hserve : Orderly s (serveMailbox r.code s) := .serveMailbox _ hrun
    split
    · exact hserve
    · exact .ite (fun _ => hserve) fun _ => hserve.trans (.of_eq rfl rfl rfl)

theorem execFwSessionTimeout_answers (s : State) : Answers s (execFwSessionTimeout s) :=
  .steward fun _ => .onStw (abortSession_run _)

/-! ### The field end, optics and the host's register accesses -/

/-- A row that changes the field end alone. -/
theorem Orderly.fld (s : State) (d : Field) : Orderly s { s with fld := d } := .of_eq rfl rfl rfl

theorem execLinkHelloSend_answers (b : Bool) (s : State) : Answers s (execLinkHelloSend b s) := by
  unfold execLinkHelloSend
  split
  · exact .next (.fld ..)
  · exact .engine ..

theorem execLabelRead_answers (fr : KolFrame) (s : State) : Answers s (execLabelRead fr s) := by
  refine .next (.ite (fun _ => .fld ..) fun _ => ?_)
  dsimp only
  obtain ⟨e, _ | p⟩ := s.eng.kolReceive 0x30 fr
  · exact .of_eq rfl rfl rfl
  · exact .ite (fun _ => .of_eq rfl rfl rfl) fun _ => .ite (fun _ => .of_eq rfl rfl rfl) fun _ => .of_eq rfl rfl rfl

theorem execBadAccess_answers (w : Bool) (off n : Nat) (s : State) : Answers s (execBadAccess w off n s) :=
  .next (.ite (fun _ => .refl s) fun _ => .ite (fun _ => .onEng ..) fun _ => .thenEng (.onEng ..) _)

/-- A write of one register changes the engine, or is the command of that register's own row. -/
theorem regWrite_answers (off v : Nat) (s : State) : Answers s (regWrite off v s) := by
  unfold regWrite
  split
  · exact .next (.refl s)
  · dsimp only
    split
    case h_3 | h_4 | h_7 => exact .next (.onEng ..)
    case h_8 =>
      split
      · exact execColdReset_answers ..
      · split
        · exact execWarmReset_answers ..
        · exact .next (.refl s)
    case h_28 => exact execMailboxGo_answers ..
    case h_29 => split <;> exact .next (.onEng ..)
    all_goals exact .host ..

theorem barWrite_answers (r : Bool) (off : Nat) (d : Bytes) (s : State) : Answers s (barWrite r off d s) := by
  unfold barWrite
  split
  · have hlow : Answers s (if (regWidth r off).isSome then regWrite off (leAt d 0 4) s else .next s) := by
      split
      · exact regWrite_answers ..
      · exact .next (.refl s)
    obtain ⟨t, hx, ht⟩ := hlow
    simp only [hx]
    split
    · obtain ⟨u, hx', hu⟩ := regWrite_answers (off + 4) (leAt d 4 4) t
      exact ⟨u, hx', ht.trans hu⟩
    · exact .next ht
  · exact regWrite_answers ..

theorem execRegisterWrite_answers (off : Nat) (d : Bytes) (s : State) : Answers s (execRegisterWrite off d s) := by
  unfold execRegisterWrite
  dsimp only
  split
  · exact .next (.refl s)
  · split
    · exact .next (.onEng ..)
    · split
      · exact .next (.onEng ..)
      · split
        · exact .next (.onEng ..)
        · split
          · exact .next (.refl s)
          · exact barWrite_answers ..

/-! ### Every row -/

/-- Every command answers a next state, to which it is an orderly change. -/
theorem exec_answers (c : Instr) (s : State) : Answers s (exec c s) := by
  cases hb : besideEngine c with
  | false =>
    obtain ⟨f, hf⟩ | ⟨f, hf⟩ := exec_gate hb
    · rw [hf]; exact .engine ..
    · rw [hf]; exact .host ..
  | true =>
    cases c with
    | slot12vApplied => exact execSlot12vApplied_answers s
    | slot12vRemoved => exact execSlot12vRemoved_answers s
    | powerEnableQualified => exact execPowerEnableQualified_answers s
    | railEnable => exact execRailEnable_answers s
    | railPowerGood => exact execRailPowerGood_answers s
    | railWakeTimeout => exact execRailWakeTimeout_answers s
    | pllLock => exact execPllLock_answers s
    | pllLockTimeout => exact execPllLockTimeout_answers s
    | wakeRetry => exact execWakeRetry_answers s
    | powerDownStart => exact execPowerDownStart_answers s
    | pwrUndervoltage => exact execPwrUndervoltage_answers s
    | railDisableNext how => exact execRailDisableNext_answers how s
    | efuseOpen => exact execEfuseOpen_answers s
    | offTimeEnd => exact execOffTimeEnd_answers s
    | bootOk => exact execBootOk_answers s
    | bootTimeout => exact execBootTimeout_answers s
    | perstNAssert ld => exact execPerstNAssert_answers ld s
    | pllLoss => exact execPllLoss_answers s
    | coldReset key => exact execColdReset_answers key s
    | warmReset key => exact execWarmReset_answers key s
    | warmResetComplete => exact execWarmResetComplete_answers s
    | latticeResetTime => exact execLatticeResetTime_answers s
    | heartbeat => exact execHeartbeat_answers s
    | pointSample rs sp => exact execPointSample_answers rs sp s
    | fanFailure fan => exact execFanFailure_answers fan s
    | watchdogKick => exact execWatchdogKick_answers s
    | watchdogExpiry => exact execWatchdogExpiry_answers s
    | stewardResume => exact execStewardResume_answers s
    | thermalTrip105 x => exact execThermalTrip105_answers x s
    | thermalHalt115 x => exact execThermalHalt115_answers x s
    | mailboxGo v => exact execMailboxGo_answers v s
    | mailboxTimeout => exact execMailboxTimeout_answers s
    | page | clearFaults | statusWord | mfrId | mfrModel | mfrRevision | mfrSerial | readPoint | pointLimits | readAll
    | pointStatus | powerState | fanProfile | fanConfig | fanStatus | lastStatus | labelSel | labelCommit | labelVis | fwBegin
    | fwData | fwEnd | fwActivate | fwStatus | fwAbort | calWrite | calRead | calRestoreFactory
    | logRead => exact stewardRow_answers ..
    | powerCtrlOff | powerCtrlOn | powerCtrlRetry | powerCtrlEngineReset => exact powerCtrlRow_answers ..
    | smbLabelDataRead | smbLabelDataWrite => exact directedRow_answers ..
    | labelWriteStart => exact execLabelWriteStart_answers s
    | labelWriteCommit => exact execLabelWriteCommit_answers s
    | fwSessionTimeout => exact execFwSessionTimeout_answers s
    | linkHelloSend b => exact execLinkHelloSend_answers b s
    | triggerOut | labelData | refGateEnd | fidPresSettled | vfldOvercurrent | vfldRetry | fieldAlarmRepeat | labelReadRetry
    | falmNChange | refPresenceChange => exact .next (.fld ..)
    | labelRead fr => exact execLabelRead_answers fr s
    | opticsInsert | opticsRemove | cblPresChange => exact .next (.onEng ..)
    | railLost => exact execRailLost_answers s
    | railOk => exact execRailOk_answers s
    | badAccess w off n => exact execBadAccess_answers w off n s
    | registerWrite off d => exact execRegisterWrite_answers off d s
    | mailboxAnswer => exact execMailboxAnswer_answers s
    | perstNDeassert => exact .next (.of_rails rfl rfl rfl id rfl)
    | _ => cases hb

/-- A core cycle changes the engine alone. -/
theorem Orderly.tick (s : State) : Orderly s s.tick :=
  .ite (fun _ => .onEng ..) fun _ => .ite (fun _ => .onEng ..) fun _ => .refl s

/-- Settles O57: every row's answer is an orderly change. -/
theorem commandsAnswerAndLeaveTheQueue : Obligations.CommandsAnswerAndLeaveTheQueue := fun c s =>
  (exec_answers c s).imp fun _ h => ⟨h.1, h.2.pending⟩

/-- Settles O60: a step is a row on the queue's rest, or a core cycle, and both are orderly. -/
theorem stepsKeepPowerInOrder : Obligations.StepsKeepPowerInOrder := by
  intro s t hs ht
  rw [State.powerInOrder_iff] at hs ⊢
  cases hq : s.pending with
  | nil =>
    rw [step_nil s hq] at ht
    cases ht
    exact (Orderly.tick s).inOrder hs
  | cons c r =>
    rw [step_cons s c r hq] at ht
    obtain ⟨u, hx, hu⟩ := exec_answers c { s with pending := r }
    cases hx.symm.trans ht
    exact hu.inOrder hs

end Sys2Proof.Machine

/-!
SUPPORT. Registers, further: what a read shows after an event, a count and a conditional event, and saturating counts.
-/
namespace Sys2Proof.Machine

/-! ### Registers after events and counts -/

theorem Engine.rd_evt_other (e : Engine) (f : Fld) {off : Nat} (h : off ≠ f.off) : (e.evt f).rd off = e.rd off :=
  Engine.rd_put_other _ _ _ h

theorem Engine.rd_evtIf_other (e : Engine) (c : Bool) (f : Fld) {off : Nat} (h : off ≠ f.off) : (e.evtIf c f).rd off = e.rd off := by
  unfold Engine.evtIf; split
  · exact e.rd_evt_other f h
  · rfl

theorem Engine.rd_countN_other (e : Engine) {off off' : Nat} (n : Nat) (h : off' ≠ off) : (e.countN off n).rd off' = e.rd off' :=
  Engine.rd_wr_other _ _ h

theorem Engine.rd_count_other (e : Engine) {off off' : Nat} (h : off' ≠ off) : (e.count off).rd off' = e.rd off' :=
  e.rd_countN_other 1 h

theorem Engine.get_evt_other (e : Engine) (f g : Fld) (h : g.off ≠ f.off ∨ (g.hi < f.lo ∨ f.hi < g.lo) ∧ f.hi < 64 ∧ f.lo ≤ f.hi) :
    (e.evt f).get g = e.get g := Engine.get_put_other _ _ _ _ h

theorem Engine.get_count_other (e : Engine) (f : Fld) {off : Nat} (h : f.off ≠ off) : (e.count off).get f = e.get f :=
  Engine.get_wr_other _ _ _ h

theorem Engine.is_put_other (e : Engine) (f g : Fld) (v : Nat)
    (h : g.off ≠ f.off ∨ (g.hi < f.lo ∨ f.hi < g.lo) ∧ f.hi < 64 ∧ f.lo ≤ f.hi) : (e.put f v).is g = e.is g := by
  rw [Engine.is, Engine.get_put_other _ _ _ _ h, Engine.is]

theorem Engine.is_evt_other (e : Engine) (f g : Fld) (h : g.off ≠ f.off ∨ (g.hi < f.lo ∨ f.hi < g.lo) ∧ f.hi < 64 ∧ f.lo ≤ f.hi) :
    (e.evt f).is g = e.is g := Engine.is_put_other _ _ _ _ h

theorem Engine.is_count_other (e : Engine) (f : Fld) {off : Nat} (h : f.off ≠ off) : (e.count off).is f = e.is f := by
  rw [Engine.is, Engine.get_count_other _ _ h, Engine.is]

theorem Engine.is_wr_other (e : Engine) (f : Fld) {off : Nat} (v : Nat) (h : f.off ≠ off) : (e.wr off v).is f = e.is f := by
  rw [Engine.is, Engine.get_wr_other _ _ _ h, Engine.is]

/-- A field of a register as the register was written. -/
theorem Engine.get_wr_same (e : Engine) (f : Fld) (v : Nat) : (e.wr f.off v).get f = bitsOf (v % 2 ^ 64) f.hi f.lo := by
  rw [Engine.get, Engine.rd_wr_same]

/-- A one-bit field reads as written. -/
theorem Engine.is_put_same (e : Engine) (f : Fld) (v : Nat) (h : f.hi < 64 ∧ f.lo = f.hi) : (e.put f v).is f = (v % 2 == 1) := by
  rw [Engine.is, Engine.get_put_same _ _ _ h.1 h.2.le]
  congr 2
  rw [h.2, Nat.add_sub_cancel_left, pow_one]

/-! ### Saturating counts -/

theorem Engine.rd_countN_same (e : Engine) (off n : Nat) : (e.countN off n).rd off = satCount 48 (e.rd off) n := by
  rw [Engine.countN, Engine.rd_wr_same, Nat.mod_eq_of_lt (satCount_lt _ (by decide) (by decide) (e.rd_lt off))]

theorem Engine.rd_tallyN_same (e : Engine) (off n : Nat) : (e.tallyN off n).rd off = satCount 40 (e.rd off) n := by
  rw [Engine.tallyN, Engine.rd_wr_same, Nat.mod_eq_of_lt (satCount_lt _ (by decide) (by decide) (e.rd_lt off))]

end Sys2Proof.Machine

/-!
PROOFS. Power as it comes up and goes down (O1), and the engine's cold resets (O2).
-/
namespace Sys2Proof.Machine

/-! ### What the power operations leave -/

@[simp] theorem State.followVfld_pwr (s : State) : s.followVfld.pwr = s.pwr := by
  unfold State.followVfld; dsimp only; split
  · rfl
  · split <;> rfl

@[simp] theorem State.followVfld_stw (s : State) : s.followVfld.stw = s.stw := by
  unfold State.followVfld; dsimp only; split
  · rfl
  · split <;> rfl

@[simp] theorem State.followVfld_eng (s : State) : s.followVfld.eng = s.eng := by
  unfold State.followVfld; dsimp only; split
  · rfl
  · split <;> rfl

/-- Dropping a rail changes the rails and the phase alone. -/
theorem Pwr.dropBelow_eq (p : Pwr) (k : Nat) (a : AfterDrop) :
    ∃ ph rs, p.dropBelow k a = { p with phase := ph, rails := rs } := by
  unfold Pwr.dropBelow
  split
  · exact ⟨_, _, rfl⟩
  · exact ⟨_, p.rails, rfl⟩

/-- The highest enabled rail goes first: below rail `k + 1` that is rail `k`, where it is enabled. -/
theorem Pwr.dropBelow_phase {p : Pwr} {k : Nat} (a : AfterDrop) (hk : 2 ≤ k) (he : (p.rail k).enabled = true) :
    (p.dropBelow (k + 1) a).phase = .dropping k a := by
  have htop : p.topRail (k + 1) = some k := by simp [Pwr.topRail, List.range_succ, hk, he]
  rw [Pwr.dropBelow, htop]

@[simp] theorem Pwr.dropBelow_failedRails (p : Pwr) (k : Nat) (a : AfterDrop) : (p.dropBelow k a).failedRails = p.failedRails := by
  obtain ⟨ph, rs, h⟩ := p.dropBelow_eq k a
  rw [h]

theorem State.startDown_pwr (s : State) (a : AfterDrop) :
    ∃ ph rs, (s.startDown a).pwr = { s.pwr with released := false, halted := false, phase := ph, rails := rs } := by
  rw [State.startDown, State.followVfld_pwr]
  exact Pwr.dropBelow_eq _ _ _

@[simp] theorem State.startDown_eng (s : State) (a : AfterDrop) : (s.startDown a).eng = s.eng.cold := State.followVfld_eng _

@[simp] theorem State.startDown_released (s : State) (a : AfterDrop) : (s.startDown a).pwr.released = false := by
  obtain ⟨ph, rs, h⟩ := s.startDown_pwr a
  rw [h]

@[simp] theorem State.startDown_psuOk (s : State) (a : AfterDrop) : (s.startDown a).pwr.psuOk = s.pwr.psuOk := by
  obtain ⟨ph, rs, h⟩ := s.startDown_pwr a
  rw [h]

@[simp] theorem State.startDown_retries (s : State) (a : AfterDrop) : (s.startDown a).pwr.retries = s.pwr.retries := by
  obtain ⟨ph, rs, h⟩ := s.startDown_pwr a
  rw [h]

@[simp] theorem State.startDown_wakeFail (s : State) (a : AfterDrop) : (s.startDown a).pwr.wakeFail = s.pwr.wakeFail := by
  obtain ⟨ph, rs, h⟩ := s.startDown_pwr a
  rw [h]

theorem State.startDown_phase {s : State} (a : AfterDrop) (he : (s.pwr.rail 11).enabled = true) :
    (s.startDown a).pwr.phase = .dropping 11 a := by
  rw [State.startDown, State.followVfld_pwr]
  exact Pwr.dropBelow_phase a (by decide) he

theorem State.powerDown_running {s : State} (h : s.pwr.phase = .running) : s.powerDown = s.startDown .offTime := by
  simp [State.powerDown, h, PwrPhase.isUp]

theorem Pwr.upIfEnabled_enabled {p : Pwr} (he : p.enable = true) (hf : p.efuseOpen = false) : p.upIfEnabled = p.beginUp := by
  simp [Pwr.upIfEnabled, he, hf]

theorem State.wakeFailure_retry {s : State} (code : Nat) (h : s.pwr.retries < 2) :
    (s.wakeFailure code).pwr.retries = s.pwr.retries + 1 ∧ (s.wakeFailure code).pwr.wakeFail = s.pwr.wakeFail ∧
      (s.wakeFailure code).pwr.released = false := by
  simp [State.wakeFailure, h]

/-- The third wake failure keeps its code (R99). -/
theorem State.wakeFailure_hold {s : State} (code : Nat) (h : 2 ≤ s.pwr.retries) :
    (s.wakeFailure code).pwr.wakeFail = some code ∧ (s.wakeFailure code).pwr.released = false := by
  simp [State.wakeFailure, Nat.not_lt.2 h]

/-! ### Cold resets (R93, R113, R114) -/

@[simp] theorem Engine.hotAgain_time (e : Engine) : e.hotAgain.time = e.time := by
  unfold Engine.hotAgain; split <;> simp
@[simp] theorem Engine.hotAgain_mem (e : Engine) : e.hotAgain.mem = e.mem := by
  unfold Engine.hotAgain; split <;> simp
@[simp] theorem Engine.evtIf_time (e : Engine) (c : Bool) (f : Fld) : (e.evtIf c f).time = e.time := by
  unfold Engine.evtIf; split <;> simp
@[simp] theorem Engine.evtIf_mem (e : Engine) (c : Bool) (f : Fld) : (e.evtIf c f).mem = e.mem := by
  unfold Engine.evtIf; split <;> simp
@[simp] theorem Engine.evtIf_phys (e : Engine) (c : Bool) (f : Fld) : (e.evtIf c f).phys = e.phys := by
  unfold Engine.evtIf; split <;> simp
@[simp] theorem Engine.loadCal_time (e : Engine) (w : Stw) : (e.loadCal w).time = e.time := rfl
@[simp] theorem Engine.loadCal_mem (e : Engine) (w : Stw) : (e.loadCal w).mem = e.mem := rfl
@[simp] theorem Engine.loadCal_phys (e : Engine) (w : Stw) : (e.loadCal w).phys = e.phys := rfl

theorem Engine.hotAgain_cool {e : Engine} (h : e.phys.hotspot < 1050) : e.hotAgain = e := if_pos h

/-- A cold reset starts lattice time and memory over. -/
theorem State.coldReset_fresh (s : State) (cause : Nat) (copyB subst : Bool) :
    (s.coldReset cause copyB subst).eng.time = 0 ∧ (s.coldReset cause copyB subst).eng.mem = [] := by
  simp [State.coldReset, Engine.cold]

theorem Engine.loadCal_rd_other (e : Engine) (w : Stw) {off : Nat} (h : off ≠ Reg.KOL_CAL) (h' : off ≠ Reg.KOL_STAT) :
    (e.loadCal w).rd off = e.rd off := by
  rw [Engine.loadCal, Engine.rd_put_other _ _ _ h', Engine.rd_wr_other _ _ h]

/-- The registers that a cold reset reports in: its cause, the delays loaded and the steward's word. -/
def coldReports : List Nat := [Reg.CLK_RST_CAUSE, Reg.KOL_CAL, Reg.KOL_STAT, Reg.STW_STAT, Reg.STW_EVT]

/-- Any other register holds its Reset value. -/
theorem State.coldReset_rd {s : State} {cause : Nat} {copyB subst : Bool} (hcool : s.eng.phys.hotspot < 1050) {off : Nat}
    (h : off ∉ coldReports) : (s.coldReset cause copyB subst).eng.rd off = (regReset off).toNat := by
  simp only [coldReports, List.mem_cons, List.not_mem_nil, or_false, not_or] at h
  obtain ⟨hcause, hcal, hkol, hstat, hevt⟩ := h
  unfold State.coldReset
  dsimp only
  rw [Engine.hotAgain_cool (by simpa [Engine.cold] using hcool), Engine.rd_evtIf_other _ _ _ hevt, Engine.rd_put_other _ _ _ hstat,
    Engine.rd_put_other _ _ _ hstat, Engine.rd_put_other _ _ _ hstat, Engine.rd_put_other _ _ _ hstat,
    Engine.loadCal_rd_other _ _ hcal hkol, Engine.rd_put_other _ _ _ hcause]
  rfl

theorem State.coldReset_cause {s : State} {cause : Nat} {copyB subst : Bool} (hcool : s.eng.phys.hotspot < 1050) :
    (s.coldReset cause copyB subst).eng.get Fld.CLK_RST_CAUSE_CAUSE = cause % 2 ^ 4 := by
  unfold State.coldReset
  dsimp only
  rw [Engine.hotAgain_cool (by simpa [Engine.cold] using hcool), Engine.get, Engine.rd_evtIf_other _ _ _ (by decide),
    Engine.rd_put_other _ _ _ (by decide), Engine.rd_put_other _ _ _ (by decide), Engine.rd_put_other _ _ _ (by decide),
    Engine.rd_put_other _ _ _ (by decide), Engine.loadCal_rd_other _ _ (by decide) (by decide)]
  exact Engine.get_put_same (s.eng.cold) Fld.CLK_RST_CAUSE_CAUSE cause (by decide) (by decide)

/-- A released engine in boot-ROM recovery serves no row. -/
theorem State.engineUp_recovery {s : State} (h : s.stw.boot = .recovery) : s.engineUp = false := by
  simp [State.engineUp, h]

/-! ### The obligations -/

/-- Settles O1, phase by phase: each row of the power tables acts in its own phase and shows the phase that follows. -/
theorem powerFollowsItsOrder : Obligations.PowerFollowsItsOrder := by
  unfold Obligations.PowerFollowsItsOrder
  refine ⟨?slotOn, ?enable, ?raise, ?good, ?lock, ?boot, ?offEnd, ?retry, ?down, ?under, ?fell, ?stuck, ?wake, ?wakeLast, ?pllLast,
    ?efuse, ?slotOff⟩
  case slotOn =>
    exact fun s hph => .next rfl (by simp [hph, Stw.start, Pwr.setRail])
  case enable =>
    intro s hrun hph hslot hon hfuse
    refine (show execPowerEnableQualified s = stewardStep s _ from rfl).trans ((stewardStep_run hrun).trans ?_)
    simp [hph, hslot, Pwr.upIfEnabled, Pwr.enable, hon, hfuse, Pwr.beginUp]
  case raise =>
    intro s k hrun hph
    refine (show execRailEnable s = stewardStep s _ from rfl).trans ((stewardStep_run hrun).trans ?_)
    simp only [hph, Pwr.setRail]
  case good =>
    intro s k hrun hph
    refine .steward (show execRailPowerGood s = stewardStep s _ from rfl) hrun ?_
    simp [hph, Pwr.setRail]
  case lock =>
    intro s hrun hph
    refine .steward (show execPllLock s = stewardStep s _ from rfl) hrun ?_
    simp only [hph, State.coldBoot]
    exact ⟨rfl, rfl, rfl, rfl, (State.coldReset_fresh ..).1, (State.coldReset_fresh ..).2, rfl⟩
  case boot =>
    intro s hrel hhalt hboot
    refine .next (congrArg Host.Outcome.next (if_pos ?_)) ⟨rfl, rfl, rfl, rfl⟩
    obtain hb | hb := hboot <;> simp [hrel, hhalt, hb]
  case offEnd =>
    intro s hrun hph hen hfuse
    refine (show execOffTimeEnd s = stewardStep s _ from rfl).trans ((stewardStep_run hrun).trans ?_)
    simp only [hph]
    rw [Pwr.upIfEnabled_enabled hen hfuse, Pwr.beginUp]
  case retry =>
    intro s hrun hph hen hfuse
    refine (show execWakeRetry s = stewardStep s _ from rfl).trans ((stewardStep_run hrun).trans ?_)
    simp [hph, hen, hfuse]
  case down =>
    intro s hrun hph htop
    refine .steward (show execPowerDownStart s = stewardStep s _ from rfl) hrun ?_
    rw [State.powerDown_running hph]
    exact ⟨s.startDown_phase _ htop, by simp, by simp; rfl, by simp; rfl⟩
  case under =>
    intro s hrun hph htop
    refine .next rfl ?_
    simp only [hrun]
    rw [State.powerDown_running (by exact hph)]
    exact ⟨State.startDown_phase _ htop, by simp, by simp⟩
  case fell =>
    intro s k a hrun hph hk he
    refine .steward (show execRailDisableNext .fell s = stewardStep s _ from rfl) hrun ?_
    obtain ⟨j, rfl⟩ : ∃ j, k = j + 1 := ⟨k - 1, by omega⟩
    have hrail : ((s.pwr.setRail (j + 1) fun x => { x with aboveOff := false }).rail j).enabled = true := by
      rw [← he, Nat.add_sub_cancel, Pwr.rail, Pwr.rail, Pwr.setRail, getD_modAt, if_neg (by omega)]
    simp only [hph, if_true, State.followVfld_pwr, State.followVfld_eng]
    exact ⟨Pwr.dropBelow_phase a (by omega) hrail, by simp [Pwr.setRail], trivial⟩
  case stuck =>
    intro s k a how hrun hph hhow hk
    refine .steward (show execRailDisableNext how s = stewardStep s _ from rfl) hrun ?_
    simp only [hph, if_neg hhow, if_neg hk, State.followVfld_pwr, State.followVfld_stw]
    exact ⟨by simp, trivial⟩
  case wake =>
    intro s k hrun hph hr
    refine .steward (show execRailWakeTimeout s = stewardStep s _ from rfl) hrun ?_
    simp only [hph]
    exact State.wakeFailure_retry k hr
  case wakeLast =>
    intro s k hrun hph hr
    refine .steward (show execRailWakeTimeout s = stewardStep s _ from rfl) hrun ?_
    simp only [hph]
    exact State.wakeFailure_hold k hr
  case pllLast =>
    intro s hrun hph hr
    refine .steward (show execPllLockTimeout s = stewardStep s _ from rfl) hrun ?_
    simp only [hph]
    exact State.wakeFailure_hold _ hr
  case efuse =>
    intro s k hrun hk habove hoff
    refine .steward (show execEfuseOpen s = stewardStep s _ from rfl) hrun ?_
    rw [if_pos (List.any_eq_true.2 ⟨k, hk, by simp [habove, hoff]⟩)]
    simp
  case slotOff =>
    exact fun s => .next rfl ⟨rfl, rfl, rfl, rfl, rfl, rfl, rfl⟩

/-- Settles O2: each cold reset is the one operation `State.coldReset`, whose register rules say what reads its Reset value. -/
theorem coldResetLeavesResetValues : Obligations.ColdResetLeavesResetValues := by
  unfold Obligations.ColdResetLeavesResetValues
  refine ⟨?host, ?perst, ?second, ?recovery, ?loss, ?deassert⟩
  case host =>
    intro s hp hbusy hpend hcool
    refine .next (t := s.coldBoot 2) ?_ ?_
    · exact congrArg Host.Outcome.next (by simp [hp, hbusy, hpend])
    · exact ⟨(State.coldReset_fresh ..).1, (State.coldReset_fresh ..).2, State.coldReset_cause hcool,
        fun off h => State.coldReset_rd hcool h⟩
  case perst =>
    intro s ld hrel hcool
    refine .next (congrArg Host.Outcome.next (if_pos hrel)) ?_
    exact ⟨rfl, rfl, (State.coldReset_fresh ..).1, State.coldReset_cause hcool⟩
  case second =>
    intro s hrun hrel hhalt hboot
    refine .steward (show execBootTimeout s = stewardStep s _ from rfl) hrun ?_
    simp only [hrel, hhalt, hboot]
    exact ⟨rfl, rfl, (State.coldReset_fresh ..).1⟩
  case recovery =>
    intro s hrun hrel hhalt hboot
    refine .steward (show execBootTimeout s = stewardStep s _ from rfl) hrun ?_
    simp only [hrel, hhalt, hboot]
    exact ⟨rfl, Engine.get_put_same _ _ _ (by decide) (by decide), State.engineUp_recovery rfl⟩
  case loss => exact fun s hrel => congrArg Host.Outcome.next (if_pos hrel)
  case deassert => exact fun s => rfl

end Sys2Proof.Machine

/-!
PROOFS. The steward's command set on SMBus: what its reads answer (O3), what its writes change (O4) and its firmware sessions (O5).
-/
namespace Sys2Proof.Machine

/-! ### Little-endian byte strings -/

@[simp] theorem length_natLE (k n : Nat) : (natLE k n).length = k := by
  induction k generalizing n with
  | zero => rfl
  | succ k ih => simp [natLE, ih]

theorem leNat_natLE (k n : Nat) : leNat (natLE k n) = n % 256 ^ k := by
  induction k generalizing n with
  | zero => simp [natLE, leNat, Nat.mod_one]
  | succ k ih => simp [natLE, leNat, ih, pow_succ', Nat.mod_mul]

/-- The field at the front of a byte string is the number that was put there. -/
theorem leAt_natLE_append (k n : Nat) (d : Bytes) : leAt (natLE k n ++ d) 0 k = n % 256 ^ k := by
  rw [leAt, slice, List.drop_zero, List.take_left' (length_natLE k n), leNat_natLE]

theorem length_freeBytes (f k n : Nat) : (freeBytes f k n).length = n := by simp [freeBytes]

/-! ### A row served on SMBus -/

/-- A row whose service is done sends its answer, and LAST_STATUS reads OK; LAST_STATUS itself keeps its status. -/
theorem stewardRow_smb {s s' : State} {code : Nat} {wr : Bool} {d rsp : Bytes} (hrun : s.stw.run = .running) (hcode : code ≠ 0xDF)
    (h : serve code false wr d s = (svcOk s' rsp, false)) : stewardRow code (.smb wr d true) s = .next (s'.smbAnswer rsp) := by
  rw [stewardRow, stewardStep_run hrun]
  simp [h, endSmb, svcOk, State.smbAnswer, hcode]

theorem runs_smb {c : Instr} {s s' : State} {code : Nat} {wr : Bool} {d rsp : Bytes} {P : State → Prop}
    (hc : exec c s = stewardRow code (.smb wr d true) s) (hrun : s.stw.run = .running) (hcode : code ≠ 0xDF)
    (h : serve code false wr d s = (svcOk s' rsp, false)) (hP : P (s'.smbAnswer rsp)) : Runs c s P :=
  ⟨_, hc.trans (stewardRow_smb hrun hcode h), hP⟩

/-! ### The read commands -/

theorem length_mfr (code : Nat) : (freeBytes Config.fMfr code (Config.free Config.fMfr code % 33)).length ≤ 32 := by
  rw [length_freeBytes]
  exact Nat.le_of_lt_succ (Nat.mod_lt _ (by decide))

theorem svcCalRead_user {s : State} {i : Nat} {b d : Bytes} (hsel : s.stw.smb.calSel = some i)
    (hrec : s.stw.calUser.find? (fun r => r.1 == i) = some (i, b)) : svcCalRead false false d s = svcOk s b := by
  simp [svcCalRead, Stw.ifc, hsel, hrec, svcRead]

theorem svcLogRead_selected {s : State} (h : s.stw.smb.logSel < s.stw.log.length) :
    svcLogRead false false [] s = svcOk s (freeBytes Config.fEventLog (s.stw.log.length - 1 - s.stw.smb.logSel) 16) := by
  simp [svcLogRead, Stw.ifc, h]

theorem svcLabelRead_idle {s : State} (hpage : s.stw.smb.labelPage ≤ 251) (hidle : s.stw.label.active = none)
    (hcrc : s.stw.smb.labelPage ∉ s.stw.label.crcBad) : svcLabelRead false s =
      (svcOk s (slice (s.stw.label.page s.stw.smb.labelPage) (128 * s.stw.smb.labelHalf) 128), false) := by
  simp [svcLabelRead, Stw.ifc, labelReadable, hpage, hidle, hcrc, labelAnswer]

/-- Settles O3, command by command: each read is served with its answer and the state unchanged. -/
theorem stewardReadsAnswer : Obligations.StewardReadsAnswer := by
  unfold Obligations.StewardReadsAnswer
  intro s hrun
  refine ⟨stewardRow_smb hrun (by decide) rfl, stewardRow_smb hrun (by decide) rfl, stewardRow_smb hrun (by decide) rfl,
    stewardRow_smb hrun (by decide) rfl, stewardRow_smb hrun (by decide) rfl, ?lastStatus,
    ⟨_, stewardRow_smb hrun (by decide) rfl, ?powerLength, ?powerRestarts⟩,
    ⟨_, stewardRow_smb hrun (by decide) rfl, length_freeBytes _ _ _⟩, ⟨_, stewardRow_smb hrun (by decide) rfl, length_mfr _⟩,
    ⟨_, stewardRow_smb hrun (by decide) rfl, length_mfr _⟩, ⟨_, stewardRow_smb hrun (by decide) rfl, length_mfr _⟩,
    ⟨_, stewardRow_smb hrun (by decide) rfl, length_mfr _⟩, ?cal, ?log, ?label⟩
  case lastStatus =>
    refine (show exec (.lastStatus (.smb false [] true)) s = stewardStep s _ from rfl).trans ((stewardStep_run hrun).trans ?_)
    simp [serve, svcLastStatus, svcRead, svcOk, endSmb, Stw.ifc]
    rfl
  case powerLength => simp
  case powerRestarts => rfl
  case cal =>
    exact fun i b hsel hrec => stewardRow_smb hrun (by decide) (congrArg (·, false) (svcCalRead_user hsel hrec))
  case log =>
    exact fun h => ⟨_, stewardRow_smb hrun (by decide) (congrArg (·, false) (svcLogRead_selected h)), length_freeBytes _ _ _⟩
  case label =>
    exact fun hpage hidle hcrc => stewardRow_smb hrun (by decide) (svcLabelRead_idle hpage hidle hcrc)

/-! ### The write commands -/

theorem pointLimits_taken {s : State} {d : Bytes} (hlen : d.length = 8)
    (hlims : limsAllowed (pointInfo s.stw.smb.page).lims ((List.range 4).map fun j =>
      ((pointInfo s.stw.smb.page).lims.getD j none).map fun _ =>
        ptValue (pointInfo s.stw.smb.page).kind (leAt d (2 * j) 2) * 1000) = true) :
    svcPointLimits false true d s = svcOk (s.onStw fun w => { w with points := modAt w.points s.stw.smb.page fun p => { p with
      user := some ((List.range 4).map fun j => ((pointInfo s.stw.smb.page).lims.getD j none).map fun _ =>
        ptValue (pointInfo s.stw.smb.page).kind (leAt d (2 * j) 2) * 1000) } }) [] := by
  rw [svcPointLimits, if_pos rfl, if_neg (not_not.2 hlen)]
  exact if_pos hlims

theorem fanProfile_named {b : Nat} (f : Fan) (h : b < 3) : ∃ g, Machine.fanProfile b f = some g ∧ g.profile = b := by
  obtain rfl | rfl | rfl : b = 0 ∨ b = 1 ∨ b = 2 := by omega
  all_goals exact ⟨_, rfl, rfl⟩

@[simp] theorem State.startDown_enableOn (s : State) (a : AfterDrop) : (s.startDown a).pwr.enableOn = s.pwr.enableOn := by
  obtain ⟨ph, rs, h⟩ := s.startDown_pwr a
  rw [h]

/-- Settles O4, command by command: each write with operands its rule takes is done with an empty answer. -/
theorem stewardWritesTakeEffect : Obligations.StewardWritesTakeEffect := by
  unfold Obligations.StewardWritesTakeEffect
  intro s hrun
  refine ⟨?page, stewardRow_smb hrun (by decide) rfl, ?fanProfile, ?fanConfig, ?labelSel, ?labelWrite, ?labelCommit, ?labelVis, ?calWrite,
    stewardRow_smb hrun (by decide) rfl, ?lims, ?off, ?on, ?retry, ?engineReset⟩
  case page =>
    exact fun b h => stewardRow_smb hrun (by decide) (by simp [serve, svcPage, byteAt, h, Stw.setIfc])
  case fanProfile =>
    intro b h
    obtain ⟨f, hf, hp⟩ := fanProfile_named s.stw.fan h
    exact ⟨f, hf, hp, stewardRow_smb hrun (by decide) (by simp [serve, svcFanProfile, byteAt, hf])⟩
  case fanConfig =>
    intro a b c d ha ha' hb hb' hc hc' hd
    exact stewardRow_smb hrun (by decide) (by simp [serve, svcFanConfig, byteAt, ha, ha', hb, hb', hc, hc', hd])
  case labelSel =>
    exact fun p h hh => stewardRow_smb hrun (by decide) (by simp [serve, svcLabelSel, byteAt, hh, Stw.setIfc])
  case labelWrite =>
    exact fun d hd hhalf => stewardRow_smb hrun (by decide) (by simp [serve, svcLabelWrite, hd, Stw.setIfc, State.onStw, hhalf])
  case labelCommit =>
    intro n d hn hn' h0 h1
    exact stewardRow_smb hrun (by decide)
      (by simp [serve, svcLabelCommit, byteAt, Nat.not_lt.2 hn, Nat.not_lt.2 hn', h0, h1, Stw.setIfc, Stw.ifc, State.onStw])
  case labelVis =>
    intro p v hp hp' hv
    exact stewardRow_smb hrun (by decide)
      (by simp [serve, svcLabelVis, byteAt, Nat.not_lt.2 hp, Nat.not_lt.2 hp', Nat.not_lt.2 hv])
  case calWrite =>
    intro b _ c
    exact stewardRow_smb hrun (by decide) (by simp [serve, svcCalWrite, leAt_natLE_append])
  case lims =>
    exact fun d hlen hlims => runs_smb rfl hrun (by decide) (congrArg (·, false) (pointLimits_taken hlen hlims)) rfl
  case off =>
    intro hph htop
    refine runs_smb (code := 0xD8) rfl hrun (by decide) (rsp := []) (s' := powerCtrlOff s) rfl ?_
    rw [powerCtrlOff, State.powerDown_running (by exact hph)]
    exact ⟨State.startDown_enableOn _ _, State.startDown_released _ _, State.startDown_phase _ htop⟩
  case on =>
    intro hph hslot hpsu hfuse
    refine runs_smb (code := 0xD8) rfl hrun (by decide) (rsp := []) (s' := powerCtrlOn s) rfl ?_
    simp [powerCtrlOn, State.smbAnswer, State.onStw, hph, Pwr.upIfEnabled, Pwr.enable, hslot, hpsu, hfuse, Pwr.beginUp]
  case retry =>
    intro hph hen hfuse
    refine runs_smb (code := 0xD8) rfl hrun (by decide) (rsp := []) (s' := powerCtrlRetry s) rfl ?_
    simp only [powerCtrlRetry, hph]
    rw [Pwr.upIfEnabled_enabled (by exact hen) (by exact hfuse)]
    exact ⟨rfl, rfl, rfl⟩
  case engineReset =>
    intro hrel
    refine runs_smb (code := 0xD8) rfl hrun (by decide) (rsp := []) (s' := powerCtrlEngineReset s) rfl ?_
    rw [powerCtrlEngineReset, if_pos hrel]
    exact ⟨(State.coldReset_fresh ..).1, (State.coldReset_fresh ..).2, rfl⟩

/-! ### Firmware sessions -/

theorem FwPart.setSpare_spare (p : FwPart) (f : FwCopy → FwCopy) :
    (p.setSpare f).copy (!p.runningB) = f (p.copy (!p.runningB)) := by
  cases h : p.runningB <;> simp [FwPart.setSpare, FwPart.copy, h]

theorem FwPart.setSpare_running (p : FwPart) (f : FwCopy → FwCopy) : (p.setSpare f).copy p.runningB = p.copy p.runningB := by
  cases h : p.runningB <;> simp [FwPart.setSpare, FwPart.copy, h]

/-- Aborting a session on an engine image leaves the copy it wrote invalid. -/
theorem Stw.abortSession_engine {w : Stw} {x : FwSession} (hx : w.session = some x) (ht : x.target = 0) :
    w.abortSession.session = none ∧ (w.abortSession.engineFw.copy (!w.engineFw.runningB)).valid = false := by
  cases h : w.engineFw.runningB <;> simp [Stw.abortSession, hx, ht, FwPart.copy, h]

theorem svcFwBegin_opens {s : State} {n : Nat} (hn : n < 2 ^ 26) (hnone : s.stw.session = none) :
    svcFwBegin false true (natLE 1 0 ++ natLE 4 n) s = svcOk (s.onStw fun w =>
      { w.setPart 0 fun p => p.setSpare fun c => { c with valid := false } with session := some ⟨0, n, [], 0⟩ }) [] := by
  have hlen : leAt (natLE 1 0 ++ natLE 4 n) 1 4 = n := by
    rw [show leAt (natLE 1 0 ++ natLE 4 n) 1 4 = leAt (natLE 4 n ++ []) 0 4 by simp [leAt, slice, natLE], leAt_natLE_append]
    omega
  have htarget : byteAt (natLE 1 0 ++ natLE 4 n) 0 = 0 := rfl
  have hfits : ¬ 67108864 < n := by omega
  simp [svcFwBegin, hnone, hlen, htarget, hfits]

theorem svcFwData_kept {s : State} {x : FwSession} {off : Nat} {b : Bytes} (hx : s.stw.session = some x) (hb : b.length ≤ 128)
    (hend : off + b.length ≤ x.len) (hoff : off < 2 ^ 32) : svcFwData false true (natLE 4 off ++ b) s = svcOk (s.onStw fun w =>
      { w with session := some { x with data := Tbl.writeBytes x.data off b, received := x.received + b.length } }) [] := by
  have hat : leAt (natLE 4 off ++ b) 0 4 = off := by rw [leAt_natLE_append]; omega
  simp [svcFwData, hx, hat, Nat.not_lt.2 hb, Nat.not_lt.2 hend]

theorem svcFwEnd_fits {s : State} {x : FwSession} {d : Bytes} (hx : s.stw.session = some x) (ht : x.target = 0) (hd : d.length = 4)
    (hcrc : crc32 (Tbl.readBytes x.data 0 x.len) = leNat d) : svcFwEnd false true d s = svcOk (s.onStw fun w =>
      { w.setPart 0 fun p => p.setSpare fun _ =>
          ⟨true, byteAt (Tbl.readBytes x.data 0 x.len) 5, byteAt (Tbl.readBytes x.data 0 x.len) 4, some (Tbl.readBytes x.data 0 x.len)⟩
        with session := none }) [] := by
  simp [svcFwEnd, hx, hd, ht, hcrc]

/-- Settles O5, command by command: sessions work on the copy that is not running. -/
theorem firmwareSessions : Obligations.FirmwareSessions := by
  unfold Obligations.FirmwareSessions
  intro s hrun
  refine ⟨?begin, ?data, ?end_, ?activate, stewardRow_smb hrun (by decide) rfl, ?timeout, ?aborted⟩
  case begin =>
    intro n hn hnone
    refine runs_smb rfl hrun (by decide) (congrArg (·, false) (svcFwBegin_opens hn hnone)) ⟨rfl, ?_, ?_⟩
    · exact congrArg FwCopy.valid (FwPart.setSpare_spare s.stw.engineFw fun c => { c with valid := false })
    · exact FwPart.setSpare_running s.stw.engineFw _
  case data =>
    exact fun x off b hx hb hend hoff => stewardRow_smb hrun (by decide) (congrArg (·, false) (svcFwData_kept hx hb hend hoff))
  case end_ =>
    intro x d hx ht hd hcrc
    refine runs_smb rfl hrun (by decide) (congrArg (·, false) (svcFwEnd_fits hx ht hd hcrc)) ⟨rfl, ?_⟩
    exact congrArg FwCopy.valid (FwPart.setSpare_spare s.stw.engineFw fun _ => _)
  case activate =>
    intro hv
    exact stewardRow_smb hrun (by decide) (by simp [serve, svcFwActivate, byteAt, Stw.part, hv, Stw.setPart])
  case timeout =>
    exact (show exec .fwSessionTimeout s = stewardStep s (·.onStw Stw.abortSession) from rfl).trans (stewardStep_run hrun)
  case aborted => exact fun x hx ht => Stw.abortSession_engine hx ht

end Sys2Proof.Machine

/-!
PROOFS. The steward's two interfaces (O6), and what it does on its own (O7).
-/
namespace Sys2Proof.Machine

/-! ### The interfaces -/

/-- A transaction whose packet error code is wrong changes nothing. -/
theorem stewardRow_badPec (code : Nat) (wr : Bool) (d : Bytes) (s : State) : stewardRow code (.smb wr d false) s = .next s := by
  rw [stewardRow, stewardStep]
  exact congrArg Host.Outcome.next (ite_self s)

/-- The mailbox form of a row serves the outstanding request. -/
theorem stewardRow_mailbox {code : Nat} {s : State} {q : MbReq} (hrun : s.stw.run = .running) (hq : s.stw.req = some q)
    (hcode : q.code = code) (hopen : q.answer = none) : stewardRow code .mailbox s =
      .next (endMb code (serve code true (q.payload ≠ [] || sendByteCode code) q.payload s).1
        (serve code true (q.payload ≠ [] || sendByteCode code) q.payload s).2) := by
  rw [stewardRow, stewardStep_run hrun]
  simp [serveMailbox, hq, hcode, hopen]

/-- Every row of the table is the row of its code. -/
theorem stewardRows_exec : ∀ r ∈ stewardRows, ∀ tr s, exec (r.2 tr) s = stewardRow r.1 tr s := by
  intro r hr
  simp only [stewardRows, List.mem_cons, List.not_mem_nil, or_false] at hr
  rcases hr with rfl | rfl | rfl | rfl | rfl | rfl | rfl | rfl | rfl | rfl | rfl | rfl | rfl | rfl | rfl | rfl | rfl | rfl | rfl | rfl |
    rfl | rfl | rfl | rfl | rfl | rfl | rfl | rfl | rfl <;> exact fun _ _ => rfl

/-- The fields of the control word that GO writes. -/
theorem mailboxCtrl_fields {code len : Nat} (hcode : code < 256) (hlen : len ≤ 256) :
    bitsOf (code + 2 ^ 16 * len + 2 ^ 31) 7 0 = code ∧ bitsOf (code + 2 ^ 16 * len + 2 ^ 31) 24 16 = len ∧
      bitOf (code + 2 ^ 16 * len + 2 ^ 31) 31 = true := by
  simp only [bitsOf_eq, bitOf, Nat.shiftRight_eq_div_pow, beq_iff_eq]
  omega

/-- The engine's end of a request, as it reads from outside. -/
theorem Engine.mbEnd_reads (e : Engine) (status : Nat) (rsp : Bytes) :
    (e.mbEnd status rsp).is Fld.STW_MB_STAT_BUSY = false ∧ (e.mbEnd status rsp).is Fld.STW_MB_STAT_DONE = true ∧
      (e.mbEnd status rsp).get Fld.STW_MB_STAT_STATUS = status % 16 ∧
      (e.mbEnd status rsp).mbData = Tbl.writeBytes e.mbData 0 (rsp.take 256) := by
  unfold Engine.mbEnd
  dsimp only
  refine ⟨?_, ?_, ?_, by simp⟩
  · rw [Engine.is_evt_other _ _ _ (by decide), Engine.is_put_other _ _ _ _ (by decide), Engine.is_put_other _ _ _ _ (by decide),
      Engine.is_put_other _ _ _ _ (by decide), Engine.is_put_same _ _ _ (by decide)]
    rfl
  · rw [Engine.is_evt_other _ _ _ (by decide), Engine.is_put_other _ _ _ _ (by decide), Engine.is_put_other _ _ _ _ (by decide),
      Engine.is_put_same _ _ _ (by decide)]
    rfl
  · rw [Engine.get_evt_other _ _ _ (by decide), Engine.get_put_other _ _ _ _ (by decide),
      Engine.get_put_same _ _ _ (by decide) (by decide)]
    rfl

/-- Settles O6. -/
theorem stewardInterfaces : Obligations.StewardInterfaces := by
  unfold Obligations.StewardInterfaces
  refine ⟨?badPec, ?mailbox, ?go, ?answer, ?timeout⟩
  case badPec => exact fun r hr s wr d => (stewardRows_exec r hr _ s).trans (stewardRow_badPec r.1 wr d s)
  case mailbox =>
    exact fun r hr s q hrun hq hcode hopen => (stewardRows_exec r hr _ s).trans (stewardRow_mailbox hrun hq hcode hopen)
  case go =>
    intro s code len hp hreset hbusy hcode hlen
    obtain ⟨hc, hl, hgo⟩ := mailboxCtrl_fields hcode hlen
    refine .next (congrArg Host.Outcome.next ((if_pos (by simp [hp, hreset])).trans (if_neg (by simp [hbusy])))) ?_
    simp only [mailboxGo, hc, hl, hgo]
    generalize he : (s.eng.put Fld.STW_MB_CTRL_CMD code).put Fld.STW_MB_CTRL_LEN len = e
    have hbusy' : e.is Fld.STW_MB_STAT_BUSY = false := by
      rw [← he, Engine.is_put_other _ _ _ _ (by decide), Engine.is_put_other _ _ _ _ (by decide), hbusy]
    have hdata : e.mbData = s.eng.mbData := by rw [← he]; simp
    simp [State.onEng, he, hbusy', hdata, Nat.min_eq_left hlen, Engine.is_put_same e Fld.STW_MB_STAT_BUSY 1 (by decide)]
  case answer =>
    intro s q a hrun hrel hq hkeep ha hcode hst
    refine .steward (show execMailboxAnswer s = stewardStep s _ from rfl) hrun ?_
    have hserved : serveMailbox q.code s = s := by simp [serveMailbox, hq, ha]
    have hwaits : s.stw.commitWaits q.code = false := by simp [Stw.commitWaits, hcode]
    obtain ⟨hbusy, hdone, hstatus, hdata⟩ := s.eng.mbEnd_reads a.1 a.2
    have hst16 : a.1 % 16 = a.1 := Nat.mod_eq_of_lt (by omega)
    simp [hq, hkeep, hserved, hwaits, ha, hrel, hbusy, hdone, hstatus, hdata, hst16]
  case timeout =>
    intro s hrel hhalt hbusy
    obtain ⟨hbusy', hdone, hstatus, -⟩ := s.eng.mbEnd_reads 5 []
    exact .next (congrArg Host.Outcome.next (if_pos (by simp [hbusy, hrel, hhalt]))) ⟨rfl, hbusy', hdone, hstatus⟩

/-! ### What the steward does on its own -/

@[simp] theorem State.startDown_points (s : State) (a : AfterDrop) : (s.startDown a).stw.points = s.stw.points := by
  simp [State.startDown]

@[simp] theorem State.powerDown_points (s : State) : s.powerDown.stw.points = s.stw.points := by
  unfold State.powerDown
  split
  · simp
  · split <;> rfl

/-- A change of state takes its actions and leaves the points. -/
@[simp] theorem State.pointChange_points (s : State) (i : Nat) (old new : PtState) :
    (s.pointChange i old new).stw.points = s.stw.points := by
  unfold State.pointChange
  by_cases hsame : old = new
  · rw [if_pos hsame]
  · rw [if_neg hsame]
    cases new.isWarn <;> cases new.isFault <;> cases (pointInfo i).action <;> by_cases hok : new = .ok <;>
      simp [State.onEng, State.onStw, hok]

theorem foldl_pointChange_points (l : List Nat) (f g : Nat → PtState) (s : State) :
    (l.foldl (fun s i => s.pointChange i (f i) (g i)) s).stw.points = s.stw.points := by
  induction l generalizing s with
  | nil => rfl
  | cons i l ih => rw [List.foldl_cons, ih, State.pointChange_points]

theorem Stw.fanStep_points (w : Stw) : w.fanStep.points = w.points := rfl

/-- A failed blower asks for full duty (R142). -/
theorem fanTarget_blower {w : Stw} (h : w.fan.blowerFailed = true) : fanTarget w = 100 := by simp [fanTarget, h]

/-- At most full duty, a failed blower brings the duty to full at once. -/
theorem Stw.fanStep_blower {w : Stw} (h : w.fan.blowerFailed = true) (hd : w.fan.duty ≤ 10000) : w.fanStep.fan.duty = 10000 := by
  simp [Stw.fanStep, fanTarget_blower h, hd]

theorem blower_bit {fan : Nat} (n : Nat) (h : fan < 2) : (n ||| 2 ^ fan) % 2 ^ 2 ≠ 0 := by
  intro h0
  have hbit : ((n ||| 2 ^ fan) % 2 ^ 2).testBit fan = true := by
    rw [Nat.testBit_mod_two_pow, Nat.testBit_or, Nat.testBit_two_pow_self]
    simp [h]
  rw [h0, Nat.zero_testBit] at hbit
  exact Bool.false_ne_true hbit

theorem Label.recover_pending (l : Label) : l.recover.pending = none := by
  unfold Label.recover; split
  · assumption
  · rfl

theorem Stw.abortSession_restarts (w : Stw) : w.abortSession.restarts = w.restarts := by
  unfold Stw.abortSession
  split
  · rfl
  · dsimp only; split <;> rfl

/-- Settles O7. -/
theorem stewardActs : Obligations.StewardActs := by
  unfold Obligations.StewardActs
  refine ⟨?sample, ?fan, ?heartbeat, ?absent, ?kick, ?expiry, ?resume, ?writeStart, ?writeCommit⟩
  case sample =>
    intro s rs sp hrun
    refine .steward (show execPointSample rs sp s = stewardStep s _ from rfl) hrun ?_
    intro i hi hlive
    rw [State.onStw, Stw.fanStep_points, foldl_pointChange_points]
    simp [State.onEng, State.onStw, hi, hlive]
  case fan =>
    intro s fan hrun hfan hduty
    refine .steward (show execFanFailure fan s = stewardStep s _ from rfl) hrun ?_
    have hb := blower_bit s.stw.fan.failed hfan
    simp only [if_pos (Or.inl hfan)]
    exact ⟨rfl, Stw.fanStep_blower (by simpa [Fan.blowerFailed] using hb) hduty, rfl⟩
  case heartbeat =>
    intro s hrun hup habsent
    refine (show execHeartbeat s = stewardStep s _ from rfl).trans ((stewardStep_run hrun).trans ?_)
    simp [hup, Engine.is_put_other s.eng Fld.STW_STAT_HB Fld.STW_STAT_ABSENT _ (by decide), habsent, State.onEng]
  case absent =>
    exact fun s hup habsent => Does.congr (.engine (f := fun e => if e.is Fld.STW_STAT_ABSENT then e else
      ((e.put Fld.STW_STAT_ABSENT 1).evt Fld.STW_EVT_ABSENT_SET).errInfo 0x50 19 0 0 0 0) rfl hup) (if_neg (by simp [habsent]))
  case kick =>
    exact fun s hrun => (show execWatchdogKick s = stewardStep s (·.onStw fun w => { w with failsToMonitor := 0 }) from rfl).trans
      (stewardStep_run hrun)
  case expiry =>
    intro s hrun
    refine .next rfl ?_
    simp only [hrun, State.onEng, State.onStw]
    cases s.pwr.released <;> simp
  case resume =>
    intro s hrun hph hdue
    refine .next rfl ?_
    simp [hrun, hph, hdue, State.onEng, State.onStw, Stw.start, Label.recover_pending, Stw.abortSession_restarts]
  case writeStart =>
    intro s x r hrun hidle hq
    refine (show execLabelWriteStart s = stewardStep s _ from rfl).trans ((stewardStep_run hrun).trans ?_)
    simp [hidle, hq, State.onStw]
  case writeCommit =>
    intro s x hrun hact hwait
    refine (show execLabelWriteCommit s = stewardStep s _ from rfl).trans ((stewardStep_run hrun).trans ?_)
    simp [hact, hwait, State.onStw]

end Sys2Proof.Machine

/-!
PROOFS. The Kolber channel: its messages where they arrive (O9), and set-up, edges and triggers at the host end (O10).
-/
namespace Sys2Proof.Machine

/-! ### A frame taken -/

/-- The host end's answer to a frame it takes is its payload, with the next sequence number expected. -/
theorem Engine.kolReceive_takes {e : Engine} {typ : Nat} {f : KolFrame} (h : e.kolTakes typ f) :
    e.kolReceive typ f = (e.kolTook f, some f.payload) := by
  obtain ⟨hen, hc, htyp, hm⟩ := h
  simp [Engine.kolReceive, hen, hc, htyp, hm, Engine.kolTook]

theorem Field.receive_takes {d : Field} {typ : Nat} {f : KolFrame} (h : d.takes typ f) :
    d.receive typ f = (d.took f, some f.payload) := by
  obtain ⟨hp, hc, htyp, hm⟩ := h
  simp [Field.receive, hp, hc, htyp, hm, Field.took]

@[simp] theorem Engine.kolTook_is (e : Engine) (f : KolFrame) (g : Fld) : (e.kolTook f).is g = e.is g := rfl
@[simp] theorem Engine.kolTook_time (e : Engine) (f : KolFrame) : (e.kolTook f).time = e.time := rfl
@[simp] theorem Engine.kolTook_trigCtr (e : Engine) (f : KolFrame) : (e.kolTook f).kol.trigCtr = e.kol.trigCtr := rfl
@[simp] theorem Engine.kolTook_ppsCtr (e : Engine) (f : KolFrame) : (e.kolTook f).kol.ppsCtr = e.kol.ppsCtr := rfl
@[simp] theorem Engine.kolTook_helloRun (e : Engine) (f : KolFrame) : (e.kolTook f).kol.helloRun = e.kol.helloRun := rfl

/-! ### The messages -/

theorem triggerIn_does {s : State} {fr : KolFrame} (hup : s.engineUp = true) (ht : s.eng.kolTakes 0x10 fr) :
    Does (.triggerIn fr) s fun e =>
      if e.is Fld.KOL_CTRL_TRIGDIR then
        if e.is Fld.KOL_STAT_LINK_UP then
          ((((e.kolTook fr).wr Reg.KOL_TRIG_TS e.time).wr Reg.KOL_TRIG_SEQ (leAt fr.payload 0 2 + 65536)).count
            (Reg.KOL_CNT 6)).triggerBoundary
        else e.kolTook fr
      else (e.kolTook fr).evtIf (leAt fr.payload 0 2 != e.kol.trigCtr) Fld.KOL_EVT_TRIG_SEQ_MISMATCH :=
  (Does.engine rfl hup).congr (by simp only [Engine.kolReceive_takes ht]; rfl)

theorem ppsEdge_does {s : State} {fr : KolFrame} (hup : s.engineUp = true) (ht : s.eng.kolTakes 0x20 fr) :
    Does (.ppsEdge fr) s fun e =>
      ((((e.kolTook fr).evtIf (leAt fr.payload 0 2 != e.kol.ppsCtr) Fld.KOL_EVT_TRIG_SEQ_MISMATCH).evtIf
        (!decide (byteAt fr.payload 2 = 1)) Fld.KOL_EVT_PPS_BADWIDTH).put Fld.KOL_PPS_SEQ_VALID (bit (decide (byteAt fr.payload 2 = 1)))) :=
  (Does.engine rfl hup).congr (by simp only [Engine.kolReceive_takes ht]; rfl)

@[simp] theorem Engine.evtIf_false (e : Engine) (f : Fld) : e.evtIf false f = e := rfl
@[simp] theorem Engine.evtIf_true (e : Engine) (f : Fld) : e.evtIf true f = e.evt f := rfl

/-- Settles O9: each end takes the frame, and the message's own effect follows. -/
theorem kolberMessagesTakeEffect : Obligations.KolberMessagesTakeEffect := by
  unfold Obligations.KolberMessagesTakeEffect
  refine ⟨?hello, ?coarse, ?confirm, ?pps, ?ppsBad, ?ref, ?fixture, ?alarm, ?label, ?out, ?data⟩
  case hello =>
    intro s fr hup ht hver hrun
    refine .engine rfl hup ?_
    simp only [Engine.kolReceive_takes ht, hver, State.onEng, if_true]
    rw [if_pos (by simp; omega)]
    exact ⟨by rw [Engine.is_put_same _ _ _ (by decide)]; rfl, rfl⟩
  case coarse =>
    exact fun s fr hup ht hdir hlink => (triggerIn_does hup ht).congr (by simp [hdir, hlink])
  case confirm =>
    exact fun s fr hup ht hdir => (triggerIn_does hup ht).congr (by simp [hdir])
  case pps =>
    exact fun s fr hup ht hctr hok => (ppsEdge_does hup ht).congr (by simp [hctr, hok, bit])
  case ppsBad =>
    exact fun s fr hup ht hbad => (ppsEdge_does hup ht).congr (by simp [hbad, bit])
  case ref =>
    exact fun s fr hup ht hon => (Does.engine rfl hup).congr (by simp [Engine.kolReceive_takes ht, hon, bit])
  case fixture =>
    exact fun s fr hup ht => (Does.engine rfl hup).congr (by simp only [Engine.kolReceive_takes ht])
  case alarm =>
    intro s fr hup ht
    refine .engine rfl hup ?_
    simp only [Engine.kolReceive_takes ht, State.onEng]
    constructor
    · rw [Engine.rd_put_other _ _ _ (by decide), Engine.rd_wr_same]
      omega
    · rw [Engine.is_put_same _ _ _ (by decide)]
      simp only [bit]
      split <;> simp_all
  case label =>
    intro s fr hup ht hrun hidle hreq
    have hfld : (s.fld.powered && s.fld.labelReq.isNone) = false := by simp [Option.isNone_eq_false_iff.mpr hreq]
    show execLabelRead fr s = _
    simp [execLabelRead, hfld, hup, Engine.kolReceive_takes ht, hrun, hidle, State.onEng]
  case out =>
    intro s fr ht hmode
    show execTriggerOut fr s = _
    simp [execTriggerOut, Field.receive_takes ht, hmode, Field.took]
  case data =>
    intro s fr ht hreq
    show execLabelData fr s = _
    simp [execLabelData, Field.receive_takes ht, hreq, Field.took]

/-! ### Set-up, edges and triggers -/

/-- A selection while no expansion of the block pends. -/
theorem profileWrite_idle {blk v : Nat} {f : Fld} {g : Engine → Engine} {e : Engine} (h : e.pends blk = false) :
    profileWrite blk f v (some g) e = ((g e).put f v).wr Reg.GLB_PEND (((g e).put f v).rd Reg.GLB_PEND ||| 2 ^ blk) := by
  simp [profileWrite, pendWrite, h]

theorem Engine.steerPps_not_root {e : Engine} (ts : Nat) (h : e.is Fld.FLG_TIME_CFG_ROOT = false) : e.steerPps ts = e := by
  simp [Engine.steerPps, h]

theorem Engine.triggerBoundary_kol (e : Engine) : e.triggerBoundary.kol = e.kol := by
  unfold Engine.triggerBoundary; split <;> rfl

theorem Engine.triggerBoundary_due {e : Engine} (h : e.is Fld.GLN_TALLY_CFG_MODE = true) : e.triggerBoundary.gln.trigDue = true := by
  simp [Engine.triggerBoundary, h]

/-- Settles O10, row by row. -/
theorem kolberEdgesAndTriggers : Obligations.KolberEdgesAndTriggers := by
  unfold Obligations.KolberEdgesAndTriggers
  refine ⟨?ctrl, ?profile, ?arm, ?cancel, ?late, ?fire, ?e0, ?e1, ?fast, fun s => rfl, ?helloSend, ?lost⟩
  case ctrl =>
    exact fun s v hup hp _ hpend hv => (Does.host rfl hup hp).congr (by simp [hpend, kolCtrlWrite, hv])
  case profile =>
    intro s v c hup hp hpend hc hodd
    have hexpand : kolProfileExpand v = some fun e => e.wr Reg.KOL_CTRL c := by simp [kolProfileExpand, hc, hodd]
    refine (Does.host rfl hup hp).congr ?_
    rw [hexpand, profileWrite_idle hpend]
  case arm =>
    exact fun s hup hp hpend hen ht => (Does.host rfl hup hp).congr (by simp [kolWrite, hpend, kolArm, hen, Nat.not_lt.2 ht])
  case cancel =>
    exact fun s hup hp hpend => (Does.host rfl hup hp).congr (by simp [kolWrite, hpend, kolCancel])
  case late =>
    intro s t hup harm ht hdown
    have hdown' : Engine.is { s.eng with kol := { s.eng.kol with armed := none } } Fld.KOL_STAT_LINK_UP = false := hdown
    exact (Does.engine rfl hup).congr (by simp [harm, Nat.not_lt.2 ht, hdown'])
  case fire =>
    intro s t hup harm ht hlink hw hdir
    have hlink' : Engine.is { s.eng with kol := { s.eng.kol with armed := none } } Fld.KOL_STAT_LINK_UP = true := hlink
    refine (Does.engine rfl hup).congr ?_
    simp only [harm, Nat.not_lt.2 ht, hlink', if_true, if_false, Engine.fireTrigger]
    exact (if_neg hw).trans (if_pos hdir)
  case e0 =>
    intro s up frac hup hen hlink hpol hlast hroot
    refine .engine rfl hup ?_
    simp only [State.onEng]
    rw [if_neg (by simp [hen, hlink, hpol]), if_neg (by simp [hlast]), Engine.steerPps_not_root]
    · refine ⟨rfl, ?_⟩
      rw [Engine.rd_count_other _ (by decide), Engine.rd_wr_other _ _ (by decide), Engine.rd_wr_same]
      rfl
    · rw [Engine.is_count_other _ _ (by decide), Engine.is_wr_other _ _ _ (by decide), Engine.is_wr_other _ _ _ (by decide)]
      exact hroot
  case e1 =>
    intro s up frac hup hen hlink hdir hpol hlast hmode
    refine .engine rfl hup ?_
    simp only [State.onEng]
    rw [if_neg (by simp [hen, hlink, hdir, hpol]), if_neg (by simp [hlast])]
    refine ⟨by rw [Engine.triggerBoundary_kol]; rfl, Engine.triggerBoundary_due ?_⟩
    rw [Engine.is_count_other _ _ (by decide), Engine.is_wr_other _ _ _ (by decide), Engine.is_wr_other _ _ _ (by decide)]
    exact hmode
  case fast =>
    intro s up frac p hup hen hlink hpol hlast hgap
    refine (Does.engine rfl hup).congr ?_
    rw [if_neg (by simp [hen, hlink, hpol]), if_pos]
    exact (congrArg (Option.any _) hlast).trans (decide_eq_true hgap)
  case helloSend => exact fun s hup hen => (Does.engine rfl hup).congr (if_pos hen)
  case lost =>
    intro s hup hlink
    refine .engine rfl hup ?_
    simp only [State.onEng, hlink, if_true]
    refine ⟨?_, Engine.is_evt_same (s.eng.put Fld.KOL_STAT_LINK_UP 0) Fld.KOL_EVT_LINK_LOST (by decide) (by decide), trivial⟩
    exact (Engine.is_evt_other (s.eng.put Fld.KOL_STAT_LINK_UP 0) Fld.KOL_EVT_LINK_LOST Fld.KOL_STAT_LINK_UP (by decide)).trans
      (Engine.is_put_same s.eng Fld.KOL_STAT_LINK_UP 0 (by decide))

end Sys2Proof.Machine

/-!
PROOFS. Power domains through ON, DRAINING, GATED and WAKING (O12): single bits of a number, one request at a time, and what the
remap table, the mill queues and the Felgen ports leave of the domains.
-/
namespace Sys2Proof.Machine

/-! ### Single bits -/

theorem bitOf_eq_bitsOf (n i : Nat) : bitOf n i = (bitsOf n i i == 1) := by
  rw [bitOf, bitsOf, Nat.add_sub_cancel_left, pow_one]

theorem bitOf_withBits_same (n i v : Nat) : bitOf (withBits n i i v) i = (v % 2 == 1) := by
  rw [bitOf_eq_bitsOf, bitsOf_withBits_same, Nat.add_sub_cancel_left, pow_one]

theorem bitOf_withBits_other (n : Nat) {i j : Nat} (v : Nat) (h : j ≠ i) : bitOf (withBits n i i v) j = bitOf n j := by
  rw [bitOf_eq_bitsOf, bitOf_eq_bitsOf]
  obtain hlt | hgt := Nat.lt_or_gt_of_ne h
  · rw [bitsOf_withBits_below _ _ _ _ _ _ hlt]
  · rw [bitsOf_withBits_above _ _ _ _ _ _ hgt (le_refl i)]

/-- Writing the value that a bit has changes nothing. -/
theorem withBits_same_bit {n i : Nat} (b : Bool) (h : bitOf n i = b) : withBits n i i (bit b) = n := by
  rw [withBits_eq, Nat.add_sub_cancel_left, pow_one]
  have hv : bit b % 2 = n / 2 ^ i % 2 := by
    rw [← h, bitOf, Nat.shiftRight_eq_div_pow, bit]
    rcases Nat.mod_two_eq_zero_or_one (n / 2 ^ i) with hb | hb <;> simp [hb]
  rw [hv, Nat.div_add_mod, Nat.div_add_mod]

theorem withBits_withBits (n hi lo v w : Nat) : withBits (withBits n hi lo v) hi lo w = withBits n hi lo w := by
  have hdiv : ∀ a k r : Nat, 0 < a → r < a → (a * k + r) / a = k := fun a k r ha hr => by
    rw [Nat.mul_add_div ha, Nat.div_eq_of_lt hr, Nat.add_zero]
  rw [withBits_eq (withBits n hi lo v), withBits_eq n hi lo v, hdiv _ _ _ (by positivity) (Nat.mod_lt _ (by positivity)),
    hdiv _ _ _ (by positivity) (Nat.mod_lt _ (by positivity)), Nat.mul_add_mod, Nat.mod_mod, ← withBits_eq]

theorem bitOf_eq_testBit (n i : Nat) : bitOf n i = n.testBit i := by
  rw [bitOf, Nat.shiftRight_eq_div_pow, Nat.testBit_eq_decide_div_mod_eq]
  rfl

/-- A fold in which one element alone acts is that element's step. -/
theorem foldl_range_only {α : Type} {f : α → Nat → α} {n d : Nat} (hd : d < n) (hf : ∀ i, i < n → i ≠ d → ∀ x, f x i = x) (x : α) :
    (List.range n).foldl f x = f x d := by
  induction n with
  | zero => omega
  | succ n ih =>
    rw [List.range_succ, List.foldl_concat]
    obtain rfl | hne := eq_or_ne d n
    · congr 1
      have hid : ∀ l : List Nat, (∀ i ∈ l, ∀ y, f y i = y) → l.foldl f x = x := by
        intro l hl
        induction l with
        | nil => rfl
        | cons i l ihl =>
          rw [List.foldl_cons, hl i List.mem_cons_self, ihl fun j hj => hl j (List.mem_cons_of_mem i hj)]
      exact hid _ fun i hi y => hf i (by rw [List.mem_range] at hi; omega) (by rw [List.mem_range] at hi; omega) y
    · rw [ih (by omega) fun i hi hne y => hf i (by omega) hne y, hf n (by omega) (Ne.symm hne)]

/-! ### What leaves the domains alone -/

/-- The registers of Table CLK-5 that report on domains, beside their profile and the remap table, and the expansions that pend. -/
def clkDomRegs : List Nat := [Reg.CLK_DOM_CTRL, Reg.CLK_DOM_EVT, Reg.CLK_CNT 0, Reg.GLB_PEND]

/-- One engine has the domains, the memory, the domain registers and the lattice time of the other. -/
def Engine.LeavesDoms (e e' : Engine) : Prop :=
  e'.doms = e.doms ∧ e'.mem = e.mem ∧ (∀ off ∈ clkDomRegs, e'.rd off = e.rd off) ∧ e'.time = e.time

theorem Engine.LeavesDoms.refl (e : Engine) : e.LeavesDoms e := ⟨rfl, rfl, fun _ _ => rfl, rfl⟩

theorem Engine.LeavesDoms.rd {e e' : Engine} (h : e.LeavesDoms e') {off : Nat} (ho : off ∈ clkDomRegs) : e'.rd off = e.rd off :=
  h.2.2.1 off ho

theorem Engine.LeavesDoms.trans {e e' e'' : Engine} (h : e.LeavesDoms e') (h' : e'.LeavesDoms e'') : e.LeavesDoms e'' :=
  ⟨h'.1.trans h.1, h'.2.1.trans h.2.1, fun _ ho => (h'.rd ho).trans (h.rd ho), h'.2.2.2.trans h.2.2.2⟩

theorem Engine.LeavesDoms.ite {e e' e'' : Engine} {p : Prop} [Decidable p] (h : e.LeavesDoms e') (h' : e.LeavesDoms e'') :
    e.LeavesDoms (if p then e' else e'') := by
  split
  · exact h
  · exact h'

theorem Engine.LeavesDoms.thenFoldl {α : Type} {f : Engine → α → Engine} {e e' : Engine} (h : e.LeavesDoms e') (l : List α)
    (hf : ∀ (x : Engine) (a : α), x.LeavesDoms (f x a)) : e.LeavesDoms (l.foldl f e') := by
  induction l generalizing e' with
  | nil => exact h
  | cons a l ih => exact ih (h.trans (hf e' a))

theorem Engine.LeavesDoms.thenWr {e e' : Engine} (h : e.LeavesDoms e') {off : Nat} (v : Nat) (hoff : off ∉ clkDomRegs) :
    e.LeavesDoms (e'.wr off v) :=
  h.trans ⟨rfl, rfl, fun _ ho => Engine.rd_wr_other _ _ fun heq => hoff (heq ▸ ho), rfl⟩

theorem Engine.LeavesDoms.thenPut {e e' : Engine} (h : e.LeavesDoms e') {f : Fld} (v : Nat) (hoff : f.off ∉ clkDomRegs) :
    e.LeavesDoms (e'.put f v) := h.thenWr _ hoff
theorem Engine.LeavesDoms.thenEvt {e e' : Engine} (h : e.LeavesDoms e') {f : Fld} (hoff : f.off ∉ clkDomRegs) :
    e.LeavesDoms (e'.evt f) := h.thenWr _ hoff
theorem Engine.LeavesDoms.thenCountN {e e' : Engine} (h : e.LeavesDoms e') {off : Nat} (n : Nat) (hoff : off ∉ clkDomRegs) :
    e.LeavesDoms (e'.countN off n) := h.thenWr _ hoff
theorem Engine.LeavesDoms.thenMil {e e' : Engine} (h : e.LeavesDoms e') (m : Mil) : e.LeavesDoms { e' with mil := m } := h
theorem Engine.LeavesDoms.thenGar {e e' : Engine} (h : e.LeavesDoms e') (g : Gar) : e.LeavesDoms { e' with gar := g } := h
theorem Engine.LeavesDoms.thenFlg {e e' : Engine} (h : e.LeavesDoms e') (g : Flg) : e.LeavesDoms { e' with flg := g } := h

theorem Engine.LeavesDoms.dom {e e' : Engine} (h : e.LeavesDoms e') (d : Nat) : e'.dom d = e.dom d := by
  rw [Engine.dom, h.1, Engine.dom]

/-- Registers past the clock block are no domain registers. -/
theorem not_mem_clkDomRegs {off : Nat} (h : 0x20000 ≤ off) : off ∉ clkDomRegs := by
  simp only [clkDomRegs, Reg.CLK_DOM_CTRL, Reg.CLK_DOM_EVT, Reg.CLK_CNT, Reg.GLB_PEND, List.mem_cons, List.not_mem_nil, or_false]
  omega

theorem Engine.setRemap_leavesDoms (e : Engine) (mill : Bool) (i v : Nat) : e.LeavesDoms (e.setRemap mill i v) :=
  .thenWr (.refl e) _ (by decide)

theorem Engine.remap_leavesDoms (e : Engine) (mill : Bool) : e.LeavesDoms (e.remap mill) := by
  have hfold : ∀ (l live : List Nat) (x : Engine × Nat), x.1.LeavesDoms (l.foldl (fun (x : Engine × Nat) i =>
      if e.remapEntry mill i ∈ live then x
      else (x.1.setRemap mill i (live.getD (x.2 % live.length) 0), x.2 + 1)) x).1 := by
    intro l live
    induction l with
    | nil => exact fun x => .refl x.1
    | cons i l ih =>
      intro x
      rw [List.foldl_cons]
      refine .trans ?_ (ih _)
      split
      · exact .refl _
      · exact x.1.setRemap_leavesDoms _ _ _
  unfold Engine.remap
  split
  · exact .refl e
  · exact hfold _ _ (e, 0)

theorem Engine.remapFor_leavesDoms (e : Engine) (d : Nat) : e.LeavesDoms (e.remapFor d) :=
  .ite (e.remap_leavesDoms _) (.ite (e.remap_leavesDoms _) (.refl e))

theorem Engine.setMilRun_leavesDoms (e : Engine) (m : Nat) (w : Option MilWork) : e.LeavesDoms (e.setMilRun m w) :=
  .thenPut (.thenMil (.refl e) _) _ (not_mem_clkDomRegs (by simp only [Fld.MIL_SLOT_CLASS, Reg.MIL_SLOT]; omega))

theorem Engine.quadDrains_leavesDoms (e : Engine) (q : Nat) : e.LeavesDoms (e.quadDrains q) := by
  refine .thenFoldl (.refl e) _ fun e m => ?_
  dsimp only
  refine .thenFoldl (.thenMil ?_ _) _ fun e j => ?_
  · split
    · refine .ite (.thenMil (.thenEvt (.thenCountN (.thenCountN (e.setMilRun_leavesDoms m none) 1 ?_) 1 ?_) ?_) _) (.refl e)
      all_goals decide
    · exact .refl e
  · refine .thenMil (.thenEvt (.thenCountN (.thenCountN (.refl e) 1 ?_) 1 ?_) ?_) _
    all_goals decide

theorem Engine.setPortState_leavesDoms (e : Engine) (p st : Nat) : e.LeavesDoms (e.setPortState p st) := by
  have hstat : (Fld.FLG_PORT_STAT_STATE p).off ∉ clkDomRegs :=
    not_mem_clkDomRegs (by simp only [Fld.FLG_PORT_STAT_STATE, Reg.FLG_PORT_STAT]; omega)
  have hput : e.LeavesDoms ((e.put (Fld.FLG_PORT_STAT_STATE p) st).evt Fld.FLG_EVT_PORT_CHANGE) :=
    .thenEvt (.thenPut (.refl e) st hstat) (by decide)
  exact .ite (.refl e) (.thenFlg (.thenFlg (.ite (hput.thenEvt (by decide)) hput) _) _)

theorem Engine.dropLink_leavesDoms (e : Engine) (p st : Nat) : e.LeavesDoms (e.dropLink p st) := by
  have hcredit : ∀ k, Reg.FLG_PORT_CREDIT p k ∉ clkDomRegs := fun k =>
    not_mem_clkDomRegs (by simp only [Reg.FLG_PORT_CREDIT]; omega)
  refine .trans (.thenFlg (.thenFoldl (.thenFlg (.ite (.refl e) ?_) _) _ fun x k => ?_) _) (Engine.setPortState_leavesDoms _ _ _)
  · exact .thenCountN (.refl e) _ (by decide)
  · exact .thenWr (.refl x) 0 (hcredit k)

theorem Engine.restartPorts_leavesDoms (e : Engine) : e.LeavesDoms e.restartPorts :=
  .thenFoldl (.refl e) _ fun x p => .ite (.refl x) (x.dropLink_leavesDoms p _)

/-! ### A domain's own steps -/

@[simp] theorem Engine.dom_setDom_same (e : Engine) (d : Nat) (f : Dom → Dom) : (e.setDom d f).dom d = f (e.dom d) :=
  Tbl.get_set_same _ _ _ _

theorem Engine.dom_setDom_other (e : Engine) {d d' : Nat} (f : Dom → Dom) (h : d' ≠ d) : (e.setDom d f).dom d' = e.dom d' :=
  Tbl.get_set_other _ _ _ _ h

@[simp] theorem Engine.setReq_dom (e : Engine) (d : Nat) (on : Bool) (d' : Nat) : (e.setReq d on).dom d' = e.dom d' := rfl
@[simp] theorem Engine.setReq_mem (e : Engine) (d : Nat) (on : Bool) : (e.setReq d on).mem = e.mem := rfl
@[simp] theorem Engine.setReq_cyc (e : Engine) (d : Nat) (on : Bool) : (e.setReq d on).cyc = e.cyc := rfl
theorem Engine.setReq_rd_other (e : Engine) (d : Nat) (on : Bool) {off : Nat} (h : off ≠ Reg.CLK_DOM_CTRL) :
    (e.setReq d on).rd off = e.rd off := Engine.rd_wr_other _ _ h
@[simp] theorem Engine.put_dom (e : Engine) (f : Fld) (v d : Nat) : (e.put f v).dom d = e.dom d := rfl
@[simp] theorem Engine.count_dom (e : Engine) (off d : Nat) : (e.count off).dom d = e.dom d := rfl
@[simp] theorem Engine.wr_dom (e : Engine) (off v d : Nat) : (e.wr off v).dom d = e.dom d := rfl

/-- A drain begins: beside the domain itself, only the remap table and the work queued for it change. -/
theorem Engine.startDrain_leavesDoms (e : Engine) (d : Nat) (reset : Bool) :
    (e.setDom d fun x => { x with st := .draining, since := e.cyc, gatePend := false, resetPend := reset }).LeavesDoms
      (e.startDrain d reset) := by
  have hhalf : (e.setDom d fun x => { x with st := .draining, since := e.cyc, gatePend := false, resetPend := reset }).LeavesDoms
      ((if 12 ≤ d ∧ d < 14 then e.halfDrains (d - 12) else e).setDom d fun x =>
        { x with st := .draining, since := (if 12 ≤ d ∧ d < 14 then e.halfDrains (d - 12) else e).cyc,
                 gatePend := false, resetPend := reset }) := by
    split <;> exact ⟨rfl, rfl, fun _ _ => rfl, rfl⟩
  exact hhalf.trans (.trans (Engine.remapFor_leavesDoms _ d) (.ite (Engine.quadDrains_leavesDoms _ _) (.refl _)))

/-- A domain is ON, with no gate request waiting: only its remap entry and a Felgen block's ports change beside it. -/
theorem Engine.domainOn_leavesDoms {e : Engine} {d : Nat} (h : (e.dom d).gatePend = false) :
    (e.setDom d fun x => { x with st := .on, gatePend := false, resetPend := false }).LeavesDoms (e.domainOn d) := by
  unfold Engine.domainOn
  simp only [h, Bool.false_eq_true, if_false]
  exact .trans (.ite (Engine.setRemap_leavesDoms _ _ _ _) (.ite (Engine.setRemap_leavesDoms _ _ _ _) (.refl _)))
    (.trans (Engine.remapFor_leavesDoms _ d) (.ite (Engine.restartPorts_leavesDoms _) (.refl _)))

theorem Engine.domainOn_dom {e : Engine} {d : Nat} (h : (e.dom d).gatePend = false) :
    ((e.domainOn d).dom d).st = .on ∧ ∀ d', d' ≠ d → (e.domainOn d).dom d' = e.dom d' := by
  refine ⟨?_, fun d' hne => ?_⟩
  · rw [(Engine.domainOn_leavesDoms h).dom, Engine.dom_setDom_same]
  · rw [(Engine.domainOn_leavesDoms h).dom, Engine.dom_setDom_other _ _ hne]

/-! ### Requests -/

/-- CLK_DOM_CTRL takes a value that differs in one bit, and nothing is refused: that bit is the one request. -/
theorem Engine.domReq_one {e : Engine} {d v : Nat} (hd : d < 19) (hlt : e.rd Reg.CLK_DOM_CTRL < 2 ^ 19) (hv : v < 2 ^ 19)
    (h14 : bitOf v 14 = true) (hsame : ∀ i, i ≠ d → bitOf v i = bitOf (e.rd Reg.CLK_DOM_CTRL) i)
    (hdiff : bitOf (e.rd Reg.CLK_DOM_CTRL) d ≠ bitOf v d)
    (hno : (bitOf (e.rd Reg.CLK_DOM_CTRL) 18 && !bitOf v 18 && e.felgenBusy) = false) :
    e.domReq v = if bitOf v d then (e.wr Reg.CLK_DOM_CTRL v).wakeDom d else (e.wr Reg.CLK_DOM_CTRL v).gateDom d := by
  have hkeep : withBits v 14 14 1 = v := withBits_same_bit true h14
  unfold Engine.domReq
  simp only [Nat.mod_eq_of_lt hlt, Nat.mod_eq_of_lt hv, hno, hkeep, Engine.evtIf_false, Bool.false_eq_true, if_false]
  rw [foldl_range_only hd fun i _ hne x => if_pos (hsame i hne).symm, if_neg hdiff]

/-- A write of one bit that changes it, where nothing is refused. -/
theorem domBitWrite_one {e : Engine} {d : Nat} {on : Bool} (hd : d < 19) (hlt : e.rd Reg.CLK_DOM_CTRL < 2 ^ 19)
    (h14 : bitOf (e.rd Reg.CLK_DOM_CTRL) 14 = true) (hd14 : d ≠ 14) (hbit : bitOf (e.rd Reg.CLK_DOM_CTRL) d = !on)
    (hfree : on = false → d = 18 → e.felgenBusy = false) :
    domBitWrite d on e =
      (if on then (e.setReq d on).wakeDom d else (e.setReq d on).gateDom d).put Fld.CLK_DOM_PROFILE_PROFILE 7 := by
  have hbitv : bitOf (withBits (e.rd Reg.CLK_DOM_CTRL) d d (bit on)) d = on := by
    rw [bitOf_withBits_same]; cases on <;> rfl
  rw [domBitWrite, if_neg (by omega), domCtrlWrite, Engine.domReq_one hd hlt (withBits_lt _ _ _ _ _ hlt hd le_rfl), hbitv]
  · rfl
  · rw [bitOf_withBits_other _ _ (Ne.symm hd14), h14]
  · exact fun i hne => bitOf_withBits_other _ _ hne
  · rw [hbitv, hbit]; simp
  · obtain rfl | hne := eq_or_ne d 18
    · rw [hbitv, hbit]; cases on
      · simp [hfree rfl rfl]
      · rfl
    · rw [bitOf_withBits_other _ _ hne.symm]; simp

/-- The control bit that was written reads back. -/
theorem Engine.setReq_bit (e : Engine) {d : Nat} (on : Bool) (hd : d < 19) : bitOf ((e.setReq d on).rd Reg.CLK_DOM_CTRL) d = on := by
  have hv := withBits_lt (e.rd Reg.CLK_DOM_CTRL) d d (bit on) 64 (e.rd_lt _) (by omega) le_rfl
  rw [Engine.setReq, Engine.rd_wr_same, Nat.mod_eq_of_lt hv, bitOf_withBits_same]
  cases on <;> rfl

/-- An event bit that was set reads 1. -/
theorem Engine.wr_or_bit (e : Engine) (off : Nat) {d : Nat} (hd : d < 64) : bitOf ((e.wr off (e.rd off ||| 2 ^ d)).rd off) d = true := by
  rw [Engine.rd_wr_same, Nat.mod_eq_of_lt (Nat.or_lt_two_pow (e.rd_lt off) (Nat.pow_lt_pow_right (by decide) hd)), bitOf_eq_testBit,
    Nat.testBit_or, Nat.testBit_two_pow_self, Bool.or_true]

/-- A request pends for the clock block alone. -/
theorem Engine.pends_clk {e : Engine} (h : bitOf (e.rd Reg.GLB_PEND) 1 = false) : e.pends 1 = false := by
  simp [Engine.pends, h]

/-- A gate of a Felgen block whose ports are trained or training is refused and reads back 1. -/
theorem domBitWrite_refused {e : Engine} (hlt : e.rd Reg.CLK_DOM_CTRL < 2 ^ 19) (h14 : bitOf (e.rd Reg.CLK_DOM_CTRL) 14 = true)
    (h18 : bitOf (e.rd Reg.CLK_DOM_CTRL) 18 = true) (hbusy : e.felgenBusy = true) :
    domBitWrite 18 false e =
      ((e.evt Fld.CLK_DOM_EVT_REFUSED).wr Reg.CLK_DOM_CTRL (e.rd Reg.CLK_DOM_CTRL)).put Fld.CLK_DOM_PROFILE_PROFILE 7 := by
  have hoff : bitOf (withBits (e.rd Reg.CLK_DOM_CTRL) 18 18 0) 18 = false := bitOf_withBits_same _ _ _
  have hkeep : withBits (withBits (e.rd Reg.CLK_DOM_CTRL) 18 18 0) 14 14 1 = withBits (e.rd Reg.CLK_DOM_CTRL) 18 18 0 :=
    withBits_same_bit true ((bitOf_withBits_other _ _ (by decide)).trans h14)
  have hback : withBits (withBits (e.rd Reg.CLK_DOM_CTRL) 18 18 0) 18 18 1 = e.rd Reg.CLK_DOM_CTRL :=
    (withBits_withBits _ _ _ _ _).trans (withBits_same_bit true h18)
  have hv := withBits_lt (e.rd Reg.CLK_DOM_CTRL) 18 18 0 19 hlt (by decide) le_rfl
  rw [domBitWrite, if_neg (by decide), domCtrlWrite, Engine.domReq]
  simp only [bit, Bool.false_eq_true, if_false, Nat.mod_eq_of_lt hlt, Nat.mod_eq_of_lt hv, h18, hoff, hbusy, Bool.not_false,
    Bool.and_self, Engine.evtIf_true, hkeep, hback, if_true]
  rw [List.foldl_fixed]

/-! ### The rows -/

/-- With no frame at the customer partition its stop only says so. -/
theorem Engine.custStop_leavesDoms {e : Engine} (h : e.gar.queue.filter (fun f => f.ph == 1) = []) : e.LeavesDoms e.custStop := by
  simp only [Engine.custStop, Engine.evt_gar, h, List.foldl_nil]
  exact .ite (.thenGar (.refl _) _) (.thenEvt (.thenGar (.refl _) _) (by decide))

/-- A confirmed drain of a garner pair's partition or of the Felgen block leaves memory and the domain gated. -/
theorem Engine.gated_outer {e : Engine} {d : Nat} (h17 : 17 ≤ d) (h19 : d < 19) (hidle : e.domBusy d = false) :
    ((e.gated d).dom d).st = .gated ∧ (e.gated d).mem = e.mem := by
  have hleaves : (e.setDom d fun x => { x with st := .gated }).LeavesDoms (e.gated d) := by
    obtain rfl | rfl : d = 17 ∨ d = 18 := by omega
    · have hnone : e.gar.queue.filter (fun f => f.ph == 1) = [] := by
        simpa [Engine.domBusy, List.filter_eq_nil_iff] using hidle
      exact Engine.custStop_leavesDoms hnone
    · exact .thenFoldl (.refl _) _ fun x p => .ite (.refl x) (x.dropLink_leavesDoms p 0)
  exact ⟨by rw [hleaves.dom, Engine.dom_setDom_same], hleaves.2.1⟩

/-- Settles O12, row by row: each is one request or one step of its own domain, which leaves the others. -/
theorem domainsDrainGateAndWake : Obligations.DomainsDrainGateAndWake := by
  unfold Obligations.DomainsDrainGateAndWake
  refine ⟨?gate, ?refused, ?bank, ?inner, ?outer, ?abort, ?wake, ?on⟩
  case gate =>
    intro s d hup hp hpend hd hd14 hlt h14 hbit hon hfel
    refine .host rfl hup hp ?_
    simp only [State.onEng, pendWrite, s.eng.pends_clk hpend, Bool.false_eq_true, if_false]
    rw [domBitWrite_one hd hlt h14 hd14 (by simpa using hbit) fun _ => hfel]
    have hon' : ((s.eng.setReq d false).dom d).st = .on := hon
    rw [if_neg Bool.false_ne_true, Engine.gateDom, hon']
    have hdrain := (s.eng.setReq d false).startDrain_leavesDoms d false
    refine ⟨?_, ?_, ?_, Engine.get_put_same _ _ _ (by decide) (by decide), ?_, fun d' hne => ?_⟩
    · rw [Engine.put_dom, hdrain.dom, Engine.dom_setDom_same]
    · rw [Engine.put_dom, hdrain.dom, Engine.dom_setDom_same, Engine.setReq_cyc]
    · rw [Engine.rd_put_other _ _ _ (by decide), hdrain.rd (by decide), Engine.setDom_rd, Engine.setReq_bit _ _ hd]
    · rw [Engine.put_mem, hdrain.2.1, Engine.setDom_mem, Engine.setReq_mem]
    · rw [Engine.put_dom, hdrain.dom, Engine.dom_setDom_other _ _ hne, Engine.setReq_dom]
  case refused =>
    intro s hup hp hpend hlt h14 h18 hbusy
    exact (Does.host rfl hup hp).congr (by simp [pendWrite, Engine.pends_clk hpend, domBitWrite_refused hlt h14 h18 hbusy])
  case bank =>
    intro s d hup hd hst hreset hidle
    refine (Does.engine rfl hup).congr ?_
    rw [drainConfirmed, if_neg (by simp [hst, hidle]; omega), hreset]
    simp [Engine.gated, hd]
  case inner =>
    intro s d hup hd hd' hst hreset hidle
    refine (Does.engine rfl hup).congr ?_
    rw [drainConfirmed, if_neg (by simp [hst, hidle]; omega), hreset]
    simp [Engine.gated, show ¬ d < 8 by omega, show d ≠ 17 by omega, show d ≠ 18 by omega]
  case outer =>
    intro s d hup hd hd' hst hreset hidle
    refine .engine rfl hup ?_
    rw [State.onEng, drainConfirmed, if_neg (by simp [hst, hidle]; omega), hreset]
    exact Engine.gated_outer hd hd' hidle
  case abort =>
    intro s d hup hd hst hreset hheld hgate hbusy hlate
    refine .engine rfl hup ?_
    rw [State.onEng, drainAbort]
    dsimp only
    rw [if_neg (by simp [hst, hreset, hheld, hbusy, drainLimit]; omega)]
    generalize he : (s.eng.wr Reg.CLK_DOM_EVT _).count (Reg.CLK_CNT 0) = e
    have hdom : ∀ d', (e.setReq d true).dom d' = s.eng.dom d' := fun d' => he ▸ rfl
    have hgate' : ((e.setReq d true).dom d).gatePend = false := by rw [hdom, hgate]
    obtain ⟨hson, hother⟩ := Engine.domainOn_dom hgate'
    have hrd : ∀ off ∈ clkDomRegs, ((e.setReq d true).domainOn d).rd off = (e.setReq d true).rd off := fun off =>
      (Engine.domainOn_leavesDoms hgate').rd
    refine ⟨hson, ?_, ?_, ?_, fun d' hne => (hother d' hne).trans (hdom d')⟩
    · rw [hrd _ (by decide), Engine.setReq_bit _ _ hd]
    · rw [hrd _ (by decide), Engine.setReq_rd_other _ _ _ (by decide), ← he, Engine.rd_count_other _ (by decide),
        Engine.wr_or_bit _ _ (by omega)]
    · rw [hrd _ (by decide), Engine.setReq_rd_other _ _ _ (by decide), ← he, Engine.rd_count_same, Engine.rd_wr_other _ _ (by decide)]
  case wake =>
    intro s d hup hp hpend hd hlt h14 hbit hst hheld
    refine .host rfl hup hp ?_
    simp only [State.onEng, pendWrite, s.eng.pends_clk hpend, Bool.false_eq_true, if_false]
    have hd14 : d ≠ 14 := fun h => by simp [h, h14] at hbit
    rw [domBitWrite_one hd hlt h14 hd14 (by simpa using hbit) (by simp)]
    have hst' : ((s.eng.setReq d true).dom d).st = .gated := hst
    rw [if_pos rfl, Engine.wakeDom, if_neg (by simp [hheld]), hst']
    refine ⟨?_, ?_, Engine.get_put_same _ _ _ (by decide) (by decide), rfl, fun d' hne => ?_⟩
    · rw [Engine.put_dom, Engine.dom_setDom_same]
    · rw [Engine.rd_put_other _ _ _ (by decide), Engine.setDom_rd, Engine.setReq_bit _ _ hd]
    · rw [Engine.put_dom, Engine.dom_setDom_other _ _ hne, Engine.setReq_dom]
  case on =>
    intro s d hup hd hst hgate
    refine .engine rfl hup ?_
    rw [State.onEng, domainReachesOn, if_neg (by simp [hst]; omega)]
    generalize he : (if d < 8 then s.eng.zeroScratch d else s.eng) = e
    have hdom : ∀ d', e.dom d' = s.eng.dom d' := fun d' => by rw [← he]; split <;> rfl
    have hrd : e.rd Reg.CLK_DOM_CTRL = s.eng.rd Reg.CLK_DOM_CTRL := by rw [← he]; split <;> rfl
    have hgate' : (e.dom d).gatePend = false := by rw [hdom, hgate]
    obtain ⟨hson, hother⟩ := Engine.domainOn_dom hgate'
    have hleaves := Engine.domainOn_leavesDoms hgate'
    refine ⟨hson, (hleaves.rd (by decide)).trans hrd, fun h8 => hleaves.2.1.trans ?_, fun d' hne => (hother d' hne).trans (hdom d')⟩
    rw [Engine.setDom_mem, ← he, if_neg (by omega)]

end Sys2Proof.Machine

/-!
PROOFS. Bypass causes, the self-test, patrol reads and injection (O14): what an error record leaves alone, and what a cause shows as it
becomes active and as it ends.
-/
namespace Sys2Proof.Machine

/-! ### Error records -/

/-- The registers that an error record writes: those of its ring, and two counters. -/
def reportReg (off : Nat) : Prop := (0x180000 ≤ off ∧ off < 0x1C0000) ∨ off = Reg.ERR_CNT 0 ∨ off = Reg.ERR_CNT 1

/-- One engine is the other but for records on a ring: their registers, the rings' books, the outputs and the busy marks. -/
def Engine.Reports (e e' : Engine) : Prop :=
  (∃ rs h g o, e' = { e with regs := rs, hif := h, gln := g, out := o }) ∧ ∀ off, ¬ reportReg off → e'.rd off = e.rd off

theorem Engine.Reports.refl (e : Engine) : e.Reports e := ⟨⟨_, _, _, _, rfl⟩, fun _ _ => rfl⟩

theorem Engine.Reports.trans {e e' e'' : Engine} (h : e.Reports e') (h' : e'.Reports e'') : e.Reports e'' := by
  obtain ⟨⟨rs, hf, g, o, rfl⟩, hr⟩ := h
  obtain ⟨⟨rs', hf', g', o', rfl⟩, hr'⟩ := h'
  exact ⟨⟨_, _, _, _, rfl⟩, fun off ho => (hr' off ho).trans (hr off ho)⟩

theorem Engine.Reports.ite {e e' e'' : Engine} {p : Prop} [Decidable p] (h : e.Reports e') (h' : e.Reports e'') :
    e.Reports (if p then e' else e'') := by
  split
  · exact h
  · exact h'

theorem Engine.Reports.thenWr {e e' : Engine} (h : e.Reports e') {off : Nat} (v : Nat) (ho : reportReg off) : e.Reports (e'.wr off v) :=
  h.trans ⟨⟨_, _, _, _, rfl⟩, fun _ hn => Engine.rd_wr_other _ _ fun heq => hn (heq ▸ ho)⟩

theorem Engine.Reports.thenCount {e e' : Engine} (h : e.Reports e') {off : Nat} (ho : reportReg off) : e.Reports (e'.count off) :=
  h.thenWr _ ho

theorem Engine.Reports.thenEmit {e e' : Engine} (h : e.Reports e') (o : Out) : e.Reports (e'.emit o) :=
  h.trans ⟨⟨_, _, _, _, rfl⟩, fun _ _ => rfl⟩

theorem Engine.Reports.thenRing {e e' : Engine} (h : e.Reports e') (k : Nat) (f : RingAux → RingAux) : e.Reports (e'.setRing k f) :=
  h.trans ⟨⟨_, _, _, _, rfl⟩, fun _ _ => rfl⟩

theorem Engine.Reports.thenBusy {e e' : Engine} (h : e.Reports e') (i : Nat) : e.Reports (e'.busy i) :=
  h.trans (.ite (.refl _) ⟨⟨_, _, _, _, rfl⟩, fun _ _ => rfl⟩)

theorem Engine.Reports.thenMessage {e e' : Engine} (h : e.Reports e') (v : Nat) : e.Reports (e'.message v) :=
  h.trans (.ite ⟨⟨_, _, _, _, rfl⟩, fun _ _ => rfl⟩ (.thenEmit (.refl _) _))

theorem Engine.Reports.thenWriteBack {e e' : Engine} (h : e.Reports e') (k : Nat) : e.Reports (e'.writeBack k) := by
  unfold Engine.writeBack
  exact .thenRing (h.thenEmit _) _ _

theorem Engine.Reports.thenSignal {e e' : Engine} (h : e.Reports e') (k : Nat) : e.Reports (e'.signal k) := by
  have hback : e.Reports (if (e'.ring k).stale = true then e'.writeBack k else e') := .ite (h.thenWriteBack k) h
  unfold Engine.signal
  dsimp only
  exact (hback.thenMessage _).thenRing _ _

section Rings
variable {k : Nat} (hk : k < 4096)
include hk

theorem reportReg_prod : reportReg (Reg.HIF_RING_PROD k) := .inl (by simp only [Reg.HIF_RING_PROD]; omega)
theorem reportReg_written : reportReg (Reg.HIF_RING_CNT_WRITTEN k) := .inl (by simp only [Reg.HIF_RING_CNT_WRITTEN]; omega)
theorem reportReg_discard : reportReg (Reg.HIF_RING_CNT_DISCARD k) := .inl (by simp only [Reg.HIF_RING_CNT_DISCARD]; omega)

theorem Engine.Reports.thenPutRecord {e e' : Engine} (h : e.Reports e') (ws : List Nat) (irq : Bool) : e.Reports (e'.putRecord k ws irq) := by
  have hbook := ((((h.thenEmit (.hostWrite (e'.rd (Reg.HIF_RING_BASE k) + e'.prod k % e'.ringSize k * entrySize (e'.ringKind k))
    (slotBytes (e'.ringKind k) (e'.prod k) (e'.ringSize k) ws))).thenBusy 329).thenWr ((e'.prod k + 1) % 2 ^ 32)
      (reportReg_prod hk)).thenCount (reportReg_written hk)).thenRing k fun r => { r with stale := true, unsignalled := r.unsignalled + 1 }
  exact .ite (hbook.thenSignal k) hbook

theorem Engine.Reports.thenFlushGap {e e' : Engine} (h : e.Reports e') : e.Reports (e'.flushGap k) := by
  unfold Engine.flushGap
  split
  · exact h
  · exact .ite (.thenRing (h.thenPutRecord hk _ _) _ _) h

end Rings

/-- An error record changes nothing but its ring, its counts and the outputs. -/
theorem Engine.errRecord_reports (e : Engine) (code sev blk mem count addr obj d4 d5 d6 : Nat) :
    e.Reports (e.errRecord code sev blk mem count addr obj d4 d5 d6) := by
  have hk : e.get Fld.ERR_CFG_RING < 4096 := bitsOf_lt _ _ _
  have hflush := (Engine.Reports.refl e).thenFlushGap hk
  exact .ite (.ite (.thenCount (hflush.thenPutRecord hk _ _) (.inr (.inl rfl)))
    (.thenCount (.thenCount (.thenRing hflush _ _) (reportReg_discard hk)) (.inr (.inr rfl)))) (.thenCount (.refl e) (.inr (.inr rfl)))

theorem Engine.errInfo_reports (e : Engine) (code blk obj d4 d5 d6 : Nat) : e.Reports (e.errInfo code blk obj d4 d5 d6) :=
  e.errRecord_reports _ _ _ _ _ _ _ _ _ _

theorem Engine.Reports.get {e e' : Engine} (h : e.Reports e') (f : Fld) (hf : ¬ reportReg f.off) : e'.get f = e.get f := by
  rw [Engine.get, h.2 _ hf, Engine.get]

/-! ### What causes leave alone -/

/-- One engine is the other but for registers, records, the packets' marks and the bypasses that are past. -/
def Engine.SameState (e e' : Engine) : Prop :=
  ∃ rs h g o pk pa, e' = { e with regs := rs, hif := h, gln := g, out := o, pkts := pk, err := { e.err with past := pa } }

theorem Engine.SameState.refl (e : Engine) : e.SameState e := ⟨_, _, _, _, _, _, rfl⟩

theorem Engine.SameState.trans {e e' e'' : Engine} (h : e.SameState e') (h' : e'.SameState e'') : e.SameState e'' := by
  obtain ⟨rs, hf, g, o, pk, pa, rfl⟩ := h
  obtain ⟨rs', hf', g', o', pk', pa', rfl⟩ := h'
  exact ⟨_, _, _, _, _, _, rfl⟩

theorem Engine.SameState.ite {e e' e'' : Engine} {p : Prop} [Decidable p] (h : e.SameState e') (h' : e.SameState e'') :
    e.SameState (if p then e' else e'') := by
  split
  · exact h
  · exact h'

theorem Engine.SameState.thenWr {e e' : Engine} (h : e.SameState e') (off v : Nat) : e.SameState (e'.wr off v) :=
  h.trans ⟨_, _, _, _, _, _, rfl⟩
theorem Engine.SameState.thenPut {e e' : Engine} (h : e.SameState e') (f : Fld) (v : Nat) : e.SameState (e'.put f v) := h.thenWr _ _
theorem Engine.SameState.thenPkts {e e' : Engine} (h : e.SameState e') (l : List Pkt) : e.SameState { e' with pkts := l } :=
  h.trans ⟨_, _, _, _, _, _, rfl⟩
theorem Engine.SameState.thenPast {e e' : Engine} (h : e.SameState e') (l : List (Nat × Nat)) :
    e.SameState { e' with err := { e'.err with past := l } } := h.trans ⟨_, _, _, _, _, _, rfl⟩

section
variable {e e' : Engine}
theorem Engine.SameState.mem (h : e.SameState e') : e'.mem = e.mem := by obtain ⟨_, _, _, _, _, _, rfl⟩ := h; rfl
theorem Engine.SameState.phys (h : e.SameState e') : e'.phys = e.phys := by obtain ⟨_, _, _, _, _, _, rfl⟩ := h; rfl
theorem Engine.SameState.doms (h : e.SameState e') : e'.doms = e.doms := by obtain ⟨_, _, _, _, _, _, rfl⟩ := h; rfl
theorem Engine.SameState.railOkAt (h : e.SameState e') : e'.err.railOkAt = e.err.railOkAt := by obtain ⟨_, _, _, _, _, _, rfl⟩ := h; rfl
end

theorem Engine.Reports.sameState {e e' : Engine} (h : e.Reports e') : e.SameState e' := by
  obtain ⟨⟨rs, hf, g, o, rfl⟩, -⟩ := h
  exact ⟨_, _, _, _, _, _, rfl⟩

/-! ### A cause becomes active -/

theorem not_reportReg_bypass {off : Nat} (h : off = Reg.ERR_BYPASS_STAT ∨ off = Reg.ERR_BYPASS_TIME ∨ off = Reg.ERR_EVT) :
    ¬ reportReg off := by
  simp only [reportReg, Reg.ERR_BYPASS_STAT, Reg.ERR_BYPASS_TIME, Reg.ERR_EVT, Reg.ERR_CNT] at *
  omega

theorem Engine.causeOn_eq (e : Engine) (c : Nat) : e.causeOn c = (e.get Fld.ERR_BYPASS_STAT_CAUSES).testBit (c - 1) :=
  bitOf_eq_testBit _ _

/-- The entry instant, where no cause was active before. -/
def Engine.entryInstant (e : Engine) (first : Bool) : Engine :=
  if first then ((e.put Fld.ERR_BYPASS_STAT_ACTIVE 1).wr Reg.ERR_BYPASS_TIME e.time).count (Reg.ERR_CNT 2) else e

/-- What single causes do beside: THERMAL throttles, and ENGINE_UE and NO_MODEL end evaluation. -/
def Engine.entryMarks (e : Engine) (c : Nat) : Engine :=
  let e := if c = 1 then e.put Fld.ERR_BYPASS_STAT_THROTTLE 1 else e
  if c = 2 ∨ c = 3 then
    { e with pkts := e.pkts.map fun p => if p.handed ∧ !p.byp ∧ !p.ended then { p with noEval := true } else p } else e

/-- A new cause, up to its event and record. -/
def Engine.causeEntry (e : Engine) (c : Nat) : Engine :=
  (((e.put Fld.ERR_BYPASS_STAT_CAUSES (e.get Fld.ERR_BYPASS_STAT_CAUSES ||| 2 ^ (c - 1))).entryInstant (!e.inBypass)).entryMarks c).evt
    Fld.ERR_EVT_BYPASS_ENTER

/-- A new cause is entered, and a record follows. -/
theorem Engine.enterCause_new {e : Engine} {c : Nat} (h : e.causeOn c = false) : (e.causeEntry c).Reports (e.enterCause c) := by
  rw [Engine.enterCause, if_neg (by simp [h])]
  exact Engine.errInfo_reports _ _ _ _ _ _ _

theorem Engine.enterCause_active {e : Engine} {c : Nat} (h : e.causeOn c = true) : e.enterCause c = e := if_pos h

theorem Engine.enterCause_sameState (e : Engine) (c : Nat) : e.SameState (e.enterCause c) := by
  cases h : e.causeOn c
  · refine .trans ?_ (Engine.enterCause_new h).sameState
    have hinstant : e.SameState ((e.put Fld.ERR_BYPASS_STAT_CAUSES (e.get Fld.ERR_BYPASS_STAT_CAUSES ||| 2 ^ (c - 1))).entryInstant
        (!e.inBypass)) := .ite (.thenWr (.thenWr (.thenPut (.thenPut (.refl e) _ _) _ _) _ _) _ _) (.thenPut (.refl e) _ _)
    have hmarks := Engine.SameState.ite (p := c = 1) (hinstant.thenPut Fld.ERR_BYPASS_STAT_THROTTLE 1) hinstant
    exact .thenPut (.ite (hmarks.thenPkts _) hmarks) _ _
  · rw [Engine.enterCause_active h]; exact .refl e

theorem Engine.entryMarks_rd (e : Engine) (c : Nat) {off : Nat} (h : off ≠ Reg.ERR_BYPASS_STAT) : (e.entryMarks c).rd off = e.rd off := by
  have hthrottle : (if c = 1 then e.put Fld.ERR_BYPASS_STAT_THROTTLE 1 else e).rd off = e.rd off := by
    split
    · exact Engine.rd_put_other _ _ _ h
    · rfl
  unfold Engine.entryMarks
  dsimp only
  split <;> exact hthrottle

theorem Engine.entryMarks_get (e : Engine) (c : Nat) {f : Fld} (hhi : f.hi < 8) :
    (e.entryMarks c).get f = e.get f := by
  have hthrottle : (if c = 1 then e.put Fld.ERR_BYPASS_STAT_THROTTLE 1 else e).get f = e.get f := by
    split
    · exact Engine.get_put_other _ _ _ _ (.inr ⟨.inl hhi, by decide, by decide⟩)
    · rfl
  unfold Engine.entryMarks
  dsimp only
  split <;> exact hthrottle

theorem Engine.entryInstant_get (e : Engine) (first : Bool) {f : Fld} (hf : f.off = Reg.ERR_BYPASS_STAT) (hlo : 0 < f.lo) :
    (e.entryInstant first).get f = e.get f := by
  unfold Engine.entryInstant
  split
  · rw [Engine.get_count_other _ _ (by rw [hf]; decide), Engine.get_wr_other _ _ _ (by rw [hf]; decide),
      Engine.get_put_other _ _ _ _ (.inr ⟨.inr hlo, by decide, by decide⟩)]
  · rfl

/-- A cause that becomes active is added to those that are. -/
theorem Engine.enterCause_causes (e : Engine) {c : Nat} (hc : 1 ≤ c ∧ c ≤ 5) (c' : Nat) :
    (e.enterCause c).causeOn c' = (e.causeOn c' || decide (c' - 1 = c - 1)) := by
  cases h : e.causeOn c
  · have hlt : e.get Fld.ERR_BYPASS_STAT_CAUSES ||| 2 ^ (c - 1) < 2 ^ 5 :=
      Nat.or_lt_two_pow (bitsOf_lt _ _ _) (Nat.pow_lt_pow_right (by decide) (by omega))
    rw [Engine.causeOn_eq, (Engine.enterCause_new h).get _ (not_reportReg_bypass (.inl rfl)), Engine.causeEntry,
      Engine.get_evt_other _ _ _ (by decide), Engine.entryMarks_get _ _ (by decide), Engine.entryInstant_get _ _ rfl (by decide),
      Engine.get_put_same _ _ _ (by decide) (by decide), Nat.mod_eq_of_lt (by exact hlt), Nat.testBit_or, ← Engine.causeOn_eq, Nat.testBit_two_pow]
    simp [eq_comm]
  · rw [Engine.enterCause_active h]
    by_cases hcc : c' - 1 = c - 1
    · have : e.causeOn c' = true := by rw [Engine.causeOn_eq, hcc, ← Engine.causeOn_eq, h]
      simp [this]
    · simp [hcc]

/-- A new cause: bypass is active, its event reads 1, THERMAL throttles, and a first cause sets the entry instant. -/
theorem Engine.enterCause_inBypass {e : Engine} {c : Nat} (h : e.causeOn c = false) : (e.enterCause c).inBypass = true := by
  rw [Engine.inBypass, Engine.is, (Engine.enterCause_new h).get _ (not_reportReg_bypass (.inl rfl)), Engine.causeEntry,
    Engine.get_evt_other _ _ _ (by decide), Engine.entryMarks_get _ _ (by decide), Engine.entryInstant]
  cases hb : e.inBypass
  · rw [Bool.not_false, if_pos rfl, Engine.get_count_other _ _ (by decide), Engine.get_wr_other _ _ _ (by decide),
      Engine.get_put_same _ _ _ (by decide) (by decide)]
    rfl
  · exact (congrArg (· == 1) (Engine.get_put_other _ _ _ _ (by decide))).trans hb

theorem Engine.enterCause_event {e : Engine} {c : Nat} (h : e.causeOn c = false) :
    (e.enterCause c).is Fld.ERR_EVT_BYPASS_ENTER = true := by
  rw [Engine.is, (Engine.enterCause_new h).get _ (not_reportReg_bypass (.inr (.inr rfl)))]
  exact Engine.is_evt_same _ _ (by decide) (by decide)

theorem Engine.enterCause_throttle {e : Engine} (h : e.causeOn 1 = false) : (e.enterCause 1).is Fld.ERR_BYPASS_STAT_THROTTLE = true := by
  rw [Engine.is, (Engine.enterCause_new h).get _ (not_reportReg_bypass (.inl rfl)), Engine.causeEntry,
    Engine.get_evt_other _ _ _ (by decide)]
  exact Engine.is_put_same _ Fld.ERR_BYPASS_STAT_THROTTLE 1 (by decide)

theorem Engine.enterCause_instant {e : Engine} {c : Nat} (h : e.causeOn c = false) (hb : e.inBypass = false) :
    (e.enterCause c).rd Reg.ERR_BYPASS_TIME = e.time % 2 ^ 64 := by
  rw [(Engine.enterCause_new h).2 _ (not_reportReg_bypass (.inr (.inl rfl))), Engine.causeEntry, hb, Engine.rd_evt_other _ _ (by decide),
    Engine.entryMarks_rd _ _ (by decide), Engine.entryInstant, Bool.not_false, if_pos rfl, Engine.rd_count_other _ (by decide),
    Engine.rd_wr_same]
  rfl

/-- Only ENGINE_UE and NO_MODEL mark packets. -/
theorem Engine.enterCause_pkts {e : Engine} {c : Nat} (hc : ¬ (c = 2 ∨ c = 3)) : (e.enterCause c).pkts = e.pkts := by
  cases h : e.causeOn c
  · obtain ⟨⟨rs, hf, g, o, heq⟩, -⟩ := Engine.enterCause_new h
    rw [heq, Engine.causeEntry, Engine.entryMarks, if_neg hc, Engine.entryInstant]
    cases e.inBypass <;> by_cases h1 : c = 1 <;> simp [h1]
  · rw [Engine.enterCause_active h]

/-! ### A cause ends -/

/-- The last cause to end sets the exit instant. -/
def Engine.exitInstant (e : Engine) : Engine :=
  if e.get Fld.ERR_BYPASS_STAT_CAUSES == 0 then
    { e.put Fld.ERR_BYPASS_STAT_ACTIVE 0 with err := { e.err with past := e.err.past ++ [(e.rd Reg.ERR_BYPASS_TIME, e.time)] } } else e

/-- A cause taken from those that are active; THERMAL no longer throttles. -/
def Engine.causeDropped (e : Engine) (c : Nat) : Engine :=
  let e := e.put Fld.ERR_BYPASS_STAT_CAUSES (withBits (e.get Fld.ERR_BYPASS_STAT_CAUSES) (c - 1) (c - 1) 0)
  if c = 1 then e.put Fld.ERR_BYPASS_STAT_THROTTLE 0 else e

theorem Engine.endCauseOnly_active {e : Engine} {c : Nat} (h : e.causeOn c = true) :
    ((e.causeDropped c).exitInstant.evt Fld.ERR_EVT_BYPASS_EXIT).Reports (e.endCauseOnly c) := by
  rw [Engine.endCauseOnly, if_neg (by simp [h])]
  exact Engine.errInfo_reports _ _ _ _ _ _ _

theorem Engine.endCauseOnly_sameState (e : Engine) (c : Nat) : e.SameState (e.endCauseOnly c) := by
  cases h : e.causeOn c
  · rw [Engine.endCauseOnly, if_pos (by simp [h])]; exact .refl e
  · refine .trans (.thenPut ?_ _ _) (Engine.endCauseOnly_active h).sameState
    have hdrop : e.SameState (e.causeDropped c) := .ite (.thenPut (.thenPut (.refl e) _ _) _ _) (.thenPut (.refl e) _ _)
    exact .ite (.thenPast (hdrop.thenPut _ _) _) hdrop

theorem Engine.exitInstant_get (e : Engine) {f : Fld} (hlo : 0 < f.lo) :
    e.exitInstant.get f = e.get f := by
  unfold Engine.exitInstant
  split
  · exact Engine.get_put_other _ _ _ _ (.inr ⟨.inr hlo, by decide, by decide⟩)
  · rfl

theorem Engine.causeDropped_causes (e : Engine) {c : Nat} (hc : 1 ≤ c ∧ c ≤ 5) :
    (e.causeDropped c).get Fld.ERR_BYPASS_STAT_CAUSES = withBits (e.get Fld.ERR_BYPASS_STAT_CAUSES) (c - 1) (c - 1) 0 := by
  have hlt : withBits (e.get Fld.ERR_BYPASS_STAT_CAUSES) (c - 1) (c - 1) 0 < 2 ^ 5 :=
    withBits_lt _ _ _ _ _ (bitsOf_lt _ _ _) (by omega) le_rfl
  have hput : (e.put Fld.ERR_BYPASS_STAT_CAUSES (withBits (e.get Fld.ERR_BYPASS_STAT_CAUSES) (c - 1) (c - 1) 0)).get
      Fld.ERR_BYPASS_STAT_CAUSES = withBits (e.get Fld.ERR_BYPASS_STAT_CAUSES) (c - 1) (c - 1) 0 :=
    (Engine.get_put_same _ _ _ (by decide) (by decide)).trans (Nat.mod_eq_of_lt hlt)
  unfold Engine.causeDropped
  dsimp only
  split
  · rw [Engine.get_put_other _ _ _ _ (by decide), hput]
  · exact hput

theorem Engine.endCauseOnly_causes {e : Engine} {c : Nat} (h : e.causeOn c = true) (hc : 1 ≤ c ∧ c ≤ 5) :
    (e.endCauseOnly c).get Fld.ERR_BYPASS_STAT_CAUSES = withBits (e.get Fld.ERR_BYPASS_STAT_CAUSES) (c - 1) (c - 1) 0 := by
  rw [(Engine.endCauseOnly_active h).get _ (not_reportReg_bypass (.inl rfl)), Engine.get_evt_other _ _ _ (by decide),
    Engine.exitInstant_get _ (by decide), Engine.causeDropped_causes _ hc]

theorem Engine.endCauseOnly_off {e : Engine} {c : Nat} (h : e.causeOn c = true) (hc : 1 ≤ c ∧ c ≤ 5) :
    (e.endCauseOnly c).causeOn c = false := by
  rw [Engine.causeOn, Engine.endCauseOnly_causes h hc, bitOf_withBits_same]; rfl

theorem Engine.endCauseOnly_other {e : Engine} {c c' : Nat} (h : e.causeOn c = true) (hc : 1 ≤ c ∧ c ≤ 5) (hne : c' - 1 ≠ c - 1) :
    (e.endCauseOnly c).causeOn c' = e.causeOn c' := by
  rw [Engine.causeOn, Engine.endCauseOnly_causes h hc, bitOf_withBits_other _ _ hne, Engine.causeOn]

/-- Bypass ends with its last cause. -/
theorem Engine.endCauseOnly_inBypass {e : Engine} {c : Nat} (h : e.causeOn c = true) (hc : 1 ≤ c ∧ c ≤ 5) :
    (e.endCauseOnly c).inBypass = (e.inBypass && withBits (e.get Fld.ERR_BYPASS_STAT_CAUSES) (c - 1) (c - 1) 0 != 0) := by
  have hactive : (e.causeDropped c).get Fld.ERR_BYPASS_STAT_ACTIVE = e.get Fld.ERR_BYPASS_STAT_ACTIVE := by
    unfold Engine.causeDropped
    dsimp only
    split
    · rw [Engine.get_put_other _ _ _ _ (by decide), Engine.get_put_other _ _ _ _ (by decide)]
    · exact Engine.get_put_other _ _ _ _ (by decide)
  rw [Engine.inBypass, Engine.is, (Engine.endCauseOnly_active h).get _ (not_reportReg_bypass (.inl rfl)),
    Engine.get_evt_other _ _ _ (by decide), Engine.exitInstant, Engine.causeDropped_causes _ hc]
  by_cases h0 : withBits (e.get Fld.ERR_BYPASS_STAT_CAUSES) (c - 1) (c - 1) 0 = 0
  · simp only [h0, beq_self_eq_true, if_true, bne_self_eq_false, Bool.and_false]
    exact (Engine.is_put_same _ Fld.ERR_BYPASS_STAT_ACTIVE 0 (by decide))
  · simp [h0, hactive, Engine.inBypass, Engine.is]

theorem Engine.endCauseOnly_throttle {e : Engine} (h : e.causeOn 1 = true) : (e.endCauseOnly 1).is Fld.ERR_BYPASS_STAT_THROTTLE = false := by
  rw [Engine.is, (Engine.endCauseOnly_active h).get _ (not_reportReg_bypass (.inl rfl)), Engine.get_evt_other _ _ _ (by decide),
    Engine.exitInstant_get _ (by decide)]
  exact Engine.is_put_same _ Fld.ERR_BYPASS_STAT_THROTTLE 0 (by decide)

theorem Engine.endCauseOnly_selftest {e : Engine} {c : Nat} (h : e.causeOn c = true) :
    (e.endCauseOnly c).is Fld.ERR_BYPASS_STAT_SELFTEST = e.is Fld.ERR_BYPASS_STAT_SELFTEST := by
  rw [Engine.is, (Engine.endCauseOnly_active h).get _ (not_reportReg_bypass (.inl rfl)), Engine.get_evt_other _ _ _ (by decide),
    Engine.exitInstant_get _ (by decide)]
  unfold Engine.causeDropped
  dsimp only
  split
  · rw [Engine.get_put_other _ _ _ _ (by decide), Engine.get_put_other _ _ _ _ (by decide), Engine.is]
  · rw [Engine.get_put_other _ _ _ _ (by decide), Engine.is]

/-- A cause other than COMMAND just ends. -/
theorem Engine.endCause_other (e : Engine) {c : Nat} (h : c ≠ 5) : e.endCause c = e.endCauseOnly c := if_neg fun h' => h h'.1

/-- COMMAND ends while no model is live: NO_MODEL takes its place and bypass goes on. -/
theorem Engine.endCause_command {e : Engine} (hon : e.causeOn 5 = true) (hbyp : e.inBypass = true) (hlive : e.gft.live = none) :
    (e.endCause 5).causeOn 5 = false ∧ (e.endCause 5).causeOn 3 = true ∧ (e.endCause 5).inBypass = true := by
  have hcommand : (e.enterCause 3).causeOn 5 = true := by rw [Engine.enterCause_causes _ (by decide), hon, Bool.true_or]
  have hmodel : ((e.enterCause 3).endCauseOnly 5).causeOn 3 = true := by
    rw [Engine.endCauseOnly_other hcommand (by decide) (by decide), Engine.enterCause_causes _ (by decide)]
    simp
  have hbyp3 : (e.enterCause 3).inBypass = true := by
    cases h : e.causeOn 3
    · exact Engine.enterCause_inBypass h
    · rw [Engine.enterCause_active h, hbyp]
  rw [Engine.endCause, if_pos ⟨rfl, hon, hlive⟩]
  refine ⟨Engine.endCauseOnly_off hcommand (by decide), hmodel, ?_⟩
  rw [Engine.endCauseOnly_inBypass hcommand (by decide), hbyp3, Bool.true_and, bne_iff_ne]
  intro h0
  rw [Engine.causeOn_eq, Engine.endCauseOnly_causes hcommand (by decide), h0, Nat.zero_testBit] at hmodel
  exact Bool.false_ne_true hmodel

/-! ### The rows -/

/-- Words of eight bytes: one byte lies in the word of its address. -/
theorem protWords_byte (a : Nat) : (protWords 0 a 1).head?.getD a = a / 8 * 8 := by simp [protWords]

theorem Engine.pends_err {e : Engine} (h : bitOf (e.rd Reg.GLB_PEND) 18 = false) : e.pends 18 = false := by simp [Engine.pends, h]

/-- The mark of a self-test does not touch the causes. -/
theorem Engine.put_selftest_causeOn (e : Engine) (v c : Nat) : (e.put Fld.ERR_BYPASS_STAT_SELFTEST v).causeOn c = e.causeOn c := by
  rw [Engine.causeOn, Engine.get_put_other _ _ _ _ (by decide), Engine.causeOn]

/-- Settles O14, event by event: the causes follow `enterCause` and `endCause`. -/
theorem bypassCausesFollowEvents : Obligations.BypassCausesFollowEvents := by
  unfold Obligations.BypassCausesFollowEvents
  refine ⟨?trip, ?halt, ?clear, ?lost, ?ok, ?qualified, ?byCmd, ?endCmd, ?ack, ?selftest, ?patrol, ?inject⟩
  case trip =>
    intro s x hup hx hoff
    have hup' : ({ s with eng := { s.eng with phys := { s.eng.phys with hotspot := x } } } : State).engineUp = true := hup
    have hoff' : Engine.causeOn { s.eng with phys := { s.eng.phys with hotspot := x } } 1 = false := hoff
    have hsame := Engine.enterCause_sameState { s.eng with phys := { s.eng.phys with hotspot := x } } 1
    refine .next (congrArg Host.Outcome.next ((if_neg (by omega)).trans (if_pos hup'))) ?_
    refine ⟨?_, Engine.enterCause_throttle hoff', congrArg Phys.hotspot hsame.phys, hsame.mem, rfl⟩
    exact (Engine.enterCause_causes _ (by decide) 1).trans (by simp)
  case halt =>
    intro s x hrel hx
    refine .next (congrArg Host.Outcome.next (if_neg (by rw [hrel]; simp; omega))) ?_
    exact ⟨by simp [State.engineUp], by simp [State.pcieUp], Engine.is_put_same _ Fld.STW_STAT_HALT_SEEN 1 (by decide), hrel, rfl⟩
  case clear =>
    intro s x hup hx hcauses
    have hon : Engine.causeOn { s.eng with phys := { s.eng.phys with hotspot := x } } 1 = true := congrArg (bitOf · 0) hcauses
    refine .engine rfl hup ?_
    rw [State.onEng, if_neg (by omega), Engine.endCause_other _ (by decide)]
    have hzero : withBits (Engine.get { s.eng with phys := { s.eng.phys with hotspot := x } } Fld.ERR_BYPASS_STAT_CAUSES) (1 - 1) (1 - 1) 0
        = 0 := congrArg (withBits · 0 0 0) hcauses
    refine ⟨(Engine.endCauseOnly_causes hon (by decide)).trans hzero, ?_, Engine.endCauseOnly_throttle hon,
      congrArg Phys.hotspot (Engine.endCauseOnly_sameState _ _).phys, rfl⟩
    exact (Engine.endCauseOnly_inBypass hon (by decide)).trans (by rw [hzero]; simp)
  case lost =>
    intro s hup hrun hoff
    refine .steward (show execRailLost s = stewardStep s _ from rfl) hrun ?_
    dsimp only
    rw [if_pos hup]
    have hrec := (Engine.errInfo_reports { s.eng with err := { s.eng.err with railOkAt := none } } 0x50 19 0 2 0 0).sameState
    exact ⟨(Engine.enterCause_causes _ (by decide) 4).trans (by simp), (hrec.trans (Engine.enterCause_sameState _ 4)).railOkAt, rfl, rfl⟩
  case ok =>
    intro s hup hrun hnone
    refine .steward (show execRailOk s = stewardStep s _ from rfl) hrun ?_
    dsimp only
    rw [if_pos hup]
    have hrec := Engine.errInfo_reports { s.eng with err := { s.eng.err with railOkAt := some (s.eng.err.railOkAt.getD s.eng.cyc) } }
      0x50 19 0 3 0 0
    refine ⟨hrec.sameState.railOkAt.trans (by simp [hnone]), ?_, rfl⟩
    exact congrArg (bitOf · (4 - 1)) (hrec.get Fld.ERR_BYPASS_STAT_CAUSES (not_reportReg_bypass (.inl rfl)))
  case qualified =>
    intro s t0 hup hat hlate hon
    have hon' : Engine.causeOn { s.eng with err := { s.eng.err with railOkAt := none } } 4 = true := hon
    refine .engine rfl hup ?_
    simp only [State.onEng, hat, hlate, if_true]
    rw [Engine.endCause_other _ (by decide)]
    exact ⟨Engine.endCauseOnly_off hon' (by decide), (Engine.endCauseOnly_sameState _ _).railOkAt, trivial⟩
  case byCmd =>
    intro s hup hp hpend hoff hnot
    have hoff' : (s.eng.put Fld.ERR_BYPASS_CTRL_CMD 1).causeOn 5 = false := by
      rw [Engine.causeOn, Engine.get_put_other _ _ _ _ (by decide)]; exact hoff
    have hnot' : (s.eng.put Fld.ERR_BYPASS_CTRL_CMD 1).inBypass = false := by
      rw [Engine.inBypass, Engine.is_put_other _ _ _ _ (by decide)]; exact hnot
    refine .host rfl hup hp ?_
    simp only [State.onEng, pendWrite, Engine.pends_err hpend, Bool.false_eq_true, if_false]
    refine ⟨(Engine.enterCause_causes _ (by decide) 5).trans (by simp), Engine.enterCause_inBypass hoff',
      Engine.enterCause_instant hoff' hnot', Engine.enterCause_event hoff', ?_⟩
    exact (Engine.enterCause_pkts (by decide)).trans (Engine.put_pkts _ _ _)
  case endCmd =>
    intro s hup hp hpend hon hbyp hlive
    refine .host rfl hup hp ?_
    simp only [State.onEng, pendWrite, Engine.pends_err hpend, Bool.false_eq_true, if_false]
    have hon' : (s.eng.put Fld.ERR_BYPASS_CTRL_CMD 0).causeOn 5 = true := by
      rw [Engine.causeOn, Engine.get_put_other _ _ _ _ (by decide)]; exact hon
    have hbyp' : (s.eng.put Fld.ERR_BYPASS_CTRL_CMD 0).inBypass = true := by
      rw [Engine.inBypass, Engine.is_put_other _ _ _ _ (by decide)]; exact hbyp
    exact Engine.endCause_command hon' hbyp' hlive
  case ack =>
    intro s hup hp hpend hon htesting
    refine .host rfl hup hp ?_
    simp only [State.onEng, pendWrite, Engine.pends_err hpend, Bool.false_eq_true, if_false, bypassAck, hon, Bool.not_true]
    refine ⟨Engine.is_put_same _ Fld.ERR_BYPASS_STAT_SELFTEST 1 (by decide), by simp [htesting], ?_⟩
    exact (Engine.put_selftest_causeOn _ _ _).trans hon
  case selftest =>
    intro s hup htest hagain hon
    refine .engine rfl hup ?_
    have hnone : s.eng.err.testing.filter ([] : List Nat).contains = [] := by simp
    rw [State.onEng, selftestComplete, if_neg (by simp [htest])]
    simp only [hnone, List.foldl_nil, hagain, Bool.false_eq_true, if_false]
    rw [Engine.endCause_other _ (by decide)]
    have hon' := (Engine.put_selftest_causeOn { s.eng with err := { s.eng.err with testing := [], ueAgain := false } } 0 2).trans hon
    refine ⟨(Engine.endCauseOnly_selftest hon').trans (Engine.is_put_same _ Fld.ERR_BYPASS_STAT_SELFTEST 0 (by decide)),
      Engine.endCauseOnly_off hon' (by decide), (Engine.endCauseOnly_sameState _ _).doms⟩
  case patrol =>
    intro s a hup hen ha hclean
    have hread : ∀ ecc, patrolRead 0 a ecc s.eng = match ecc with
        | .ce => (s.eng.memCe 0 (a / 8 * 8)).count (Reg.ERR_CNT 6)
        | .ue => s.eng.memUe 0 (a / 8 * 8) true
        | _ => s.eng := fun ecc => by
      cases ecc <;> simp [patrolRead, hen, ha, protWords_byte, hclean]
    exact ⟨(Does.engine rfl hup).congr (hread .ue), (Does.engine rfl hup).congr (hread .ce),
      (Does.engine rfl hup).trans (by rw [State.onEng, hread])⟩
  case inject =>
    intro s v hup hp hpend hkey
    refine .host rfl hup hp ?_
    simp only [State.onEng, pendWrite, Engine.pends_err hpend, Bool.false_eq_true, if_false, errInject, hkey]
    rw [if_neg (by simp)]
    have hmem : ((s.eng.put Fld.ERR_INJECT_MEM (bitsOf v 2 0)).put Fld.ERR_INJECT_KIND (bitsOf v 8 8)).get Fld.ERR_INJECT_MEM =
        bitsOf v 2 0 := by
      rw [Engine.get_put_other _ _ _ _ (by decide), Engine.get_put_same _ _ _ (by decide) (by decide)]
      exact Nat.mod_eq_of_lt (bitsOf_lt v 2 0)
    have hkind : ((s.eng.put Fld.ERR_INJECT_MEM (bitsOf v 2 0)).put Fld.ERR_INJECT_KIND (bitsOf v 8 8)).get Fld.ERR_INJECT_KIND =
        bitsOf v 8 8 := (Engine.get_put_same _ _ _ (by decide) (by decide)).trans (Nat.mod_eq_of_lt (bitsOf_lt v 8 8))
    cases bitOf v 15
    · exact ⟨hmem, hkind, fun h => absurd h Bool.false_ne_true⟩
    · exact ⟨(Engine.get_put_other _ _ _ _ (by decide)).trans hmem, (Engine.get_put_other _ _ _ _ (by decide)).trans hkind,
        fun _ => Engine.is_put_same _ Fld.ERR_INJECT_ARMED 1 (by decide)⟩

end Sys2Proof.Machine

/-!
PROOFS. Resets short of a cold one (O13): lattice time through a warm reset, and what training ports again leaves alone.
-/
namespace Sys2Proof.Machine

/-! ### What keeps lattice time -/

theorem foldl_time {α : Type} {f : Engine → α → Engine} (hf : ∀ (e : Engine) (a : α), (f e a).time = e.time) (l : List α) (e : Engine) :
    (l.foldl f e).time = e.time := by
  induction l generalizing e with
  | nil => rfl
  | cons a l ih => rw [List.foldl_cons, ih, hf]

theorem Engine.deleteSheaf_time (e : Engine) (key : Bytes) : (e.deleteSheaf key).time = e.time := by
  unfold Engine.deleteSheaf
  split
  · rfl
  · dsimp only; split <;> rfl

theorem Engine.undoSheafOf_time (e : Engine) (h : Holder) : (e.undoSheafOf h).time = e.time := by
  unfold Engine.undoSheafOf
  split
  · rfl
  · dsimp only
    rw [apply_ite Engine.time, Engine.deleteSheaf_time, ite_self]
    rfl

theorem Engine.framesLost_time (e : Engine) : e.framesLost.time = e.time :=
  foldl_time (f := fun e (p : Pkt) => e.alwaysN (Reg.ITK_PCNT p.port 15) 1) (fun _ _ => rfl) e.pkts e

theorem Engine.sheavesToSilo_time (e : Engine) : e.sheavesToSilo.time = e.time := by
  unfold Engine.sheavesToSilo
  dsimp only
  rw [foldl_time (fun e s => by split <;> rfl), foldl_time Engine.undoSheafOf_time]

/-! ### Ports that train again -/

/-- One engine is the other but for registers and the links' state, and a lattice reset that is due stays due. -/
def Engine.PortsOnly (e e' : Engine) : Prop := ∃ rs g, e' = { e with regs := rs, flg := g } ∧ g.resetAt = e.flg.resetAt

theorem Engine.PortsOnly.refl (e : Engine) : e.PortsOnly e := ⟨_, _, rfl, rfl⟩

theorem Engine.PortsOnly.trans {e e' e'' : Engine} (h : e.PortsOnly e') (h' : e'.PortsOnly e'') : e.PortsOnly e'' := by
  obtain ⟨rs, g, rfl, hg⟩ := h
  obtain ⟨rs', g', rfl, hg'⟩ := h'
  exact ⟨_, _, rfl, hg'.trans hg⟩

theorem Engine.PortsOnly.ite {e e' e'' : Engine} {p : Prop} [Decidable p] (h : e.PortsOnly e') (h' : e.PortsOnly e'') :
    e.PortsOnly (if p then e' else e'') := by
  split
  · exact h
  · exact h'

theorem Engine.PortsOnly.thenWr {e e' : Engine} (h : e.PortsOnly e') (off v : Nat) : e.PortsOnly (e'.wr off v) :=
  h.trans ⟨_, _, rfl, rfl⟩
theorem Engine.PortsOnly.thenPut {e e' : Engine} (h : e.PortsOnly e') (f : Fld) (v : Nat) : e.PortsOnly (e'.put f v) := h.thenWr _ _
theorem Engine.PortsOnly.thenFlg {e e' : Engine} (h : e.PortsOnly e') (g : Flg) (hg : g.resetAt = e'.flg.resetAt) :
    e.PortsOnly { e' with flg := g } := h.trans ⟨_, _, rfl, hg⟩

theorem Engine.PortsOnly.thenFoldl {α : Type} {f : Engine → α → Engine} {e e' : Engine} (h : e.PortsOnly e') (l : List α)
    (hf : ∀ (x : Engine) (a : α), x.PortsOnly (f x a)) : e.PortsOnly (l.foldl f e') := by
  induction l generalizing e' with
  | nil => exact h
  | cons a l ih => exact ih (h.trans (hf e' a))

theorem Engine.setPortState_portsOnly (e : Engine) (p st : Nat) : e.PortsOnly (e.setPortState p st) := by
  have hput : e.PortsOnly ((e.put (Fld.FLG_PORT_STAT_STATE p) st).evt Fld.FLG_EVT_PORT_CHANGE) := .thenPut (.thenPut (.refl e) _ _) _ _
  exact .ite (.refl e) (.thenFlg (.thenFlg (.ite (hput.thenPut _ _) hput) _ rfl) _ rfl)

theorem Engine.dropLink_portsOnly (e : Engine) (p st : Nat) : e.PortsOnly (e.dropLink p st) := by
  refine .trans (.thenFlg (.thenFoldl (.thenFlg (.ite (.refl e) ?count) _ ?empty) _ fun x k => ?credit) _ ?unbuffer)
    (Engine.setPortState_portsOnly _ _ _)
  case count => exact .thenWr (.refl e) _ _
  case credit => exact .thenWr (.refl x) _ 0
  all_goals rfl

theorem Engine.restartPorts_portsOnly (e : Engine) : e.PortsOnly e.restartPorts :=
  .thenFoldl (.refl e) _ fun x p => .ite (.refl x) (x.dropLink_portsOnly p _)

/-! ### The warm reset -/

/-- The engine of a warm reset before its ports train again. -/
def Engine.warmCore (e : Engine) (cause : Nat) : Engine :=
  { regs := (e.framesLost.sheavesToSilo.keepRegs warmKeeps).regs, time := e.framesLost.sheavesToSilo.time
    cyc := e.framesLost.sheavesToSilo.cyc, freeCtr := e.framesLost.sheavesToSilo.freeCtr, out := e.framesLost.sheavesToSilo.out
    phys := e.framesLost.sheavesToSilo.phys, glnKeep := e.framesLost.sheavesToSilo.glnKeep
    mem := Tbl.clearRange e.framesLost.sheavesToSilo.mem 0 0x11000000
    poison := e.framesLost.sheavesToSilo.poison.filter fun w => decide (0x11000000 ≤ w)
    doms := (List.range 19).foldl (fun t d => Tbl.set {} t d (e.framesLost.sheavesToSilo.dom d).restart) []
    rx := e.framesLost.sheavesToSilo.rx.map fun (x : Nat × Rx) => (x.1, { aligned := x.2.aligned })
    tab := { switches := e.framesLost.sheavesToSilo.tab.switches }
    shf := e.framesLost.sheavesToSilo.shf
    err := { aerCe := e.framesLost.sheavesToSilo.err.aerCe, aerUe := e.framesLost.sheavesToSilo.err.aerUe }
    flg := e.framesLost.sheavesToSilo.flg.restart e.framesLost.sheavesToSilo.cyc (cause == 4) }

theorem Engine.warm_eq (e : Engine) (cause : Nat) : ∃ late, e.warm cause =
    (((((e.warmCore cause).wr Reg.FLG_STAT 0).put Fld.FLG_STAT_LATE_RESET late).restartPorts.nextBoundary.put
      Fld.CLK_RST_CAUSE_CAUSE cause).put Fld.CLK_RST_STAT_BUSY 1) := ⟨_, rfl⟩

/-- A warm reset keeps lattice time, loses the frames in flight and the host commands, and ends a lattice-coordinated reset (Table CLK-7). -/
theorem Engine.warm_state (e : Engine) (cause : Nat) :
    (e.warm cause).time = e.time ∧ (e.warm cause).pkts = [] ∧ (e.warm cause).hif.cmds = [] ∧
      (e.warm cause).flg.resetAt = if cause = 4 then none else e.framesLost.sheavesToSilo.flg.resetAt := by
  obtain ⟨late, hwarm⟩ := e.warm_eq cause
  obtain ⟨rs, g, hports, hg⟩ := Engine.restartPorts_portsOnly (((e.warmCore cause).wr Reg.FLG_STAT 0).put Fld.FLG_STAT_LATE_RESET late)
  have htime : (e.warmCore cause).time = e.time := (Engine.sheavesToSilo_time _).trans e.framesLost_time
  rw [hwarm, hports]
  refine ⟨htime, rfl, rfl, hg.trans ?_⟩
  simp [Engine.warmCore, Flg.restart]

theorem Engine.warm_busy (e : Engine) (cause : Nat) : (e.warm cause).is Fld.CLK_RST_STAT_BUSY = true := by
  obtain ⟨late, hwarm⟩ := e.warm_eq cause
  rw [hwarm]
  exact Engine.is_put_same _ Fld.CLK_RST_STAT_BUSY 1 (by decide)

theorem Engine.warm_cause (e : Engine) (cause : Nat) : (e.warm cause).get Fld.CLK_RST_CAUSE_CAUSE = cause % 2 ^ 4 := by
  obtain ⟨late, hwarm⟩ := e.warm_eq cause
  rw [hwarm, Engine.get_put_other _ _ _ _ (by decide)]
  exact Engine.get_put_same _ Fld.CLK_RST_CAUSE_CAUSE cause (by decide) (by decide)

theorem State.warmReset_busy (s : State) (cause : Nat) : (s.warmReset cause).eng.is Fld.CLK_RST_STAT_BUSY = true := by
  rw [State.warmReset, Engine.is, Engine.get, Engine.loadCal_rd_other _ _ (by decide) (by decide)]
  exact s.eng.warm_busy cause

theorem State.warmReset_cause (s : State) (cause : Nat) : (s.warmReset cause).eng.get Fld.CLK_RST_CAUSE_CAUSE = cause % 2 ^ 4 := by
  rw [State.warmReset, Engine.get, Engine.loadCal_rd_other _ _ (by decide) (by decide)]
  exact s.eng.warm_cause cause

/-- The module after a warm reset, as it reads from outside. -/
theorem State.warmReset_state (s : State) (cause : Nat) :
    (s.warmReset cause).eng.time = s.eng.time ∧ (s.warmReset cause).eng.pkts = [] ∧ (s.warmReset cause).eng.hif.cmds = [] ∧
      (cause = 4 → (s.warmReset cause).eng.flg.resetAt = none) := by
  obtain ⟨htime, hpkts, hcmds, hreset⟩ := s.eng.warm_state cause
  simp only [State.warmReset, Engine.loadCal, Engine.put_time, Engine.wr_time, Engine.put_pkts, Engine.wr_pkts, Engine.put_hif,
    Engine.wr_hif, Engine.put_flg, Engine.wr_flg, htime, hpkts, hcmds, hreset]
  exact ⟨trivial, trivial, trivial, fun h => if_pos h⟩

theorem State.warmReset_pwr (s : State) (cause : Nat) : (s.warmReset cause).pwr = s.pwr := by rw [State.warmReset]

/-! ### The rows -/

/-- A mask of one domain's bit names that domain alone. -/
theorem oneDomain_bits : ∀ d < 12, ((List.range 12).map (· + 0)).filter (fun b => bitOf (2 ^ d) b) = [d] ∧
    ((List.range 11).map (· + 12)).filter (fun b => bitOf (2 ^ d) b) = [] ∧ [12, 13, 14, 15, 22].any (fun b => bitOf (2 ^ d) b) = false ∧
    [16, 20].any (fun b => bitOf (2 ^ d) b) = false ∧ [21].any (fun b => bitOf (2 ^ d) b) = false := by decide

/-- So does the mask of the cascade's bit. -/
theorem cascade_bits : ((List.range 12).map (· + 0)).filter (fun b => bitOf (2 ^ 12) b) = [] ∧
    ((List.range 11).map (· + 12)).filter (fun b => bitOf (2 ^ 12) b) = [12] ∧
    [16, 20].any (fun b => bitOf (2 ^ 12) b) = false ∧ [21].any (fun b => bitOf (2 ^ 12) b) = false := by decide

/-- Settles O13. -/
theorem warmAndBlockResets : Obligations.WarmAndBlockResets := by
  unfold Obligations.WarmAndBlockResets
  refine ⟨?refused, ?cascade, ?domain, ?late, ?warm, ?badKey, ?complete, ?lattice⟩
  case refused =>
    exact fun s mask hup hp hpend hno => (Does.host rfl hup hp).congr (by simp [pendWrite, Engine.pends_clk hpend, blockReset, hno])
  case cascade =>
    intro s hup hp hpend hcause
    refine (Does.host rfl hup hp).congr ?_
    obtain ⟨hlow, hhigh, hports, hvote⟩ := cascade_bits
    have hallowed : s.eng.resetAllowed (2 ^ 12) = true := by simp only [Engine.resetAllowed, hcause, hports, hvote]; simp
    simp only [pendWrite, Engine.pends_clk hpend, Bool.false_eq_true, if_false, blockReset, hallowed, Bool.not_true, hlow, hhigh,
      List.foldl_cons, List.foldl_nil, Engine.resetBlock]
  case domain =>
    intro s d hup hp hpend hd hon
    obtain ⟨hlow, hhigh, hbyp, hports, hvote⟩ := oneDomain_bits d hd
    have hallowed : s.eng.resetAllowed (2 ^ d) = true := by simp only [Engine.resetAllowed, hbyp, hports, hvote]; simp
    refine (Does.host rfl hup hp).congr ?_
    simp only [pendWrite, Engine.pends_clk hpend, Bool.false_eq_true, if_false, blockReset, hallowed, Bool.not_true, hlow, hhigh,
      List.foldl_cons, List.foldl_nil, Engine.askReset, hon]
  case late =>
    intro s d hup hd hst hreset hlate
    refine (Does.engine rfl hup).congr ?_
    simp only [blockResetTimeout]
    rw [if_neg (by simp [hst, hreset, drainLimit]; omega), Engine.resetDomain]
  case warm =>
    intro s hp hbusy hpend
    have hrun : execWarmReset 0x4160 s = .next (s.warmReset 3) := by simp [execWarmReset, hp, hbusy, hpend]
    refine .next hrun ?_
    obtain ⟨htime, hpkts, hcmds, -⟩ := s.warmReset_state 3
    refine ⟨s.warmReset_busy 3, s.warmReset_cause 3, htime, hpkts, hcmds, s.warmReset_pwr 3, ?_⟩
    simp [State.engineUp, s.warmReset_busy 3]
  case badKey =>
    intro s key hkey hpend
    refine congrArg Host.Outcome.next ?_
    simp [hpend, hkey]
  case complete =>
    intro s hrel hhalt hbusy hcool
    have hcool' : (s.eng.put Fld.CLK_RST_STAT_BUSY 0).hotAgain = s.eng.put Fld.CLK_RST_STAT_BUSY 0 := Engine.hotAgain_cool hcool
    show execWarmResetComplete s = _
    simp [execWarmResetComplete, hrel, hhalt, hbusy, State.onEng, hcool']
  case lattice =>
    intro s t0 hup hat hdue
    have hrun : execLatticeResetTime s = .next (s.warmReset 4) := by simp [execLatticeResetTime, hup, hat, hdue]
    obtain ⟨htime, -, -, hreset⟩ := s.warmReset_state 4
    exact .next hrun ⟨s.warmReset_busy 4, s.warmReset_cause 4, htime, hreset rfl, s.warmReset_pwr 4⟩

end Sys2Proof.Machine

/-!
PROOFS. Profiles: selecting one, its readback, and the pending expansion (O15).
-/
namespace Sys2Proof.Machine

/-! ### What keeps lattice time and the pending expansions -/

/-- One engine has the lattice time and the pending expansions of the other. -/
def Engine.KeepsPend (e e' : Engine) : Prop := e'.time = e.time ∧ e'.rd Reg.GLB_PEND = e.rd Reg.GLB_PEND

theorem Engine.KeepsPend.refl (e : Engine) : e.KeepsPend e := ⟨rfl, rfl⟩

theorem Engine.KeepsPend.trans {e e' e'' : Engine} (h : e.KeepsPend e') (h' : e'.KeepsPend e'') : e.KeepsPend e'' :=
  ⟨h'.1.trans h.1, h'.2.trans h.2⟩

theorem Engine.KeepsPend.ite {e e' e'' : Engine} {p : Prop} [Decidable p] (h : e.KeepsPend e') (h' : e.KeepsPend e'') :
    e.KeepsPend (if p then e' else e'') := by
  split
  · exact h
  · exact h'

theorem Engine.KeepsPend.thenFoldl {α : Type} {f : Engine → α → Engine} {e e' : Engine} (h : e.KeepsPend e') (l : List α)
    (hf : ∀ (x : Engine) (a : α), x.KeepsPend (f x a)) : e.KeepsPend (l.foldl f e') := by
  induction l generalizing e' with
  | nil => exact h
  | cons a l ih => exact ih (h.trans (hf e' a))

/-- Registers past the global block are written freely. -/
theorem Engine.KeepsPend.thenWr {e e' : Engine} (h : e.KeepsPend e') {off : Nat} (v : Nat) (hoff : 0x1000 ≤ off) :
    e.KeepsPend (e'.wr off v) :=
  h.trans ⟨rfl, Engine.rd_wr_other _ _ (by simp only [Reg.GLB_PEND]; omega)⟩

theorem Engine.KeepsPend.thenPut {e e' : Engine} (h : e.KeepsPend e') {f : Fld} (v : Nat) (hoff : 0x1000 ≤ f.off) :
    e.KeepsPend (e'.put f v) := h.thenWr _ hoff

theorem Engine.LeavesDoms.keepsPend {e e' : Engine} (h : e.LeavesDoms e') : e.KeepsPend e' := ⟨h.2.2.2, h.rd (by decide)⟩

/-! ### The expansions -/

theorem Engine.setReq_keepsPend (e : Engine) (d : Nat) (on : Bool) : e.KeepsPend (e.setReq d on) := .thenWr (.refl e) _ (by decide)

theorem Engine.startDrain_keepsPend (e : Engine) (d : Nat) (reset : Bool) : e.KeepsPend (e.startDrain d reset) :=
  .trans (e' := e.setDom d fun x => { x with st := .draining, since := e.cyc, gatePend := false, resetPend := reset }) ⟨rfl, rfl⟩
    (e.startDrain_leavesDoms d reset).keepsPend

theorem Engine.domainOn_keepsPend (e : Engine) (d : Nat) : e.KeepsPend (e.domainOn d) := by
  have hon : e.KeepsPend (e.setDom d fun x => { x with st := .on, gatePend := false, resetPend := false }) := ⟨rfl, rfl⟩
  unfold Engine.domainOn
  dsimp only
  have hports := Engine.LeavesDoms.trans (.ite (p := d < 8) (Engine.setRemap_leavesDoms _ false d d)
    (.ite (p := d < 12) (Engine.setRemap_leavesDoms _ true (d - 8) (d - 8)) (.refl (e.setDom d fun x =>
      { x with st := .on, gatePend := false, resetPend := false }))))
    (.trans (Engine.remapFor_leavesDoms _ d) (.ite (p := d = 18) (Engine.restartPorts_leavesDoms _) (.refl _)))
  exact .trans (hon.trans hports.keepsPend) (.ite (Engine.startDrain_keepsPend _ d false) (.refl _))

theorem Engine.gateDom_keepsPend (e : Engine) (d : Nat) : e.KeepsPend (e.gateDom d) := by
  unfold Engine.gateDom
  split
  · exact e.startDrain_keepsPend d false
  · exact ⟨rfl, rfl⟩
  · exact .ite ⟨rfl, rfl⟩ (.refl e)
  · exact .refl e

theorem Engine.wakeDom_keepsPend (e : Engine) (d : Nat) : e.KeepsPend (e.wakeDom d) := by
  refine .ite (e.setReq_keepsPend d false) ?_
  split
  · exact ⟨rfl, rfl⟩
  · exact .ite ⟨rfl, rfl⟩ (e.domainOn_keepsPend d)
  · exact ⟨rfl, rfl⟩
  · exact .refl e

theorem Engine.domReq_keepsPend (e : Engine) (v : Nat) : e.KeepsPend (e.domReq v) := by
  unfold Engine.domReq Engine.evtIf
  dsimp only
  refine .thenFoldl (.thenWr (.ite ?_ (.refl e)) _ (by decide)) _ fun x d =>
    .ite (.refl x) (.ite (x.wakeDom_keepsPend d) (x.gateDom_keepsPend d))
  exact .thenPut (.refl e) 1 (by decide)

theorem Engine.setSuspect_keepsPend (e : Engine) (b : Bool) : e.KeepsPend (e.setSuspect b) := by
  refine .ite (.refl e) (.ite (.thenWr (.thenPut (.thenPut (.refl e) _ ?_) _ ?_) _ ?_) (.thenPut (.thenPut (.refl e) _ ?_) _ ?_))
  all_goals decide

theorem Engine.suspectCheck_keepsPend (e : Engine) (was : Bool) : e.KeepsPend (e.suspectCheck was) := by
  unfold Engine.suspectCheck
  dsimp only
  refine .trans (.ite (.thenPut (e' := e.setFlg _) ⟨rfl, rfl⟩ _ (by decide)) (.ite (e' := e.setFlg _) ⟨rfl, rfl⟩ (.refl e)))
    (.ite (Engine.setSuspect_keepsPend _ _) (.ite (Engine.setSuspect_keepsPend _ _) (.refl _)))

theorem Engine.portCfg_keepsPend (e : Engine) (p v : Nat) : e.KeepsPend (e.portCfg p v) := by
  have hcfg : 0x1000 ≤ Reg.FLG_PORT_CFG p := by simp only [Reg.FLG_PORT_CFG]; omega
  exact .trans (.ite (.thenWr (.refl e) _ hcfg) (.trans (.thenWr (.refl e) _ hcfg) (Engine.dropLink_leavesDoms _ _ _).keepsPend))
    (Engine.suspectCheck_keepsPend _ _)

theorem Engine.setTraceCfg_keepsPend (e : Engine) (v : Nat) : e.KeepsPend (e.setTraceCfg v) :=
  have hcfg : e.KeepsPend (e.wr Reg.GLN_TRACE_CFG v) := .thenWr (.refl e) v (by decide)
  .ite hcfg hcfg

/-! ### Selecting -/

/-- A selection does what its expansion does to the rest, and shows its value and the pending block. -/
theorem profileWrite_reads {e : Engine} {blk v : Nat} {f : Fld} {g : Engine → Engine} (hpend : e.rd Reg.GLB_PEND = 0)
    (hb : blk < 64) (hv : v < 2 ^ (f.hi + 1 - f.lo)) (hf : f.hi < 64 ∧ f.lo ≤ f.hi ∧ 0x1000 ≤ f.off) (hg : e.KeepsPend (g e)) :
    (profileWrite blk f v (some g) e).get f = v ∧ (profileWrite blk f v (some g) e).rd Reg.GLB_PEND = 2 ^ blk ∧
      (profileWrite blk f v (some g) e).time = e.time := by
  have hfoff : f.off ≠ Reg.GLB_PEND := by simp only [Reg.GLB_PEND]; omega
  have hidle : e.pends blk = false := by simp [Engine.pends, hpend, bitOf]
  rw [profileWrite_idle hidle, Engine.rd_put_other _ _ _ hfoff.symm, hg.2, hpend, Nat.zero_or]
  refine ⟨?_, ?_, hg.1⟩
  · rw [Engine.get_wr_other _ _ _ hfoff, Engine.get_put_same _ _ _ hf.1 hf.2.1, Nat.mod_eq_of_lt hv]
  · rw [Engine.rd_wr_same, Nat.mod_eq_of_lt (Nat.pow_lt_pow_right (by decide) hb)]

/-- While an expansion of the block pends, a selection is ignored and counted. -/
theorem profileWrite_pending {e : Engine} {blk v : Nat} {f : Fld} {x : Option (Engine → Engine)}
    (hpend : bitOf (e.rd Reg.GLB_PEND) blk = true) :
    profileWrite blk f v x e = (e.evt Fld.GLB_EVT_PEND_WRITE).count (Reg.GLB_CNT 1) := by
  simp [profileWrite, pendWrite, Engine.pends, hpend]

/-- A value that names no profile is ignored whole. -/
theorem profileWrite_unnamed {e : Engine} {blk v : Nat} {f : Fld} (hpend : e.rd Reg.GLB_PEND = 0) : profileWrite blk f v none e = e := by
  simp [profileWrite, pendWrite, Engine.pends, hpend, bitOf]

/-- The expansion of each profile row: what `exec` hands to `profileWrite`. -/
def expansionOf : Instr → Nat → Option (Engine → Engine)
  | .clkDomProfileSelect _, v => domExpand v
  | .thrProfileSelect _, v => thrExpand v
  | .cscErvProfileSelect _, v => if v ≤ 1 then some fun e => e.put Fld.CSC_ERV_CFG_MODE v else none
  | .shfProfileSelect _, v => shfExpand v
  | .orcProfileSelect _, v => orcExpand v
  | .milProfileSelect _, v => milExpand v
  | .numProfileSelect _, v => numExpand v
  | .rilProfileSelect _, v => rilExpand v
  | .garProfileSelect _, v => garExpand v
  | .slcHprofileSelect _, v => slcHostExpand v
  | .gftProfileSelect _, v => gftExpand v
  | .flgProfileSelect _, v =>
    if v ≤ 2 then some fun e => (List.range 8).foldl (fun e p => e.portCfg p (flgProfileCfg v p)) e else none
  | .glnProfileSelect _, v => glnExpand v
  | .kolProfileSelect _, v => kolProfileExpand v
  | .errProfileSelect _, v => errExpand v
  | _, _ => none

/-- A profile row writes its profile. -/
theorem exec_profile {c : Instr} {v b n : Nat} {f : Fld} (h : profileOf c = some (v, f, b, n)) (s : State) :
    exec c s = hostStep s (profileWrite b f v (expansionOf c v)) := by
  cases c <;> simp only [profileOf, reduceCtorEq, Option.some.injEq, Prod.mk.injEq] at h <;> obtain ⟨rfl, rfl, rfl, rfl⟩ := h <;> rfl

/-- A value below the row's bound names a profile, and no other does. -/
theorem expansionOf_isSome {c : Instr} {v b n : Nat} {f : Fld} (h : profileOf c = some (v, f, b, n)) :
    (expansionOf c v).isSome = decide (v < n) := by
  have hlist : ∀ {α β : Type} (l : List α) (g : α → β), ((l[v]?).map g).isSome = decide (v < l.length) := fun l g => by
    rw [Option.isSome_map, Bool.eq_iff_iff, isSome_getElem?]; simp
  cases c <;> simp only [profileOf, reduceCtorEq, Option.some.injEq, Prod.mk.injEq] at h <;> obtain ⟨rfl, rfl, rfl, rfl⟩ := h
  case clkDomProfileSelect | thrProfileSelect | shfProfileSelect | orcProfileSelect | milProfileSelect | numProfileSelect |
      rilProfileSelect | gftProfileSelect => exact hlist _ _
  case cscErvProfileSelect v | flgProfileSelect v =>
    simp only [expansionOf, apply_ite Option.isSome]
    split <;> simp <;> omega
  case kolProfileSelect v =>
    rw [expansionOf, kolProfileExpand, Option.isSome_map]
    rcases v with _ | _ | _ | v <;> simp [kolProfile]
  case garProfileSelect v | slcHprofileSelect v | glnProfileSelect v | errProfileSelect v =>
    rcases v with _ | _ | _ | _ | v <;> simp [expansionOf, garExpand, slcHostExpand, glnExpand, errExpand]

/-- The fields and blocks of the profile rows: each readback holds its row's values, past the global block. -/
theorem profileOf_field {c : Instr} {v b n : Nat} {f : Fld} (h : profileOf c = some (v, f, b, n)) :
    b < 64 ∧ n ≤ 2 ^ (f.hi + 1 - f.lo) ∧ f.hi < 64 ∧ f.lo ≤ f.hi ∧ 0x1000 ≤ f.off := by
  cases c <;> simp only [profileOf, reduceCtorEq, Option.some.injEq, Prod.mk.injEq] at h <;> obtain ⟨rfl, rfl, rfl, rfl⟩ := h <;> decide

theorem garExpand_keepsPend {v : Nat} {g : Engine → Engine} (h : garExpand v = some g) (e : Engine) : e.KeepsPend (g e) := by
  have hmk : ∀ act full depth snap slot : Nat, e.KeepsPend ((List.range 8).foldl
      (fun x q => (x.put (Fld.GAR_SPQ_SLOT_LOG2 q) slot).put (Fld.GAR_SPQ_DATA_BASE q) (e.get Fld.GAR_BASIC_DATA_BASE))
      ((((e.put Fld.GAR_SP_ACT_ACT act).put Fld.GAR_SP_CFG_FULL_ACT full).put Fld.GAR_SP_CFG_QDEPTH depth).put Fld.GAR_SP_CFG_SNAPLEN
        snap)) := fun act full depth snap slot => by
    refine .thenFoldl (.thenPut (.thenPut (.thenPut (.thenPut (.refl e) _ ?_) _ ?_) _ ?_) _ ?_) _ fun x q =>
      .thenPut (.thenPut (.refl x) _ ?_) _ ?_
    case refine_5 | refine_6 => simp only [Fld.GAR_SPQ_SLOT_LOG2, Fld.GAR_SPQ_DATA_BASE, Reg.GAR_SPQ]; omega
    all_goals decide
  rcases v with _ | _ | _ | v <;> simp only [garExpand, Option.some.injEq, reduceCtorEq] at h <;> subst h <;> exact hmk _ _ _ _ _

theorem slcHostExpand_keepsPend {v : Nat} {g : Engine → Engine} (h : slcHostExpand v = some g) (e : Engine) : e.KeepsPend (g e) := by
  have hmk : ∀ n : Nat, e.KeepsPend ((List.range 256).foldl
      (fun x h => ((x.put (Fld.SLC_HBQ_CFG_WEIGHT h) 1024).put (Fld.SLC_HBQ_LIMIT_HLIMIT h) 4096).put (Fld.SLC_HBQ_CFG_SAMP_EN h) 0)
      ((e.put Fld.SLC_VSEL_BASE 0).put Fld.SLC_VSEL_COUNT n)) := fun n => by
    refine .thenFoldl (.thenPut (.thenPut (.refl e) _ ?_) _ ?_) _ fun x q => .thenPut (.thenPut (.thenPut (.refl x) _ ?_) _ ?_) _ ?_
    case refine_3 | refine_4 | refine_5 =>
      simp only [Fld.SLC_HBQ_CFG_WEIGHT, Fld.SLC_HBQ_LIMIT_HLIMIT, Fld.SLC_HBQ_CFG_SAMP_EN, Reg.SLC_HBQ_CFG, Reg.SLC_HBQ_LIMIT]; omega
    all_goals decide
  rcases v with _ | _ | v <;> simp only [slcHostExpand, Option.some.injEq, reduceCtorEq] at h <;> subst h <;> exact hmk _

theorem numExpand_keepsPend {v : Nat} {g : Engine → Engine} (h : numExpand v = some g) (e : Engine) : e.KeepsPend (g e) := by
  obtain ⟨x, -, rfl⟩ := Option.map_eq_some_iff.1 h
  refine .thenFoldl (.thenPut (.refl e) _ (by decide)) _ fun y t => .thenWr (.thenWr (.thenPut (.thenPut (.refl y) _ ?_) _ ?_) _ ?_) _ ?_
  all_goals simp only [Fld.NUM_TCTRL_TRACK, Fld.NUM_TCTRL_ADAPT, Reg.NUM_TCTRL, Reg.NUM_TMSE_THR, Reg.NUM_TCLIP_THR]; omega

theorem orcExpand_keepsPend {v : Nat} {g : Engine → Engine} (h : orcExpand v = some g) (e : Engine) : e.KeepsPend (g e) := by
  obtain ⟨x, -, rfl⟩ := Option.map_eq_some_iff.1 h
  exact .thenFoldl (.thenPut (.refl e) _ (by decide)) _ fun y c => .thenWr (.refl y) _ (by simp only [Reg.ORC_POLICY]; omega)

/-- No expansion of these rows changes lattice time or what pends. -/
theorem expansionOf_keepsPend {c : Instr} {v : Nat} {g : Engine → Engine} (h : expansionOf c v = some g) (e : Engine) :
    e.KeepsPend (g e) := by
  cases c <;> simp only [expansionOf, reduceCtorEq] at h
  case garProfileSelect => exact garExpand_keepsPend h e
  case slcHprofileSelect => exact slcHostExpand_keepsPend h e
  case numProfileSelect => exact numExpand_keepsPend h e
  case orcProfileSelect => exact orcExpand_keepsPend h e
  case clkDomProfileSelect =>
    obtain ⟨x, -, rfl⟩ := Option.map_eq_some_iff.1 h
    exact e.domReq_keepsPend x
  case thrProfileSelect | milProfileSelect | rilProfileSelect | gftProfileSelect =>
    obtain ⟨x, -, rfl⟩ := Option.map_eq_some_iff.1 h
    exact .thenWr (.refl e) _ (by decide)
  case shfProfileSelect =>
    obtain ⟨x, -, rfl⟩ := Option.map_eq_some_iff.1 h
    exact .thenPut (.thenPut (.thenPut (.thenPut (.refl e) _ (by decide)) _ (by decide)) _ (by decide)) _ (by decide)
  case kolProfileSelect =>
    obtain ⟨x, -, rfl⟩ := Option.map_eq_some_iff.1 h
    have hctrl : e.KeepsPend (e.wr Reg.KOL_CTRL x) := .thenWr (.refl e) _ (by decide)
    exact .ite hctrl hctrl
  case cscErvProfileSelect =>
    obtain ⟨-, hg⟩ := Option.ite_none_right_eq_some.1 h
    obtain rfl := Option.some.inj hg
    exact .thenPut (.refl e) _ (by decide)
  case flgProfileSelect =>
    obtain ⟨-, hg⟩ := Option.ite_none_right_eq_some.1 h
    obtain rfl := Option.some.inj hg
    exact .thenFoldl (.refl e) _ fun x p => x.portCfg_keepsPend p _
  case glnProfileSelect =>
    rcases v with _ | _ | _ | _ | v <;> simp only [glnExpand, Option.some.injEq, reduceCtorEq] at h <;> subst h <;>
      exact e.setTraceCfg_keepsPend _
  case errProfileSelect =>
    rcases v with _ | _ | _ | v <;> simp only [errExpand, Option.some.injEq, reduceCtorEq] at h <;> subst h <;>
      exact .thenWr (.thenWr (.refl e) _ (by decide)) _ (by decide)

/-- Settles O15: every row is one `profileWrite`, and its expansion leaves lattice time and what pends. -/
theorem profilesReadBack : Obligations.ProfilesReadBack := by
  unfold Obligations.ProfilesReadBack
  refine ⟨?named, ?unnamed, ?pending, ?done⟩
  case named =>
    intro s c v f b n hup hp hpend hc hv
    obtain ⟨hb, hn, hf⟩ := profileOf_field hc
    obtain ⟨g, hg⟩ := Option.isSome_iff_exists.1 ((expansionOf_isSome hc).trans (decide_eq_true hv))
    obtain ⟨hget, hshown, htime⟩ := profileWrite_reads hpend hb (hv.trans_le hn) hf (expansionOf_keepsPend hg s.eng)
    refine .host (exec_profile hc s) hup hp ?_
    rw [State.onEng, hg]
    exact ⟨hget, hshown, htime, rfl, rfl⟩
  case unnamed =>
    intro s c v f b n hup hp hpend hc hv
    have hnone : expansionOf c v = none := by
      rw [← Option.not_isSome_iff_eq_none, expansionOf_isSome hc]; simp [hv]
    refine (exec_profile hc s).trans ((hostStep_up hup hp).trans ?_)
    rw [State.onEng, hnone, profileWrite_unnamed hpend]
  case pending =>
    exact fun s c v f b n hup hp hc hpend => (Does.host (exec_profile hc s) hup hp).congr (profileWrite_pending hpend)
  case done =>
    intro s b hup hb
    have hblk : ¬ (b = 0 ∨ b = 2 ∨ 19 < b) ∧ b < 64 := by revert b; decide
    refine .engine rfl hup ?_
    rw [State.onEng, if_neg hblk.1]
    refine ⟨?_, fun off hoff => Engine.rd_wr_other _ _ hoff⟩
    rw [Engine.rd_wr_same, Nat.mod_eq_of_lt (withBits_lt _ _ _ _ 64 (s.eng.rd_lt _) hblk.2 le_rfl), bitOf_withBits_same]
    rfl

end Sys2Proof.Machine

/-!
PROOFS. What the profiles write, and the rows with conditions of their own (O16).
-/
namespace Sys2Proof.Machine

/-! ### Reading through a selection -/

/-- A register beside the readback and GLB_PEND shows what the expansion wrote. -/
theorem profileWrite_rd {e : Engine} {blk v off : Nat} {f : Fld} {g : Engine → Engine} (hpend : e.rd Reg.GLB_PEND = 0)
    (hf : off ≠ f.off) (hoff : off ≠ Reg.GLB_PEND) : (profileWrite blk f v (some g) e).rd off = (g e).rd off := by
  rw [profileWrite_idle (by simp [Engine.pends, hpend, bitOf]), Engine.rd_wr_other _ _ hoff, Engine.rd_put_other _ _ _ hf]

theorem profileWrite_get {e : Engine} {blk v : Nat} {f h : Fld} {g : Engine → Engine} (hpend : e.rd Reg.GLB_PEND = 0)
    (hf : h.off ≠ f.off) (hoff : h.off ≠ Reg.GLB_PEND) : (profileWrite blk f v (some g) e).get h = (g e).get h := by
  rw [Engine.get, profileWrite_rd hpend hf hoff, Engine.get]

/-- What one step of a fold over a range establishes and the others keep holds at the end. -/
theorem foldl_range_at {α : Type} {f : α → Nat → α} {P : α → Prop} {n p : Nat} (hp : p < n) (hset : ∀ x, P (f x p))
    (hkeep : ∀ x i, i ≠ p → P x → P (f x i)) (x : α) : P ((List.range n).foldl f x) := by
  induction n with
  | zero => omega
  | succ n ih =>
    rw [List.range_succ, List.foldl_concat]
    obtain rfl | hne := eq_or_ne n p
    · exact hset _
    · exact hkeep _ _ hne (ih (by omega))

/-- A selection writes registers alone beside its expansion. -/
theorem profileWrite_tab {e : Engine} {blk v : Nat} {f : Fld} {g : Engine → Engine} (hpend : e.rd Reg.GLB_PEND = 0) :
    (profileWrite blk f v (some g) e).tab = (g e).tab := by
  rw [profileWrite_idle (by simp [Engine.pends, hpend, bitOf]), Engine.wr_tab, Engine.put_tab]

/-! ### The switch of table generations -/

theorem Engine.switchTables_keepsPend (e : Engine) (t : Nat) : e.KeepsPend (e.switchTables t) := by
  unfold Engine.switchTables
  refine .thenPut (.thenPut (.thenWr (.thenWr (.thenWr (.thenWr (e' := { e with tab := _ }) ⟨rfl, rfl⟩ _ ?_) _ ?_) _ ?_) _ ?_) _ ?_) _ ?_
  all_goals decide

theorem Engine.switchTables_genState (e : Engine) (t : Nat) : (e.switchTables t).genState = 1 := by
  unfold Engine.switchTables Engine.genState
  dsimp only
  rw [Engine.get_put_other _ _ _ _ (by decide), Engine.get_evt_other _ _ _ (by decide), Engine.get_wr_other _ _ _ (by decide),
    Engine.get_wr_other _ _ _ (by decide)]
  exact (Engine.get_wr_same _ Fld.WNW_GEN_STAT_STATE 1).trans (by decide)

theorem Engine.switchTables_switchTime (e : Engine) (t : Nat) : (e.switchTables t).rd Reg.WNW_SWITCH_TIME = t % 2 ^ 64 := by
  unfold Engine.switchTables
  dsimp only
  rw [Engine.rd_put_other _ _ _ (by decide), Engine.rd_evt_other _ _ (by decide), Engine.rd_wr_other _ _ (by decide), Engine.rd_wr_same]

/-- What a cascade profile does: it writes the shadow generation and switches to it (R280). -/
def cscExpand (v : Nat) (e : Engine) : Engine :=
  Engine.switchTables { e with tab := { e.tab with
    shadow := profileBank v (e.get Fld.CSC_BASIC_ENSEMBLE) (e.get Fld.CSC_BASIC_MILLCMD) (e.get Fld.CSC_BASIC_JOIN_BUDGET)
      (e.get Fld.CSC_BASIC2_DEFAULT_CLASS) (e.get Fld.CSC_BASIC2_DEFAULT_QUEUE), fromProfile := some v } } e.time

theorem cscProfile_ready {e : Engine} {v : Nat} (hv : v = 1 ∨ v = 2) (hready : e.genState = 0) (hcmds : e.hif.cmds = []) :
    cscProfile v e = profileWrite 6 Fld.CSC_PROFILE_PROFILE v (some (cscExpand v)) e := by
  rw [cscProfile, if_neg (by omega), if_neg (by simp [hready, hcmds])]
  rfl

theorem cscExpand_keepsPend (v : Nat) (e : Engine) : e.KeepsPend (cscExpand v e) :=
  .trans (e' := { e with tab := _ }) ⟨rfl, rfl⟩ (Engine.switchTables_keepsPend _ _)

/-! ### Single registers -/

section Tables
variable {s : State} {v : Nat} (hup : s.engineUp = true) (hp : s.pcieUp = true) (hpend : s.eng.rd Reg.GLB_PEND = 0)
include hup hp hpend

/-- A profile that is one register's value. -/
theorem runs_profile_register {c : Instr} {b n off w : Nat} {f : Fld} (hc : profileOf c = some (v, f, b, n))
    (hg : expansionOf c v = some fun e => e.wr off w) (hoff : 0x1000 ≤ off ∧ off ≠ f.off) (hw : w < 2 ^ 64) :
    Runs c s fun t => t.eng.rd off = w := by
  refine .host (exec_profile hc s) hup hp ?_
  rw [State.onEng, hg, profileWrite_rd hpend hoff.2 (by simp only [Reg.GLB_PEND]; omega), Engine.rd_wr_same, Nat.mod_eq_of_lt hw]

/-- ERR's expansion keeps RING (Table ERR-7). -/
theorem errProfile_runs (hv : v < 3) : Runs (.errProfileSelect v) s fun t => t.eng.rd Reg.ERR_SCRUB = [24, 24, 4].getD v 0 ∧
    t.eng.get Fld.ERR_CFG_RING = s.eng.get Fld.ERR_CFG_RING ∧ t.eng.get Fld.ERR_CFG_VREC = [1, 0, 1].getD v 0 := by
  obtain ⟨ce, h, vrec, hg, hce, hh, hvrec, hscrub, hrec⟩ : ∃ ce h vrec, errExpand v = some (fun e =>
      (e.wr Reg.ERR_CFG (ce + 4 + 8 * vrec + 16 + 2 ^ 16 * e.get Fld.ERR_CFG_RING)).wr Reg.ERR_SCRUB h) ∧ ce < 4 ∧ h < 256 ∧ vrec < 2 ∧
      [24, 24, 4].getD v 0 = h ∧ [1, 0, 1].getD v 0 = vrec := by
    interval_cases v
    · exact ⟨1, 24, 1, rfl, by decide⟩
    · exact ⟨0, 24, 0, rfl, by decide⟩
    · exact ⟨2, 4, 1, rfl, by decide⟩
  have hring : s.eng.get Fld.ERR_CFG_RING < 4096 := bitsOf_lt _ _ _
  refine .host (exec_profile (c := .errProfileSelect v) rfl s) hup hp ?_
  simp only [State.onEng, expansionOf]
  rw [hg, profileWrite_rd hpend (by decide) (by decide), profileWrite_get hpend (by decide) (by decide),
    profileWrite_get hpend (by decide) (by decide), hscrub, hrec, Engine.rd_wr_same]
  have hcfg : ∀ (e : Engine) (x : Nat) (f : Fld), f.off = Reg.ERR_CFG →
      ((e.wr Reg.ERR_CFG x).wr Reg.ERR_SCRUB h).get f = bitsOf (x % 2 ^ 64) f.hi f.lo := fun e x f hf => by
    rw [Engine.get_wr_other _ _ _ (by rw [hf]; decide), ← hf, Engine.get_wr_same]
  refine ⟨by omega, (hcfg _ _ _ rfl).trans ?_, (hcfg _ _ _ rfl).trans ?_⟩
  all_goals
    generalize s.eng.get Fld.ERR_CFG_RING = r at *
    simp only [bitsOf_eq, Fld.ERR_CFG_RING, Fld.ERR_CFG_VREC]
    omega

theorem shfProfile_runs (hv : v < 3) : Runs (.shfProfileSelect v) s fun t =>
    t.eng.get Fld.SHF_CFG_AGE_MS = [60000, 10000, 0].getD v 0 ∧ t.eng.get Fld.SHF_LIMIT_MIG_MAX = [256, 512, 256].getD v 0 := by
  obtain ⟨age, hist, mig, us, hg, hage, hmig, hage', hmig'⟩ : ∃ age hist mig us, shfExpand v = some (fun e =>
      (((e.put Fld.SHF_CFG_AGE_MS age).put Fld.SHF_LIMIT_HIST_MAX hist).put Fld.SHF_LIMIT_MIG_MAX mig).put Fld.SHF_REMOTE_TIMEOUT_US us) ∧
      age < 2 ^ 24 ∧ mig < 2 ^ 10 ∧ [60000, 10000, 0].getD v 0 = age ∧ [256, 512, 256].getD v 0 = mig := by
    interval_cases v
    · exact ⟨60000, 4096, 256, 100, rfl, by decide⟩
    · exact ⟨10000, 1024, 512, 100, rfl, by decide⟩
    · exact ⟨0, 4096, 256, 1000, rfl, by decide⟩
  refine .host (exec_profile (c := .shfProfileSelect v) rfl s) hup hp ?_
  simp only [State.onEng, expansionOf]
  rw [hg, profileWrite_get hpend (by decide) (by decide), profileWrite_get hpend (by decide) (by decide), hage', hmig']
  constructor
  · rw [Engine.get_put_other _ _ _ _ (by decide), Engine.get_put_other _ _ _ _ (by decide), Engine.get_put_other _ _ _ _ (by decide),
      Engine.get_put_same _ _ _ (by decide) (by decide)]
    exact Nat.mod_eq_of_lt hage
  · rw [Engine.get_put_other _ _ _ _ (by decide), Engine.get_put_same _ _ _ (by decide) (by decide)]
    exact Nat.mod_eq_of_lt hmig

/-- The intake's profile sets every port's MODE and PAIR (Table ITK-3). -/
theorem itkProfile_runs (hv : v < 4) (hdown : ∀ p < 32, s.eng.is (Fld.ITK_PORT_CTRL_UP p) = false) :
    Runs (.itkProfileSelect v) s fun t => t.eng.get Fld.ITK_PROFILE_PROFILE = v ∧
      ∀ p < 32, t.eng.get (Fld.ITK_PORT_CFG_MODE p) = [0, 1, 0, 2].getD v 0 ∧ t.eng.get (Fld.ITK_PORT_CFG_PAIR p) = p ^^^ 4 := by
  obtain ⟨brk, mode, hg, hmode⟩ : ∃ brk mode, itkExpand v = some (fun e =>
      (List.range 32).foldl (fun e p => e.wr (Reg.ITK_PORT_CFG p) (mode + 4 * (p ^^^ 4) + 2 ^ 10 * 9600))
        ((List.range 8).foldl (fun e c => (e.wr (Reg.ITK_CAGE_CFG c) brk).showBreakout c) e)) ∧
      mode < 3 ∧ [0, 1, 0, 2].getD v 0 = mode := by
    interval_cases v
    · exact ⟨0, 0, rfl, by decide⟩
    · exact ⟨0, 1, rfl, by decide⟩
    · exact ⟨2, 0, rfl, by decide⟩
    · exact ⟨0, 2, rfl, by decide⟩
  have hnone : ((List.range 32).any fun p => s.eng.is (Fld.ITK_PORT_CTRL_UP p)) = false :=
    List.any_eq_false.2 fun p hp => by simp [hdown p (List.mem_range.1 hp)]
  refine .host rfl hup hp ?_
  rw [State.onEng, itkProfileSelect, hnone, Bool.and_false, if_neg Bool.false_ne_true, hg]
  refine ⟨?_, fun p hp32 => ?_⟩
  · rw [profileWrite_idle (by simp [Engine.pends, hpend, bitOf]), Engine.get_wr_other _ _ _ (by decide),
      Engine.get_put_same _ _ _ (by decide) (by decide)]
    exact Nat.mod_eq_of_lt (show v < 2 ^ 3 by omega)
  · have hcfg : Reg.ITK_PORT_CFG p ≠ Fld.ITK_PROFILE_PROFILE.off ∧ Reg.ITK_PORT_CFG p ≠ Reg.GLB_PEND := by
      simp only [Reg.ITK_PORT_CFG, Fld.ITK_PROFILE_PROFILE, Reg.ITK_PROFILE, Reg.GLB_PEND]; omega
    have hval : ∀ p < 32, ∀ mode < 3, bitsOf ((mode + 4 * (p ^^^ 4) + 2 ^ 10 * 9600) % 2 ^ 64) 1 0 = mode ∧
      bitsOf ((mode + 4 * (p ^^^ 4) + 2 ^ 10 * 9600) % 2 ^ 64) 6 2 = p ^^^ 4 := by decide
    rw [profileWrite_get hpend hcfg.1 hcfg.2, profileWrite_get hpend hcfg.1 hcfg.2, hmode.2]
    refine foldl_range_at (P := fun e : Engine => e.get (Fld.ITK_PORT_CFG_MODE p) = mode ∧ e.get (Fld.ITK_PORT_CFG_PAIR p) = p ^^^ 4)
      hp32 (fun x => ?_) (fun x i hne hx => ?_) _
    · obtain ⟨hm, hpair⟩ := hval p hp32 mode hmode.1
      exact ⟨(Engine.get_wr_same _ (Fld.ITK_PORT_CFG_MODE p) _).trans hm, (Engine.get_wr_same _ (Fld.ITK_PORT_CFG_PAIR p) _).trans hpair⟩
    · have hreg : Reg.ITK_PORT_CFG p ≠ Reg.ITK_PORT_CFG i := by simp only [Reg.ITK_PORT_CFG]; omega
      exact ⟨(Engine.get_wr_other _ _ _ hreg).trans hx.1, (Engine.get_wr_other _ _ _ hreg).trans hx.2⟩

/-- The cascade's profile writes the shadow generation and switches to it at once (R280). -/
theorem cscProfile_runs (hv : v = 1 ∨ v = 2) (hready : s.eng.genState = 0) (hcmds : s.eng.hif.cmds = []) :
    Runs (.cscProfileSelect v) s fun t => t.eng.get Fld.CSC_PROFILE_PROFILE = v ∧ t.eng.rd Reg.GLB_PEND = 2 ^ 6 ∧
      t.eng.genState = 1 ∧ t.eng.tab.shadow = s.eng.tab.live ∧ t.eng.rd Reg.WNW_SWITCH_TIME = s.eng.time % 2 ^ 64 ∧
      t.eng.tab.retGen = s.eng.rd Reg.WNW_GEN := by
  refine .host rfl hup hp ?_
  rw [State.onEng, cscProfile_ready hv hready hcmds]
  obtain ⟨hget, hshown, -⟩ := profileWrite_reads (blk := 6) (f := Fld.CSC_PROFILE_PROFILE) hpend (by decide)
    (show v < 2 ^ 3 by omega) (by decide) (cscExpand_keepsPend v s.eng)
  refine ⟨hget, hshown, ?_, ?_, ?_, ?_⟩
  · rw [Engine.genState, profileWrite_get hpend (by decide) (by decide)]
    exact Engine.switchTables_genState _ _
  · rw [profileWrite_tab hpend]; rfl
  · rw [profileWrite_rd hpend (by decide) (by decide)]
    exact Engine.switchTables_switchTime _ _
  · rw [profileWrite_tab hpend]; rfl

end Tables

/-! ### A port's profile -/

theorem Engine.setShape_keepsPend (e : Engine) (t on_ : Nat) : e.KeepsPend (e.setShape t on_) := by
  have hput : e.KeepsPend (e.put (Fld.SLC_TXQ_CFG_SHAPE_EN t) on_) :=
    .thenPut (.refl e) _ (by simp only [Fld.SLC_TXQ_CFG_SHAPE_EN, Reg.SLC_TXQ_CFG]; omega)
  exact .ite hput hput

theorem gclDisable_keepsPend (p : Nat) (e : Engine) : e.KeepsPend (gclDisable p e) := by
  have hctrl : 0x1000 ≤ Reg.SLC_GCL_CTRL p := by simp only [Reg.SLC_GCL_CTRL]; omega
  have hputs : e.KeepsPend ((e.put (Fld.SLC_GCL_CTRL_EN p) 0).put (Fld.SLC_GCL_CTRL_PEND p) 0) :=
    .thenPut (.thenPut (.refl e) _ hctrl) _ hctrl
  exact hputs.trans ⟨rfl, rfl⟩

theorem gclDisable_off (p : Nat) (e : Engine) : (gclDisable p e).is (Fld.SLC_GCL_CTRL_EN p) = false := by
  show ((e.put (Fld.SLC_GCL_CTRL_EN p) 0).put (Fld.SLC_GCL_CTRL_PEND p) 0).is (Fld.SLC_GCL_CTRL_EN p) = false
  rw [Engine.is_put_other _ _ _ _ (.inr (by simp [Fld.SLC_GCL_CTRL_EN, Fld.SLC_GCL_CTRL_PEND])),
    Engine.is_put_same _ _ _ ⟨(by decide : 0 < 64), rfl⟩]
  rfl

theorem slcPortExpand_keepsPend (p v : Nat) (hv : v ≠ 2) (e : Engine) : e.KeepsPend (slcPortExpand p v e) := by
  unfold slcPortExpand
  dsimp only
  rw [if_neg hv]
  refine .trans (.thenFoldl (.refl e) _ fun x t => .trans (.thenPut (.thenPut (.thenPut (.thenPut (.thenPut (.thenPut (.thenPut (.thenPut
    (.refl x) _ ?_) _ ?_) _ ?_) _ ?_) _ ?_) _ ?_) _ ?_) _ ?_) (Engine.setShape_keepsPend _ _ _)) (gclDisable_keepsPend p _)
  all_goals
    simp only [Fld.SLC_TXQ_CFG_WEIGHT, Fld.SLC_TXQ_CFG_DEI_MARK, Fld.SLC_TXQ_CFG_SAMP_EN, Fld.SLC_TXQ_LIMIT_CELLS, Fld.SLC_TXQ_YLIM_CELLS,
      Fld.SLC_TXQ_RLIM_CELLS, Fld.SLC_TXQ_RATE_RATE, Fld.SLC_TXQ_BURST_BURST, Reg.SLC_TXQ_CFG, Reg.SLC_TXQ_LIMIT, Reg.SLC_TXQ_YLIM,
      Reg.SLC_TXQ_RLIM, Reg.SLC_TXQ_RATE, Reg.SLC_TXQ_BURST]
    omega

/-! ### The host interface's profile -/

theorem Engine.ringsTouched_none {e : Engine} {n m : Nat} (hnm : n ≤ m) (h : e.ringsTouched m = []) : e.ringsTouched n = [] := by
  unfold Engine.ringsTouched at *
  rw [List.map_eq_nil_iff, List.filter_eq_nil_iff] at *
  intro r hr hn
  refine h r hr ?_
  simp only [Bool.and_eq_true, decide_eq_true_eq] at hn ⊢
  exact ⟨⟨hn.1.1, by omega⟩, hn.2⟩

theorem hifOff_keepsPend (e : Engine) : e.KeepsPend (hifOff e) :=
  .thenPut (.thenFoldl (.refl e) _ fun x q => .thenPut (.refl x) _ (by simp only [Fld.HIF_HBQ_MAP_EN, Reg.HIF_HBQ_MAP]; omega)) _ (by decide)

/-- PROFILE 0 takes every host-bound queue off its ring. -/
theorem hifOff_mapOff (e : Engine) {q : Nat} (hq : q < 256) : (hifOff e).is (Fld.HIF_HBQ_MAP_EN q) = false := by
  have htally : Reg.HIF_HBQ_MAP q ≠ Fld.HIF_TALLY_EN.off := by simp only [Reg.HIF_HBQ_MAP, Fld.HIF_TALLY_EN, Reg.HIF_TALLY]; omega
  rw [hifOff, Engine.is_put_other _ _ _ _ (.inl htally)]
  refine foldl_range_at (P := fun x : Engine => x.is (Fld.HIF_HBQ_MAP_EN q) = false) hq (fun x => ?_) (fun x i hne hx => ?_) _
  · rw [Engine.is_put_same _ _ _ ⟨(by decide : 31 < 64), rfl⟩]; rfl
  · rw [Engine.is_put_other _ _ _ _ (.inl (by simp only [Fld.HIF_HBQ_MAP_EN, Reg.HIF_HBQ_MAP]; omega)), hx]

theorem hifOff_tallyOff (e : Engine) : (hifOff e).is Fld.HIF_TALLY_EN = false := by
  rw [hifOff, Engine.is_put_same _ _ _ (by decide)]; rfl

theorem hifOff_hif (e : Engine) : (hifOff e).hif = e.hif := by
  unfold hifOff
  dsimp only
  rw [Engine.put_hif]
  exact List.foldlRecOn (motive := fun x : Engine => x.hif = e.hif) _ _ rfl fun x hx q _ => (Engine.put_hif x _ _).trans hx

/-- Settles O16: each row's expansion, read back register by register. -/
theorem profilesExpand : Obligations.ProfilesExpand := by
  unfold Obligations.ProfilesExpand
  refine ⟨?thr, ?registers, ?itk, ?itkUp, ?csc, ?cscBusy, ?port, ?portRate, ?part, ?hif, ?hifDone⟩
  case thr =>
    intro s v hup hp hpend hv
    exact runs_profile_register hup hp hpend (c := .thrProfileSelect v) rfl (by interval_cases v <;> rfl) (by decide)
      (by interval_cases v <;> decide)
  case registers =>
    refine fun s v hup hp hpend hv => ⟨?mil, ?ril, ?gft, errProfile_runs hup hp hpend hv, shfProfile_runs hup hp hpend hv⟩
    case mil =>
      exact runs_profile_register hup hp hpend (c := .milProfileSelect v) rfl (by interval_cases v <;> rfl) (by decide)
        (by interval_cases v <;> decide)
    case ril =>
      exact runs_profile_register hup hp hpend (c := .rilProfileSelect v) rfl (by interval_cases v <;> rfl) (by decide)
        (by interval_cases v <;> decide)
    case gft =>
      exact runs_profile_register hup hp hpend (c := .gftProfileSelect v) rfl (by interval_cases v <;> rfl) (by decide)
        (by interval_cases v <;> decide)
  case itk => exact fun s v hup hp hpend hv hdown => itkProfile_runs hup hp hpend hv hdown
  case itkUp =>
    intro s v p hup hp hpend hv hp32 hportUp
    have hany : ((List.range 32).any fun p => s.eng.is (Fld.ITK_PORT_CTRL_UP p)) = true :=
      List.any_eq_true.2 ⟨p, List.mem_range.2 hp32, hportUp⟩
    have hsome : (itkExpand v).isSome = true := by interval_cases v <;> rfl
    exact (Does.host rfl hup hp).congr (by simp [itkProfileSelect, hany, hsome, Engine.pends, hpend, bitOf])
  case csc => exact fun s v hup hp hpend hv hready hcmds => cscProfile_runs hup hp hpend hv hready hcmds
  case cscBusy =>
    intro s v hup hp hpend hv hbusy
    refine (Does.host (show exec _ s = hostStep s (cscProfile v) from rfl) hup hp).congr ?_
    rw [cscProfile, if_neg (by omega), if_pos (by simp [hpend, bitOf, hbusy])]
  case port =>
    intro s p hup hp hpend hp32 hpres
    have hoff : 0x1000 ≤ Reg.SLC_PPROFILE p := by simp only [Reg.SLC_PPROFILE]; omega
    obtain ⟨hget, hshown, -⟩ := profileWrite_reads (blk := 13) (f := Fld.SLC_PPROFILE_PROFILE p) hpend (by decide)
      (show 0 < 2 ^ 3 by decide) ⟨(by decide : 2 < 64), (by decide : 0 ≤ 2), hoff⟩ (slcPortExpand_keepsPend p 0 (by decide) s.eng)
    refine .host rfl hup hp ?_
    have hrow : slcPprofile p 0 s.eng = profileWrite 13 (Fld.SLC_PPROFILE_PROFILE p) 0 (some (slcPortExpand p 0)) s.eng := by
      simp [slcPprofile, hpres]
    have hctrl : Reg.SLC_GCL_CTRL p ≠ Reg.SLC_PPROFILE p ∧ Reg.SLC_GCL_CTRL p ≠ Reg.GLB_PEND := by
      simp only [Reg.SLC_GCL_CTRL, Reg.SLC_PPROFILE, Reg.GLB_PEND]; omega
    rw [State.onEng, hrow]
    refine ⟨hget, hshown, ?_⟩
    rw [Engine.is, profileWrite_get hpend hctrl.1 hctrl.2]
    exact gclDisable_off p _
  case portRate =>
    intro s p hup hp hpend hp32 hpres hrate
    exact (Does.host rfl hup hp).congr (by simp [slcPprofile, hpres, hrate, hpend, bitOf])
  case part =>
    intro s v hup hp hpend hv
    refine (Does.host (show exec _ s = hostStep s (partProfile v) from rfl) hup hp).congr ?_
    rw [partProfile, pendWrite, Engine.pends, hpend]
    interval_cases v <;> rfl
  case hif =>
    intro s v hup hp hpend hv hnone
    have hnamed : s.eng.ringsTouched (hifNamed v) = [] := Engine.ringsTouched_none (by unfold hifNamed; split <;> decide) hnone
    refine .host rfl hup hp ?_
    have hidle : bitOf (s.eng.rd Reg.GLB_PEND) 2 = false := by rw [hpend]; rfl
    simp only [State.onEng, hifWrite, hidle, Bool.false_eq_true, if_false, hv, if_true, hnamed, List.foldl_nil]
    refine ⟨?_, (Engine.rd_wr_same _ Reg.GLB_PEND _).trans (by rw [hpend]; rfl), trivial⟩
    refine (Engine.get_wr_other _ Fld.HIF_PROFILE_PROFILE _ (by decide)).trans ?_
    rw [Engine.get_put_same _ _ _ (by decide) (by decide)]
    exact Nat.mod_eq_of_lt (show v < 2 ^ 3 by omega)
  case hifDone =>
    intro s hup hpend hexp hoff
    have hall : ((s.eng.ringsTouched 16).all fun k => s.eng.ringState k == 0) = true :=
      List.all_eq_true.2 fun k hk => by simp [hoff k hk]
    have hoffPend : (hifOff { s.eng with hif := { s.eng.hif with expanding := none } }).rd Reg.GLB_PEND = 4 :=
      (hifOff_keepsPend _).2.trans hpend
    refine .engine rfl hup ?_
    simp only [State.onEng, hexp, show hifNamed 0 = 16 from rfl, hall, if_true]
    rw [Engine.rd_put_other _ _ _ (by decide), hoffPend]
    refine ⟨by simp [hifOff_hif], Engine.rd_wr_same _ _ _, ?_, fun q hq => ?_⟩
    · rw [Engine.is_wr_other _ _ _ (by decide), Engine.is_put_other _ _ _ _ (.inl (by decide)), hifOff_tallyOff]
    · have hmap : Reg.HIF_HBQ_MAP q ≠ Reg.GLB_PEND ∧ Reg.HIF_HBQ_MAP q ≠ Reg.HIF_PROFILE := by
        simp only [Reg.HIF_HBQ_MAP, Reg.GLB_PEND, Reg.HIF_PROFILE]; omega
      rw [Engine.is_wr_other _ _ _ hmap.1, Engine.is_put_other _ _ _ _ (.inl hmap.2), hifOff_mapOff _ hq]

end Sys2Proof.Machine

/-!
PROOFS. Steps are dispatched: the path limit and two frames of one identity (O22).
-/
namespace Sys2Proof.Machine

/-! ### A second frame of the same identity

The statement names the packet `s.eng.pkt id`, the first of its identity. PATH_LIMIT_END sets the flag PATH_LIMIT on every frame of that
identity that has no verdict record, and no premise says that there is one frame only. -/

/-- A frame on its path, all steps used, whose reception has not ended. -/
def spentPkt : Pkt := { id := 7, port := 0, ts := 0, maxlen := 9600, need := 0, handed := true, steps := 16 }

/-- The spent frame with its verdict record, and behind it another of the same identity with none. -/
def twinPkts : State := State.reset.onEng fun e => { e with pkts := [{ spentPkt with ver := some ⟨[], 0, none, false, false⟩ }, spentPkt] }

/-- The flags of every frame that a command leaves. -/
def outcomeFlags : Res → List Nat
  | .next t => t.eng.pkts.map (·.flags)
  | _ => []

theorem twinPkts_limit_flags : outcomeFlags (exec (.pathLimitEnd 7) twinPkts) = [0, 2 ^ flPATH_LIMIT] := by decide +kernel

/-- Refutes O22: with a verdict record written, its clause on the path limit leaves every frame's flags; the model sets PATH_LIMIT on
another frame of the same identity that has no record. -/
theorem not_stepsAreDispatched : ¬ Obligations.StepsAreDispatched := by
  intro h
  obtain ⟨-, -, -, -, -, -, hlimit, -⟩ := h
  have hflags := congrArg outcomeFlags (hlimit twinPkts 7 _ (by decide +kernel) rfl (by decide) (by decide) rfl (by decide) rfl)
  have hstated := hflags.symm.trans twinPkts_limit_flags
  revert hstated
  decide +kernel

end Sys2Proof.Machine

/-!
PROOFS. CLASSIFY and the rules of a bank (O23).
-/
namespace Sys2Proof.Machine

/-! ### Sparse tables in canonical form -/

section Sparse
variable {α : Type}

/-- In a table whose keys rise, a listed key is found with its own entry. -/
theorem Tbl.find_eq_some_iff {k : Nat} {v : α} : ∀ {b : Nat} {t : Tbl α}, Tbl.rising b t = true → (Tbl.find t k = some v ↔ (k, v) ∈ t)
  | _, [], _ => by simp [Tbl.find]
  | b, (j, w) :: t, h => by
    simp only [Tbl.rising, Bool.and_eq_true, decide_eq_true_eq] at h
    rw [Tbl.find, List.mem_cons, Prod.mk.injEq]
    by_cases hk : k = j
    · have hnot : ¬ (k, v) ∈ t := fun hmem => by
        have hfound := (Tbl.find_eq_some_iff h.2).2 hmem
        rw [hk, Tbl.find_below (Nat.lt_succ_self j) h.2] at hfound
        cases hfound
      simp [hk ▸ hnot, hk, eq_comm]
    · simp [hk, Tbl.find_eq_some_iff h.2]

theorem Tbl.rising_le {b : Nat} : ∀ {t : Tbl α}, Tbl.rising b t = true → ∀ x ∈ t, b ≤ x.1
  | [], _, x, hx => by simp at hx
  | (j, w) :: t, h, x, hx => by
    simp only [Tbl.rising, Bool.and_eq_true, decide_eq_true_eq] at h
    obtain rfl | hx := List.mem_cons.1 hx
    · exact h.1
    · have := Tbl.rising_le h.2 x hx
      omega

theorem Tbl.rising_pairwise : ∀ {b : Nat} {t : Tbl α}, Tbl.rising b t = true → t.Pairwise fun x y => x.1 < y.1
  | _, [], _ => .nil
  | b, (j, w) :: t, h => by
    simp only [Tbl.rising, Bool.and_eq_true, decide_eq_true_eq] at h
    exact .cons (fun x hx => Tbl.rising_le h.2 x hx) (Tbl.rising_pairwise h.2)

end Sparse

theorem Tbl.rising_of_wf {α : Type} [DecidableEq α] {d : Nat → α} {t : Tbl α} (h : Tbl.wf d t = true) : Tbl.rising 0 t = true := by
  rw [Tbl.wf, Bool.and_eq_true] at h
  exact h.1

/-! ### The rules of a bank -/

/-- Valid rules are listed in ascending index. -/
theorem Bank.validRules_pairwise {b : Bank} (h : Tbl.wf (fun _ => (0 : Byte)) b.rules = true) : b.validRules.Pairwise (· < ·) := by
  refine List.pairwise_filterMap.2 ((Tbl.rising_pairwise (Tbl.rising_of_wf h)).imp fun {x y} hxy r hr r' hr' => ?_)
  obtain ⟨hx, hr⟩ := Option.ite_none_right_eq_some.1 hr
  obtain ⟨hy, hr'⟩ := Option.ite_none_right_eq_some.1 hr'
  rw [← Option.some.inj hr, ← Option.some.inj hr']
  omega

/-- A rule is listed when its VALID bit is set. -/
theorem Bank.mem_validRules {b : Bank} (r : Nat) (h : Tbl.wf (fun _ => (0 : Byte)) b.rules = true) :
    r ∈ b.validRules ↔ 128 ≤ (Tbl.get (0 : Byte) b.rules (192 * r + 171)).toNat := by
  have hrising := Tbl.rising_of_wf h
  rw [Bank.validRules, List.mem_filterMap]
  constructor
  · rintro ⟨⟨k, v⟩, hmem, hr⟩
    obtain ⟨⟨hk, hv⟩, hr⟩ := Option.ite_none_right_eq_some.1 hr
    obtain rfl : k = 192 * r + 171 := by rw [← Option.some.inj hr]; omega
    rw [Tbl.get, (Tbl.find_eq_some_iff hrising).2 hmem]
    exact hv
  · intro hv
    cases hfind : Tbl.find b.rules (192 * r + 171) with
    | none => simp [Tbl.get, hfind] at hv
    | some v =>
      rw [Tbl.get, hfind] at hv
      exact ⟨(192 * r + 171, v), (Tbl.find_eq_some_iff hrising).1 hfind, Option.ite_none_right_eq_some.2
        ⟨⟨by omega, hv⟩, congrArg some (by omega)⟩⟩

/-- Writing a rule keeps the rules' space in canonical form. -/
theorem Bank.wf_writeItem {b : Bank} (i : Nat) (bs : Bytes) (h : Tbl.wf (fun _ => (0 : Byte)) b.rules = true) :
    Tbl.wf (fun _ => (0 : Byte)) (b.writeItem 0 i bs).rules = true := by
  unfold Bank.writeItem
  exact List.foldlRecOn (motive := fun s => Tbl.wf (fun _ => (0 : Byte)) s = true) _ _ h fun s hs j _ => Tbl.wf_set _ _ hs

/-! ### The first rule that holds -/

section First
variable {b : Bank} {key : List Nat} {k : Nat} (hbad : b.bad = [])
include hbad

/-- With nothing poisoned, a rule that does not hold is passed over, and one that holds wins. -/
theorem Bank.firstRule_cons (r : Nat) (rs : List Nat) :
    b.firstRule key k (r :: rs) = if b.ruleHolds key k r then some (some r) else b.firstRule key k rs := by
  have hsound : ((ruleUnits (b.item 0 r)).any fun u => decide ((1, u) ∈ b.bad)) = false := by simp [hbad]
  rw [Bank.firstRule, if_neg (by simp [hbad]), Bank.ruleHolds]
  dsimp only
  rw [hsound]
  by_cases hk : byteAt (b.item 0 r) 172 % 8 = k
  · by_cases hm : ruleMatches (b.item 0 r) key = true <;> simp [hk, hm]
  · simp [hk]

theorem Bank.firstRule_append {l1 l2 : List Nat} {r : Nat} (hnot : (l1.any fun x => b.ruleHolds key k x) = false)
    (hr : b.ruleHolds key k r = true) : b.firstRule key k (l1 ++ r :: l2) = some (some r) := by
  induction l1 with
  | nil => rw [List.nil_append, firstRule_cons hbad, if_pos hr]
  | cons x l1 ih =>
    rw [List.any_cons, Bool.or_eq_false_iff] at hnot
    rw [List.cons_append, firstRule_cons hbad, hnot.1, if_neg Bool.false_ne_true, ih hnot.2]

theorem Bank.firstRule_none {l : List Nat} (hnot : (l.any fun x => b.ruleHolds key k x) = false) :
    b.firstRule key k l = some none := by
  induction l with
  | nil => rfl
  | cons x l ih =>
    rw [List.any_cons, Bool.or_eq_false_iff] at hnot
    rw [firstRule_cons hbad, hnot.1, if_neg Bool.false_ne_true, ih hnot.2]

end First

/-! ### CLASSIFY -/

/-- With no injection armed, a table read finds what stands in the bank's list of poisoned items. -/
theorem Engine.tableRead_unarmed {e : Engine} (p : Pkt) {t i : Nat} (h : e.is Fld.ERR_INJECT_ARMED = false)
    (hbad : (t, i) ∉ (e.bankOf p).bad) : e.tableRead p t i = (false, e) := by
  simp [Engine.tableRead, Engine.takeInject, h, hbad]

/-- What a lookup does once it is known which rule wins, or that none does. -/
def classifyHit (p : Pkt) (k : Nat) (e : Engine) : Option Nat → Engine
  | some r => ((((e.count (Reg.WNW_CNT 0)).busy 292).tally (Reg.WNW_HIT r)).setPkt p.id fun q =>
      q.act (leAt ((e.bankOf p).item 0 r) 168 4)).advance p.id
  | none => ((((e.count (Reg.WNW_CNT 0)).busy 292).count (Reg.WNW_CNT 1)).setPkt p.id fun q =>
      q.act (leAt ((e.bankOf p).item 2 k) 40 4)).advance p.id

/-- A lookup that gets its slot and meets no poisoned item takes the winner's action or the layout's. -/
theorem classifyStep_looksUp {p : Pkt} {arg : Nat} {e e1 : Engine} {hit : Option Nat} (hfirst : e.earlierWaits p 1 1 = false)
    (hrate : e.takeRate 0 8 8 = some e1) (harm : e1.is Fld.ERR_INJECT_ARMED = false) (hbad : (e1.bankOf p).bad = [])
    (hhit : (e1.bankOf p).firstRule ((e1.bankOf p).key (arg % 8) p) (arg % 8) (e1.bankOf p).validRules = some hit) :
    classifyStep p arg e = classifyHit p (arg % 8) e1 hit := by
  unfold classifyStep
  rw [hfirst, if_neg Bool.false_ne_true, hrate]
  dsimp only
  rw [Engine.tableRead_unarmed p harm (by rw [hbad]; exact List.not_mem_nil)]
  dsimp only
  rw [if_neg Bool.false_ne_true, hhit]
  cases hit <;> rfl

/-- Settles O23: the rules are tried in the order of `validRules`, which is ascending. -/
theorem firstRuleWins : Obligations.FirstRuleWins := by
  unfold Obligations.FirstRuleWins
  refine ⟨?wins, ?default, ?waits, fun b h => Bank.validRules_pairwise h, fun b r h => Bank.mem_validRules r h,
    fun b i bs h => Bank.wf_writeItem i bs h⟩
  case wins =>
    intro s id p arg e e1 l1 r l2 hup hdisp hfirst hrate harm hbad hrules hr hnot
    refine (Does.engine (show exec _ s = execClassify id s from rfl) hup).congr ((Engine.dispatch_some hdisp).trans ?_)
    exact classifyStep_looksUp hfirst hrate harm hbad (hrules ▸ Bank.firstRule_append hbad hnot hr)
  case default =>
    intro s id p arg e e1 hup hdisp hfirst hrate harm hbad hnot
    refine (Does.engine (show exec _ s = execClassify id s from rfl) hup).congr ((Engine.dispatch_some hdisp).trans ?_)
    exact classifyStep_looksUp hfirst hrate harm hbad (Bank.firstRule_none hbad hnot)
  case waits =>
    intro s id p arg e hup hdisp hwait
    refine (Does.engine (show exec _ s = execClassify id s from rfl) hup).congr ((Engine.dispatch_some hdisp).trans ?_)
    unfold classifyStep Engine.wait
    obtain hearlier | hnoslot := hwait
    · rw [if_pos hearlier]
    · rw [hnoslot]
      exact ite_self _

end Sys2Proof.Machine

/-!
PROOFS. SHEAF_FETCH at this member and at another (O24), and what sending on a Felgen link leaves alone.
-/
namespace Sys2Proof.Machine

/-! ### What sending on a link leaves alone -/

/-- One engine is the other after messages went out: registers past FLG_PORT_CFG, the ports' books, staged records, free values and
outputs apart, nothing has changed. -/
def Engine.Sends (e e' : Engine) : Prop :=
  (∃ rs n o g ps, e' = { e with regs := rs, freeCtr := n, out := o, gln := g, flg := { e.flg with ports := ps } }) ∧
    ∀ off < 0xE00100, off ≠ Reg.FLG_EVT → e'.rd off = e.rd off

theorem Engine.Sends.refl (e : Engine) : e.Sends e := ⟨⟨_, _, _, _, _, rfl⟩, fun _ _ _ => rfl⟩

theorem Engine.Sends.trans {e e' e'' : Engine} (h : e.Sends e') (h' : e'.Sends e'') : e.Sends e'' := by
  obtain ⟨⟨rs, n, o, g, ps, rfl⟩, hr⟩ := h
  obtain ⟨⟨rs', n', o', g', ps', rfl⟩, hr'⟩ := h'
  exact ⟨⟨_, _, _, _, _, rfl⟩, fun off ho hne => (hr' off ho hne).trans (hr off ho hne)⟩

theorem Engine.Sends.ite {e e' e'' : Engine} {p : Prop} [Decidable p] (h : e.Sends e') (h' : e.Sends e'') :
    e.Sends (if p then e' else e'') := by
  split
  · exact h
  · exact h'

theorem Engine.Sends.thenWr {e e' : Engine} (h : e.Sends e') {off : Nat} (v : Nat) (ho : 0xE00100 ≤ off) : e.Sends (e'.wr off v) :=
  h.trans ⟨⟨_, _, _, _, _, rfl⟩, fun _ hlt _ => Engine.rd_wr_other _ _ (by omega)⟩

theorem Engine.Sends.thenPut {e e' : Engine} (h : e.Sends e') {f : Fld} (v : Nat) (ho : 0xE00100 ≤ f.off) : e.Sends (e'.put f v) :=
  h.thenWr _ ho

theorem Engine.Sends.thenCount {e e' : Engine} (h : e.Sends e') {off : Nat} (ho : 0xE00100 ≤ off) : e.Sends (e'.count off) :=
  h.thenWr _ ho

theorem Engine.Sends.thenGln {e e' : Engine} (h : e.Sends e') (f : Gln → Gln) : e.Sends (e'.setGln f) :=
  h.trans ⟨⟨_, _, _, _, _, rfl⟩, fun _ _ _ => rfl⟩

theorem Engine.Sends.thenBusy {e e' : Engine} (h : e.Sends e') (i : Nat) : e.Sends (e'.busy i) :=
  .ite h (h.thenGln _)

theorem Engine.Sends.thenEmit {e e' : Engine} (h : e.Sends e') (o : Out) : e.Sends (e'.emit o) :=
  h.trans ⟨⟨_, _, _, _, _, rfl⟩, fun _ _ _ => rfl⟩

theorem Engine.Sends.thenFresh {e e' : Engine} (h : e.Sends e') (f : Nat) : e.Sends (e'.fresh f).2 :=
  h.trans ⟨⟨_, _, _, _, _, rfl⟩, fun _ _ _ => rfl⟩

theorem Engine.Sends.thenFport {e e' : Engine} (h : e.Sends e') (p : Nat) (f : FlgPort → FlgPort) : e.Sends (e'.setFport p f) :=
  h.trans ⟨⟨_, _, _, _, _, rfl⟩, fun _ _ _ => rfl⟩

theorem Engine.Sends.thenStage {e e' : Engine} (h : e.Sends e') (r : Bytes) (t : Nat) : e.Sends (e'.stage r t) := by
  obtain ⟨f, hf⟩ | ⟨f, hf⟩ := e'.stage_cases r t
  · rw [hf]
    exact .thenGln (.thenPut (h.thenCount (by decide)) 1 (by decide)) f
  · rw [hf]
    exact h.thenGln f

theorem Engine.traceLink_sends (e : Engine) (p kind stamp seq vc : Nat) : e.Sends (e.traceLink p kind stamp seq vc) :=
  .ite (.thenStage (.refl e) _ _) (.refl e)

theorem Engine.flitHead_sends (e : Engine) (p vc cls kind first last nak seq : Nat) :
    e.Sends (e.flitHead p vc cls kind first last nak seq).2 := by
  unfold Engine.flitHead
  dsimp only
  split
  · exact .refl e
  · dsimp only
    exact .thenFport (.refl e) _ _

theorem Engine.sendFlits_sends (e : Engine) (p : Nat) (fs : List TxFlit) : e.Sends (e.sendFlits p fs) := by
  unfold Engine.sendFlits
  dsimp only
  refine List.foldlRecOn (motive := fun x => e.Sends x) _ _ ?_ fun x hx i _ => hx.thenEmit _
  exact List.foldlRecOn (motive := fun r : Bytes × Engine => e.Sends r.2) _ _ (.refl e) fun r hr f _ =>
    hr.trans (Engine.flitHead_sends _ _ _ _ _ _ _ _ _)

theorem Engine.takeFlits_sends (e : Engine) (p fuel : Nat) : e.Sends (e.takeFlits p fuel).2 := by
  induction fuel generalizing e with
  | zero => exact .refl e
  | succ fuel ih =>
    unfold Engine.takeFlits
    split
    · exact .refl e
    · next i f _ =>
      dsimp only
      have hcredit : ∀ k, 0xE00100 ≤ Reg.FLG_PORT_CREDIT p k ∧ 0xE00100 ≤ Reg.FLG_PCNT p 0 := fun k => by
        simp only [Reg.FLG_PORT_CREDIT, Reg.FLG_PCNT]; omega
      refine .trans (.trans (.thenFresh (.thenBusy (.thenWr (.thenPut (.thenPut (.thenFport (.refl e) p _) _ ?_) _ ?_) _ ?_) _) _)
        (Engine.traceLink_sends _ _ _ _ _ _)) (ih _)
      · exact (hcredit f.k).1
      · exact (hcredit f.k).1
      · exact (hcredit f.k).2

theorem Engine.pump_sends (e : Engine) (p : Nat) (ack : Bool) : e.Sends (e.pump p ack) := by
  have htake := e.takeFlits_sends p (e.fport p).wait.length
  exact .ite htake (htake.trans (Engine.sendFlits_sends _ _ _))

theorem Engine.sendHop_sends {e e' : Engine} {src dst dirs vc cls : Nat} {dim : Option Nat} {mk : Nat → List Flit}
    (h : e.sendHop src dst dirs vc cls dim mk = some e') : e.Sends e' := by
  unfold Engine.sendHop at h
  split at h
  · cases h
  · cases h
    exact .trans (.thenFport (.refl e) _ _) (Engine.pump_sends _ _ _)

/-- A message that goes out, or that has no route, changes what sending changes. -/
theorem Engine.flgSend_sends (e : Engine) (op dst tag : Nat) (arg data : Bytes) : e.Sends (e.flgSend op dst tag arg data).2 := by
  have hlost : e.Sends (e.count (Reg.FLG_CNT 1)) := .thenCount (.refl e) (by decide)
  unfold Engine.flgSend
  dsimp only
  split
  · exact hlost
  · split
    · exact hlost
    · next h => exact Engine.sendHop_sends h

theorem Engine.Sends.reqs {e e' : Engine} (h : e.Sends e') : e'.flg.reqs = e.flg.reqs := by
  obtain ⟨⟨rs, n, o, g, ps, rfl⟩, -⟩ := h
  rfl

theorem Engine.Sends.cyc {e e' : Engine} (h : e.Sends e') : e'.cyc = e.cyc := by
  obtain ⟨⟨rs, n, o, g, ps, rfl⟩, -⟩ := h
  rfl

/-- A request that goes out is noted behind the others, with the cycle. -/
theorem Engine.flgRequest_reqs {e : Engine} {op dst t : Nat} {owner : ReqOwner} {arg data : Bytes}
    (h : (e.flgRequest op dst owner arg data).1 = some t) :
    (e.flgRequest op dst owner arg data).2.flg.reqs = e.flg.reqs ++ [⟨t, dst, op, owner, e.cyc⟩] := by
  have hsends := e.flgSend_sends op dst e.flg.nextTag arg data
  unfold Engine.flgRequest at h ⊢
  dsimp only at h ⊢
  split at h
  · next hok =>
    cases h
    rw [if_pos hok]
    dsimp only
    rw [hsends.reqs, hsends.cyc]
  · cases h

/-! ### What dispatching a step leaves alone -/

theorem Engine.takeRate_eq {e e' : Engine} {unit limit every : Nat} (h : e.takeRate unit limit every = some e') :
    ∃ u l, e' = { e with used := u, lastOp := l } := by
  unfold Engine.takeRate at h
  dsimp only at h
  split at h
  · obtain ⟨-, h⟩ := Option.ite_none_right_eq_some.1 h
    exact ⟨_, _, (Option.some.inj h).symm⟩
  · obtain ⟨-, h⟩ := Option.ite_none_right_eq_some.1 h
    exact ⟨_, _, (Option.some.inj h).symm⟩

/-- The requests, the cycle, the time and the frames are the same in both. -/
def Engine.SameWork (e e' : Engine) : Prop := e'.flg = e.flg ∧ e'.cyc = e.cyc ∧ e'.time = e.time ∧ e'.pkts = e.pkts

theorem Engine.SameWork.refl (e : Engine) : e.SameWork e := ⟨rfl, rfl, rfl, rfl⟩

theorem Engine.SameWork.trans {e e' e'' : Engine} (h : e.SameWork e') (h' : e'.SameWork e'') : e.SameWork e'' :=
  ⟨h'.1.trans h.1, h'.2.1.trans h.2.1, h'.2.2.1.trans h.2.2.1, h'.2.2.2.trans h.2.2.2⟩

theorem Engine.errRecord_sameWork (e : Engine) (code sev blk mem count addr obj d4 d5 d6 : Nat) :
    e.SameWork (e.errRecord code sev blk mem count addr obj d4 d5 d6) := by
  obtain ⟨⟨rs, h, g, o, heq⟩, -⟩ := e.errRecord_reports code sev blk mem count addr obj d4 d5 d6
  rw [heq]
  exact ⟨rfl, rfl, rfl, rfl⟩

@[simp] theorem Engine.errRecord_flg (e : Engine) (code sev blk mem count addr obj d4 d5 d6 : Nat) :
    (e.errRecord code sev blk mem count addr obj d4 d5 d6).flg = e.flg := (e.errRecord_sameWork code sev blk mem count addr obj d4 d5 d6).1

@[simp] theorem Engine.errRecord_cyc (e : Engine) (code sev blk mem count addr obj d4 d5 d6 : Nat) :
    (e.errRecord code sev blk mem count addr obj d4 d5 d6).cyc = e.cyc := (e.errRecord_sameWork code sev blk mem count addr obj d4 d5 d6).2.1

@[simp] theorem Engine.errRecord_time (e : Engine) (code sev blk mem count addr obj d4 d5 d6 : Nat) :
    (e.errRecord code sev blk mem count addr obj d4 d5 d6).time = e.time := (e.errRecord_sameWork code sev blk mem count addr obj d4 d5 d6).2.2.1

@[simp] theorem Engine.errRecord_pkts (e : Engine) (code sev blk mem count addr obj d4 d5 d6 : Nat) :
    (e.errRecord code sev blk mem count addr obj d4 d5 d6).pkts = e.pkts := (e.errRecord_sameWork code sev blk mem count addr obj d4 d5 d6).2.2.2

theorem Engine.memCe_sameWork (e : Engine) (m a : Nat) : e.SameWork (e.memCe m a) := by
  unfold Engine.memCe
  dsimp only
  split <;> simp [Engine.SameWork, Engine.fresh]

theorem Engine.takeInject_sameWork (e : Engine) (m : Nat) (ecc : Ecc) : e.SameWork (e.takeInject m ecc).2 := by
  unfold Engine.takeInject
  split <;> exact ⟨rfl, rfl, rfl, rfl⟩

/-- A table item is read without a change to the frames, the requests or the cycle. -/
theorem Engine.tableRead_sameWork (e : Engine) (p : Pkt) (t i : Nat) : e.SameWork (e.tableRead p t i).2 := by
  have hinject := e.takeInject_sameWork 5 .clean
  unfold Engine.tableRead
  generalize e.takeInject 5 .clean = r at hinject
  obtain ⟨x, e'⟩ := r
  dsimp only at hinject ⊢
  obtain ⟨hflg, hcyc, htime, hpkts⟩ := hinject
  split
  · simp [Engine.SameWork, Engine.memUe, Engine.fresh, hflg, hcyc, htime, hpkts]
  · cases x
    case ce => exact .trans ⟨hflg, hcyc, htime, hpkts⟩ (e'.memCe_sameWork 5 0)
    case ue => simp [Engine.SameWork, Engine.memUe, Engine.fresh, hflg, hcyc, htime, hpkts]
    all_goals exact ⟨hflg, hcyc, htime, hpkts⟩

theorem Engine.tableRead_mem (e : Engine) (p : Pkt) (t i : Nat) : (e.tableRead p t i).2.mem = e.mem := by
  unfold Engine.tableRead
  dsimp only
  split
  · simp
  · split <;> simp

theorem Engine.busy_sameWork (e : Engine) (i : Nat) : e.SameWork (e.busy i) := by
  unfold Engine.busy
  split <;> exact ⟨rfl, rfl, rfl, rfl⟩

/-- The frame found by its identity takes what is done to the frames of that identity, where that leaves the identity. -/
theorem Engine.pkt_setPkt {e : Engine} {id : Nat} {p : Pkt} {f : Pkt → Pkt} (h : e.pkt id = some p) (hf : ∀ q, q.id = id → (f q).id = id) :
    (e.setPkt id f).pkt id = some (f p) := by
  unfold Engine.pkt Engine.setPkt at *
  dsimp only
  rw [List.find?_map]
  have hsame : ((fun q : Pkt => q.id == id) ∘ fun q : Pkt => if q.id = id then f q else q) = fun q : Pkt => q.id == id := by
    funext q
    by_cases hq : q.id = id
    · simp [hq, hf q hq]
    · simp [hq]
  have hid : p.id = id := by simpa using List.find?_some h
  rw [hsame, h, Option.map_some, if_pos hid]

/-- A step that is dispatched is its packet's; the requests, the cycle and memory are as they were. -/
theorem Engine.dispatched_keeps {e e' : Engine} {id kind arg : Nat} {p : Pkt} (h : e.dispatched id kind = some (p, arg, e')) :
    p.id = id ∧ e'.pkt id = some p ∧ e'.flg = e.flg ∧ e'.cyc = e.cyc ∧ e'.time = e.time ∧ e'.mem = e.mem := by
  obtain ⟨q, hq, h⟩ := Option.bind_eq_some_iff.1 h
  have hid : q.id = id := by simpa using List.find?_some hq
  split at h
  · cases h
  · split at h
    · cases h
      exact ⟨hid, hq, rfl, rfl, rfl, rfl⟩
    · split at h
      · cases h
      · obtain ⟨e1, hrate, h⟩ := Option.bind_eq_some_iff.1 h
        obtain ⟨u, l, rfl⟩ := Engine.takeRate_eq hrate
        dsimp only at h
        split at h
        · cases h
        · simp only [Option.some.injEq, Prod.mk.injEq] at h
          obtain ⟨rfl, -, rfl⟩ := h
          have hmem : (((Engine.tableRead { e with used := u, lastOp := l } q 3 q.entry).2.tally (Reg.CSC_ENTCNT q.entry)).busy 293).mem = e.mem := by
            simp [Engine.tableRead_mem]
          obtain ⟨hflg, hcyc, htime, hpkts⟩ := Engine.SameWork.trans (Engine.tableRead_sameWork { e with used := u, lastOp := l } q 3 q.entry)
            (.trans (e'' := ((Engine.tableRead { e with used := u, lastOp := l } q 3 q.entry).2.tally (Reg.CSC_ENTCNT q.entry)).busy 293)
              ⟨rfl, rfl, rfl, rfl⟩ (Engine.busy_sameWork _ _))
          exact ⟨hid, Engine.pkt_setPkt (by rw [Engine.pkt, hpkts]; exact hq) fun _ _ => hid, hflg, hcyc, htime, hmem⟩

/-! ### Byte strings with a field replaced -/

theorem leNat_lt (d : Bytes) : leNat d < 256 ^ d.length := by
  induction d with
  | nil => decide
  | cons b d ih =>
    rw [leNat, List.length_cons, pow_succ]
    have := b.isLt
    omega

theorem leAt_lt (d : Bytes) (off n : Nat) : leAt d off n < 256 ^ n :=
  (leNat_lt _).trans_le (Nat.pow_le_pow_right (by decide) (List.length_take_le _ _))

/-- The field that follows `n` bytes. -/
theorem leAt_append {l r : Bytes} {n k : Nat} (hl : l.length = n) : leAt (l ++ r) n k = leAt r 0 k := by
  rw [leAt, leAt, slice, slice, List.drop_left' hl, List.drop_zero]

/-- A patch inside the string keeps what stands before it and behind it. -/
theorem patch_eq {bs new : Bytes} {off : Nat} (h : off + new.length ≤ bs.length) :
    patch bs off new = bs.take off ++ new ++ bs.drop (off + new.length) := by
  rw [patch, List.take_of_length_le]
  simp only [List.length_append, List.length_take, List.length_drop]
  omega

/-- The counts of a commit (R311). -/
theorem hotCount_counts (hot : Bytes) (ts len : Nat) (hlen : hot.length = 128) :
    hotLastTs (hotCount hot ts len).1 = ts % 2 ^ 64 ∧ hotPkts (hotCount hot ts len).1 = min (hotPkts hot + 1) (2 ^ 32 - 1) ∧
      hotBytes (hotCount hot ts len).1 = min (hotBytes hot + len) (2 ^ 48 - 1) ∧
      (hotCount hot ts len).1.take 48 = hot.take 48 ∧ (hotCount hot ts len).1.drop 66 = hot.drop 66 := by
  have hbytes : hotBytes hot < 256 ^ 6 := leAt_lt _ _ _
  have hnew : (natLE 8 ts ++ natLE 4 (min (hotPkts hot + 1) (2 ^ 32 - 1)) ++
      natLE 6 (hotBytes hot + min len (2 ^ 48 - 1 - hotBytes hot))).length = 18 := by simp
  have hsplit : (hotCount hot ts len).1 = hot.take 48 ++ (natLE 8 ts ++ (natLE 4 (min (hotPkts hot + 1) (2 ^ 32 - 1)) ++
      (natLE 6 (hotBytes hot + min len (2 ^ 48 - 1 - hotBytes hot)) ++ hot.drop 66))) := by
    rw [hotCount, patch_eq (by omega), hnew]
    simp only [List.append_assoc]
  have htake : (hot.take 48).length = 48 := by rw [List.length_take]; omega
  refine ⟨?_, ?_, ?_, ?_, ?_⟩
  · rw [hsplit, hotLastTs, leAt_append htake, leAt_natLE_append]
    rfl
  · rw [hsplit, hotPkts, ← List.append_assoc, leAt_append (by simp [htake]), leAt_natLE_append]
    exact Nat.mod_eq_of_lt (by omega)
  · rw [hsplit, hotBytes, ← List.append_assoc, ← List.append_assoc, leAt_append (by simp [htake]), leAt_natLE_append, Nat.mod_eq_of_lt]
    all_goals omega
  · rw [hsplit, List.take_left' htake]
  · rw [hsplit, ← List.append_assoc, ← List.append_assoc, ← List.append_assoc, List.drop_left' (by simp [htake])]

/-! ### The home's fetch -/

/-- A flow that another holds is not given: the asker is queued, and nothing else changes. -/
theorem Engine.takeFlow_held {e : Engine} {h h' : Holder} {key : Bytes} (ts : Nat) (hheld : e.holder key = some h')
    (hnot : (e.shf.holds.any fun x => x.1 == key && x.2 == h) = false) :
    ∃ w, e.takeFlow h key ts = (false, false, { e with shf := { e.shf with waits := w } }) := by
  unfold Engine.takeFlow
  rw [if_neg (by rw [hnot]; decide), if_pos (.inl (by rw [hheld]; rfl))]
  split <;> exact ⟨_, rfl⟩

/-- A flow that none holds, and that none asked for earlier, is given. -/
theorem Engine.takeFlow_free {e : Engine} {h : Holder} {key : Bytes} {ts : Nat} (hfree : e.holder key = none)
    (hfirst : (e.shf.waits.any fun x => x.1 == key && x.2.1 != h && decide (x.2.2 < ts)) = false) :
    e.takeFlow h key ts = (true, true, { e with shf := { e.shf with
      holds := e.shf.holds ++ [(key, h)], waits := e.shf.waits.filter fun x => !(x.1 == key && x.2.1 == h) } }) := by
  have hnone : ∀ x ∈ e.shf.holds, ¬ (x.1 == key) = true := List.find?_eq_none.1 (Option.map_eq_none_iff.1 hfree)
  have hnot : (e.shf.holds.any fun x => x.1 == key && x.2 == h) = false :=
    List.any_eq_false.2 fun x hx => by simp [hnone x hx]
  unfold Engine.takeFlow
  rw [if_neg (by rw [hnot]; decide), if_neg (by simp [hfree, hfirst])]

theorem Engine.sheafFetch_waits {e : Engine} {h h' : Holder} {key : Bytes} (ts : Nat) (kv : Bytes) (nc good : Bool) (ecc : Ecc)
    (hheld : e.holder key = some h') (hnot : (e.shf.holds.any fun x => x.1 == key && x.2 == h) = false) :
    ∃ w, e.sheafFetch h key ts kv nc good ecc = (none, { e with shf := { e.shf with waits := w } }) := by
  obtain ⟨w, hw⟩ := Engine.takeFlow_held ts hheld hnot
  exact ⟨w, by rw [Engine.sheafFetch, hw]; rfl⟩

/-- A fetch with NOCREATE of a flow that has no sheaf takes the flow, counts, and delivers nothing. -/
theorem Engine.sheafFetch_nocreate {e : Engine} {h : Holder} {key : Bytes} {ts : Nat} (kv : Bytes) (good : Bool) (ecc : Ecc)
    (hfree : e.holder key = none)
    (hfirst : (e.shf.waits.any fun x => x.1 == key && x.2.1 != h && decide (x.2.2 < ts)) = false) (hnone : e.sheaf key = none) :
    e.sheafFetch h key ts kv true good ecc = (some .none, ((e.takeFlow h key ts).2.2.count (Reg.SHF_CNT 0)).busy 294) := by
  have hkeep : (((e.takeFlow h key ts).2.2.count (Reg.SHF_CNT 0)).busy 294).sheaf key = none := by
    rw [← hnone, Engine.takeFlow_free hfree hfirst]
    unfold Engine.busy
    split <;> rfl
  have hgot : (e.takeFlow h key ts).1 = true ∧ (e.takeFlow h key ts).2.1 = true := by
    rw [Engine.takeFlow_free hfree hfirst]; exact ⟨rfl, rfl⟩
  unfold Engine.sheafFetch
  generalize e.takeFlow h key ts = r at hgot hkeep ⊢
  obtain ⟨got, fresh, e'⟩ := r
  obtain ⟨rfl, rfl⟩ := hgot
  dsimp only at hkeep ⊢
  simp only [Bool.not_true, Bool.false_eq_true, if_false, if_true, hkeep]

/-! ### The requests of a packet's step -/

/-- A request noted behind others is the packet's, where it had none. -/
theorem Engine.pktReq_noted {e e' : Engine} {id : Nat} {r : FlgReq} (hreqs : e'.flg.reqs = e.flg.reqs ++ [r]) (hown : r.owner = .fetch id)
    (hnone : e.pktReq id = none) : e'.pktReq id = some r := by
  unfold Engine.pktReq at hnone ⊢
  rw [hreqs, List.find?_append, hnone]
  simp [hown]

/-- A remote fetch that goes out waits for its request. -/
theorem Engine.remoteFetch_flg {e : Engine} {p : Pkt} {key : Bytes} {arg home t : Nat}
    (h : ((e.count (Reg.SHF_CNT 5)).flgRequest 0x10 home (.fetch p.id) (natLE 4 p.ts ++ natLE 1 (arg % 16 + 16 * bit (!p.good)) ++ natLE 3 0)
      ((e.count (Reg.SHF_CNT 5)).shfReqData p key)).1 = some t) :
    (e.remoteFetch p key arg home).flg.reqs = e.flg.reqs ++ [⟨t, home, 0x10, .fetch p.id, e.cyc⟩] := by
  have hreqs := Engine.flgRequest_reqs h
  rw [Engine.count_flg, Engine.count_cyc] at hreqs
  rw [← hreqs]
  unfold Engine.remoteFetch
  simp only [h, Engine.wait, Engine.setPkt_flg]

/-- Settles O24: the dispatched step is `sheafFetchStep`, the home's fetch begins with `takeFlow`, and a request is noted when it is sent. -/
theorem sheafFetchSteps : Obligations.SheafFetchSteps := by
  unfold Obligations.SheafFetchSteps
  refine ⟨?second, ?home, ?remote, ?fetchLate, ?commitLate, ?inTime, ?held, ?nocreate, fun hot ts len h => hotCount_counts hot ts len h⟩
  case second =>
    intro s id ecc p arg e q hup hdisp hq hdone
    refine (Does.engine (show exec _ s = execSheafFetch id ecc s from rfl) hup).congr ((Engine.dispatch_some hdisp).trans ?_)
    simp only [sheafFetchStep, hq, hdone, if_true]
  case home =>
    intro s id ecc p arg e e1 f hup hdisp hnone hrate hself hf
    refine (Does.engine (show exec _ s = execSheafFetch id ecc s from rfl) hup).congr ((Engine.dispatch_some hdisp).trans ?_)
    obtain ⟨e2, he2⟩ : ∃ e2, e1.sheafFetch (.pkt p.id) (flowKey p.pv (arg % 8)) p.ts (e1.kvFor p) (bitOf arg 3) p.good ecc = (some f, e2) :=
      ⟨_, Prod.ext hf rfl⟩
    simp only [sheafFetchStep, hnone, hrate, hself, ne_eq, not_true, if_false, he2]
  case remote =>
    intro s id ecc p arg e e1 t hup hdisp hnone hrate hother hreq hfree
    obtain ⟨hid, -, hflg, hcyc, -, -⟩ := Engine.dispatched_keeps hdisp
    obtain ⟨u, l, hrate'⟩ := Engine.takeRate_eq hrate
    have hstep : sheafFetchStep ecc p arg e = e1.remoteFetch p (flowKey p.pv (arg % 8)) arg (e1.homeOf (flowKey p.pv (arg % 8)) p.ts) := by
      simp only [sheafFetchStep, hnone, hrate, ne_eq, hother, not_false_eq_true, if_true]
    refine .engine (show exec _ s = execSheafFetch id ecc s from rfl) hup ?_
    rw [State.onEng, Engine.dispatch_some hdisp, hstep]
    refine Engine.pktReq_noted ((Engine.remoteFetch_flg hreq).trans ?_) (congrArg ReqOwner.fetch hid) hfree
    rw [hrate', hid]
    simp only [hflg, hcyc]
  case fetchLate =>
    intro s id r hup hreq hown hlate
    refine (Does.engine (show exec _ s = execRemoteHomeTimeout id s from rfl) hup).congr ?_
    simp only [remoteHomeTimeout, hreq, Nat.not_lt.2 hlate, if_false, Engine.reqFailed, hown]
  case commitLate =>
    intro s id r hup hreq hown hlate
    refine (Does.engine (show exec _ s = execRemoteHomeTimeout id s from rfl) hup).congr ?_
    simp only [remoteHomeTimeout, hreq, Nat.not_lt.2 hlate, if_false, Engine.reqFailed, hown]
  case inTime =>
    intro s id r hup hreq hlate
    refine ((Does.engine (show exec _ s = execRemoteHomeTimeout id s from rfl) hup).congr (g := fun e => e) ?_)
    simp only [remoteHomeTimeout, hreq, hlate, if_true]
  case held =>
    intro e h h' key ts kv nc good ecc hheld hnot
    obtain ⟨w, hw⟩ := Engine.sheafFetch_waits ts kv nc good ecc hheld hnot
    rw [hw]
    exact ⟨rfl, rfl, rfl, rfl⟩
  case nocreate =>
    intro e h key ts kv good ecc hfree hfirst hnone
    have hbusy : ∀ (x : Engine) (i : Nat), (x.busy i).regs = x.regs ∧ (x.busy i).shf = x.shf := fun x i => by
      unfold Engine.busy; split <;> exact ⟨rfl, rfl⟩
    rw [Engine.sheafFetch_nocreate kv good ecc hfree hfirst hnone]
    refine ⟨rfl, ?_, ?_⟩
    · rw [Engine.rd, (hbusy _ _).1, Engine.takeFlow_free hfree hfirst]
      exact Engine.rd_count_same _ _
    · rw [Engine.holder, (hbusy _ _).2, Engine.takeFlow_free hfree hfirst, Engine.count, Engine.countN, Engine.wr_shf]
      rw [List.find?_append, Option.map_eq_none_iff.1 hfree]
      simp

end Sys2Proof.Machine

/-!
PROOFS. SHEAF_COMMIT (O25) and the verdict steps (O26).
-/
namespace Sys2Proof.Machine

/-! ### SHEAF_COMMIT -/

/-- A step with no sheaf to update, or one updated already, only counts and lets the flow go (R312). -/
theorem sheafCommitStep_idle {p : Pkt} {arg : Nat} {e : Engine}
    (h : p.shf = none ∨ ∃ q, p.shf = some q ∧ q.tag = none ∧ (q.committed = true ∨ q.present = false)) :
    sheafCommitStep p arg e = ((e.count (Reg.SHF_CNT 15)).releaseFlow (.pkt p.id)).advance p.id := by
  obtain hnone | ⟨q, hq, htag, hdone⟩ := h
  · simp only [sheafCommitStep, hnone]
  · have hidle : q.committed = true ∨ (!q.present) = true := hdone.imp_right fun h => by rw [h]; rfl
    simp only [sheafCommitStep, hq, htag, Option.isSome_none, Bool.false_eq_true, if_false, hidle, if_true]

/-- A step with a sheaf of this member to update asks the home for its commit once it has its slot (R311). -/
def commitAtHome (p : Pkt) (q : PShf) (e : Engine) : Option (Nat × Engine) → Engine
  | none => e.wait p.id 7
  | some (fl, e2) => ((e2.busy 294).setPkt p.id fun r =>
      ({ r with shf := some { q with committed := true, holding := false,
                                     cur := match e2.sheaf q.key with | some x => e2.hotOf x | none => q.cur } }).numFlags fl).advance p.id

theorem sheafCommitStep_home {p : Pkt} {arg : Nat} {e e1 : Engine} {q : PShf} (hq : p.shf = some q) (htag : q.tag = none)
    (hfirst : q.committed = false) (hpres : q.present = true) (hself : q.remote = false) (hrate : e.takeRate 3 64 8 = some e1) :
    sheafCommitStep p arg e = commitAtHome p q e1
      (e1.sheafCommit (.pkt p.id) q.key p.ts p.len (e1.kvFor p) (bitOf arg 0) (bitOf arg 1) p.summary p.good (e1.modelFor p)) := by
  have hactive : ¬ (q.committed = true ∨ (!q.present) = true) := by simp [hfirst, hpres]
  unfold sheafCommitStep
  rw [hq]
  dsimp only
  rw [if_neg (by simp [htag]), if_neg hactive, hrate]
  dsimp only
  rw [if_neg (by simp [hself])]
  rcases e1.sheafCommit (.pkt p.id) q.key p.ts p.len (e1.kvFor p) (bitOf arg 0) (bitOf arg 1) p.summary p.good (e1.modelFor p) with
    _ | ⟨fl, e2⟩ <;> rfl

/-- Settles O25: the four outcomes of the dispatched step, and the release of an entry that is never resolved. -/
theorem sheafCommitSteps : Obligations.SheafCommitSteps := by
  unfold Obligations.SheafCommitSteps
  refine ⟨?none, ?done, ?commits, ?waits, ?unresolved, ?full⟩
  case none =>
    intro s id p arg e hup hdisp hnone
    exact (Does.engine (show exec _ s = execSheafCommit id s from rfl) hup).congr
      ((Engine.dispatch_some hdisp).trans (sheafCommitStep_idle (.inl hnone)))
  case done =>
    intro s id p arg e q hup hdisp hq htag hdone
    exact (Does.engine (show exec _ s = execSheafCommit id s from rfl) hup).congr
      ((Engine.dispatch_some hdisp).trans (sheafCommitStep_idle (.inr ⟨q, hq, htag, hdone⟩)))
  case commits =>
    intro s id p arg e q e1 fl e2 hup hdisp hq htag hfirst hpres hself hrate hcommit
    refine (Does.engine (show exec _ s = execSheafCommit id s from rfl) hup).congr ((Engine.dispatch_some hdisp).trans ?_)
    rw [sheafCommitStep_home hq htag hfirst hpres hself hrate, hcommit]
    rfl
  case waits =>
    intro s id p arg e q e1 hup hdisp hq htag hfirst hpres hself hrate hcommit
    refine (Does.engine (show exec _ s = execSheafCommit id s from rfl) hup).congr ((Engine.dispatch_some hdisp).trans ?_)
    rw [sheafCommitStep_home hq htag hfirst hpres hself hrate, hcommit]
    rfl
  case unresolved =>
    intro s src ptag x o hup hundo hlate
    refine (Does.engine (show exec _ s = execRemoteUndoTimeout src ptag s from rfl) hup).congr ?_
    simp only [remoteUndoTimeout, hundo, Nat.not_lt.2 hlate, if_false]
  case full =>
    intro e h key ts len kv nc na sum m x hx hown hfull
    simp [Engine.sheafCommit, hx, hown, hfull]

/-! ### Verdict steps -/

/-- A flag that is no cause of a grade leaves the grade as it is. -/
theorem gradeOf_flag {fl b : Nat} (hb : 5 ≤ b) : gradeOf (fl ||| 2 ^ b) = gradeOf fl := by
  have hbit : ∀ i < 5, bitOf (fl ||| 2 ^ b) i = bitOf fl i := fun i hi => by
    rw [bitOf_eq_testBit, bitOf_eq_testBit, Nat.testBit_or, Nat.testBit_two_pow_of_ne (by omega), Bool.or_false]
  rw [gradeOf, gradeOf, flBYPASS, flDOMAIN, flSEQ_FALLBACK, flJOIN_BUDGET, flTRUNC, hbit 0 (by decide), hbit 1 (by decide),
    hbit 2 (by decide), hbit 3 (by decide), hbit 4 (by decide)]

theorem Pkt.gradeOf_flagIf {p : Pkt} (c : Bool) {b : Nat} (hb : 5 ≤ b) : gradeOf (p.flagIf c b).flags = gradeOf p.flags := by
  cases c
  · rfl
  · exact gradeOf_flag hb

theorem gradeOf_lt (fl : Nat) : gradeOf fl < 8 := by
  unfold gradeOf
  split
  · decide
  · split
    · decide
    · split <;> decide

/-- Only flags differ. -/
theorem Pkt.flagIf_eq (p : Pkt) (c : Bool) (b : Nat) : ∃ fl, p.flagIf c b = { p with flags := fl } := by
  cases c
  · exact ⟨_, rfl⟩
  · exact ⟨_, rfl⟩

/-- The packet a record is made from: narrowing and suspect time set flags that are no grade's causes. -/
theorem Engine.verdict_pkt (e : Engine) (p : Pkt) (fl : Nat) : ∃ fl', (p.numFlags fl).flagIf e.suspect flTIME_SUSPECT = { p with flags := fl' } ∧
    gradeOf fl' = gradeOf p.flags := by
  obtain ⟨f1, h1⟩ := p.flagIf_eq (bitOf fl 2) flNUM_SAT
  obtain ⟨f2, h2⟩ := Pkt.flagIf_eq { p with flags := f1 } (bitOf fl 3) flNUM_NAN
  obtain ⟨f3, h3⟩ := Pkt.flagIf_eq { p with flags := f2 } e.suspect flTIME_SUSPECT
  have hall : (p.numFlags fl).flagIf e.suspect flTIME_SUSPECT = { p with flags := f3 } := by rw [Pkt.numFlags, h1, h2, h3]
  refine ⟨f3, hall, ?_⟩
  rw [show gradeOf f3 = gradeOf ((p.numFlags fl).flagIf e.suspect flTIME_SUSPECT).flags by rw [hall],
    Pkt.gradeOf_flagIf _ (by decide), Pkt.numFlags, Pkt.gradeOf_flagIf _ (by decide), Pkt.gradeOf_flagIf _ (by decide)]

theorem Engine.highWater_pkts (e : Engine) (f : Fld) (v : Nat) : (e.highWater f v).pkts = e.pkts := by
  unfold Engine.highWater
  split <;> rfl

theorem Engine.hqRetag_pkts (e : Engine) (h : Nat) : (e.hqRetag h).pkts = e.pkts := by
  unfold Engine.hqRetag
  split <;> rfl

theorem Engine.hqPush_pkts (e : Engine) (h : Nat) (r : HRec) : (e.hqPush h r).pkts = e.pkts := by
  unfold Engine.hqPush
  dsimp only
  rw [Engine.highWater_pkts]
  split
  · rw [Engine.hqRetag_pkts]; rfl
  · rfl

/-- Queueing a record leaves the frames as they are. -/
theorem Engine.pushVerdict_pkts (e : Engine) (h : Nat) (r : HRec) (ts : Nat) : (e.pushVerdict h r ts).2.pkts = e.pkts := by
  unfold Engine.pushVerdict
  split
  · exact e.hqPush_pkts h r
  · split <;> rfl

/-- The record of a packet (Table HIF-9). -/
theorem verdictWords_grade {cls col que grade a b : Nat} (hcls : cls < 2 ^ 12) (hcol : col < 4) (hque : que < 64) (hgrade : grade < 8) :
    bitsOf (cls + 2 ^ 12 * col + 2 ^ 14 * que + 2 ^ 20 * grade + 2 ^ 24 * (a % 2 ^ 12) + 2 ^ 48 * (b % 2 ^ 16)) 22 20 = grade := by
  rw [bitsOf_eq]
  omega

theorem Engine.writeVerdict_record {e : Engine} {id flow : Nat} {early : Bool} {p : Pkt} (hp : e.pkt id = some p) (hcls : p.cls < 2 ^ 12)
    (hcol : p.col < 4) (hque : p.que < 64) :
    ∃ v, ((e.writeVerdict id flow early).pkt id).bind (·.ver) = some v ∧ v.early = early ∧ v.queue = e.verdictQueue flow ∧
      v.words.length = 4 ∧ v.words.getD 0 0 = p.ts ∧ bitsOf (v.words.getD 2 0) 22 20 = (if early then 3 else gradeOf p.flags) := by
  have hid : p.id = id := by simpa using List.find?_some hp
  obtain ⟨fl, hfl, hgrade⟩ := e.verdict_pkt p (narrow .f16 (f32v p.sum)).2
  have hlt : (if early then 3 else gradeOf p.flags) < 8 := by
    split
    · decide
    · exact gradeOf_lt _
  unfold Engine.writeVerdict
  rw [hp]
  dsimp only
  rw [hfl]
  rw [Engine.pkt_setPkt (p := p) (by rw [Engine.pkt, Engine.pushVerdict_pkts]; exact hp) fun _ _ => by exact hid]
  refine ⟨_, rfl, rfl, rfl, rfl, rfl, ?_⟩
  refine .trans (verdictWords_grade hcls hcol hque ?_) ?_
  · rw [hgrade]; exact hlt
  · rw [hgrade]

/-- Settles O26: the dispatched steps are `verdictStep` and `earlyVerdictStep`, and a record is made from the packet's own fields. -/
theorem oneVerdictPerPacket : Obligations.OneVerdictPerPacket := by
  unfold Obligations.OneVerdictPerPacket
  refine ⟨?writes, ?again, ?unknown, ?early, ?hold, ?final, fun e id flow early p hp hcls hcol hque =>
    Engine.writeVerdict_record hp hcls hcol hque⟩
  case writes =>
    intro s id p arg e hup hdisp hgood hver
    refine (Does.engine (show exec _ s = execVerdict id s from rfl) hup).congr ((Engine.dispatch_some hdisp).trans ?_)
    simp [verdictStep, Engine.verdictOnce, hgood, hver]
  case again =>
    intro s id p arg e hup hdisp hgood hver
    refine (Does.engine (show exec _ s = execVerdict id s from rfl) hup).congr ((Engine.dispatch_some hdisp).trans ?_)
    simp [verdictStep, Engine.verdictOnce, hgood, hver]
  case unknown =>
    intro s id p arg e hup hdisp hgood
    refine (Does.engine (show exec _ s = execVerdict id s from rfl) hup).congr ((Engine.dispatch_some hdisp).trans ?_)
    simp [verdictStep, hgood]
  case early =>
    intro s id p arg e hup hdisp hgood hmode hver
    refine (Does.engine (show exec _ s = execEarlyVerdict id s from rfl) hup).congr ((Engine.dispatch_some hdisp).trans ?_)
    simp [earlyVerdictStep, Engine.verdictOnce, hgood, hmode, hver]
  case hold =>
    intro s id p arg e hup hdisp hgood hmode
    refine (Does.engine (show exec _ s = execEarlyVerdict id s from rfl) hup).congr ((Engine.dispatch_some hdisp).trans ?_)
    simp [earlyVerdictStep, verdictStep, hgood, hmode]
  case final =>
    intro s id p arg e hup hdisp hgood hver hwhy
    refine (Does.engine (show exec _ s = execEarlyVerdict id s from rfl) hup).congr ((Engine.dispatch_some hdisp).trans ?_)
    simp [earlyVerdictStep, verdictStep, Engine.verdictOnce, hgood, hver, hwhy]

end Sys2Proof.Machine

/-!
PROOFS. The grader and the orchard: GRADE (O28), ORCHARD (O29), ensembles (O30) and the commands of group 0x4 (O31).
-/
namespace Sys2Proof.Machine

/-! ### What busy marks and trace records leave alone -/

@[simp] theorem Engine.busy_gft (e : Engine) (i : Nat) : (e.busy i).gft = e.gft := by
  unfold Engine.busy
  split <;> rfl

@[simp] theorem Engine.trace_gft (e : Engine) (src : Fld) (k w1 w2 aux : Nat) : (e.trace src k w1 w2 aux).gft = e.gft := by
  obtain ⟨f, hf⟩ | ⟨f, hf⟩ := e.trace_cases src k w1 w2 aux <;> simp [hf]

@[simp] theorem Engine.started_gft (e : Engine) (c : Cmd) (n : Nat) : (e.started c n).gft = e.gft := by
  simp [Engine.started, Engine.traceCmd]

/-- A packet's model is that of its epoch in the slots. -/
theorem Engine.modelFor_congr {e e' : Engine} (h : e'.gft = e.gft) (p : Pkt) : e'.modelFor p = e.modelFor p := by
  simp only [Engine.modelFor, show e'.modelOf = e.modelOf from funext fun n => by simp only [Engine.modelOf, h]]

/-! ### GRADE -/

/-- A GRADE step that gets its turn and its slot builds the vector of its grader set, or the zero vector. -/
theorem gradeStep_turn {ecc : Ecc} {p : Pkt} {arg : Nat} {e e1 : Engine} (heval : p.noEval = false) (hfirst : e.earlierWaits p 3 1 = false)
    (hrate : e.takeRate 1 8 8 = some e1) :
    gradeStep ecc p arg e =
      match (e1.modelFor p).bind fun m => (m.sect 3 arg).map fun s => (m, s) with
      | none => (((((e1.count (Reg.ORC_CNT 1)).busy 290).count (Reg.ORC_CNT 8)).evt Fld.ORC_EVT_NO_VECTOR).setPkt p.id fun q =>
          { q with vec := some (none, List.replicate 256 0) }).advance p.id
      | some (m, x) =>
        match ((e1.count (Reg.ORC_CNT 1)).busy 290).readSect m x 5 (((e1.count (Reg.ORC_CNT 1)).busy 290).pktRef p.ts) ecc with
        | (none, e2) => e2.skipEval p.id
        | (some im, e2) => (e2.setPkt p.id fun q => ({ q with vec := some (some arg, (gradeVector im p.orcBlock).1) }).numFlags
            (gradeVector im p.orcBlock).2).advance p.id := by
  have hmodel : ((e1.count (Reg.ORC_CNT 1)).busy 290).modelFor p = e1.modelFor p := Engine.modelFor_congr (by simp) p
  unfold gradeStep
  rw [if_neg (by simp [heval]), if_neg (by simp [hfirst]), hrate]
  dsimp only
  rw [hmodel] <;> rfl

/-- Settles O28: the dispatched step is `gradeStep`, and slots past the set's are zero. -/
theorem gradeBuildsTheVector : Obligations.GradeBuildsTheVector := by
  unfold Obligations.GradeBuildsTheVector
  refine ⟨?noEval, ?waits, ?noSet, ?grades, fun im b => by simp [gradeVector], ?zero⟩
  case noEval =>
    intro s id ecc p arg e hup hdisp heval
    refine (Does.engine (show exec _ s = execGrade id ecc s from rfl) hup).congr ((Engine.dispatch_some hdisp).trans ?_)
    rw [gradeStep, if_pos heval, Engine.skipEval]
  case waits =>
    intro s id ecc p arg e hup hdisp heval hwait
    refine (Does.engine (show exec _ s = execGrade id ecc s from rfl) hup).congr ((Engine.dispatch_some hdisp).trans ?_)
    rw [gradeStep, if_neg (by simp [heval])]
    obtain hearlier | hnoslot := hwait
    · rw [if_pos hearlier]
    · rw [hnoslot]
      exact ite_self _
  case noSet =>
    intro s id ecc p arg e e1 hup hdisp heval hfirst hrate hnone
    have hset : ((e1.modelFor p).bind fun m => (m.sect 3 arg).map fun s => (m, s)) = none := by
      cases hm : e1.modelFor p with
      | none => rfl
      | some m =>
        rw [hm] at hnone
        rw [Option.bind_some, show m.sect 3 arg = none from hnone, Option.map_none]
    refine (Does.engine (show exec _ s = execGrade id ecc s from rfl) hup).congr ((Engine.dispatch_some hdisp).trans ?_)
    rw [gradeStep_turn heval hfirst hrate, hset]
  case grades =>
    intro s id ecc p arg e e1 m x im e2 hup hdisp heval hfirst hrate hm hx him
    have hset : ((e1.modelFor p).bind fun m => (m.sect 3 arg).map fun s => (m, s)) = some (m, x) := by
      rw [hm, Option.bind_some, hx, Option.map_some]
    refine (Does.engine (show exec _ s = execGrade id ecc s from rfl) hup).congr ((Engine.dispatch_some hdisp).trans ?_)
    rw [gradeStep_turn heval hfirst hrate, hset]
    dsimp only
    rw [him]
  case zero =>
    intro im b i hi
    have hnot : ¬ (i < leAt im 0 2) := Nat.not_lt.2 hi
    simp only [gradeVector, List.getD_eq_getElem?_getD, List.getElem?_map]
    by_cases h : i < 256
    · simp [List.getElem?_range h, hnot]
    · simp [List.getElem?_eq_none (show (List.range 256).length ≤ i by simpa using h)]

end Sys2Proof.Machine

/-!
PROOFS. ORCHARD: admission (O29), what an ensemble evaluates to (O30), and the commands of group 0x4 (O31).
-/
namespace Sys2Proof.Machine

/-! ### Admission -/

section Admit
variable {e : Engine} {p : Pkt} {t : Nat}

/-- Above the threshold, a class that truncates fixes its limit (R388). -/
theorem Engine.orcAdmit_truncates (hnew : p.limit = none) (hmode : e.is (Fld.ORC_POLICY_MODE p.cls) = false)
    (habove : e.get Fld.ORC_CFG_BACKLOG_THR < e.backlog + t) :
    e.orcAdmit p t = some ((some (e.get (Fld.ORC_POLICY_TRUNC_N p.cls)), false), min t (e.get (Fld.ORC_POLICY_TRUNC_N p.cls))) := by
  simp [Engine.orcAdmit, hnew, hmode, habove]

/-- Within the threshold every class is admitted whole. -/
theorem Engine.orcAdmit_whole (hnew : p.limit = none) (hroom : e.backlog + t ≤ e.get Fld.ORC_CFG_BACKLOG_THR) :
    e.orcAdmit p t = some ((none, e.is (Fld.ORC_POLICY_MODE p.cls)), t) := by
  cases hmode : e.is (Fld.ORC_POLICY_MODE p.cls) <;> simp [Engine.orcAdmit, hnew, hmode, Nat.not_lt.2 hroom]

/-- Above the threshold, a class under backpressure waits. -/
theorem Engine.orcAdmit_waits (hnew : p.limit = none) (hmode : e.is (Fld.ORC_POLICY_MODE p.cls) = true)
    (habove : e.get Fld.ORC_CFG_BACKLOG_THR < e.backlog + t) (hbusy : e.backlog ≠ 0) : e.orcAdmit p t = none := by
  simp [Engine.orcAdmit, hnew, hmode, habove, hbusy]

/-- A packet whose limit was fixed keeps it. -/
theorem Engine.orcAdmit_kept {n : Nat} (hlim : p.limit = some (some n, false)) : e.orcAdmit p t = some ((some n, false), min t n) := by
  simp [Engine.orcAdmit, hlim]

end Admit

/-- Settles O29: the dispatched step is `orchardStep`, taken up again by ORCHARD_ADMIT from the head of the order. -/
theorem orchardAdmitsInOrder : Obligations.OrchardAdmitsInOrder := by
  unfold Obligations.OrchardAdmitsInOrder
  refine ⟨?noEval, ?gated, ?turn, ?admitted, ?backlog, ?again, ?nobody, fun e p t hnew hmode habove =>
    Engine.orcAdmit_truncates hnew hmode habove, fun e p t hnew hroom => Engine.orcAdmit_whole hnew hroom,
    fun e p t hnew hmode habove hbusy => Engine.orcAdmit_waits hnew hmode habove hbusy, fun e p t n hlim => Engine.orcAdmit_kept hlim⟩
  case noEval =>
    intro s id ecc p arg e hup hdisp heval
    refine (Does.engine (show exec _ s = execOrchard id ecc s from rfl) hup).congr ((Engine.dispatch_some hdisp).trans ?_)
    rw [orchardStep, if_pos heval, Engine.skipEval]
  case gated =>
    intro s id ecc p arg e hup hdisp heval hgated
    refine (Does.engine (show exec _ s = execOrchard id ecc s from rfl) hup).congr ((Engine.dispatch_some hdisp).trans ?_)
    rw [orchardStep, if_neg (by simp [heval]), if_pos (by simp [hgated])]
  case turn =>
    intro s id ecc p arg e hup hdisp heval hon hturn
    refine (Does.engine (show exec _ s = execOrchard id ecc s from rfl) hup).congr ((Engine.dispatch_some hdisp).trans ?_)
    rw [orchardStep, if_neg (by simp [heval]), if_neg (by simpa using hon)]
    exact if_pos (by simp [hturn])
  case admitted =>
    intro s id ecc p arg e e1 lim n hup hdisp heval hon hturn hrate hadmit
    refine (Does.engine (show exec _ s = execOrchard id ecc s from rfl) hup).congr ((Engine.dispatch_some hdisp).trans ?_)
    rw [orchardStep, if_neg (by simp [heval]), if_neg (by simpa using hon)]
    refine (if_neg (by simp [hturn])).trans ?_
    dsimp only
    generalize Model.ensemble (e.modelFor p) arg = d at hadmit ⊢
    cases d <;> dsimp only [Option.map_none, Option.map_some, Option.getD_none, Option.getD_some] at hadmit ⊢ <;> rw [hadmit, hrate]
  case backlog =>
    intro s id ecc p arg e hup hdisp heval hon hturn hadmit
    refine (Does.engine (show exec _ s = execOrchard id ecc s from rfl) hup).congr ((Engine.dispatch_some hdisp).trans ?_)
    rw [orchardStep, if_neg (by simp [heval]), if_neg (by simpa using hon)]
    refine (if_neg (by simp [hturn])).trans ?_
    dsimp only
    generalize Model.ensemble (e.modelFor p) arg = d at hadmit ⊢
    cases d <;> dsimp only [Option.map_none, Option.map_some, Option.getD_none, Option.getD_some] at hadmit ⊢ <;> rw [hadmit]
  case again =>
    intro s id rest hup hhead
    refine (Does.engine (show exec _ s = execOrchardAdmit s from rfl) hup).congr ?_
    rw [orchardAdmit, hhead]
  case nobody =>
    intro s hup hnone
    refine (Does.engine (show exec _ s = execOrchardAdmit s from rfl) hup).congr (g := fun e => e) ?_
    rw [orchardAdmit, hnone]

/-! ### Ensembles -/

theorem evalTrees_append (node : Nat → Nat) (vec roots : List Nat) (r base : Nat) : (evalTrees node vec (roots ++ [r]) base).1 =
    (f32add (evalTrees node vec roots base).1 (walkTree node vec 17 r).1).1 := by
  rw [evalTrees, List.foldl_concat]
  rfl

theorem walkTree_leaf {node : Nat → Nat} {vec : List Nat} {k i : Nat} (h : bitOf (node i) 40 = true) :
    walkTree node vec (k + 1) i = (node i % 2 ^ 32, [i]) := by
  rw [walkTree, if_pos h]

/-- An inner node whose features are compared as integers goes to the next node below the threshold, and to RIGHT from it on. -/
theorem walkTree_inner {node : Nat → Nat} {vec : List Nat} {k i : Nat} (h : bitOf (node i) 40 = false) (hint : bitOf (node i) 41 = false) :
    (walkTree node vec (k + 1) i).1 =
      (walkTree node vec k (if vec.getD (bitsOf (node i) 39 32) 0 < node i % 2 ^ 32 then i + 1 else bitsOf (node i) 63 44)).1 := by
  rw [walkTree, if_neg (by simp [h])]
  simp only [hint, Bool.false_eq_true, if_false, decide_eq_true_eq]

/-- BUCKET holds a count of at most NBUCKETS thresholds, with the mark of a cut above it (R383). -/
theorem bucketOf_spec {d : Bytes} (s : Nat) (cut : Bool) (h : byteAt d 13 < 16) :
    bitOf (bucketOf d s cut) 4 = cut ∧ bucketOf d s cut % 16 ≤ byteAt d 13 ∧ bucketOf d s cut < 32 := by
  obtain ⟨c, hc, heq⟩ : ∃ c ≤ byteAt d 13, bucketOf d s cut = c + 16 * bit cut := by
    unfold bucketOf
    dsimp only
    split
    · exact ⟨0, Nat.zero_le _, rfl⟩
    · exact ⟨_, (List.length_filter_le _ _).trans_eq (List.length_range), rfl⟩
  have hbit : bit cut ≤ 1 := by cases cut <;> decide
  have hmark : ∀ c < 16, ∀ cut, bitOf (c + 16 * bit cut) 4 = cut := by decide
  rw [heq]
  exact ⟨hmark c (by omega) cut, by omega, by omega⟩

/-- Settles O30: `evalTrees` folds over the roots, `walkTree` follows the nodes. -/
theorem ensemblesEvaluate : Obligations.EnsemblesEvaluate := by
  unfold Obligations.EnsemblesEvaluate
  refine ⟨evalTrees_append, fun _ _ _ => rfl, fun node vec k i h => walkTree_leaf h, ?left, ?right, fun d s cut h => bucketOf_spec s cut h⟩
  case left =>
    intro node vec k i h hint hlt
    rw [walkTree_inner h hint, if_pos hlt]
  case right =>
    intro node vec k i h hint hge
    rw [walkTree_inner h hint, if_neg (Nat.not_lt.2 hge)]

/-! ### The commands of group 0x4 -/

/-- A command that is not next in the order joins it. -/
theorem orcCmd_waits {e : Engine} {id op len : Nat} {c : Cmd} {f : Cmd → Model → Engine → Engine} (hc : e.startable id op = some c)
    (hturn : e.orcTurn (.cmd id) = false) : orcCmd id op len f e = e.orcJoin (.cmd id) := by
  simp [orcCmd, hc, hturn]

/-- A command whose turn it is starts, leaves the order, and is checked. -/
theorem orcCmd_turn {e : Engine} {id op len : Nat} {c : Cmd} {f : Cmd → Model → Engine → Engine} (hc : e.startable id op = some c)
    (hturn : e.orcTurn (.cmd id) = true) : orcCmd id op len f e =
      if c.len ≠ len ∨ 1 < c.arg 33 1 then ((e.started c 290).orcLeave (.cmd id)).finish id 0x10
      else match ((e.started c 290).orcLeave (.cmd id)).bankModel (c.arg 33 1) with
        | none => ((e.started c 290).orcLeave (.cmd id)).finish id 0x20
        | some m => f c m ((e.started c 290).orcLeave (.cmd id)) := by
  have hid := Engine.startable_id hc
  simp only [orcCmd, hc, hturn, Bool.not_true, Bool.false_eq_true, if_false, withCmd_some hc, hid] <;> rfl

/-- A command of a sound form on a live model does its work. -/
theorem orcCmd_live {e : Engine} {id op len : Nat} {c : Cmd} {m : Model} {f : Cmd → Model → Engine → Engine}
    (hc : e.startable id op = some c) (hturn : e.orcTurn (.cmd id) = true) (hlen : c.len = len) (hbank : c.arg 33 1 = 0)
    (hlive : e.gft.live = some m) : orcCmd id op len f e = f c m ((e.started c 290).orcLeave (.cmd id)) := by
  have hmodel : ((e.started c 290).orcLeave (.cmd id)).bankModel 0 = some m :=
    (congrArg Gft.live (Engine.started_gft e c 290)).trans hlive
  rw [orcCmd_turn hc hturn, if_neg (by omega), hbank, hmodel]

/-- Settles O31: both commands are `orcCmd` with their work. -/
theorem orchardCommands : Obligations.OrchardCommands := by
  unfold Obligations.OrchardCommands
  refine ⟨?waits, ?badDesc, ?refused, ?grade, ?noEnsemble, ?eval⟩
  case waits =>
    intro s id h c hup hc hturn
    exact (Does.engine (show exec _ s = execOrcGrade id h s from rfl) hup).congr (orcCmd_waits hc hturn)
  case badDesc =>
    intro s id h c hup hc hturn hbad
    refine (Does.engine (show exec _ s = execOrcGrade id h s from rfl) hup).congr ((orcCmd_turn hc hturn).trans ?_)
    rw [if_pos hbad]
  case refused =>
    intro s id h c hup hc hturn hlen hbank hlive
    have hmodel : ((s.eng.started c 290).orcLeave (.cmd id)).bankModel 0 = none :=
      (congrArg Gft.live (Engine.started_gft s.eng c 290)).trans hlive
    refine (Does.engine (show exec _ s = execOrcEval id h s from rfl) hup).congr ((orcCmd_turn hc hturn).trans ?_)
    rw [if_neg (by omega), hbank, hmodel]
  case grade =>
    intro s id h c m b e1 x im e2 hup hc hturn hlen hbank hlive hdata hx him
    have hid := Engine.startable_id hc
    refine (Does.engine (show exec _ s = execOrcGrade id h s from rfl) hup).congr ((orcCmd_live hc hturn hlen hbank hlive).trans ?_)
    simp only [orcGrade.h', hdata, hx, him, hid]
  case noEnsemble =>
    intro s id h c m b e1 hup hc hturn hlen hbank hlive hon hdata hnone
    have hid := Engine.startable_id hc
    refine (Does.engine (show exec _ s = execOrcEval id h s from rfl) hup).congr ((orcCmd_live hc hturn hlen hbank hlive).trans ?_)
    rw [orcEval.h', if_neg (by simpa using hon), hdata]
    simp only [Model.ensemble, Option.bind_some, hnone, Option.map_none, hid]
  case eval =>
    intro s id h c m b e1 d v fl e2 hup hc hturn hlen hbank hlive hon hdata hd hv
    have hid := Engine.startable_id hc
    refine (Does.engine (show exec _ s = execOrcEval id h s from rfl) hup).congr ((orcCmd_live hc hturn hlen hbank hlive).trans ?_)
    rw [orcEval.h', if_neg (by simpa using hon), hdata]
    dsimp only
    rw [hd]
    dsimp only
    rw [show e1.cmdRef c = (e1.admitTrees (min (ensTrees d) (c.arg 36 4))).cmdRef c from rfl, hv, hid]

end Sys2Proof.Machine

/-!
PROOFS. The mills: batches (O33), JOIN (O34), MIL_RUN and MIL_TEMPLATE (O35).
-/
namespace Sys2Proof.Machine

/-! ### Queues, and what a mill runs -/

theorem Engine.highWater_get (e : Engine) (f : Fld) (v : Nat) : ∃ rs, e.highWater f v = { e with regs := rs } := by
  unfold Engine.highWater
  split
  · exact ⟨_, rfl⟩
  · exact ⟨_, rfl⟩

/-- A quad's queue changes with its status register and nothing else. -/
theorem Engine.setMilQ_eq (e : Engine) (q : Nat) (l : List MilItem) :
    ∃ rs, e.setMilQ q l = { e with regs := rs, mil := { e.mil with queues := Tbl.set [] e.mil.queues q l } } := by
  unfold Engine.setMilQ
  obtain ⟨rs, h⟩ := Engine.highWater_get (({ e with mil := { e.mil with queues := Tbl.set [] e.mil.queues q l } } : Engine).put
    (Fld.MIL_QSTAT_DEPTH q) l.length) (Fld.MIL_QSTAT_HWM q) l.length
  exact ⟨rs, h⟩

theorem Engine.setMilQ_rd (e : Engine) (q : Nat) (l : List MilItem) {off : Nat} (h : off ≠ Reg.MIL_QSTAT q) :
    (e.setMilQ q l).rd off = e.rd off := by
  unfold Engine.setMilQ Engine.highWater
  dsimp only
  split
  · rw [Engine.rd_put_other _ _ _ h, Engine.rd_put_other _ _ _ h]; rfl
  · rw [Engine.rd_put_other _ _ _ h]; rfl

theorem Engine.setMilRun_rd (e : Engine) (m : Nat) (w : Option MilWork) {off : Nat} (h : off ≠ Reg.MIL_SLOT m) :
    (e.setMilRun m w).rd off = e.rd off := (Engine.rd_put_other _ _ _ h).trans rfl

@[simp] theorem Engine.setMilRun_mem (e : Engine) (m : Nat) (w : Option MilWork) : (e.setMilRun m w).mem = e.mem := rfl
@[simp] theorem Engine.setMilRun_pkts (e : Engine) (m : Nat) (w : Option MilWork) : (e.setMilRun m w).pkts = e.pkts := rfl

@[simp] theorem Engine.setMilRun_milHeld (e : Engine) (m : Nat) (w : Option MilWork) : (e.setMilRun m w).milHeld = e.milHeld := by
  funext j
  simp [Engine.milHeld, Engine.setMilRun]

theorem Engine.setMilRun_milRun (e : Engine) (m : Nat) (w : Option MilWork) : (e.setMilRun m w).milRun m = w :=
  Tbl.get_set_same _ _ _ _

/-- A busy mark is the gleaner's alone. -/
theorem Engine.busy_eq (e : Engine) (i : Nat) : ∃ g, e.busy i = { e with gln := g } := by
  unfold Engine.busy
  split
  · exact ⟨_, rfl⟩
  · exact ⟨_, rfl⟩

@[simp] theorem Engine.busy_mil (e : Engine) (i : Nat) : (e.busy i).mil = e.mil := by
  obtain ⟨g, hg⟩ := e.busy_eq i
  rw [hg]

@[simp] theorem Engine.busy_pkts (e : Engine) (i : Nat) : (e.busy i).pkts = e.pkts := by
  obtain ⟨g, hg⟩ := e.busy_eq i
  rw [hg]

@[simp] theorem Engine.busy_rd (e : Engine) (i off : Nat) : (e.busy i).rd off = e.rd off := by
  obtain ⟨g, hg⟩ := e.busy_eq i
  rw [hg]
  rfl

/-- With no injection armed, a read takes none. -/
theorem Engine.takeInject_unarmed {e : Engine} (m : Nat) (ecc : Ecc) (h : e.is Fld.ERR_INJECT_ARMED = false) : e.takeInject m ecc = (ecc, e) := by
  simp [Engine.takeInject, h]

/-- A mill takes a batch from its quad's queue `l`. -/
def Engine.takeBatch (e : Engine) (m : Nat) (l batch : List MilItem) : Engine :=
  let nos := batch.map (·.no)
  let e := e.setMilQ (m / 8) (l.filter fun x => !nos.contains x.no)
  let e := { e with shf := { e.shf with histReads := e.shf.histReads.filter fun i => !nos.contains i } }
  (((e.setMilRun m (some (.batch batch))).count (Reg.MIL_CNT 1)).countN (Reg.MIL_CNT 0) batch.length).busy (256 + m)

/-- An idle mill of a quad that runs takes the oldest item and those of its template and epoch, up to BATCH_MAX. -/
theorem millBatchStart_takes {m : Nat} {e : Engine} {it : MilItem} {rest : List MilItem} (hm : m < 32)
    (hdom : (e.dom (8 + m / 8)).st = .on ∨ (e.dom (8 + m / 8)).st = .draining) (hidle : e.milRun m = none) (hq : e.milQ (m / 8) = it :: rest) :
    millBatchStart m e = e.takeBatch m (it :: rest)
      (((it :: rest).filter fun x => x.tmpl == it.tmpl && x.epoch == it.epoch).take (e.get Fld.MIL_CFG_BATCH_MAX)) := by
  have hgo : ¬ (32 ≤ m ∨ ¬ ((Tbl.get {} e.doms (8 + m / 8)).st = .on ∨ (Tbl.get {} e.doms (8 + m / 8)).st = .draining) ∨
      (e.milRun m).isSome = true) := by
    rintro (h | h | h)
    · omega
    · exact h hdom
    · rw [hidle] at h; cases h
  unfold millBatchStart
  dsimp only
  rw [if_neg (by simpa using hgo), hq]
  rfl

theorem Engine.takeBatch_reads (e : Engine) {m : Nat} (l batch : List MilItem) (hm : m < 32) :
    (e.takeBatch m l batch).milRun m = some (.batch batch) ∧
      (e.takeBatch m l batch).rd (Reg.MIL_CNT 1) = satCount 48 (e.rd (Reg.MIL_CNT 1)) 1 ∧ (e.takeBatch m l batch).mem = e.mem ∧
      (e.takeBatch m l batch).pkts = e.pkts ∧ ∀ j, j ≠ m / 8 → (e.takeBatch m l batch).milQ j = e.milQ j := by
  have hstat : Reg.MIL_CNT 1 ≠ Reg.MIL_QSTAT (m / 8) := by simp only [Reg.MIL_CNT, Reg.MIL_QSTAT]; omega
  have hslot : Reg.MIL_CNT 1 ≠ Reg.MIL_SLOT m := by simp only [Reg.MIL_CNT, Reg.MIL_SLOT]; omega
  have hrd := e.setMilQ_rd (m / 8) (l.filter fun x => !(batch.map (·.no)).contains x.no) hstat
  obtain ⟨rs, hset⟩ := e.setMilQ_eq (m / 8) (l.filter fun x => !(batch.map (·.no)).contains x.no)
  unfold Engine.takeBatch
  dsimp only
  generalize e.setMilQ (m / 8) _ = e1 at hrd hset ⊢
  refine ⟨?_, ?_, ?_, ?_, fun j hj => ?_⟩
  · rw [Engine.milRun, Engine.busy_mil, Engine.countN_mil, Engine.count_mil]
    exact Engine.setMilRun_milRun _ m _
  · rw [Engine.busy_rd, Engine.rd_countN_other _ _ (by decide), Engine.rd_count_same, Engine.setMilRun_rd _ _ _ hslot]
    simp only [Engine.rd] at hrd ⊢
    rw [hrd]
  · rw [Engine.busy_mem, Engine.countN_mem, Engine.count_mem, Engine.setMilRun_mem, hset]
  · rw [Engine.busy_pkts, Engine.countN_pkts, Engine.count_pkts, Engine.setMilRun_pkts, hset]
  · rw [Engine.milQ, Engine.busy_mil, Engine.countN_mil, Engine.count_mil, hset]
    exact Tbl.get_set_other _ _ _ _ hj

/-! ### Work that yields, and that goes on -/

/-- Work that is no packet's gives way to items that find no idle mill. -/
theorem millYield_gives {m : Nat} {e : Engine} {j : MilJob} (hm : m < 32) (hrun : e.milRun m = some (.job j)) (hq : e.milQ (m / 8) ≠ [])
    (hbusy : ((quadMills (m / 8)).any fun x => (e.milRun x).isNone) = false) :
    (millYield m e).milRun m = none ∧ (millYield m e).milHeld m = e.milHeld m ++ [j] ∧
      (millYield m e).rd (Reg.MIL_CNT 4) = satCount 48 (e.rd (Reg.MIL_CNT 4)) 1 ∧ (millYield m e).is Fld.MIL_EVT_YIELD = true ∧
      (millYield m e).mem = e.mem := by
  have hslot : Reg.MIL_CNT 4 ≠ Reg.MIL_SLOT m := by simp only [Reg.MIL_CNT, Reg.MIL_SLOT]; omega
  have hstep : millYield m e =
      ((Engine.count { e.setMilRun m none with mil := { (e.setMilRun m none).mil with
        suspended := Tbl.set [] (e.setMilRun m none).mil.suspended m ((e.setMilRun m none).milHeld m ++ [j]) } } (Reg.MIL_CNT 4)).evt
          Fld.MIL_EVT_YIELD) := by
    unfold millYield
    rw [hrun]
    exact if_neg (by simp [hq, hbusy])
  rw [hstep]
  refine ⟨?_, ?_, ?_, ?_, ?_⟩
  · rw [Engine.milRun, Engine.evt_mil, Engine.count_mil]
    exact Engine.setMilRun_milRun e m none
  · rw [Engine.milHeld, Engine.evt_mil, Engine.count_mil]
    rw [Engine.setMilRun_milHeld]
    exact Tbl.get_set_same _ _ _ _
  · have hrd := e.setMilRun_rd m none hslot
    rw [Engine.rd_evt_other _ _ (by decide), Engine.rd_count_same]
    simp only [Engine.rd] at hrd ⊢
    rw [hrd]
  · exact Engine.is_evt_same _ Fld.MIL_EVT_YIELD (by decide) (by decide)
  · rw [Engine.evt_mem, Engine.count_mem, Engine.setMilRun_mem]

/-- Suspended work goes on: FOREGROUND work first, other work when none waits for the quad. -/
theorem millResume_goesOn {m : Nat} {e : Engine} {j : MilJob} (hidle : e.milRun m = none) (hq : e.milQ (m / 8) = [])
    (hnext : ((e.milHeld m).find? fun x => x.cls == 2).or (if e.fgWaits (m / 8) then none else (e.milHeld m).head?) = some j) :
    (millResume m e).milRun m = some (.job j) ∧ (millResume m e).milHeld m = (e.milHeld m).filter (fun x => x.owner != j.owner) ∧
      (millResume m e).mem = e.mem := by
  unfold millResume
  dsimp only
  rw [if_neg (by simp [hidle, hq]), hnext]
  dsimp only
  refine ⟨?_, ?_, ?_⟩
  · rw [Engine.milRun, Engine.busy_mil]
    exact Engine.setMilRun_milRun _ m _
  · rw [Engine.milHeld, Engine.busy_mil]
    exact Tbl.get_set_same _ _ _ _
  · rw [Engine.busy_mem]
    rfl

/-- Settles O33: a batch is taken from the quad's queue, and `itemDone` is run over it when it completes. -/
theorem millsRunBatches : Obligations.MillsRunBatches := by
  unfold Obligations.MillsRunBatches
  refine ⟨?starts, ?stays, ?completes, ?fails, ?yields, ?foreground, ?other⟩
  case starts =>
    intro s m it rest hup hm hdom hidle hq
    refine .engine (show exec _ s = execMillBatchStart m s from rfl) hup ?_
    rw [State.onEng, millBatchStart_takes hm hdom hidle hq]
    exact s.eng.takeBatch_reads _ _ hm
  case stays =>
    intro s m hup hnot
    refine (Does.engine (show exec _ s = execMillBatchStart m s from rfl) hup).congr (g := fun e => e) ?_
    unfold millBatchStart
    dsimp only
    split
    · rfl
    · next hgo =>
      obtain h | h | h := hnot
      · exact absurd (.inl h) hgo
      · exact absurd (.inr (.inr h)) hgo
      · rw [h]
  case completes =>
    intro s m items hup hrun harm
    refine (Does.engine (show exec _ s = execMillBatchComplete m .clean s from rfl) hup).congr ?_
    simp only [millBatchComplete, hrun, Engine.takeInject_unarmed _ _ harm]
  case fails =>
    intro s m items x hup hrun harm hx
    refine (Does.engine (show exec _ s = execMillBatchComplete m x s from rfl) hup).congr ?_
    obtain rfl | rfl := hx <;> simp only [millBatchComplete, hrun, Engine.takeInject_unarmed _ _ harm]
  case yields =>
    exact fun s m j hup hm hrun hq hbusy => .engine (show exec _ s = execMillYield m s from rfl) hup (millYield_gives hm hrun hq hbusy)
  case foreground =>
    exact fun s m j hup hidle hq hj => .engine (show exec _ s = execMillResume m s from rfl) hup
      (millResume_goesOn hidle hq (by rw [hj]; rfl))
  case other =>
    exact fun s m j rest hup hidle hq hfg hnone hheld => .engine (show exec _ s = execMillResume m s from rfl) hup
      (millResume_goesOn hidle hq (by rw [hnone, hfg, hheld]; rfl)).1

/-! ### JOIN -/

/-- The packet's place, its items, SEQ and the mark of a missed deadline are the same in both. -/
def Pkt.SameJoin (p q : Pkt) : Prop :=
  q.id = p.id ∧ q.gen = p.gen ∧ q.entry = p.entry ∧ q.items = p.items ∧ q.seq = p.seq ∧ bitOf q.flags flJOIN_BUDGET = bitOf p.flags flJOIN_BUDGET

theorem Pkt.SameJoin.refl (p : Pkt) : p.SameJoin p := ⟨rfl, rfl, rfl, rfl, rfl, rfl⟩

theorem Pkt.SameJoin.trans {p q r : Pkt} (h : p.SameJoin q) (h' : q.SameJoin r) : p.SameJoin r := by
  obtain ⟨h1, h2, h3, h4, h5, h6⟩ := h
  obtain ⟨h1', h2', h3', h4', h5', h6'⟩ := h'
  exact ⟨h1'.trans h1, h2'.trans h2, h3'.trans h3, h4'.trans h4, h5'.trans h5, h6'.trans h6⟩

theorem bitOf_or_two_pow (n b i : Nat) : bitOf (n ||| 2 ^ b) i = (bitOf n i || decide (i = b)) := by
  rw [bitOf_eq_testBit, bitOf_eq_testBit, Nat.testBit_or, Nat.testBit_two_pow]
  simp [eq_comm]

theorem Pkt.flagIf_joinBudget (p : Pkt) (c : Bool) (b : Nat) :
    bitOf (p.flagIf c b).flags flJOIN_BUDGET = (bitOf p.flags flJOIN_BUDGET || (c && decide (flJOIN_BUDGET = b))) := by
  cases c
  · simp [Pkt.flagIf]
  · exact (bitOf_or_two_pow _ _ _).trans (by rw [Bool.true_and])

theorem Pkt.flagIf_sameJoin (p : Pkt) (c : Bool) {b : Nat} (hb : flJOIN_BUDGET ≠ b) : p.SameJoin (p.flagIf c b) := by
  refine ⟨?_, ?_, ?_, ?_, ?_, by rw [Pkt.flagIf_joinBudget]; simp [hb]⟩ <;> cases c <;> rfl

theorem Pkt.numFlags_sameJoin (p : Pkt) (fl : Nat) : p.SameJoin (p.numFlags fl) :=
  (p.flagIf_sameJoin _ (by decide)).trans (Pkt.flagIf_sameJoin _ _ (by decide))

theorem Engine.addY_sameJoin (e : Engine) (p : Pkt) : p.SameJoin (e.addY p) := by
  unfold Engine.addY
  split
  · exact .refl p
  · split
    · exact .trans ⟨rfl, rfl, rfl, rfl, rfl, rfl⟩ (Pkt.numFlags_sameJoin _ _)
    · exact .trans ⟨rfl, rfl, rfl, rfl, rfl, rfl⟩ (Pkt.numFlags_sameJoin _ _)

/-- The items whose results a JOIN goes without. -/
def Pkt.missed (p : Pkt) (budget : Nat) : List Nat := p.items.filter fun i => !p.inTime budget i

/-- The results a JOIN takes. -/
def Pkt.taken (p : Pkt) (budget : Nat) : List MilRes := p.results.filter fun r => !(p.missed budget).contains r.item

/-- The packet with SEQ decided and the results taken. -/
def Pkt.decided (p : Pkt) (budget : Nat) : Pkt :=
  { p with seq := !p.items.isEmpty && (p.missed budget).isEmpty && !p.seqLost, results := p.taken budget }

/-- The decided packet with its flags: JOIN_BUDGET where an item is missed, and those of the results. -/
def Pkt.joined (p : Pkt) (budget : Nat) : Pkt :=
  ((p.decided budget).flagIf (!(p.missed budget).isEmpty) flJOIN_BUDGET).numFlags ((p.taken budget).foldl (fun f r => f ||| r.flags) 0)

/-- The packet with the last item's y and summaries, where SEQ is set. -/
def Engine.withLast (e : Engine) (p : Pkt) (rs : List MilRes) (seq : Bool) : Pkt :=
  match rs.find? fun r => some r.item == p.items.getLast? with
  | some r =>
    if seq then
      if p.yItem != some r.item then e.addY { p with y := r.y, kv := r.kv, yItem := some r.item }
      else { p with y := r.y, kv := r.kv, yItem := some r.item }
    else p
  | none => p

/-- The engine as a JOIN ends: the items it goes without are late, and their results are counted. -/
def Engine.joinCounted (e : Engine) (p : Pkt) (budget : Nat) : Engine :=
  (e.markLate (p.missed budget)).countN (Reg.CSC_CNT 7) (p.results.filter fun r => (p.missed budget).contains r.item).length

/-- The packet that a JOIN leaves. -/
def Engine.joinPkt (e : Engine) (p : Pkt) (budget : Nat) : Pkt :=
  (e.joinCounted p budget).withLast (p.joined budget) (p.taken budget) (!p.items.isEmpty && (p.missed budget).isEmpty && !p.seqLost)

theorem Engine.joinEnd_eq (e : Engine) (p : Pkt) (budget : Nat) : e.joinEnd p budget =
    ((e.joinCounted p budget).setPkt (e.joinPkt p budget).id fun _ => e.joinPkt p budget).advance (e.joinPkt p budget).id := rfl

theorem Engine.withLast_sameJoin (e : Engine) (p : Pkt) (rs : List MilRes) (seq : Bool) : p.SameJoin (e.withLast p rs seq) := by
  unfold Engine.withLast
  split
  · split
    · split
      · exact .trans ⟨rfl, rfl, rfl, rfl, rfl, rfl⟩ (Engine.addY_sameJoin _ _)
      · exact ⟨rfl, rfl, rfl, rfl, rfl, rfl⟩
    · exact .refl p
  · exact .refl p

theorem Pkt.joined_sameJoin (p : Pkt) (budget : Nat) :
    ((p.decided budget).flagIf (!(p.missed budget).isEmpty) flJOIN_BUDGET).SameJoin (p.joined budget) := Pkt.numFlags_sameJoin _ _

/-- What a JOIN leaves in its packet: SEQ with every item in time, JOIN_BUDGET with one missed (R276). -/
theorem Engine.joinPkt_spec (e : Engine) (p : Pkt) (budget : Nat) :
    (e.joinPkt p budget).id = p.id ∧ (e.joinPkt p budget).gen = p.gen ∧ (e.joinPkt p budget).entry = p.entry ∧
      (e.joinPkt p budget).items = p.items ∧
      (e.joinPkt p budget).seq = (!p.items.isEmpty && (p.items.all fun i => p.inTime budget i) && !p.seqLost) ∧
      bitOf (e.joinPkt p budget).flags flJOIN_BUDGET = (bitOf p.flags flJOIN_BUDGET || p.items.any fun i => !p.inTime budget i) := by
  have hnone : (p.missed budget).isEmpty = p.items.all fun i => p.inTime budget i := by
    rw [Bool.eq_iff_iff, List.isEmpty_iff, Pkt.missed, List.filter_eq_nil_iff, List.all_eq_true]
    simp
  have hsome : (!(p.missed budget).isEmpty) = p.items.any fun i => !p.inTime budget i := by
    rw [hnone, List.all_eq_not_any_not, Bool.not_not]
  have hflagged : ∀ c, ((p.decided budget).flagIf c flJOIN_BUDGET).id = p.id ∧ ((p.decided budget).flagIf c flJOIN_BUDGET).gen = p.gen ∧
      ((p.decided budget).flagIf c flJOIN_BUDGET).entry = p.entry ∧ ((p.decided budget).flagIf c flJOIN_BUDGET).items = p.items ∧
      ((p.decided budget).flagIf c flJOIN_BUDGET).seq = (p.decided budget).seq := fun c => by cases c <;> exact ⟨rfl, rfl, rfl, rfl, rfl⟩
  obtain ⟨hid, hgen, hentry, hitems, hseq⟩ := hflagged (!(p.missed budget).isEmpty)
  obtain ⟨hid', hgen', hentry', hitems', hseq', hflag⟩ := (p.joined_sameJoin budget).trans ((e.joinCounted p budget).withLast_sameJoin
      (p.joined budget) (p.taken budget) (!p.items.isEmpty && (p.missed budget).isEmpty && !p.seqLost))
  rw [Pkt.flagIf_joinBudget, hsome, decide_eq_true rfl, Bool.and_true] at hflag
  refine ⟨hid'.trans hid, hgen'.trans hgen, hentry'.trans hentry, hitems'.trans hitems, (hseq'.trans hseq).trans ?_, hflag⟩
  rw [Pkt.decided, hnone]

/-- Unless END follows, a step that is done sets the next entry and no step is begun. -/
theorem Engine.advance_next {e : Engine} {id : Nat} {p : Pkt} (h : e.pkt id = some p) (hmode : entMode (e.entryOf p) ≠ 2) :
    ∃ n, e.advance id = e.setPkt id fun q => { q with entry := n, begun := none, why := 0 } := by
  unfold Engine.advance
  rw [h]
  exact ⟨_, if_neg hmode⟩

/-- JOIN ends with every result there, with no budget, or at its deadline. -/
theorem joinStep_ends {p : Pkt} {arg : Nat} {e : Engine} (h : (p.items.all fun i => p.results.any fun r => r.item == i) = true ∨
    arg % 4096 = 0 ∨ p.joinDeadline (arg % 4096) ≤ e.time) : joinStep p arg e = e.joinEnd p (arg % 4096) := by
  refine if_neg ?_
  rintro ⟨hmissing, hbudget, hlt⟩
  obtain hall | hzero | hlate := h
  · rw [hall] at hmissing
    cases hmissing
  · exact hbudget hzero
  · omega

/-- Settles O34: the dispatched step is `joinStep`, and `joinEnd` leaves `joinPkt` in the packet's place. -/
theorem joinSetsSeq : Obligations.JoinSetsSeq := by
  unfold Obligations.JoinSetsSeq
  refine ⟨?waits, ?ends, ?leaves, ?deadline, ?late⟩
  case waits =>
    intro s id p arg e hup hdisp hmissing hbudget hlt
    refine (Does.engine (show exec _ s = execJoin id s from rfl) hup).congr ((Engine.dispatch_some hdisp).trans ?_)
    exact if_pos ⟨by rw [hmissing]; rfl, hbudget, hlt⟩
  case ends =>
    intro s id p arg e hup hdisp hend
    refine (Does.engine (show exec _ s = execJoin id s from rfl) hup).congr ((Engine.dispatch_some hdisp).trans ?_)
    exact joinStep_ends hend
  case leaves =>
    intro s id p arg e hup hdisp hmode hend
    obtain ⟨hid, hpkt, -, -, -, hmem⟩ := Engine.dispatched_keeps hdisp
    obtain ⟨hqid, hgen, hentry, hitems, hseq, hflag⟩ := e.joinPkt_spec p (arg % 4096)
    refine .engine (show exec _ s = execJoin id s from rfl) hup ?_
    rw [State.onEng, Engine.dispatch_some hdisp, joinStep_ends hend, Engine.joinEnd_eq, hqid, hid]
    generalize e.joinPkt p (arg % 4096) = q at *
    have hset : ((e.joinCounted p (arg % 4096)).setPkt id fun _ => q).pkt id = some q :=
      Engine.pkt_setPkt (p := p) hpkt fun _ _ => hqid.trans hid
    have hbank : ((e.joinCounted p (arg % 4096)).setPkt id fun _ => q).entryOf q = e.entryOf p := by
      have hgenReg : ((e.joinCounted p (arg % 4096)).setPkt id fun _ => q).rd Reg.WNW_GEN = e.rd Reg.WNW_GEN :=
        (Engine.rd_countN_other _ _ (by decide)).trans rfl
      simp only [Engine.entryOf, Engine.bankOf, hgenReg, hgen, hentry]
      rfl
    obtain ⟨n, hnext⟩ := Engine.advance_next hset (by rw [hbank]; exact hmode)
    rw [hnext]
    refine ⟨{ q with entry := n, begun := none, why := 0 }, Engine.pkt_setPkt hset fun _ h => h, hseq, hflag, rfl, hitems, ?_⟩
    rw [Engine.setPkt_mem, Engine.setPkt_mem, ← hmem]
    rfl
  case deadline =>
    intro s id p hup hp hpath hfailed hkind hbegun hlate
    have hdisp : s.eng.dispatched id 8 = some (p, entArg (s.eng.entryOf p), s.eng) := by
      simp [Engine.dispatched, hp, hpath, hfailed, hkind, hbegun]
    refine (Does.engine (show exec _ s = execJoinDeadline id s from rfl) hup).congr ?_
    simp only [joinDeadline, hp, hbegun, if_true]
    rw [Engine.dispatch_some hdisp]
    exact joinStep_ends (.inr (.inr hlate))
  case late =>
    intro e it o hlate
    rw [Engine.joinResult, if_pos hlate]

end Sys2Proof.Machine

/-!
PROOFS. MIL_RUN and MIL_TEMPLATE (O35).
-/
namespace Sys2Proof.Machine

/-! ### A job's first row -/

/-- The engine and the data as a job's command starts. -/
def Engine.milData (e : Engine) (id : Nat) (c : Cmd) (h : HostRead) : Option Bytes × Engine :=
  (e.setCmd id fun c => { c with ph := .running }).cmdData c h

section First
variable {e e1 : Engine} {id op : Nat} {c : Cmd} {h : HostRead} {mk : Cmd → Bytes → MilJob} {quad : Cmd → Nat} {d : Bytes}
  (hc : e.startable id op = some c) (hd : e.milData id c h = (some d, e1))
include hc hd

/-- A job that passes its checks is placed on its quad. -/
theorem milCmd_places {k : Nat} (hquad : e1.quadFor (quad c) = some (some k)) (hcheck : e1.jobCheck (mk c d) = none) :
    milCmd id op false h mk quad e = e1.placeJob { mk c d with quad := k } := by
  have hd' : (e.setCmd id fun c => { c with ph := .running }).cmdData c h = (some d, e1) := hd
  simp only [milCmd, hc, hd', hquad, hcheck, Bool.false_eq_true, if_false]

/-- A job that breaks a check ends with the check's status and RESULT. -/
theorem milCmd_refused {k : Option Nat} {st res : Nat} (hquad : e1.quadFor (quad c) = some k) (hcheck : e1.jobCheck (mk c d) = some (st, res)) :
    milCmd id op false h mk quad e = (e1.traceCmd c 2 256 0).complete id st res 0 none 256 := by
  have hd' : (e.setCmd id fun c => { c with ph := .running }).cmdData c h = (some d, e1) := hd
  simp only [milCmd, hc, hd', hquad, hcheck, Bool.false_eq_true, if_false]

/-- A job whose quad is not ON ends with DOMAIN_OFF. -/
theorem milCmd_off (hquad : e1.quadFor (quad c) = some none) (hcheck : e1.jobCheck (mk c d) = none) :
    milCmd id op false h mk quad e = (e1.traceCmd c 2 256 0).complete id 0x21 0 0 none 256 := by
  have hd' : (e.setCmd id fun c => { c with ph := .running }).cmdData c h = (some d, e1) := hd
  simp only [milCmd, hc, hd', hquad, hcheck, Bool.false_eq_true, if_false]

end First

theorem Engine.placeJob_on {e : Engine} {j : MilJob} {m : Nat} (h : e.jobPlace j = some m) : e.placeJob j = e.startJob j m := by
  rw [Engine.placeJob, h]

/-! ### A job's later rows -/

/-- With nothing that waits, no turn is taken. -/
theorem Engine.jobTurn_none {e : Engine} (o : MilOwner) (h : e.mil.waiting = []) : e.jobTurn o = e := by
  rw [Engine.jobTurn, h]
  rfl

/-- The row that ends a job completes its command with what its stages gave, and writes a template's block. -/
theorem milCmd_ends {e : Engine} {id op m : Nat} {h : HostRead} {mk : Cmd → Bytes → MilJob} {quad : Cmd → Nat} {j : MilJob}
    (hc : e.startable id op = none) (hwait : e.mil.waiting = []) (hmill : e.jobMill (.cmd id) = some m) (hrun : e.milRun m = some (.job j)) :
    milCmd id op true h mk quad e =
      Engine.complete (match (((e.setMilRun m none).busy (256 + m)).runJob j).out, (((e.setMilRun m none).busy (256 + m)).runJob j).e.cmd id with
        | some b, some c => (((e.setMilRun m none).busy (256 + m)).runJob j).e.cmdWrite c b
        | _, _ => (((e.setMilRun m none).busy (256 + m)).runJob j).e) id (((e.setMilRun m none).busy (256 + m)).runJob j).status
          (((e.setMilRun m none).busy (256 + m)).runJob j).result (((e.setMilRun m none).busy (256 + m)).runJob j).flags none (256 + m) := by
  have hend : e.endJob (.cmd id) = some (m, j, ((e.setMilRun m none).busy (256 + m)).runJob j) := by
    rw [Engine.endJob, hmill, Option.bind_some, hrun]
  simp only [milCmd, hc, Engine.jobTurn_none _ hwait, if_true, hend] <;> rfl

/-- Settles O35: both rows are `milCmd` with their job and its quad. -/
theorem millCommands : Obligations.MillCommands := by
  unfold Obligations.MillCommands
  refine ⟨?runPlaced, ?templatePlaced, ?off, ?refused, ?ends, ?block, ?nothing⟩
  case runPlaced =>
    intro s id h c d e1 k m hup hc hd hquad hcheck hplace
    refine (Does.engine (show exec _ s = execMilRun id h false s from rfl) hup).congr ?_
    exact (milCmd_places hc hd hquad hcheck).trans (Engine.placeJob_on hplace)
  case templatePlaced =>
    intro s id h c d e1 k m hup hc hd hquad hcheck hplace
    refine (Does.engine (show exec _ s = execMilTemplate id h false s from rfl) hup).congr ?_
    exact (milCmd_places hc hd hquad hcheck).trans (Engine.placeJob_on hplace)
  case off =>
    intro s id h c d e1 hup hc hd hquad hcheck
    exact (Does.engine (show exec _ s = execMilRun id h false s from rfl) hup).congr (milCmd_off hc hd hquad hcheck)
  case refused =>
    intro s id h c d e1 k st res hup hc hd hquad hcheck
    exact (Does.engine (show exec _ s = execMilRun id h false s from rfl) hup).congr (milCmd_refused hc hd hquad hcheck)
  case ends =>
    intro s id h m j hup hc hwait hmill hrun hout
    refine (Does.engine (show exec _ s = execMilRun id h true s from rfl) hup).congr ((milCmd_ends hc hwait hmill hrun).trans ?_)
    rw [hout]
  case block =>
    intro s id h m j b c hup hc hwait hmill hrun hout hcmd
    refine (Does.engine (show exec _ s = execMilTemplate id h true s from rfl) hup).congr ((milCmd_ends hc hwait hmill hrun).trans ?_)
    rw [hout, hcmd]
  case nothing =>
    intro s id h hup hc hwait
    refine (Does.engine (show exec _ s = execMilRun id h false s from rfl) hup).congr (g := fun e => e) ?_
    simp only [milCmd, hc, Engine.jobTurn_none _ hwait, Bool.false_eq_true, if_false]

end Sys2Proof.Machine

/-!
PROOFS. The sluice: ENQUEUE_TX and the policer (O36), transmission (O37), gate lists, EMIT and samples (O38).
-/
namespace Sys2Proof.Machine

/-! ### Queues and ports -/

@[simp] theorem Engine.highWater_slc (e : Engine) (f : Fld) (v : Nat) : (e.highWater f v).slc = e.slc := by
  obtain ⟨rs, h⟩ := e.highWater_get f v
  rw [h]

theorem Engine.txq_congr {e e' : Engine} (h : e'.slc = e.slc) (t : Nat) : e'.txq t = e.txq t := by rw [Engine.txq, Engine.txq, h]

theorem Engine.txq_setTxq (e : Engine) (t : Nat) (f : TxQ → TxQ) : (e.setTxq t f).txq t = f (e.txq t) := Tbl.get_set_same _ _ _ _

theorem Engine.txp_setTxp (e : Engine) (p : Nat) (f : TxPort → TxPort) : (e.setTxp p f).txp p = f (e.txp p) := Tbl.get_set_same _ _ _ _

/-- The head's tag and time are not its queue's length. -/
theorem Engine.txRetag_length (e : Engine) (t : Nat) : ((e.txRetag t).txq t).frames.length = (e.txq t).frames.length := by
  unfold Engine.txRetag
  split
  · rfl
  · rename_i f l hf
    dsimp only
    have hset : ∀ e' : Engine, e'.slc = e.slc →
        ((e'.setTxq t fun q => { q with frames := modAt q.frames 0 fun f => { f with headAt := e'.time } }).txq t).frames.length =
          (e.txq t).frames.length := by
      intro e' h
      rw [Engine.txq_setTxq, Engine.txq_congr h]
      exact List.length_modify _ _ _
    split
    · rw [Engine.txq_congr ((Engine.evt_slc _ _).trans (Engine.count_slc _ _))]
      exact hset _ (Engine.put_slc _ _ _)
    · exact hset _ (Engine.put_slc _ _ _)

theorem Engine.txPush_length (e : Engine) (t : Nat) (f : TxFrame) :
    ((e.txPush t f).txq t).frames.length = (e.txq t).frames.length + 1 := by
  have hset : ((e.setTxq t fun q => { q with frames := q.frames ++ [f] }).txq t).frames.length = (e.txq t).frames.length + 1 := by
    rw [Engine.txq_setTxq]
    exact List.length_append
  unfold Engine.txPush
  dsimp only
  rw [Engine.txq_congr (Engine.highWater_slc _ _ _)]
  split
  · rw [Engine.txRetag_length, hset]
  · exact hset

/-! ### ENQUEUE_TX and the policer -/

theorem Engine.txAdmit_fits {e : Engine} {p : Pkt} {t col : Nat} (h : (e.txq t).depth + p.cells ≤ e.txLimit t col) :
    ((e.txAdmit p t col).txq t).frames.length = (e.txq t).frames.length + 1 := by
  unfold Engine.txAdmit
  exact (congrArg (fun e' : Engine => (e'.txq t).frames.length) (if_pos h)).trans (Engine.txPush_length _ _ _)

theorem Engine.txAdmit_full {e : Engine} {p : Pkt} {t col : Nat} (h : e.txLimit t col < (e.txq t).depth + p.cells) :
    e.txAdmit p t col = (e.tally (Reg.SLC_TXQ_TALLY t 2)).count (Reg.SLC_CNT 3) := by
  unfold Engine.txAdmit
  exact if_neg (Nat.not_le.mpr h)

/-- The decision of a policer with `tc` and `tp` in its buckets, in units of 2^-20 byte. -/
def policeColour (tc tp b col : Nat) : Nat := if col = 2 ∨ tp < b then 2 else if col = 1 ∨ tc < b then 1 else 0

theorem Engine.police_colour (e : Engine) (c col len : Nat) :
    (e.police c col len).1 = policeColour
      (min (e.get (Fld.SLC_POL_CBS_BYTES c) * 2 ^ 20)
        ((Tbl.get {} e.slc.pol c).tc + e.get (Fld.SLC_POL_CIR_RATE c) * (e.cyc - (Tbl.get {} e.slc.pol c).last)))
      (min (e.get (Fld.SLC_POL_PBS_BYTES c) * 2 ^ 20)
        ((Tbl.get {} e.slc.pol c).tp + e.get (Fld.SLC_POL_PIR_RATE c) * (e.cyc - (Tbl.get {} e.slc.pol c).last)))
      (len * 2 ^ 20) col := by
  unfold Engine.police policeColour
  dsimp only
  split
  · rfl
  · split
    · rfl
    · rfl

theorem policeColour_red (tc tp b : Nat) : policeColour tc tp b 2 = 2 := if_pos (.inl rfl)

theorem policeColour_over {tc tp b : Nat} (col : Nat) (h : tp < b) : policeColour tc tp b col = 2 := if_pos (.inr h)

theorem policeColour_green {tc tp b : Nat} (hc : b ≤ tc) (hp : b ≤ tp) : policeColour tc tp b 0 = 0 := by
  simp [policeColour, Nat.not_lt.mpr hc, Nat.not_lt.mpr hp]

theorem policeColour_yellow {tc tp b : Nat} (hp : b ≤ tp) : policeColour tc tp b 1 = 1 := by
  simp [policeColour, Nat.not_lt.mpr hp]

theorem policeColour_committed {tc tp b : Nat} (hc : tc < b) (hp : b ≤ tp) : policeColour tc tp b 0 = 1 := by
  simp [policeColour, hc, Nat.not_lt.mpr hp]

/-- A frame longer than the peak burst is red. -/
theorem Engine.police_oversize {e : Engine} {c len : Nat} (col : Nat) (h : e.get (Fld.SLC_POL_PBS_BYTES c) < len) :
    (e.police c col len).1 = 2 :=
  (e.police_colour c col len).trans
    (policeColour_over col ((Nat.min_le_left _ _).trans_lt (Nat.mul_lt_mul_of_pos_right h (Nat.two_pow_pos 20))))

theorem Engine.polFill_pol (e : Engine) (c : Nat) : Tbl.get {} (e.polFill c).slc.pol c =
    ⟨e.get (Fld.SLC_POL_CBS_BYTES c) * 2 ^ 20, e.get (Fld.SLC_POL_PBS_BYTES c) * 2 ^ 20, e.cyc⟩ := by
  unfold Engine.polFill
  exact Tbl.get_set_same _ _ _ _

theorem Engine.polFill_get (e : Engine) (c : Nat) (f : Fld) : (e.polFill c).get f = e.get f := by
  rw [Engine.get, Engine.rd, Engine.polFill]
  rfl

/-- Just after it is enabled a policer has both bursts to give. -/
theorem Engine.police_full (e : Engine) (c col len : Nat) : ((e.polFill c).police c col len).1 =
    policeColour (e.get (Fld.SLC_POL_CBS_BYTES c) * 2 ^ 20) (e.get (Fld.SLC_POL_PBS_BYTES c) * 2 ^ 20) (len * 2 ^ 20) col := by
  have hmin : ∀ a b : Nat, min a (a + b) = a := fun a b => Nat.min_eq_left (Nat.le_add_right a b)
  rw [Engine.police_colour, Engine.polFill_pol, Engine.polFill_get e c (Fld.SLC_POL_CBS_BYTES c),
    Engine.polFill_get e c (Fld.SLC_POL_PBS_BYTES c)]
  simp only [hmin]

/-- Settles O36. -/
theorem framesAreEnqueued : Obligations.FramesAreEnqueued := by
  unfold Obligations.FramesAreEnqueued
  refine ⟨fun s id p arg e hup hd htx => ?_, fun s id p arg e hup hd htx htap => ?_, fun s id p arg e hup hd htx hmode hgood hwait => ?_,
    fun s id p arg e hup hd htx hmode hgood => ?_, fun e p hdown => ?_, fun e p t col => Engine.txAdmit_fits, fun e p t col => Engine.txAdmit_full,
    fun e c len => (e.police_colour c 2 len).trans (policeColour_red _ _ _), fun e c len col => Engine.police_oversize col, fun e c len hc hp => ⟨?_, ?_⟩, fun e c len hc hp => ?_⟩
  · refine (Does.engine (show exec _ s = execEnqueueTx id s from rfl) hup).congr ((Engine.dispatch_some hd).trans ?_)
    rw [enqueueTxStep, if_pos htx]
  · refine (Does.engine (show exec _ s = execEnqueueTx id s from rfl) hup).congr ((Engine.dispatch_some hd).trans ?_)
    rw [enqueueTxStep, if_neg (by simp [htx])]
    exact if_pos htap
  · refine (Does.engine (show exec _ s = execEnqueueTx id s from rfl) hup).congr ((Engine.dispatch_some hd).trans ?_)
    rw [enqueueTxStep, if_neg (by simp [htx])]
    exact (if_neg hmode).trans (if_pos ⟨by simp [hgood], hwait⟩)
  · refine (Does.engine (show exec _ s = execEnqueueTx id s from rfl) hup).congr ((Engine.dispatch_some hd).trans ?_)
    rw [enqueueTxStep, if_neg (by simp [htx])]
    exact (if_neg hmode).trans (if_neg fun h => by simp [hgood] at h)
  · unfold Engine.enqueueTx
    exact if_pos (by simp [hdown])
  · exact (e.police_full c 0 len).trans (policeColour_green (Nat.mul_le_mul_right _ hc) (Nat.mul_le_mul_right _ hp))
  · exact (e.police_full c 1 len).trans (policeColour_yellow (Nat.mul_le_mul_right _ hp))
  · exact (e.police_full c 0 len).trans
      (policeColour_committed (Nat.mul_lt_mul_of_pos_right hc (Nat.two_pow_pos 20)) (Nat.mul_le_mul_right _ hp))

/-! ### Transmission -/

/-- The queue that `leastTag` picks is one of those given, and none of them has a lesser distance. -/
theorem leastTag_spec {v : Nat} {tag : Nat → Nat} {qs : List Nat} {t : Nat} (h : leastTag v tag qs = some t) :
    t ∈ qs ∧ ∀ u ∈ qs, tagDist (tag t) v ≤ tagDist (tag u) v := by
  induction qs using List.reverseRecOn generalizing t with
  | nil => cases h
  | append_singleton qs u ih =>
    rw [leastTag, List.foldl_append, List.foldl_cons, List.foldl_nil] at h
    change (match leastTag v tag qs with
      | none => some u
      | some x => if tagDist (tag u) v < tagDist (tag x) v then some u else some x) = some t at h
    cases hx : leastTag v tag qs with
    | none =>
      rw [hx] at h
      have hnil : qs = [] := by
        cases qs using List.reverseRecOn with
        | nil => rfl
        | append_singleton l a =>
          rw [leastTag, List.foldl_append, List.foldl_cons, List.foldl_nil] at hx
          split at hx
          · cases hx
          · split at hx <;> cases hx
      cases h
      simp [hnil]
    | some x =>
      rw [hx] at h
      obtain ⟨hmem, hle⟩ := ih hx
      simp only [List.mem_append, List.mem_singleton]
      dsimp only at h
      split at h
      · rename_i hlt
        cases h
        refine ⟨.inr rfl, fun w hw => ?_⟩
        obtain hw | rfl := hw
        · exact hlt.le.trans (hle w hw)
        · exact le_rfl
      · rename_i hlt
        cases h
        refine ⟨.inl hmem, fun w hw => ?_⟩
        obtain hw | rfl := hw
        · exact hle w hw
        · exact not_lt.mp hlt

theorem Engine.txSelect_spec {e : Engine} {p t : Nat} (h : e.txSelect p = some t) :
    (t ∈ e.portQueues p ∧ e.txEligible t = true) ∧ ∀ u ∈ e.portQueues p, e.txEligible u = true →
      tagDist (e.get (Fld.SLC_TXQ_TAG_F t)) (e.txp p).v ≤ tagDist (e.get (Fld.SLC_TXQ_TAG_F u)) (e.txp p).v := by
  obtain ⟨hmem, hle⟩ := leastTag_spec h
  exact ⟨List.mem_filter.mp hmem, fun u hu he => hle u (List.mem_filter.mpr ⟨hu, he⟩)⟩

/-- A head waits for its LAUNCH. -/
theorem Engine.txEligible_early {e : Engine} {t : Nat} {f : TxFrame} {rest : List TxFrame} (hf : (e.txq t).frames = f :: rest)
    (h : e.time < f.launch) : e.txEligible t = false := by
  unfold Engine.txEligible
  rw [hf]
  have h0 : (f.launch == 0) = false := by simp; omega
  have h1 : decide (f.launch ≤ e.time) = false := by simp; omega
  simp [h0, h1]

/-- Settles O37. -/
theorem portsTransmit : Obligations.PortsTransmit := by
  unfold Obligations.PortsTransmit
  refine ⟨fun s p frac ecc cell t f rest hup hpres hidle hsel hq => ?_, fun s p frac ecc cell hup hno => ?_, fun s p c n hup hcur hlen hdue => ?_,
    fun s p c n hup hcur hlen hdue => ?_, fun s t hup => ?_, fun s p hup => ?_, fun e t f rest => Engine.txEligible_early,
    fun e p t h => (Engine.txSelect_spec h).1, fun e p t u h hu he => (Engine.txSelect_spec h).2 u hu he⟩
  · refine (Does.engine (show exec _ s = execTxFrameStart p frac ecc cell s from rfl) hup).congr ?_
    rw [txFrameStart, if_neg (by simp [hpres, hidle])]
    dsimp only
    rw [hsel]
    dsimp only
    rw [hq]
  · refine (Does.engine (show exec _ s = execTxFrameStart p frac ecc cell s from rfl) hup).congr (g := fun e => e) ?_
    exact if_pos (hno.imp (by simp [·]) id)
  · refine (Does.engine (show exec _ s = execTxFrameEnd p s from rfl) hup).congr ?_
    unfold txFrameEnd
    rw [hcur]
    dsimp only
    rw [hlen]
    exact if_neg (Nat.not_lt.mpr hdue)
  · refine (Does.engine (show exec _ s = execTxFrameEnd p s from rfl) hup).congr (g := fun e => e) ?_
    unfold txFrameEnd
    rw [hcur]
    dsimp only
    rw [hlen]
    exact if_pos hdue
  · exact Does.engine (show exec _ s = execLaunchTimeReached t s from rfl) hup
  · exact Does.engine (show exec _ s = execGateEntryChange p s from rfl) hup

/-! ### Gate lists -/

/-- The first multiple of `c` that is not below `a`. -/
theorem ceilDiv_mul {a c : Nat} (hc : 0 < c) : a ≤ ceilDiv a c * c ∧ ceilDiv a c * c ≤ a + c - 1 := by
  have hdiv := Nat.div_add_mod (a + c - 1) c
  have hmod := Nat.mod_lt (a + c - 1) hc
  rw [ceilDiv, Nat.mul_comm]
  omega

theorem ceilDiv_zero {c : Nat} (hc : 0 < c) : ceilDiv 0 c = 0 := Nat.div_eq_of_lt (by omega)

/-- The activation time of a list committed at `time`: the first BASE + k × CYCLE that has not passed. -/
theorem gclAct_spec {base time c : Nat} (hc : 0 < c) : time ≤ base + ceilDiv (time - base) c * c ∧
    base ≤ base + ceilDiv (time - base) c * c ∧ (base + ceilDiv (time - base) c * c - base) % c = 0 ∧
    (base + ceilDiv (time - base) c * c = base ∨ base + ceilDiv (time - base) c * c < time + c) := by
  obtain ⟨hlo, hhi⟩ := ceilDiv_mul (a := time - base) hc
  refine ⟨by omega, Nat.le_add_right _ _, by rw [Nat.add_sub_cancel_left, Nat.mul_mod_left], ?_⟩
  obtain hle | hlt := Nat.le_total time base
  · rw [Nat.sub_eq_zero_of_le hle, ceilDiv_zero hc, Nat.zero_mul]
    exact .inl rfl
  · right
    omega

/-- The administrative bank of a port as the list that a COMMIT at this time makes pending. -/
def Engine.adminGcl (e : Engine) (p : Nat) : Gcl :=
  ⟨(List.range (e.get (Fld.SLC_GCL_CTRL_NENT p))).map fun i => (e.rd (Reg.SLC_GCL_GATES p i), e.get (Fld.SLC_GCL_INT_INTERVAL p i)),
    e.get (Fld.SLC_GCL_CYCLE_TICKS p), e.rd (Reg.SLC_GCL_BASE p),
    e.rd (Reg.SLC_GCL_BASE p) + ceilDiv (e.time - e.rd (Reg.SLC_GCL_BASE p)) (e.get (Fld.SLC_GCL_CYCLE_TICKS p)) *
      e.get (Fld.SLC_GCL_CYCLE_TICKS p)⟩

theorem gclCommit_sound {p : Nat} {e : Engine} (hp : e.present p = true) (hok : e.gclOk p = true) : gclCommit p e =
    ((e.setTxp p fun x => { x with pendGcl := some (e.adminGcl p) }).wr (Reg.SLC_GCL_ACT p) (e.adminGcl p).act).put
      (Fld.SLC_GCL_CTRL_PEND p) 1 := by
  unfold gclCommit
  exact (if_neg (by simp [hp])).trans (if_neg (by simp [hok]))

theorem Engine.txp_congr {e e' : Engine} (h : e'.slc.ports = e.slc.ports) (p : Nat) : e'.txp p = e.txp p := by rw [Engine.txp, Engine.txp, h]

theorem Engine.rd_of_regs {e e' : Engine} (h : e'.regs = e.regs) (off : Nat) : e'.rd off = e.rd off := by rw [Engine.rd, Engine.rd, h]

theorem Engine.is_of_regs {e e' : Engine} (h : e'.regs = e.regs) (f : Fld) : e'.is f = e.is f := by
  rw [Engine.is, Engine.is, Engine.get, Engine.get, Engine.rd_of_regs h]

/-- The head of queue `t` is head from now on. -/
def Engine.restartHead (e : Engine) (t : Nat) : Engine :=
  if (e.txq t).frames.isEmpty then e
  else e.setTxq t fun q => { q with frames := modAt q.frames 0 fun f => { f with headAt := e.time } }

/-- Restarting heads leaves the registers and the ports. -/
theorem Engine.restartHeads_leaves (l : List Nat) (e : Engine) :
    (l.foldl Engine.restartHead e).regs = e.regs ∧ (l.foldl Engine.restartHead e).slc.ports = e.slc.ports := by
  induction l generalizing e with
  | nil => exact ⟨rfl, rfl⟩
  | cons t l ih =>
    have hone : (e.restartHead t).regs = e.regs ∧ (e.restartHead t).slc.ports = e.slc.ports := by
      unfold Engine.restartHead
      split
      · exact ⟨rfl, rfl⟩
      · exact ⟨rfl, rfl⟩
    rw [List.foldl_cons]
    exact ⟨(ih _).1.trans hone.1, (ih _).2.trans hone.2⟩

/-- The engine as a pending list becomes operative, before the heads' times restart. -/
def Engine.gclActs (e : Engine) (p : Nat) (g : Gcl) : Engine :=
  (((e.setTxp p fun x => { x with oper := some g, pendGcl := none }).put (Fld.SLC_GCL_CTRL_PEND p) 0).count (Reg.SLC_CNT 6)).evt
    Fld.SLC_EVT_GCL_ACTIVE

theorem gclActivation_due {p : Nat} {e : Engine} {g : Gcl} (hg : (e.txp p).pendGcl = some g) (h : g.act ≤ e.time) :
    gclActivation p e = ((e.gclActs p g).portQueues p).foldl Engine.restartHead (e.gclActs p g) := by
  unfold gclActivation
  rw [hg]
  exact if_neg (Nat.not_lt.mpr h)

theorem Engine.gclActs_reads {p : Nat} (hp : p < 32) (e : Engine) (g : Gcl) : ((e.gclActs p g).txp p).oper = some g ∧
    ((e.gclActs p g).txp p).pendGcl = none ∧ (e.gclActs p g).is (Fld.SLC_GCL_CTRL_PEND p) = false ∧
    (e.gclActs p g).rd (Reg.SLC_CNT 6) = satCount 48 (e.rd (Reg.SLC_CNT 6)) 1 ∧ (e.gclActs p g).is Fld.SLC_EVT_GCL_ACTIVE = true := by
  have hset : (e.gclActs p g).txp p = { e.txp p with oper := some g, pendGcl := none } := Tbl.get_set_same _ _ _ _
  rw [hset]
  have hctrl : Reg.SLC_CNT 6 ≠ Reg.SLC_GCL_CTRL p := by simp only [Reg.SLC_CNT, Reg.SLC_GCL_CTRL]; omega
  unfold Engine.gclActs
  refine ⟨rfl, rfl, ?_, ?_, Engine.is_evt_same _ _ rfl (by decide)⟩
  · rw [Engine.is_evt_other _ _ _ (.inl (by simp only [Fld.SLC_GCL_CTRL_PEND, Fld.SLC_EVT_GCL_ACTIVE, Reg.SLC_GCL_CTRL, Reg.SLC_EVT]; omega)),
      Engine.is_count_other _ _ (by exact hctrl.symm), Engine.is_put_same _ _ _ ⟨(by decide : 2 < 64), rfl⟩]
    rfl
  · rw [Engine.rd_evt_other _ _ (by decide), Engine.rd_count_same, Engine.rd_put_other _ _ _ (by exact hctrl)]
    rfl

/-! ### EMIT -/

@[simp] theorem Engine.trace_slc (e : Engine) (src : Fld) (k w1 w2 aux : Nat) : (e.trace src k w1 w2 aux).slc = e.slc := by
  obtain ⟨f, hf⟩ | ⟨f, hf⟩ := e.trace_cases src k w1 w2 aux
  · rw [hf]; rfl
  · rw [hf]; rfl

@[simp] theorem Engine.started_slc (e : Engine) (c : Cmd) (n : Nat) : (e.started c n).slc = e.slc := by
  rw [Engine.started, Engine.traceCmd, Engine.trace_slc]
  rfl

@[simp] theorem Engine.endsUnstarted_slc (e : Engine) (c : Cmd) (st : Nat) : (e.endsUnstarted c st).slc = e.slc := rfl

theorem Engine.endAll_slc (st : Nat) (l : List Cmd) (e : Engine) : (l.foldl (fun e d => e.endsUnstarted d st) e).slc = e.slc := by
  induction l generalizing e with
  | nil => rfl
  | cons c l ih => rw [List.foldl_cons, ih, Engine.endsUnstarted_slc]

@[simp] theorem Engine.dropCmd_slc (e : Engine) (id : Nat) : (e.dropCmd id).slc = e.slc := by
  unfold Engine.dropCmd
  split
  · rfl
  · exact Engine.endAll_slc _ _ _

/-- Completing a command leaves the sluice. -/
@[simp] theorem Engine.complete_slc (e : Engine) (id st res fl : Nat) (stamp : Option Nat) (n : Nat) :
    (e.complete id st res fl stamp n).slc = e.slc := by
  unfold Engine.complete
  split
  · rfl
  · dsimp only
    split
    · rw [Engine.dropCmd_slc, Engine.traceCmd, Engine.trace_slc]
    · rfl

theorem Engine.emitAdmit_none {e : Engine} {id : Nat} (h : e.slc.emits = []) : e.emitAdmit id = e := by
  rw [Engine.emitAdmit, Engine.emitOf, h]
  rfl

/-! ### O38 -/

/-- Settles O38. -/
theorem gatesEmitsAndSamples : Obligations.GatesEmitsAndSamples := by
  unfold Obligations.GatesEmitsAndSamples
  refine ⟨fun s p hup hpcie hpend hp hok => ?_, fun s p hup hpcie hpend hp hok => ?_, fun s p hup hpcie hpend hp => ?_,
    fun s p g hup hp hg hact => ?_, fun s p g hup hg hact => ?_, fun s t g f rest w hup hg hf hw hen hlong hlate => ?_,
    fun s id h c st hup hc hst hnil => ?_, fun s id h c d e1 hup hc hst hfree hd => ?_, fun s k hup hpcie hen ht hnone hk hst hkind => ?_,
    fun s hup hpcie hen ht hnone hbad => ?_⟩
  · have hp32 : p < 32 := by simp only [Engine.present, Bool.and_eq_true, decide_eq_true_eq] at hp; exact hp.1
    have hcycle : 0 < s.eng.get (Fld.SLC_GCL_CYCLE_TICKS p) := by
      simp only [Engine.gclOk, Bool.and_eq_true, decide_eq_true_eq] at hok
      exact hok.1.2
    refine .host (show exec _ s = execGclCommit p s from rfl) hup hpcie ?_
    rw [State.onEng_eng, pendWrite, if_neg (by simp [hpend]), if_pos (by simp [hp, hok]), gclCommit_sound hp hok]
    obtain ⟨h1, h2, h3, h4⟩ := gclAct_spec (base := s.eng.rd (Reg.SLC_GCL_BASE p)) (time := s.eng.time) hcycle
    have hset := s.eng.txp_setTxp p fun x => { x with pendGcl := some (s.eng.adminGcl p) }
    have htxp : ∀ (e : Engine) (off v x y : Nat) (f g : Fld), (((e.wr off v).put f x).put g y).txp p = e.txp p := fun _ _ _ _ _ _ _ => rfl
    refine ⟨s.eng.adminGcl p, by rw [htxp, hset], rfl, rfl, h1, h2, h3, h4, by simp [Engine.adminGcl], ?_, by rw [htxp, hset]⟩
    rw [Engine.is_put_other _ _ _ _ (.inl (by simp only [Fld.SLC_GCL_CTRL_PEND, Fld.SLC_PPROFILE_PROFILE, Reg.SLC_GCL_CTRL, Reg.SLC_PPROFILE]; omega)),
      Engine.is_put_same _ _ _ ⟨(by decide : 2 < 64), rfl⟩]
    rfl
  · refine (Does.host (show exec _ s = execGclCommit p s from rfl) hup hpcie).congr ?_
    rw [pendWrite, if_neg (by simp [hpend]), if_neg (by simp [hok])]
    unfold gclCommit
    exact (if_neg (by simp [hp])).trans (if_pos (by simp [hok]))
  · refine .host (show exec _ s = execGclDisable p s from rfl) hup hpcie ?_
    rw [State.onEng_eng, slcPortWrite, pendWrite, if_neg (by simp [hpend]), if_neg (by omega)]
    have hother : Reg.SLC_GCL_CTRL p ≠ Reg.SLC_PPROFILE p := by simp only [Reg.SLC_GCL_CTRL, Reg.SLC_PPROFILE]; omega
    refine ⟨?_, ?_, ?_, ?_, ?_⟩
    · rw [Engine.is_put_other _ _ _ _ (.inl (by exact hother)), gclDisable_off]
    · rw [Engine.is_put_other _ _ _ _ (.inl (by exact hother)), gclDisable]
      exact Engine.is_put_same _ _ _ ⟨(by decide : 2 < 64), rfl⟩
    · rw [Engine.txp_congr (congrArg Slc.ports (Engine.put_slc _ _ _)), gclDisable, Engine.txp_setTxp]
    · exact Engine.get_put_same _ _ _ (by decide : 2 < 64) (by decide : 0 ≤ 2)
    · rw [Engine.put_mem]
      rfl
  · refine .engine (show exec _ s = execGclActivation p s from rfl) hup ?_
    obtain ⟨hregs, hports⟩ := Engine.restartHeads_leaves ((s.eng.gclActs p g).portQueues p) (s.eng.gclActs p g)
    obtain ⟨hoper, hnone, hpend, hcnt, hevt⟩ := s.eng.gclActs_reads hp g
    rw [State.onEng_eng, gclActivation_due hg hact, Engine.txp_congr hports, Engine.is_of_regs hregs, Engine.is_of_regs hregs,
      Engine.rd_of_regs hregs]
    exact ⟨hoper, hnone, hpend, hcnt, hevt⟩
  · refine (Does.engine (show exec _ s = execGclActivation p s from rfl) hup).congr (g := fun e => e) ?_
    unfold gclActivation
    rw [hg]
    exact if_pos hact
  · refine (Does.engine (show exec _ s = execWindowOversizeDrop t s from rfl) hup).congr ?_
    unfold windowOversize
    dsimp only
    rw [hg, hf]
    dsimp only
    rw [hw]
    exact if_pos (by simp [hen, hlong, hlate])
  · refine (Does.engine (show exec _ s = execEmit id h s from rfl) hup).congr ?_
    rw [emitCmd, hc]
    dsimp only
    rw [hst]
    dsimp only
    rw [withCmd_some hc]
    exact Engine.emitAdmit_none (by rw [Engine.finish, Engine.complete_slc, Engine.started_slc, hnil])
  · refine (Does.engine (show exec _ s = execEmit id h s from rfl) hup).congr ?_
    rw [emitCmd, hc]
    dsimp only
    rw [hst]
    dsimp only
    rw [if_neg (Nat.not_lt.mpr hfree), withCmd_some hc, hd]
  · refine (Does.host (show exec _ s = execSampleInstant s from rfl) hup hpcie).congr ?_
    subst hk
    unfold sampleInstant
    rw [if_neg (by simp [hen, ht, hnone])]
    exact if_neg (not_or.mpr ⟨not_not.mpr hst, not_not.mpr hkind⟩)
  · refine (Does.host (show exec _ s = execSampleInstant s from rfl) hup hpcie).congr ?_
    unfold sampleInstant
    rw [if_neg (by simp [hen, ht, hnone])]
    exact if_pos hbad

end Sys2Proof.Machine

/-!
PROOFS. The garner's slow path (O39).
-/
namespace Sys2Proof.Machine

theorem Engine.highWater_rd (e : Engine) (f : Fld) (v : Nat) {off : Nat} (h : off ≠ f.off) : (e.highWater f v).rd off = e.rd off := by
  unfold Engine.highWater
  split
  · exact Engine.rd_put_other _ _ _ h
  · rfl

/-- What settling a packet may change. -/
theorem Engine.settle_eq (e : Engine) (id : Nat) : ∃ ps, e.settle id = { e with pkts := ps } := by
  unfold Engine.settle
  split
  · exact ⟨_, rfl⟩
  · split
    · exact ⟨_, rfl⟩
    · exact ⟨_, rfl⟩

/-- The end of a path changes the packets and the sheaves' holders alone. -/
theorem Engine.endPath_eq (e : Engine) (id : Nat) : ∃ ps sh, e.endPath id = { e with pkts := ps, shf := sh } := by
  unfold Engine.endPath
  obtain ⟨ps, h⟩ := ((e.setPkt id fun p => { p with ended := true, begun := none, why := 0 }).releaseFlow (.pkt id)).settle_eq id
  exact ⟨ps, _, h⟩

/-- The frame that SLOW_PATH queues for a packet. -/
def Engine.slowFrame (e : Engine) (p : Pkt) : SlowFr :=
  { pkt := p.id, reason := p.slowReason, act := bitsOf (e.get Fld.GAR_SP_ACT_ACT) (2 * p.slowReason + 1) (2 * p.slowReason),
    snap := e.get Fld.GAR_SP_CFG_SNAPLEN, slotLog := e.get (Fld.GAR_SPQ_SLOT_LOG2 (p.port / 4)),
    base := e.get (Fld.GAR_SPQ_DATA_BASE (p.port / 4)) * 2 ^ 12 }

/-- The engine with a packet's frame in the slow-path queue, before its path ends. -/
def Engine.slowQueued (e : Engine) (p : Pkt) : Engine :=
  let e := { e with gar := { e.gar with queue := e.gar.queue ++ [e.slowFrame p] } }
  ((e.count (Reg.GAR_CNT 0)).highWater Fld.GAR_SP_DEPTH_HWM e.gar.queue.length).setPkt p.id fun p => { p with inSlow := true }

theorem Engine.slowQueued_reads (e : Engine) (p : Pkt) : (e.slowQueued p).gar.queue = e.gar.queue ++ [e.slowFrame p] ∧
    (e.slowQueued p).mem = e.mem ∧ (e.slowQueued p).rd (Reg.GAR_CNT 0) = satCount 48 (e.rd (Reg.GAR_CNT 0)) 1 := by
  unfold Engine.slowQueued
  dsimp only
  rw [Engine.setPkt_gar, Engine.setPkt_mem, Engine.setPkt_rd, Engine.highWater_rd _ _ _ (by decide), Engine.rd_count_same]
  obtain ⟨rs, h⟩ := Engine.highWater_get (({ e with gar := { e.gar with queue := e.gar.queue ++ [e.slowFrame p] } } : Engine).count
    (Reg.GAR_CNT 0)) Fld.GAR_SP_DEPTH_HWM (e.gar.queue ++ [e.slowFrame p]).length
  rw [h]
  exact ⟨rfl, rfl, rfl⟩

/-- SLOW_PATH with room in the queue, and no earlier frame that waits for it. -/
theorem slowPathStep_room {p : Pkt} {arg : Nat} {e : Engine} (hroom : e.gar.queue.length < e.get Fld.GAR_SP_CFG_QDEPTH)
    (hturn : e.earlierWaits p 12 10 = false) : slowPathStep p arg e = (e.slowQueued p).endPath p.id := by
  have hfull : decide (e.get Fld.GAR_SP_CFG_QDEPTH ≤ e.gar.queue.length) = false := decide_eq_false (Nat.not_le.mpr hroom)
  unfold slowPathStep
  dsimp only
  rw [hfull, hturn]
  rfl

section
variable {s : State} {core : Nat} {f : SlowFr} {p : Pkt} {e1 : Engine} (hcore : s.eng.slowCore = some core)
  (hfind : s.eng.gar.queue.find? s.eng.slowReady = some f) (hrate : s.eng.takeRate 320 1000000 4 = some e1) (hp : s.eng.pkt f.pkt = some p)
include hcore hfind hrate hp

/-- The slow path's core takes up the oldest frame that is ready. -/
theorem slowProcess_takes : slowProcess s.eng =
    if f.act = 1 then ((e1.busy core).count (Reg.GAR_CNT 2)).slowRelease f.pkt
    else if f.act = 2 then
      if (e1.busy core).custRun && (e1.busy core).domOn 17 then (e1.busy core).setSlow f.pkt fun x => { x with ph := 1, flags := x.flags ||| 4 }
      else (e1.busy core).slowRecord f p 0 12
    else (e1.busy core).slowRecord f p 0 0 := by
  unfold slowProcess
  rw [hcore, hfind]
  dsimp only
  rw [hrate, hp]

end

/-- A rate taken and a busy mark leave the customer partition as it is. -/
theorem Engine.rated_custRun {e e1 : Engine} {u l v : Nat} (h : e.takeRate u l v = some e1) (core : Nat) :
    (e1.busy core).custRun = e.custRun ∧ (e1.busy core).domOn 17 = e.domOn 17 := by
  obtain ⟨x, y, rfl⟩ := Engine.takeRate_eq h
  obtain ⟨g, hg⟩ := Engine.busy_eq { e with used := x, lastOp := y } core
  rw [hg]
  exact ⟨rfl, rfl⟩

/-- Settles O39. -/
theorem slowPathFrames : Obligations.SlowPathFrames := by
  unfold Obligations.SlowPathFrames
  refine ⟨fun s id p arg e hup hd hfull hact => ?_, fun s id p arg e hup hd hfull hact => ?_, fun s id p arg e hup hd hroom hturn => ?_,
    fun s core f p e1 hup hcore hfind hrate hp hact => ?_, fun s core f p e1 hup hcore hfind hrate hp hact hact' => ?_,
    fun s core f p e1 hup hcore hfind hrate hp hact hrun hdom => ?_, fun s id user f p hup hat => ?_, fun s id user f p hup hat => ?_,
    fun s id f p hup hat => ?_⟩
  · refine (Does.engine (show exec _ s = execSlowPath id s from rfl) hup).congr ((Engine.dispatch_some hd).trans ?_)
    unfold slowPathStep
    exact if_pos (by simp [hfull, hact])
  · refine (Does.engine (show exec _ s = execSlowPath id s from rfl) hup).congr ((Engine.dispatch_some hd).trans ?_)
    unfold slowPathStep
    exact (if_neg (by simp [hact])).trans (if_pos (by simp [hfull]))
  · refine .engine (show exec _ s = execSlowPath id s from rfl) hup ?_
    obtain ⟨-, -, -, -, -, hmem⟩ := Engine.dispatched_keeps hd
    obtain ⟨hq, hm, hcnt⟩ := e.slowQueued_reads p
    obtain ⟨ps, sh, hend⟩ := (e.slowQueued p).endPath_eq p.id
    rw [State.onEng_eng, Engine.dispatch_some hd, slowPathStep_room hroom hturn, hend]
    exact ⟨hq, hm.trans hmem, hcnt⟩
  · refine (Does.engine (show exec _ s = execSlowPathProcess s from rfl) hup).congr ((slowProcess_takes hcore hfind hrate hp).trans ?_)
    exact if_pos hact
  · refine (Does.engine (show exec _ s = execSlowPathProcess s from rfl) hup).congr ((slowProcess_takes hcore hfind hrate hp).trans ?_)
    exact (if_neg hact).trans (if_neg hact')
  · refine (Does.engine (show exec _ s = execSlowPathProcess s from rfl) hup).congr ((slowProcess_takes hcore hfind hrate hp).trans ?_)
    obtain ⟨hcust, hon⟩ := Engine.rated_custRun hrate core
    rw [if_neg (by omega), if_pos hact, if_pos (by simp [hcust, hon, hrun, hdom])]
  · refine (Does.engine (show exec _ s = execCustomerHandler id true user s from rfl) hup).congr ?_
    rw [customerHandler, hat]
    rfl
  · refine (Does.engine (show exec _ s = execCustomerHandler id false user s from rfl) hup).congr ?_
    rw [customerHandler, hat]
    rfl
  · refine (Does.engine (show exec _ s = execCustomerFault id s from rfl) hup).congr ?_
    rw [customerFault, hat]

end Sys2Proof.Machine

/-!
PROOFS. Table commands that work on the SHADOW bank (O42).
-/
namespace Sys2Proof.Machine

/-! ### Items of a bank -/

theorem Bank.space_setSpace (b : Bank) (t : Nat) (s : Tbl Byte) : (b.setSpace t s).space t = s :=
  match t with
  | 0 => rfl
  | 1 => rfl
  | 2 => rfl
  | 3 => rfl
  | _ + 4 => rfl

theorem Bank.space_writeItem (b : Bank) (t i : Nat) (bs : Bytes) : (b.writeItem t i bs).space t =
    (List.range (itemSize t)).foldl (fun s j => Tbl.set (spaceEmpty t (i * itemSize t + j)) s (i * itemSize t + j) (bs.getD j 0))
      (b.space t) := by
  unfold Bank.writeItem
  exact (Bank.space_setSpace b t _).symm ▸ rfl

/-- Byte `k` of item `j`, once item `i` has been written. -/
theorem Bank.writeItem_byte_other (b : Bank) {t i j k : Nat} (bs : Bytes) (hij : i ≠ j) (hk : k < itemSize t) :
    Tbl.get (spaceEmpty t (j * itemSize t + k)) ((b.writeItem t i bs).space t) (j * itemSize t + k) =
      Tbl.get (spaceEmpty t (j * itemSize t + k)) (b.space t) (j * itemSize t + k) := by
  rw [Bank.space_writeItem]
  refine List.foldlRecOn (motive := fun s => Tbl.get _ s (j * itemSize t + k) = Tbl.get _ (b.space t) (j * itemSize t + k)) _ _ rfl
    fun s hs l hl => (Tbl.get_set_other _ _ _ _ fun heq => hij ?_).trans hs
  have hl' := List.mem_range.mp hl
  have hdiv : ∀ x y, y < itemSize t → (x * itemSize t + y) / itemSize t = x := fun x y hy => by
    rw [Nat.mul_comm, Nat.mul_add_div (by omega), Nat.div_eq_of_lt hy, Nat.add_zero]
  rw [← hdiv i l hl', ← heq, hdiv j k hk]

theorem Bank.writeItem_byte_same (b : Bank) {t i k : Nat} (bs : Bytes) (hk : k < itemSize t) :
    Tbl.get (spaceEmpty t (i * itemSize t + k)) ((b.writeItem t i bs).space t) (i * itemSize t + k) = bs.getD k 0 := by
  rw [Bank.space_writeItem]
  exact foldl_range_at (f := fun s j => Tbl.set (spaceEmpty t (i * itemSize t + j)) s (i * itemSize t + j) (bs.getD j 0))
    (P := fun s => Tbl.get (spaceEmpty t (i * itemSize t + k)) s (i * itemSize t + k) = bs.getD k 0) hk
    (fun s => Tbl.get_set_same _ _ _ _) (fun s l hl hs => (Tbl.get_set_other _ _ _ _ (by omega)).trans hs) _

theorem Bank.item_writeItem_other (b : Bank) {t i j : Nat} (bs : Bytes) (hij : i ≠ j) : (b.writeItem t i bs).item t j = b.item t j :=
  List.map_congr_left fun _ hk => b.writeItem_byte_other bs hij (List.mem_range.mp hk)

theorem Bank.item_writeItem_same (b : Bank) {t i : Nat} {bs : Bytes} (hbs : bs.length = itemSize t) : (b.writeItem t i bs).item t i = bs := by
  unfold Bank.item
  refine (List.map_congr_left fun k hk => b.writeItem_byte_same bs (List.mem_range.mp hk)).trans ?_
  rw [← hbs]
  exact List.ext_getElem (by simp) fun k h1 h2 => by
    rw [List.getElem_map, List.getElem_range, List.getD_eq_getElem _ _ h2]

/-! ### The commands -/

@[simp] theorem Engine.trace_tab (e : Engine) (src : Fld) (k w1 w2 aux : Nat) : (e.trace src k w1 w2 aux).tab = e.tab := by
  obtain ⟨f, hf⟩ | ⟨f, hf⟩ := e.trace_cases src k w1 w2 aux
  · rw [hf]; rfl
  · rw [hf]; rfl

@[simp] theorem Engine.started_tab (e : Engine) (c : Cmd) (n : Nat) : (e.started c n).tab = e.tab := by
  rw [Engine.started, Engine.traceCmd, Engine.trace_tab]
  rfl

@[simp] theorem Engine.started_genState (e : Engine) (c : Cmd) (n : Nat) : (e.started c n).genState = e.genState :=
  e.started_get c n _ (by decide) (by decide)

/-- A table command that starts; while the SHADOW bank is RETIRING, one that works on it does not. -/
theorem tblCmd_runs {e : Engine} {id op : Nat} {c : Cmd} {shadow : Cmd → Bool} {f : Cmd → Engine → Engine} (hc : e.startable id op = some c)
    (h : shadow c = false ∨ e.genState ≠ 1) : tblCmd id op shadow f e = f c (e.started c 292) := by
  rw [tblCmd, hc]
  dsimp only
  rw [if_neg, withCmd_some hc]
  rcases h with h | h
  · simp [h]
  · simp [h]

theorem tblCmd_retiring {e : Engine} {id op : Nat} {c : Cmd} {shadow : Cmd → Bool} {f : Cmd → Engine → Engine}
    (hc : e.startable id op = some c) (hs : shadow c = true) (h : e.genState = 1) : tblCmd id op shadow f e = e := by
  rw [tblCmd, hc]
  exact if_pos (by simp [hs, h])

/-- The rows of the table loads run `tblLoad`. -/
theorem exec_tblLoadRow {t : Nat} (ht : t < 5) (id : Nat) (h : HostRead) (s : State) :
    exec (tblLoadRow t id h) s = engineStep s (tblLoad id t h) := by
  match t with
  | 0 => rfl
  | 1 => rfl
  | 2 => rfl
  | 3 => rfl
  | 4 => rfl

/-- A load ends: with the item that failed, or OK. -/
def Engine.tblLoadEnds (e : Engine) (c : Cmd) : Option Nat → Engine
  | some i => e.tblRefuse c 3 i
  | none => e.finishOk c.id 0

section
variable {e : Engine} {id t : Nat} {h : HostRead} {c : Cmd} (hc : e.startable id (0x20 + t) = some c)
include hc

/-- A load while a switch pends is refused. -/
theorem tblLoad_pending (hgen : e.genState = 2) : tblLoad id t h e = (e.started c 292).tblRefuse c 4 0 := by
  rw [tblLoad, tblCmd_runs hc (.inr (by omega))]
  exact if_pos (by simp [hgen])

variable (hgen : e.genState = 0) (hlen : c.len % itemSize t = 0)
include hgen hlen

/-- A load past the end of its table is refused. -/
theorem tblLoad_over (hover : tableItems t < c.arg 32 4 + c.len / itemSize t) : tblLoad id t h e = (e.started c 292).tblRefuse c 1 0 := by
  rw [tblLoad, tblCmd_runs hc (.inr (by omega))]
  dsimp only
  rw [if_neg (by simp [hgen]), if_neg (by simp [hlen]), if_pos hover]

/-- A load that fits and has its data writes the SHADOW bank as far as `Bank.load` goes. -/
theorem tblLoad_fits {d : Bytes} {e1 : Engine} {b : Bank} {r : Option Nat} (hfits : c.arg 32 4 + c.len / itemSize t ≤ tableItems t)
    (hd : (e.started c 292).cmdData c h = (some d, e1))
    (hload : e1.tab.shadow.load t (c.arg 32 4) (itemsOf t (c.len / itemSize t) d) = (b, r)) :
    tblLoad id t h e = Engine.tblLoadEnds { e1 with tab := { e1.tab with shadow := b, fromProfile := none } } c r := by
  rw [tblLoad, tblCmd_runs hc (.inr (by omega))]
  dsimp only
  rw [if_neg (by simp [hgen]), if_neg (by simp [hlen]), if_neg (Nat.not_lt.mpr hfits), hd]
  dsimp only
  rw [hload]
  cases r with
  | none => rfl
  | some i => rfl

end

/-- Settles O42. -/
theorem loadsWriteTheShadow : Obligations.LoadsWriteTheShadow := by
  unfold Obligations.LoadsWriteTheShadow
  refine ⟨fun s t id h c d e1 b hup ht hc hgen hlen hfits hd hload => ?_, fun s t id h c d e1 b i hup ht hc hgen hlen hfits hd hload => ?_,
    fun s t id h c hup ht hc hgen => ?_, fun s t id h c hup ht hc hgen => ?_, fun s t id h c hup ht hc hgen hlen hover => ?_,
    fun s id c hup hc hgen hmode => ?_, fun s id c hup hc ht hbank hlen hfits hbad => ?_,
    fun b t i j bs _ hij => b.item_writeItem_other bs hij, fun b t i bs _ hbs => b.item_writeItem_same hbs⟩
  · exact (Does.engine (exec_tblLoadRow ht id h s) hup).congr (tblLoad_fits hc hgen hlen hfits hd hload)
  · exact (Does.engine (exec_tblLoadRow ht id h s) hup).congr (tblLoad_fits hc hgen hlen hfits hd hload)
  · exact (Does.engine (exec_tblLoadRow ht id h s) hup).congr (g := fun e => e) (tblCmd_retiring hc rfl hgen)
  · exact (Does.engine (exec_tblLoadRow ht id h s) hup).congr (tblLoad_pending hc hgen)
  · exact (Does.engine (exec_tblLoadRow ht id h s) hup).congr (tblLoad_over hc hgen hlen hover)
  · refine (Does.engine (show exec _ s = execTblPrepare id s from rfl) hup).congr ?_
    rw [tblPrepare, tblCmd_runs hc (.inr (by omega))]
    dsimp only
    rw [if_neg (by omega), if_neg (by simp [hgen]), Engine.started_tab]
  · refine (Does.engine (show exec _ s = execTblRead id s from rfl) hup).congr ?_
    rw [tblRead, tblCmd_runs hc (.inl (by simp [hbank]))]
    dsimp only
    rw [if_neg (by omega), if_neg (by simp [hlen]), if_neg (Nat.not_lt.mpr hfits), if_pos hbank, Engine.started_tab, hbad]
    exact if_neg (by simp)

end Sys2Proof.Machine

/-!
PROOFS. The commands of the NUM block (O46).
-/
namespace Sys2Proof.Machine

/-- A conversion that starts, passes its checks and has its data, with MODE 0 and no context. -/
theorem numConvert_plain {e e1 : Engine} {id : Nat} {h : HostRead} {c : Cmd} {k : NumConv} {d : Bytes} {vals : List (NVal × Nat)}
    (hc : e.startable id 0xA0 = some c) (hk : numConv c = some k) (hok : k.ok (e.started c 330) c.len = true)
    (hd : (e.started c 330).cmdData c h = (some d, e1)) (hmode : k.mode = 0) (hctx : k.ctx = 0xFFFF)
    (hvals : vals = (List.range (k.count c.len)).map (fun i => codeValue k.sf (elemAt k.sf d i) k.sz (f32q k.ss))) {qs : List (Nat × Nat)}
    (hqs : qs = vals.map fun v => quantise k.df v.1 (f32q k.ds) k.dz) :
    numConvert id h e = (e1.cmdWrite c (packElems k.df (qs.map Prod.fst))).complete c.id 0
      (min (qs.filter fun q => bitOf q.2 4).length (2 ^ 32 - 1) + 2 ^ 32 * min (qs.filter fun q => bitOf q.2 1).length (2 ^ 24 - 1))
      (((vals.foldl (fun a v => a ||| v.2) 0) ||| (qs.foldl (fun a q => a ||| q.2) 0)) % 16) none 330 := by
  rw [numConvert, withCmd_some hc, hk]
  dsimp only
  rw [if_neg (by simp [hok]), hd]
  dsimp only
  rw [← hvals, if_pos hmode]
  dsimp only
  have hmap : (vals.map Prod.fst).map (fun x => quantise k.df x (f32q k.ds) k.dz) = qs := by rw [hqs, List.map_map]; rfl
  rw [hmap, if_neg (by omega), if_neg (by omega)]

/-- The registers of a context, and no other block's. -/
theorem Engine.started_numImage (e : Engine) (c : Cmd) (n : Nat) {t : Nat} (ht : t < 256) : (e.started c n).numImage t = e.numImage t := by
  have hrd : ∀ off, off < 0xF00000 → (e.started c n).rd off = e.rd off := fun off h =>
    e.started_rd c n (by simp only [Reg.GLN_CNT]; omega) (by simp only [Reg.GLN_EVT]; omega)
  unfold Engine.numImage
  congr 1
  · refine List.flatMap_congr fun r hr => ?_
    rw [hrd r]
    simp only [List.mem_cons, List.not_mem_nil, or_false, Reg.NUM_TCTRL, Reg.NUM_TMSE_THR, Reg.NUM_TCLIP_THR, Reg.NUM_TSCALE, Reg.NUM_TZP,
      Reg.NUM_TMSE, Reg.NUM_TLO, Reg.NUM_THI] at hr
    omega
  · refine List.flatMap_congr fun r hr => ?_
    rw [hrd r]
    simp only [List.mem_cons, List.not_mem_nil, or_false, Reg.NUM_TN, Reg.NUM_TCLIPS, Reg.NUM_TUNFS, Reg.NUM_TFLAGS] at hr
    omega

/-- The registers that NUM_CLEAR zeroes in context `t`. -/
def numStatRegs (t : Nat) : List Nat :=
  [Reg.NUM_TMSE t, Reg.NUM_TLO t, Reg.NUM_THI t, Reg.NUM_TN t, Reg.NUM_TCLIPS t, Reg.NUM_TUNFS t, Reg.NUM_TFLAGS t]

theorem Engine.zeroRegs_num (l : List Nat) (e : Engine) : (l.foldl (fun e r => e.wr r 0) e).num = e.num := by
  induction l generalizing e with
  | nil => rfl
  | cons r l ih => rw [List.foldl_cons, ih, Engine.wr_num]

theorem Engine.zeroRegs_other {l : List Nat} {off : Nat} (h : off ∉ l) (e : Engine) :
    (l.foldl (fun e r => e.wr r 0) e).rd off = e.rd off := by
  induction l generalizing e with
  | nil => rfl
  | cons r l ih =>
    rw [List.mem_cons, not_or] at h
    rw [List.foldl_cons, ih h.2, Engine.rd_wr_other _ _ h.1]

theorem Engine.zeroRegs_zero {l : List Nat} {off : Nat} (h : off ∈ l) (e : Engine) : (l.foldl (fun e r => e.wr r 0) e).rd off = 0 := by
  induction l generalizing e with
  | nil => cases h
  | cons r l ih =>
    rw [List.foldl_cons]
    by_cases hl : off ∈ l
    · exact ih hl _
    · obtain rfl : off = r := by simpa [hl] using h
      rw [Engine.zeroRegs_other hl, Engine.rd_wr_same, Nat.zero_mod]

theorem Engine.numZero_zero (e : Engine) {t off : Nat} (h : off ∈ numStatRegs t) : (e.numZero t).rd off = 0 := Engine.zeroRegs_zero h _

theorem Engine.numZero_win (e : Engine) (t : Nat) : (e.numZero t).numWin t = none := by
  rw [Engine.numWin, Engine.numZero, Engine.zeroRegs_num, Engine.setWin, Engine.put_num]
  exact Tbl.get_set_same none e.num t none

theorem Engine.numZero_scale (e : Engine) (t : Nat) : (e.numZero t).rd (Reg.NUM_TSCALE t) = e.rd (Reg.NUM_TSCALE t) := by
  rw [Engine.numZero, Engine.zeroRegs_other, Engine.setWin, Engine.rd_put_other]
  · rfl
  · simp only [Fld.NUM_TFLAGS_OPEN, Reg.NUM_TSCALE, Reg.NUM_TFLAGS]; omega
  · simp only [List.mem_cons, List.not_mem_nil, or_false, Reg.NUM_TSCALE, Reg.NUM_TMSE, Reg.NUM_TLO, Reg.NUM_THI, Reg.NUM_TN,
      Reg.NUM_TCLIPS, Reg.NUM_TUNFS, Reg.NUM_TFLAGS]
    omega

/-- Settles O46. -/
theorem numCommands : Obligations.NumCommands := by
  unfold Obligations.NumCommands
  refine ⟨fun s id h c hup hc hk => ?_, fun s id h c k hup hc hk hok => ?_, fun s id h c k d e1 vals qs hup hc hk hok hd hmode hctx hv hq => ?_,
    fun s id c hup hc hlen hfits => ?_, fun s id c hup hc hbad => ?_, fun s id c hup hc hfits => ?_, fun s id c hup hc hover => ?_,
    fun e t _ => ⟨e.numZero_zero (by simp [numStatRegs]), e.numZero_zero (by simp [numStatRegs]), e.numZero_zero (by simp [numStatRegs]),
      e.numZero_win t, e.numZero_scale t⟩,
    fun w f s z code fl => ⟨rfl, rfl⟩, fun w f s z code fl g q => ⟨rfl, rfl, rfl⟩⟩
  · refine (Does.engine (show exec _ s = execNumConvert id h s from rfl) hup).congr ?_
    rw [numConvert, withCmd_some hc, hk]
  · refine (Does.engine (show exec _ s = execNumConvert id h s from rfl) hup).congr ?_
    rw [numConvert, withCmd_some hc, hk]
    exact if_pos (by simp [hok])
  · exact (Does.engine (show exec _ s = execNumConvert id h s from rfl) hup).congr (numConvert_plain hc hk hok hd hmode hctx hv hq)
  · refine (Does.engine (show exec _ s = execNumStats id s from rfl) hup).congr ?_
    rw [numStats, withCmd_some hc]
    dsimp only
    rw [if_neg (by omega), List.flatMap_congr fun i hi => s.eng.started_numImage c 330 (by have := List.mem_range.mp hi; omega)]
  · refine (Does.engine (show exec _ s = execNumStats id s from rfl) hup).congr ?_
    rw [numStats, withCmd_some hc]
    exact if_pos hbad
  · refine (Does.engine (show exec _ s = execNumClear id s from rfl) hup).congr ?_
    rw [numClear, withCmd_some hc]
    exact if_neg (Nat.not_lt.mpr hfits)
  · refine (Does.engine (show exec _ s = execNumClear id s from rfl) hup).congr ?_
    rw [numClear, withCmd_some hc]
    exact if_pos hover

end Sys2Proof.Machine

/-!
PROOFS. Loading and grafting (O47).
-/
namespace Sys2Proof.Machine

/-! ### What the end of a host command leaves -/

/-- One engine is the other but for its host commands and the gleaner's staging: no register outside the gleaner's changes. -/
def Engine.Ends (e e' : Engine) : Prop :=
  (∃ rs h g, e' = { e with regs := rs, hif := h, gln := g }) ∧ ∀ off, off ≠ Reg.GLN_CNT 1 → off ≠ Reg.GLN_EVT → e'.rd off = e.rd off

theorem Engine.Ends.refl (e : Engine) : e.Ends e := ⟨⟨_, _, _, rfl⟩, fun _ _ _ => rfl⟩

theorem Engine.Ends.trans {e e' e'' : Engine} (h : e.Ends e') (h' : e'.Ends e'') : e.Ends e'' := by
  obtain ⟨⟨rs, hf, g, rfl⟩, hr⟩ := h
  obtain ⟨⟨rs', hf', g', rfl⟩, hr'⟩ := h'
  exact ⟨⟨_, _, _, rfl⟩, fun off h1 h2 => (hr' off h1 h2).trans (hr off h1 h2)⟩

theorem Engine.Ends.thenHif {e e' : Engine} (h : e.Ends e') (hf : Hif) : e.Ends { e' with hif := hf } := h.trans ⟨⟨_, _, _, rfl⟩, fun _ _ _ => rfl⟩

theorem Engine.trace_ends (e : Engine) (src : Fld) (k w1 w2 aux : Nat) : e.Ends (e.trace src k w1 w2 aux) := by
  refine ⟨?_, fun off h1 h2 => e.trace_rd src k w1 w2 aux h1 h2⟩
  obtain ⟨f, hf⟩ | ⟨f, hf⟩ := e.trace_cases src k w1 w2 aux
  · exact ⟨_, _, _, hf⟩
  · exact ⟨_, _, _, hf⟩

theorem Engine.started_ends (e : Engine) (c : Cmd) (n : Nat) : e.Ends (e.started c n) :=
  (Engine.Ends.refl e).thenHif _ |>.trans (Engine.trace_ends _ _ _ _ _ _)

theorem Engine.endAll_ends (st : Nat) (l : List Cmd) (e : Engine) : e.Ends (l.foldl (fun e d => e.endsUnstarted d st) e) := by
  induction l generalizing e with
  | nil => exact .refl e
  | cons c l ih => exact .trans ⟨⟨_, _, _, rfl⟩, fun _ _ _ => rfl⟩ (ih _)

theorem Engine.dropCmd_ends (e : Engine) (id : Nat) : e.Ends (e.dropCmd id) := by
  unfold Engine.dropCmd
  split
  · exact .refl e
  · exact ((Engine.Ends.refl e).thenHif _).trans (Engine.endAll_ends _ _ _)

theorem Engine.complete_ends (e : Engine) (id st res fl : Nat) (stamp : Option Nat) (n : Nat) : e.Ends (e.complete id st res fl stamp n) := by
  unfold Engine.complete
  split
  · exact .refl e
  · dsimp only
    split
    · exact (Engine.trace_ends _ _ _ _ _ _).trans (Engine.dropCmd_ends _ _)
    · exact ⟨⟨_, _, _, rfl⟩, fun _ _ _ => rfl⟩

/-! ### The slots of models -/

/-- Lattice time, the packets, and the slots of models with what is armed or locked. -/
def Engine.slots (e : Engine) : Nat × List Pkt × Option Model × Option Model × Option Model × ShadowSt × Option Armed × Option Lock :=
  (e.time, e.pkts, e.gft.live, e.gft.retiring, e.gft.shadow, e.gft.sst, e.gft.arm, e.gft.lock)

theorem Engine.Ends.slots {e e' : Engine} (h : e.Ends e') : e'.slots = e.slots := by
  obtain ⟨⟨rs, hf, g, rfl⟩, -⟩ := h
  rfl

theorem Engine.Sends.slots {e e' : Engine} (h : e.Sends e') : e'.slots = e.slots := by
  obtain ⟨⟨rs, n, o, g, ps, rfl⟩, -⟩ := h
  rfl

@[simp] theorem Engine.put_slots (e : Engine) (f : Fld) (v : Nat) : (e.put f v).slots = e.slots := (rfl)
@[simp] theorem Engine.evt_slots (e : Engine) (f : Fld) : (e.evt f).slots = e.slots := (rfl)
@[simp] theorem Engine.count_slots (e : Engine) (off : Nat) : (e.count off).slots = e.slots := (rfl)
@[simp] theorem Engine.store_slots (e : Engine) (a : Nat) (bs : Bytes) : (e.store a bs).slots = e.slots := (rfl)
@[simp] theorem Engine.setWin_slots (e : Engine) (t : Nat) (w : Option NumWin) : (e.setWin t w).slots = e.slots := (rfl)
@[simp] theorem Engine.setLearn_slots (e : Engine) (f : Learn → Learn) : (e.setLearn f).slots = e.slots := (rfl)

/-- A fold keeps what each of its steps keeps. -/
theorem foldl_keeps {α β γ : Type} {f : β → α → β} (view : β → γ) (h : ∀ b a, view (f b a) = view b) (l : List α) (b : β) :
    view (l.foldl f b) = view b := by
  induction l generalizing b with
  | nil => rfl
  | cons a l ih => rw [List.foldl_cons, ih, h]

theorem Engine.rebindLearned_slots (e : Engine) (m : Model) : (e.rebindLearned m).slots = e.slots := by
  unfold Engine.rebindLearned
  refine (foldl_keeps Engine.slots (fun e' x => ?_) _ _).trans (foldl_keeps Engine.slots (fun e' j => ?_) _ _)
  · dsimp only
    split
    · rfl
    · rw [Engine.store_slots]
  · split
    · rw [Engine.put_slots, Engine.put_slots]
    · rfl

theorem Engine.bindContexts_slots (e : Engine) (m : Model) : (e.bindContexts m).slots = e.slots := by
  unfold Engine.bindContexts
  refine foldl_keeps Engine.slots (fun e' j => ?_) _ _
  dsimp only
  split
  · simp only [Engine.put_slots, Engine.setWin_slots]
  · simp only [Engine.put_slots, Engine.setWin_slots]

theorem Engine.resetLearning_slots (e : Engine) (m : Model) : (e.resetLearning m).slots = e.slots := by
  unfold Engine.resetLearning
  refine (foldl_keeps Engine.slots (fun e' x => ?_) _ _).trans
    ((Engine.setLearn_slots _ _).trans (foldl_keeps Engine.slots (fun e' j => ?_) _ _))
  · simp only [Engine.store_slots]
  · simp only [Engine.put_slots]

/-- Cause 3 is no COMMAND. -/
theorem Engine.endCause_noModel (e : Engine) : e.endCause 3 = e.endCauseOnly 3 := if_neg (by simp)

theorem Engine.Reports.slots {e e' : Engine} (h : e.Reports e') : e'.slots = e.slots := by
  obtain ⟨⟨rs, hf, g, o, rfl⟩, -⟩ := h
  rfl

theorem Engine.exitInstant_slots (e : Engine) : e.exitInstant.slots = e.slots := by
  unfold Engine.exitInstant
  split
  · rfl
  · rfl

theorem Engine.endCause_slots (e : Engine) : (e.endCause 3).slots = e.slots := by
  rw [Engine.endCause_noModel]
  cases h : e.causeOn 3
  · rw [Engine.endCauseOnly, if_pos (by simp [h])]
  · rw [(Engine.endCauseOnly_active h).slots, Engine.evt_slots, Engine.exitInstant_slots, Engine.causeDropped, if_neg (by decide),
      Engine.put_slots]

theorem not_reportReg_gftEvt : ¬ reportReg Reg.GFT_EVT := by
  simp only [reportReg, Reg.GFT_EVT, Reg.ERR_CNT]
  omega

/-- Nor is GFT_EVT among the registers that bypass writes. -/
theorem Engine.endCause_gftEvt (e : Engine) : (e.endCause 3).rd Reg.GFT_EVT = e.rd Reg.GFT_EVT := by
  rw [Engine.endCause_noModel]
  cases h : e.causeOn 3
  · rw [Engine.endCauseOnly, if_pos (by simp [h])]
  · have hexit : ∀ e' : Engine, e'.exitInstant.rd Reg.GFT_EVT = e'.rd Reg.GFT_EVT := fun e' => by
      unfold Engine.exitInstant
      split
      · rw [← Engine.rd_put_other e' Fld.ERR_BYPASS_STAT_ACTIVE 0 (off := Reg.GFT_EVT) (by decide)]
        exact Engine.rd_of_regs (e := e'.put Fld.ERR_BYPASS_STAT_ACTIVE 0) rfl _
      · rfl
    rw [(Engine.endCauseOnly_active h).2 _ not_reportReg_gftEvt, Engine.rd_evt_other _ _ (by decide), hexit, Engine.causeDropped,
      if_neg (by decide), Engine.rd_put_other _ _ _ (by decide)]

/-! ### The graft -/

/-- The slots as a graft of `m` leaves them. -/
def Engine.graftSlots (e : Engine) (m : Model) : Engine :=
  e.setGft fun g => { g with
    live := some m, retiring := e.gft.live.or g.retiring, shadow := none, sst := .empty, arm := none, lock := none,
    seq := if m.learned then (g.seq + 1) % 2 ^ 17 else g.seq }

/-- The NUM contexts and the learning state take the new model. -/
def Engine.graftBinds (e : Engine) (m : Model) : Engine := if m.learned then e.rebindLearned m else (e.bindContexts m).resetLearning m

/-- A graft is counted and flagged, and NO_MODEL ends. -/
def Engine.graftNoted (e : Engine) (m : Model) : Engine :=
  let e := (e.count (Reg.GFT_CNT 0)).evt Fld.GFT_EVT_GRAFTED
  (if m.learned then e.count (Reg.GFT_CNT 1) else e).endCause 3

/-- The command that armed the graft completes. -/
def Engine.graftAnswers (e : Engine) (m : Model) (arm : Option Armed) : Engine :=
  match arm.bind (·.cmd) with
  | some id => e.complete id 0 m.epoch 0 none 330
  | none => e

/-- The coordinator of a lattice graft hears of it. -/
def Engine.graftTold (e : Engine) (arm : Option Armed) (lock : Option Lock) : Engine :=
  match arm, lock with
  | some a, some l =>
    if a.mode = .lattice then
      let late := decide (l.tc < a.t)
      (if late then (e.count (Reg.GFT_CNT 5)).evt Fld.GFT_EVT_LATE else e).sendDone l.coord (if late then 1 else 0)
    else e
  | _, _ => e

theorem Engine.graft_some {e : Engine} {m : Model} (h : e.gft.shadow = some m) :
    e.graft = ((((e.graftSlots m).graftBinds m).graftNoted m).graftAnswers m e.gft.arm).graftTold e.gft.arm e.gft.lock := by
  unfold Engine.graft
  rw [h]
  rfl

theorem Engine.graftBinds_slots (e : Engine) (m : Model) : (e.graftBinds m).slots = e.slots := by
  unfold Engine.graftBinds
  split
  · exact e.rebindLearned_slots m
  · exact (Engine.resetLearning_slots _ m).trans (e.bindContexts_slots m)

theorem Engine.graftNoted_spec (e : Engine) (m : Model) :
    (e.graftNoted m).slots = e.slots ∧ (e.graftNoted m).is Fld.GFT_EVT_GRAFTED = true := by
  have hevt := Engine.is_evt_same (e.count (Reg.GFT_CNT 0)) Fld.GFT_EVT_GRAFTED (by decide) (by decide)
  unfold Engine.graftNoted
  rw [Engine.endCause_slots, Engine.is, Engine.get, show Fld.GFT_EVT_GRAFTED.off = Reg.GFT_EVT from rfl, Engine.endCause_gftEvt]
  split
  · rw [Engine.count_slots, Engine.evt_slots, Engine.count_slots, Engine.rd_count_other _ (by decide)]
    exact ⟨rfl, hevt⟩
  · rw [Engine.evt_slots, Engine.count_slots]
    exact ⟨rfl, hevt⟩

/-- What follows a graft leaves the slots, and the event that it set. -/
def Engine.AfterGraft (e e' : Engine) : Prop := e'.slots = e.slots ∧ e'.is Fld.GFT_EVT_GRAFTED = e.is Fld.GFT_EVT_GRAFTED

theorem Engine.AfterGraft.refl (e : Engine) : e.AfterGraft e := ⟨rfl, rfl⟩

theorem Engine.AfterGraft.trans {e e' e'' : Engine} (h : e.AfterGraft e') (h' : e'.AfterGraft e'') : e.AfterGraft e'' :=
  ⟨h'.1.trans h.1, h'.2.trans h.2⟩

theorem Engine.Ends.afterGraft {e e' : Engine} (h : e.Ends e') : e.AfterGraft e' :=
  ⟨h.slots, by rw [Engine.is, Engine.is, Engine.get, Engine.get, h.2 _ (by decide) (by decide)]⟩

theorem Engine.Sends.afterGraft {e e' : Engine} (h : e.Sends e') : e.AfterGraft e' :=
  ⟨h.slots, by rw [Engine.is, Engine.is, Engine.get, Engine.get, h.2 _ (by decide) (by decide)]⟩

theorem Engine.setCoord_afterGraft (e : Engine) (c : Option Coord) : e.AfterGraft (e.setGft fun g => { g with coord := c }) :=
  ⟨rfl, Engine.is_of_regs rfl _⟩

theorem Engine.noteDone_afterGraft (e : Engine) (src code : Nat) : e.AfterGraft (e.noteDone src code) := by
  unfold Engine.noteDone
  split
  · exact .refl e
  · split
    · exact .refl e
    · exact e.setCoord_afterGraft _

theorem Engine.coordEnds_afterGraft (e : Engine) : e.AfterGraft e.coordEnds := by
  unfold Engine.coordEnds
  split
  · exact .refl e
  · dsimp only
    split
    · exact (e.setCoord_afterGraft none).trans (Engine.complete_ends _ _ _ _ _ _ _).afterGraft
    · exact (e.setCoord_afterGraft none).trans (Engine.complete_ends _ _ _ _ _ _ _).afterGraft

theorem Engine.coordCheck_afterGraft (e : Engine) : e.AfterGraft e.coordCheck := by
  unfold Engine.coordCheck
  split
  · split
    · exact e.coordEnds_afterGraft
    · exact .refl e
  · exact .refl e

theorem Engine.sendDone_afterGraft (e : Engine) (coord code : Nat) : e.AfterGraft (e.sendDone coord code) := by
  unfold Engine.sendDone
  split
  · exact (e.noteDone_afterGraft coord code).trans (Engine.coordCheck_afterGraft _)
  · exact (Engine.flgSend_sends _ _ _ _ _ _).afterGraft

theorem Engine.graftAnswers_afterGraft (e : Engine) (m : Model) (arm : Option Armed) : e.AfterGraft (e.graftAnswers m arm) := by
  unfold Engine.graftAnswers
  split
  · exact (Engine.complete_ends _ _ _ _ _ _ _).afterGraft
  · exact .refl e

theorem Engine.graftTold_afterGraft (e : Engine) (arm : Option Armed) (lock : Option Lock) : e.AfterGraft (e.graftTold arm lock) := by
  have hlate : e.AfterGraft ((e.count (Reg.GFT_CNT 5)).evt Fld.GFT_EVT_LATE) :=
    ⟨rfl, by rw [Engine.is_evt_other _ _ _ (by decide), Engine.is_count_other _ _ (by decide)]⟩
  unfold Engine.graftTold
  split
  · dsimp only
    split
    · refine .trans ?_ (Engine.sendDone_afterGraft _ _ _)
      split
      · exact hlate
      · exact .refl e
    · exact .refl e
  · exact .refl e

/-- A graft: the shadow is live, the model that was live retires, and nothing is armed or locked. -/
theorem Engine.graft_spec {e : Engine} {m : Model} (h : e.gft.shadow = some m) :
    e.graft.slots = (e.time, e.pkts, some m, e.gft.live.or e.gft.retiring, none, .empty, none, none) ∧
      e.graft.is Fld.GFT_EVT_GRAFTED = true := by
  rw [Engine.graft_some h]
  obtain ⟨hslots, hevt⟩ := (Engine.graftAnswers_afterGraft (((e.graftSlots m).graftBinds m).graftNoted m) m e.gft.arm).trans
    (Engine.graftTold_afterGraft _ e.gft.arm e.gft.lock)
  obtain ⟨hnoted, hgrafted⟩ := Engine.graftNoted_spec ((e.graftSlots m).graftBinds m) m
  rw [hslots, hevt, hnoted, hgrafted, Engine.graftBinds_slots]
  exact ⟨rfl, rfl⟩

/-! ### GFT_LOAD, GFT_GRAFT and the other commands -/

/-- A load begins on an empty slot. -/
theorem gftLoad_begins {e : Engine} {id : Nat} {h : HostRead} {c : Cmd} (hc : e.startable id 0x70 = some c) (hret : e.gft.retiring = none)
    (hload : e.gft.loading = none) (hbusy : e.gft.busy = false) (hsh : e.gft.shadow = none) :
    gftLoad id h false e = (e.started c 330).setGft fun g => { g with loading := some c.id, sst := .loading, shadow := none } := by
  have hid := Engine.startable_id hc
  have hdrop : (e.started c 330).dropLearned = e.started c 330 := by
    unfold Engine.dropLearned
    exact if_neg (by simp [Gft.shadowLearned, hsh])
  rw [gftLoad, hc]
  dsimp only
  rw [Bool.false_and, if_neg (by decide), Engine.loadBegins, hret]
  dsimp only
  rw [if_neg (by simp [hload]), hid, withCmd_some hc, Engine.started_gft, if_neg (by simp [hbusy]), hdrop, hid]

section
variable {e e1 : Engine} {id : Nat} {h : HostRead} {c : Cmd} {im : Bytes} (hno : e.startable id 0x70 = none) (hload : e.gft.loading = some id)
  (hc : e.cmd id = some c) (hd : e.cmdData c h = (some im, e1))
include hno hload hc

/-- A load that runs ends at the row that says so. -/
theorem gftLoad_ends : gftLoad id h true e = e.loadEnds c h := by
  rw [gftLoad, hno]
  dsimp only
  rw [if_pos (by simp [hload]), hc]

include hd

theorem gftLoad_ready {b : Nat × Nat} (hok : e1.loadRefuse im c.len = none) (hb : e1.placeModel im = some b) : gftLoad id h true e =
    ((e1.layModel im (leAt im 8 4) false b).2.setGft fun g =>
      { g with loading := none, sst := .ready, shadow := some (e1.layModel im (leAt im 8 4) false b).1 }).complete c.id 0
        (e1.layModel im (leAt im 8 4) false b).1.epoch 0 none 330 := by
  rw [gftLoad_ends hno hload hc, Engine.loadEnds, hd]
  dsimp only
  rw [hok, hb]

theorem gftLoad_fails {r i : Nat} (hbad : e1.loadRefuse im c.len = some (r, i)) (hsst : e1.gft.sst = .loading) : gftLoad id h true e =
    (((e1.setGft fun g => { g with loading := none, sst := .empty, shadow := none }).count (Reg.GFT_CNT 2)).evt
      Fld.GFT_EVT_LOAD_FAIL).complete c.id 0x20 (2 ^ 16 * r + i) 0 none 330 := by
  rw [gftLoad_ends hno hload hc, Engine.loadEnds, hd]
  dsimp only
  rw [hbad]
  dsimp only [Engine.setGft]
  rw [if_pos hsst]
  rfl

end

section
variable {e : Engine} {id : Nat} {c : Cmd} (hc : e.startable id 0x71 = some c)
include hc

theorem gftGraft_time (hmode : c.arg 32 1 = 1) (hready : e.gft.sst = .ready) (ht : c.at_ ≤ c.arg 40 8) : gftGraft id e =
    (e.started c 330).setGft fun g => { g with sst := .armed, arm := some { mode := .time, t := c.arg 40 8, cmd := some c.id } } := by
  rw [gftGraft, withCmd_some hc]
  dsimp only
  rw [if_neg (by omega), if_neg (by omega), if_neg (by simp [hready]), if_pos hmode, if_neg (Nat.not_lt.mpr ht)]

theorem gftGraft_late (hmode : c.arg 32 1 = 1) (hready : e.gft.sst = .ready) (ht : c.arg 40 8 < c.at_) :
    gftGraft id e = (e.started c 330).finish c.id 0x24 := by
  rw [gftGraft, withCmd_some hc]
  dsimp only
  rw [if_neg (by omega), if_neg (by omega), if_neg (by simp [hready]), if_pos hmode, if_pos ht]

/-- With MODE 0 a graft is armed, and goes ahead where no model is live. -/
theorem gftGraft_tally (hmode : c.arg 32 1 = 0) (hready : e.gft.sst = .ready) : gftGraft id e =
    if e.gft.live.isNone then
      ((e.started c 330).setGft fun g => { g with sst := .armed, arm := some { mode := .tally, t := 0, cmd := some c.id } }).graft
    else (e.started c 330).setGft fun g => { g with sst := .armed, arm := some { mode := .tally, t := 0, cmd := some c.id } } := by
  have hlive : ((e.started c 330).setGft fun g =>
      { g with sst := .armed, arm := some { mode := .tally, t := 0, cmd := some c.id } }).gft.live = e.gft.live := by
    rw [Engine.setGft, Engine.started_gft]
  rw [gftGraft, withCmd_some hc]
  dsimp only
  rw [if_neg (by omega), if_neg (by omega), if_neg (by simp [hready]), if_neg (by omega), hlive]

theorem gftGraft_notReady (hmode : c.arg 32 1 ≤ 1) (hready : e.gft.sst ≠ .ready) : gftGraft id e = (e.started c 330).finish c.id 0x20 := by
  rw [gftGraft, withCmd_some hc]
  dsimp only
  rw [if_neg (by omega), if_neg (by omega), if_pos (by simp [hready])]

theorem gftGraft_cancelNone (hmode : c.arg 32 1 = 3) (harm : e.gft.sst ≠ .armed) : gftGraft id e = (e.started c 330).finishOk c.id 0 := by
  rw [gftGraft, withCmd_some hc]
  dsimp only
  rw [if_neg (by omega), if_pos hmode, if_neg (by simp [harm])]

end

/-- Settles O47. -/
theorem modelsLoadAndGraft : Obligations.ModelsLoadAndGraft := by
  unfold Obligations.ModelsLoadAndGraft
  refine ⟨fun s id h c hup hc hret hload hbusy hsh => ?_, fun s id h c im e1 b hup hno hload hc hd hok hb => ?_,
    fun s id h c im e1 r i hup hno hload hc hd hbad hsst => ?_, fun s id c hup hc hmode hready ht => ?_,
    fun s id c hup hc hmode hready ht => ?_, fun s id c m hup hc hmode hready hlive => ?_, fun s id c m hup hc hmode hready hlive hsh hret => ?_,
    fun s id c hup hc hmode hready => ?_, fun s id c hup hc hmode harm => ?_, fun s m hup hdue hsh hlive => ?_, fun s hup hdue => ?_,
    fun s m hup hret hused => ?_, fun s m hup hret hused => ?_, fun s id c hup hc hsst => ?_, fun s id c hup hc hsst => ?_,
    fun s id c m im hup hc hbank hlive hlen him => ?_, fun s id c hup hc hbank hlive => ?_, fun s id c hup hc hop => ?_⟩
  · exact (Does.engine (show exec _ s = execGftLoad id h false s from rfl) hup).congr (gftLoad_begins hc hret hload hbusy hsh)
  · exact (Does.engine (show exec _ s = execGftLoad id h true s from rfl) hup).congr (gftLoad_ready hno hload hc hd hok hb)
  · exact (Does.engine (show exec _ s = execGftLoad id h true s from rfl) hup).congr (gftLoad_fails hno hload hc hd hbad hsst)
  · exact (Does.engine (show exec _ s = execGftGraft id s from rfl) hup).congr (gftGraft_time hc hmode hready ht)
  · exact (Does.engine (show exec _ s = execGftGraft id s from rfl) hup).congr (gftGraft_late hc hmode hready ht)
  · exact (Does.engine (show exec _ s = execGftGraft id s from rfl) hup).congr ((gftGraft_tally hc hmode hready).trans (if_neg (by simp [hlive])))
  · refine .engine (show exec _ s = execGftGraft id s from rfl) hup ?_
    obtain ⟨hslots, -⟩ := Engine.graft_spec (e := (s.eng.started c 330).setGft fun g =>
      { g with sst := .armed, arm := some { mode := .tally, t := 0, cmd := some c.id } }) (m := m) (by
        rw [Engine.setGft, Engine.started_gft]; exact hsh)
    rw [State.onEng_eng, gftGraft_tally hc hmode hready, if_pos (by simp [hlive])]
    simp only [Engine.slots, Prod.mk.injEq] at hslots
    obtain ⟨-, -, hl, -, hs, hst, ha, -⟩ := hslots
    exact ⟨hl, hs, hst, ha⟩
  · exact (Does.engine (show exec _ s = execGftGraft id s from rfl) hup).congr (gftGraft_notReady hc hmode hready)
  · exact (Does.engine (show exec _ s = execGftGraft id s from rfl) hup).congr (gftGraft_cancelNone hc hmode harm)
  · refine .engine (show exec _ s = execGraftTakesEffect s from rfl) hup ?_
    obtain ⟨hslots, hevt⟩ := Engine.graft_spec hsh
    rw [State.onEng_eng, if_pos hdue]
    simp only [Engine.slots, Prod.mk.injEq, Option.or_of_isSome hlive] at hslots
    obtain ⟨htime, hpkts, hl, hr, hs, hst, ha, hk⟩ := hslots
    exact ⟨hl, hr, hs, hst, ha, hk, htime, hpkts, hevt⟩
  · refine (Does.engine (show exec _ s = execGraftTakesEffect s from rfl) hup).congr (g := fun e => e) ?_
    exact if_neg (by simp [hdue])
  · refine (Does.engine (show exec _ s = execRetiringModelReleased s from rfl) hup).congr ?_
    rw [retiringReleased, hret]
    exact if_neg (by simp [hused])
  · refine (Does.engine (show exec _ s = execRetiringModelReleased s from rfl) hup).congr (g := fun e => e) ?_
    rw [retiringReleased, hret]
    exact if_pos hused
  · refine (Does.engine (show exec _ s = execGftDiscard id s from rfl) hup).congr ?_
    rw [gftDiscard, if_neg (by rcases hsst with h | h <;> simp [h]), withCmd_some hc, Engine.started_gft]
    exact if_neg (by rcases hsst with h | h <;> simp [h])
  · refine (Does.engine (show exec _ s = execGftDiscard id s from rfl) hup).congr ?_
    rw [gftDiscard, if_neg (by rcases hsst with h | h | h <;> simp [h]), withCmd_some hc, Engine.started_gft]
    exact if_pos hsst
  · refine (Does.engine (show exec _ s = execGftExport id s from rfl) hup).congr ?_
    rw [gftExport, withCmd_some hc, if_neg (by omega), Engine.bankModel, if_pos hbank, Engine.started_gft, hlive]
    dsimp only
    rw [if_neg (by simp [hlen]), him]
  · refine (Does.engine (show exec _ s = execGftExport id s from rfl) hup).congr ?_
    rw [gftExport, withCmd_some hc, if_neg (by omega), Engine.bankModel, if_pos hbank, Engine.started_gft, hlive]
  · refine (Does.engine (show exec _ s = execGftLearn id s from rfl) hup).congr ?_
    rw [gftLearn, withCmd_some hc]
    dsimp only
    rw [if_neg (by omega), if_neg (by omega)]

end Sys2Proof.Machine

/-!
PROOFS. The sheaf commands (O45).
-/
namespace Sys2Proof.Machine

@[simp] theorem Engine.started_shf (e : Engine) (c : Cmd) (n : Nat) : (e.started c n).shf = e.shf := by
  obtain ⟨⟨rs, h, g, heq⟩, -⟩ := e.started_ends c n
  rw [heq]

/-- A command that starts changes no field outside the gleaner's block. -/
theorem Engine.started_is (e : Engine) (c : Cmd) (n : Nat) {f : Fld} (h : f.off < 0xF00000) : (e.started c n).is f = e.is f := by
  rw [Engine.is, Engine.is, e.started_get c n f]
  · simp only [Reg.GLN_CNT]; omega
  · simp only [Reg.GLN_EVT]; omega

/-! ### Commands on a key -/

section
variable {e : Engine} {id op len : Nat} {h : HostRead} {f : Cmd → Bytes → Engine → Option Engine} {c : Cmd}
  (hc : e.startable id op = some c)
include hc

theorem shfKeyCmd_badLength (hlen : c.len ≠ len) : shfKeyCmd id op len h f e = (e.started c 294).finish c.id 0x10 := by
  rw [shfKeyCmd, hc]
  dsimp only
  rw [if_pos hlen, withCmd_some hc]

/-- A sheaf command at its flow's home, once it holds the flow, does its work and lets the flow go. -/
theorem shfKeyCmd_holds {key : Bytes} {e1 e2 e3 : Engine} {b : Bool} (hlen : c.len = len) (hkey : e.cmdDataN c 48 h .clean = (some key, e1))
    (hhome : e1.homeOf key e1.time = e1.selfId) (htake : e1.takeFlow (.cmd id) key c.at_ = (true, b, e2)) (hf : f c key e2 = some e3) :
    shfKeyCmd id op len h f e = e3.releaseFlow (.cmd id) := by
  rw [shfKeyCmd, hc]
  dsimp only
  rw [if_neg (not_not.mpr hlen), hkey]
  dsimp only
  rw [if_neg (not_not.mpr hhome), htake]
  dsimp only
  rw [Bool.not_true, if_neg (by decide), hf]

end

/-! ### The loft and the home table -/

theorem portsUp_any {e : Engine} (h : ∀ p < 32, e.is (Fld.ITK_PORT_CTRL_UP p) = false) :
    ((List.range 32).any fun p => e.is (Fld.ITK_PORT_CTRL_UP p)) = false := by
  rw [List.any_eq_false]
  exact fun p hp => by rw [h p (List.mem_range.mp hp)]; decide

theorem portCtrl_low {p : Nat} (hp : p < 32) : (Fld.ITK_PORT_CTRL_UP p).off < 0xF00000 := by
  simp only [Fld.ITK_PORT_CTRL_UP, Reg.ITK_PORT_CTRL]
  omega

/-- The entries that SHF_HOME_SET stages. -/
def homeEntries (c : Cmd) (d : Bytes) : List (Nat × Nat) := (List.range (c.len / 2)).map fun i => (c.arg 32 4 + i, leAt d (2 * i) 2)

@[simp] theorem homeEntries_length (c : Cmd) (d : Bytes) : (homeEntries c d).length = c.len / 2 := by simp [homeEntries]

/-- The engine with entries of the home table, and N, staged for a command. -/
def Engine.stageHome (e : Engine) (c : Cmd) (d : Bytes) : Engine :=
  { e with shf := { e.shf with
    stagedHome := (e.shf.stagedHome.filter fun (x : Nat × Nat) => !((homeEntries c d).any fun y => y.1 == (x : Nat × Nat).1)) ++ homeEntries c d
    stagedN := if c.arg 36 2 = 0 then e.shf.stagedN else some (c.arg 36 2)
    stagedCmds := e.shf.stagedCmds ++ [c.id] } }

theorem shfHomeSet_stages {e e1 : Engine} {id : Nat} {h : HostRead} {c : Cmd} {d : Bytes} (hc : e.startable id 0x35 = some c)
    (hlen : c.len % 2 = 0) (hd : (e.started c 294).cmdData c h = (some d, e1)) (hids : ∀ i < c.len / 2, leAt d (2 * i) 2 < 16384)
    (hfits : c.arg 32 4 + c.len / 2 ≤ 16384) (hn : c.arg 36 2 ≤ 16384) :
    shfHomeSet id h e = (e1.stageHome c d).put Fld.SHF_HOME_PEND 1 := by
  have hgood : ((homeEntries c d).any fun x => decide (16384 ≤ x.2)) = false := by
    rw [List.any_eq_false]
    intro x hx
    obtain ⟨i, hi, rfl⟩ := List.mem_map.mp hx
    simpa using hids i (List.mem_range.mp hi)
  rw [shfHomeSet, withCmd_some hc]
  dsimp only
  rw [if_neg (not_not.mpr hlen), hd]
  refine if_neg ?_
  rintro (h | h | h)
  · rw [homeEntries] at hgood
    rw [hgood] at h
    cases h
  · rw [List.length_map, List.length_range] at h
    omega
  · omega

/-- Settles O45. -/
theorem sheafCommands : Obligations.SheafCommands := by
  unfold Obligations.SheafCommands
  refine ⟨fun s id h c hup hc hlen => ?_, fun s id h c key e1 b e2 hup hc hlen hkey hhome htake hc2 hcode => ?_,
    fun s id h c key e1 b e2 d e3 hup hc hlen hkey hhome htake hc2 hcode hread => ?_,
    fun s id h c key e1 b e2 hup hc hlen hkey hhome htake hu0 hu1 hc2 hcode => ?_, fun s id c p hup hc hp hpup => ?_,
    fun s id c hup hc hdown => ?_, fun s id c hup hc hen => ?_, fun s id c hup hc hen hnone hhost hsize hoff hend hwin => ?_,
    fun s id c hup hc hon => ?_, fun s id c hup hc hon hen hpos hmax hcov => ?_, fun s id h c d e1 hup hc hlen hd hids hfits hn => ?_⟩
  · exact (Does.engine (show exec _ s = execShfRead id h s from rfl) hup).congr (shfKeyCmd_badLength hc hlen)
  · refine (Does.engine (show exec _ s = execShfRead id h s from rfl) hup).congr ((shfKeyCmd_holds hc hlen hkey hhome htake rfl).trans ?_)
    rw [withCmd_some hc2]
    exact congrArg (fun e' => Engine.releaseFlow e' (.cmd id)) (if_pos hcode)
  · refine (Does.engine (show exec _ s = execShfRead id h s from rfl) hup).congr ((shfKeyCmd_holds hc hlen hkey hhome htake rfl).trans ?_)
    rw [withCmd_some hc2]
    dsimp only
    rw [if_neg hcode, hread]
  · refine (Does.engine (show exec _ s = execShfDelete id h s from rfl) hup).congr
      ((shfKeyCmd_holds hc hlen hkey hhome htake (if_neg ?_)).trans ?_)
    · cases hsh : e2.sheaf key with
      | none => decide
      | some x =>
        rw [hsh, Option.bind_some] at hu0 hu1
        simp [hu0, hu1]
    · rw [withCmd_some hc2]
      dsimp only
      rw [if_neg hcode]
  · refine (Does.engine (show exec _ s = execShfFlush id s from rfl) hup).congr ?_
    rw [shfFlush, withCmd_some hc]
    exact if_pos (List.any_eq_true.mpr ⟨p, List.mem_range.mpr hp, by rw [Engine.started_is _ _ _ (portCtrl_low hp), hpup]⟩)
  · refine (Does.engine (show exec _ s = execShfFlush id s from rfl) hup).congr ?_
    rw [shfFlush, withCmd_some hc, portsUp_any fun p hp => (Engine.started_is _ _ _ (portCtrl_low hp)).trans (hdown p hp)]
    exact if_neg (by decide)
  · refine (Does.engine (show exec _ s = execShfLoftMap id s from rfl) hup).congr ?_
    rw [shfLoftMap, withCmd_some hc, Engine.started_is _ _ _ (by decide), hen]
    exact if_pos rfl
  · refine (Does.engine (show exec _ s = execShfLoftMap id s from rfl) hup).congr ?_
    rw [shfLoftMap, withCmd_some hc]
    dsimp only
    rw [Engine.started_is _ _ _ (by decide), hen, Engine.started_shf, hnone, if_neg (by simp [-Nat.reducePow, hhost, hsize, hoff, hend, hwin])]
    rfl
  · refine (Does.engine (show exec _ s = execShfLoftEnable id s from rfl) hup).congr ?_
    rw [shfLoftEnable, withCmd_some hc]
    dsimp only
    rw [if_neg (by omega), if_pos hon]
  · refine (Does.engine (show exec _ s = execShfLoftEnable id s from rfl) hup).congr ?_
    rw [shfLoftEnable, withCmd_some hc]
    dsimp only
    rw [if_neg (by omega), if_neg (by omega), Engine.started_is _ _ _ (by decide), hen, Engine.started_shf, hcov]
    exact if_neg (by simp; omega)
  · refine .engine (show exec _ s = execShfHomeSet id h s from rfl) hup ?_
    rw [State.onEng_eng, shfHomeSet_stages hc hlen hd hids hfits hn]
    rw [Engine.put_shf, Engine.put_mem]
    refine ⟨Engine.is_put_same _ _ _ (by decide), rfl, rfl, ?_, rfl⟩
    rw [Engine.stageHome]
    dsimp only
    rw [List.length_append, homeEntries_length, Nat.add_sub_cancel, List.drop_left]
    rfl

end Sys2Proof.Machine

/-!
PROOFS. Migrations of sheaves (O44).
-/
namespace Sys2Proof.Machine

/-! ### Memory written and read back -/

theorem Tbl.get_writeBytes_same : ∀ (bs : List (BitVec 8)) (t : Tbl (BitVec 8)) (a : Nat) {i : Nat} (h : i < bs.length),
    Tbl.get 0 (Tbl.writeBytes t a bs) (a + i) = bs[i]
  | b :: r, t, a, 0, _ => by
    rw [Tbl.writeBytes, Tbl.get_writeBytes_other r _ _ _ (.inl (by omega))]
    exact Tbl.get_set_same _ _ _ _
  | b :: r, t, a, i + 1, h => by
    rw [Tbl.writeBytes, show a + (i + 1) = a + 1 + i by omega]
    exact Tbl.get_writeBytes_same r _ _ (by simpa using h)

theorem Tbl.readBytes_writeBytes (t : Tbl (BitVec 8)) (a : Nat) (bs : List (BitVec 8)) :
    Tbl.readBytes (Tbl.writeBytes t a bs) a bs.length = bs :=
  List.ext_getElem (by simp [Tbl.readBytes]) fun i h1 h2 => by
    simp only [Tbl.readBytes, List.getElem_map, List.getElem_range]
    exact Tbl.get_writeBytes_same bs t a h2

theorem Engine.hotOf_length (e : Engine) (s : Sheaf) : (e.hotOf s).length = 128 := by simp [Engine.hotOf, Engine.readMem, Tbl.readBytes]

/-! ### What a migration leaves -/

theorem Engine.sheaf_key {e : Engine} {key : Bytes} {x : Sheaf} (h : e.sheaf key = some x) : x.key = key := by
  simpa using List.find?_some h

/-- A sheaf replaced is found under its key. -/
theorem Engine.sheaf_setSheaf {e : Engine} {key : Bytes} {x y : Sheaf} (hx : e.sheaf key = some x) (hy : y.key = key) :
    (e.setSheaf key fun _ => y).sheaf key = some y := by
  have hset : ∀ l : List Sheaf, (l.find? fun s => s.key == key) = some x →
      ((l.map fun s => if s.key = key then y else s).find? fun s => s.key == key) = some y := by
    intro l
    induction l with
    | nil => intro h; cases h
    | cons s l ih =>
      intro h
      rw [List.map_cons]
      by_cases hs : s.key = key
      · rw [if_pos hs, List.find?_cons_of_pos (by simp [hy])]
      · rw [if_neg hs, List.find?_cons_of_neg (by simpa using hs)]
        rw [List.find?_cons_of_neg (by simpa using hs)] at h
        exact ih h
  exact hset _ hx

@[simp] theorem Engine.busy_shf (e : Engine) (i : Nat) : (e.busy i).shf = e.shf := by
  obtain ⟨g, hg⟩ := e.busy_eq i
  rw [hg]

theorem Engine.busy_sheaf (e : Engine) (i : Nat) (key : Bytes) : (e.busy i).sheaf key = e.sheaf key := by
  rw [Engine.sheaf, Engine.busy_shf, Engine.sheaf]

/-- A touch changes the sets' recency alone. -/
theorem Engine.touchWay_eq (e : Engine) (t set w : Nat) :
    ∃ r0 r1 r2, e.touchWay t set w = { e with shf := { e.shf with rec0 := r0, rec1 := r1, rec2 := r2 } } := by
  unfold Engine.touchWay
  dsimp only
  split
  · exact ⟨_, _, _, rfl⟩
  · exact ⟨_, _, _, rfl⟩
  · exact ⟨_, _, _, rfl⟩

/-- What a touch leaves: the memory, the registers and the sheaves. -/
def Engine.touchView (e : Engine) : Tbl Byte × Tbl (BitVec 64) × List Sheaf := (e.mem, e.regs, e.shf.sheaves)

theorem Engine.touchSheaf_view (e : Engine) (s : Sheaf) : (e.touchSheaf s).touchView = e.touchView := by
  unfold Engine.touchSheaf
  refine foldl_keeps Engine.touchView (fun e t => foldl_keeps Engine.touchView (fun e w => ?_) _ _) _ _
  obtain ⟨r0, r1, r2, h⟩ := e.touchWay_eq t (e.shfSet t s.key) w
  rw [h]
  rfl

/-- Where a hot part lies turns on three registers. -/
theorem Engine.hotAddr_congr {e e' : Engine} (s : Sheaf) (hbase : e'.rd Reg.GLB_PART_BASE = e.rd Reg.GLB_PART_BASE)
    (hlive : e'.rd Reg.GLB_PART_LIVE = e.rd Reg.GLB_PART_LIVE) (hloft : e'.rd Reg.SHF_LOFT = e.rd Reg.SHF_LOFT) :
    e'.hotAddr s = e.hotAddr s := by
  have hsets : e'.get Fld.SHF_LOFT_SETS = e.get Fld.SHF_LOFT_SETS := by rw [Engine.get, Engine.get]; exact congrArg (bitsOf · _ _) hloft
  have hset : ∀ t, e'.shfSet t s.key = e.shfSet t s.key := by
    intro t
    unfold Engine.shfSet Engine.partSize
    rw [hlive, hsets]
  have hway : ∀ t set w, e'.wayAddr t set w = e.wayAddr t set w := by
    intro t set w
    unfold Engine.wayAddr Engine.partBase
    rw [hbase]
  rw [Engine.hotAddr, Engine.hotAddr, hset, hway]

/-- A hot part is read where it has just been written. -/
theorem Engine.hotOf_stored {e e' : Engine} {s : Sheaf} {hot : Bytes} (hlen : hot.length = 128)
    (hmem : e'.mem = (e.store (e.hotAddr s) hot).mem) (haddr : e'.hotAddr s = e.hotAddr s) : e'.hotOf s = hot := by
  rw [Engine.hotOf, Engine.readMem, hmem, haddr, Engine.store_mem, ← hlen]
  exact Tbl.readBytes_writeBytes _ _ _

/-- A sheaf that has moved to the silo. -/
def Sheaf.toSilo (s : Sheaf) : Sheaf := { s with tier := 1, gWay := none, mig := none }

/-- A sheaf of the silo whose hot part has moved to granary way `w`. -/
def Sheaf.toGranary (s : Sheaf) (w : Option Nat) : Sheaf := { s with tier := 0, gWay := w, lWay := none, mig := none }

section
variable {e : Engine} {key : Bytes} {x : Sheaf} {m : Mig} (hx : e.sheaf key = some x) (hm : x.mig = some m) (hclean : m.dirty = false)
include hx hm hclean

/-- A clean copy to the silo. -/
theorem migrationComplete_silo (hdst : m.dst = 1) : migrationComplete key e =
    ((((e.busy 294).setSheaf key fun _ => x.toSilo).store (((e.busy 294).setSheaf key fun _ => x.toSilo).hotAddr x.toSilo)
      (e.hotOf x)).count (Reg.SHF_CNT 6)) := by
  rw [migrationComplete, hx]
  dsimp only
  rw [hm]
  dsimp only
  rw [if_neg (by simp [hclean]), hdst]
  rfl

/-- A clean copy from the silo to the granary. -/
theorem migrationComplete_granary (hdst : m.dst = 0) (htier : x.tier = 1) : migrationComplete key e =
    (((((e.busy 294).setSheaf key fun _ => x.toGranary m.gWay).store
      (((e.busy 294).setSheaf key fun _ => x.toGranary m.gWay).hotAddr (x.toGranary m.gWay)) (e.hotOf x)).touchSheaf
        (x.toGranary m.gWay)).count (Reg.SHF_CNT 8)) := by
  rw [migrationComplete, hx]
  dsimp only
  rw [hm]
  dsimp only
  rw [if_neg (by simp [hclean]), hdst, htier]
  rfl

end

/-- What a copy to `y` leaves, once the engine's memory, registers and sheaves are those of the store, but for one counter. -/
theorem migrated_reads {e : Engine} {key : Bytes} {x : Sheaf} (hx : e.sheaf key = some x) {y : Sheaf} {e' : Engine} {k : Nat} (hy : y.key = key)
    (hview : e'.touchView = (((e.busy 294).setSheaf key fun _ => y).store (((e.busy 294).setSheaf key fun _ => y).hotAddr y)
      (e.hotOf x)).touchView) :
    (e'.count (Reg.SHF_CNT k)).sheaf key = some y ∧ (e'.count (Reg.SHF_CNT k)).hotOf y = e.hotOf x ∧
      (e'.count (Reg.SHF_CNT k)).rd (Reg.SHF_CNT k) = satCount 48 (e.rd (Reg.SHF_CNT k)) 1 := by
  simp only [Engine.touchView, Prod.mk.injEq] at hview
  obtain ⟨hmem, hregs, hsheaves⟩ := hview
  have hrd : ∀ off, e'.rd off = e.rd off := fun off => (Engine.rd_of_regs hregs off).trans (Engine.busy_rd e 294 off)
  refine ⟨?_, ?_, ?_⟩
  · rw [Engine.sheaf, Engine.count_shf, hsheaves]
    exact Engine.sheaf_setSheaf (e := e.busy 294) ((e.busy_sheaf 294 key).trans hx) hy
  · refine Engine.hotOf_stored (e := (e.busy 294).setSheaf key fun _ => y) (e.hotOf_length x) ((Engine.count_mem _ _).trans hmem) ?_
    refine Engine.hotAddr_congr y ?_ ?_ ?_
    · rw [Engine.rd_count_other _ (by simp only [Reg.GLB_PART_BASE, Reg.SHF_CNT]; omega), hrd]
      exact (Engine.busy_rd e 294 _).symm
    · rw [Engine.rd_count_other _ (by simp only [Reg.GLB_PART_LIVE, Reg.SHF_CNT]; omega), hrd]
      exact (Engine.busy_rd e 294 _).symm
    · rw [Engine.rd_count_other _ (by simp only [Reg.SHF_LOFT, Reg.SHF_CNT]; omega), hrd]
      exact (Engine.busy_rd e 294 _).symm
  · rw [Engine.rd_count_same, hrd]

/-- Settles O44. -/
theorem sheavesMigrate : Obligations.SheavesMigrate := by
  unfold Obligations.SheavesMigrate
  refine ⟨fun s n rest hup hneeds hserved => ?_, fun s hup hneeds => ?_, fun s key x m hup hx hm hdirty => ?_,
    fun s key x m hup hx hm hclean hdst => ?_, fun s key x m hup hx hm hclean hdst htier => ?_, fun s key hup hnone => ?_⟩
  · refine (Does.engine (show exec _ s = execSheafMigrationStart s from rfl) hup).congr ?_
    rw [migrationStart, hneeds, List.findSome?_cons_of_isSome (by simp [hserved])]
    simp [hserved]
  · refine (Does.engine (show exec _ s = execSheafMigrationStart s from rfl) hup).congr (g := fun e => e) ?_
    rw [migrationStart, hneeds]
    rfl
  · refine (Does.engine (show exec _ s = execSheafMigrationComplete key s from rfl) hup).congr ?_
    rw [migrationComplete, hx]
    dsimp only
    rw [hm]
    exact if_pos hdirty
  · refine .engine (show exec _ s = execSheafMigrationComplete key s from rfl) hup ?_
    rw [State.onEng_eng, migrationComplete_silo hx hm hclean hdst]
    obtain ⟨hy, hhot, hcnt⟩ := migrated_reads hx (y := x.toSilo) (k := 6) (show x.key = key from Engine.sheaf_key hx) rfl
    exact ⟨x.toSilo, hy, rfl, rfl, rfl, rfl, hhot, hcnt⟩
  · refine .engine (show exec _ s = execSheafMigrationComplete key s from rfl) hup ?_
    rw [State.onEng_eng, migrationComplete_granary hx hm hclean hdst htier]
    obtain ⟨hy, hhot, hcnt⟩ := migrated_reads hx (y := x.toGranary m.gWay) (k := 8) (show x.key = key from Engine.sheaf_key hx)
      (Engine.touchSheaf_view _ _)
    exact ⟨x.toGranary m.gWay, hy, rfl, rfl, rfl, rfl, hhot, hcnt⟩
  · refine (Does.engine (show exec _ s = execSheafMigrationComplete key s from rfl) hup).congr (g := fun e => e) ?_
    rw [migrationComplete]
    cases hx : s.eng.sheaf key with
    | none => rfl
    | some x =>
      rw [hx, Option.bind_some] at hnone
      dsimp only
      rw [hnone]

end Sys2Proof.Machine

/-!
PROOFS. Threads start and end (O50).
-/
namespace Sys2Proof.Machine

/-! ### Contexts -/

theorem Engine.thread_freeContext (e : Engine) (tid : Nat) : (e.freeContext tid).thread tid = none := by
  rw [Engine.thread, Engine.freeContext]
  dsimp only
  rw [Tbl.find_del_same]
  rfl

theorem Engine.thread_congr {e e' : Engine} (h : e'.ril = e.ril) (tid : Nat) : e'.thread tid = e.thread tid := by
  rw [Engine.thread, Engine.thread, h]

theorem Engine.Ends.ril {e e' : Engine} (h : e.Ends e') : e'.ril = e.ril := by
  obtain ⟨⟨rs, hf, g, rfl⟩, -⟩ := h
  rfl

theorem Engine.Ends.mem {e e' : Engine} (h : e.Ends e') : e'.mem = e.mem := by
  obtain ⟨⟨rs, hf, g, rfl⟩, -⟩ := h
  rfl

theorem Engine.Ends.gft {e e' : Engine} (h : e.Ends e') : e'.gft = e.gft := by
  obtain ⟨⟨rs, hf, g, rfl⟩, -⟩ := h
  rfl

/-! ### Starting -/

/-- The local address of a context's start block (R440). -/
def startBlock (ctx : Nat) : Nat := 0x10000000 + 0x10000 * (ctx / 32) + 0xE000 + 256 * (ctx % 32)

/-- The ID of the next thread on a context. -/
def Engine.nextTid (e : Engine) (ctx : Nat) : Nat := ctx + 2 ^ 16 * ((Tbl.get 0 e.ril.serial ctx + 1) % 65536)

/-- A thread as it starts: its context's start block in x10, ARG in x11, its ID in x12. -/
def Engine.newThread (e : Engine) (ctx kind : Nat) (m : Model) (desc : Bytes) : Thread :=
  ((({ id := e.nextTid ctx, kind := kind, epoch := m.epoch, limit := leAt desc 8 4, startAt := e.cyc,
       pc := e.latAddr (e.mwAddr m + leAt desc 0 4) } : Thread).setReg 10 (e.latAddr (startBlock ctx))).setReg 11 (leAt desc 4 4)).setReg 12
    (e.nextTid ctx)

theorem Engine.startThread_tid (e : Engine) (ctx kind prog : Nat) (m : Model) (desc block : Bytes) :
    (e.startThread ctx kind prog m desc block).1 = e.nextTid ctx := rfl

theorem Engine.startThread_mem (e : Engine) (ctx kind prog : Nat) (m : Model) (desc block : Bytes) :
    (e.startThread ctx kind prog m desc block).2.mem =
      Tbl.writeBytes e.mem (startBlock ctx) (fitTo 250 block ++ natLE 2 prog ++ natLE 4 (leAt desc 4 4)) := by
  unfold Engine.startThread
  dsimp only
  rw [Engine.setThread_mem, Engine.count_mem]
  rfl

theorem Engine.startThread_thread (e : Engine) (ctx kind prog : Nat) (m : Model) (desc block : Bytes) :
    (e.startThread ctx kind prog m desc block).2.thread (e.nextTid ctx) = some (e.newThread ctx kind m desc) := by
  unfold Engine.startThread
  exact Engine.thread_setThread_same _ (e.newThread ctx kind m desc)

theorem Thread.reg_setReg_same (t : Thread) {r : Nat} (v : Nat) (h : r ≠ 0) : (t.setReg r v).reg r = wrap64 v := by
  rw [Thread.reg, if_neg h, Thread.setReg, if_neg h]
  exact Tbl.get_set_same _ _ _ _

theorem Thread.reg_setReg_other (t : Thread) {r r' : Nat} (v : Nat) (h : r' ≠ r) : (t.setReg r v).reg r' = t.reg r' := by
  unfold Thread.reg Thread.setReg
  split
  · rfl
  · split
    · rfl
    · exact Tbl.get_set_other _ _ _ _ h

theorem Engine.nextTid_lt (e : Engine) {ctx : Nat} (h : ctx < 8192) : e.nextTid ctx < 2 ^ 32 := by
  have := Nat.mod_lt (Tbl.get 0 e.ril.serial ctx + 1) (y := 65536) (by decide)
  unfold Engine.nextTid
  omega

/-- The operands that a thread finds in x10 to x13. -/
theorem Engine.newThread_regs (e : Engine) {ctx : Nat} (kind : Nat) (m : Model) (desc : Bytes) (h : ctx < 8192) :
    (e.newThread ctx kind m desc).reg 10 % 2 ^ 42 = startBlock ctx ∧ (e.newThread ctx kind m desc).reg 11 = leAt desc 4 4 ∧
      (e.newThread ctx kind m desc).reg 12 = e.nextTid ctx ∧ (e.newThread ctx kind m desc).reg 13 = 0 := by
  have htid := e.nextTid_lt h
  have harg : leAt desc 4 4 < 256 ^ 4 := leAt_lt _ _ _
  unfold Engine.newThread
  refine ⟨?_, ?_, ?_, ?_⟩
  · rw [Thread.reg_setReg_other _ _ (by decide), Thread.reg_setReg_other _ _ (by decide), Thread.reg_setReg_same _ _ (by decide), wrap64,
      Engine.latAddr]
    unfold startBlock
    omega
  · rw [Thread.reg_setReg_other _ _ (by decide), Thread.reg_setReg_same _ _ (by decide), wrap64]
    omega
  · rw [Thread.reg_setReg_same _ _ (by decide), wrap64]
    omega
  · rw [Thread.reg_setReg_other _ _ (by decide), Thread.reg_setReg_other _ _ (by decide), Thread.reg_setReg_other _ _ (by decide)]
    rfl

/-! ### SPROUT -/

/-- The contexts that SPROUT looks at beside its core's: those of the bank's other cores, where the program or the configuration says so. -/
def Engine.sproutOthers (e : Engine) (d : Bytes) (b c : Nat) : List Nat :=
  if byteAt d 12 == 2 || (byteAt d 12 == 0 && e.is Fld.RIL_CFG_SPREAD) then (List.range 31).map fun i => 32 * b + (c + 1 + i) % 32 else []

section
variable {p : Pkt} {arg : Nat} {e : Engine} (heval : p.noEval = false) (hlive : (e.liveOf false).isEmpty = false)
include heval hlive

theorem sproutStep_noProgram (hprog : ((e.modelFor p).bind fun m => m.program (arg % 1024)) = none) :
    sproutStep p arg e = (e.count (Reg.RIL_CNT 5)).advance p.id := by
  have hnone : ((e.modelFor p).bind fun m => (m.program (arg % 1024)).map fun d => (m, d)) = none := by
    cases hm : e.modelFor p with
    | none => rfl
    | some m =>
      rw [hm, Option.bind_some] at hprog
      rw [Option.bind_some, hprog]
      rfl
  rw [sproutStep, if_neg (by simp [heval]), if_neg (by simp [hlive])]
  dsimp only
  rw [hnone]

variable {m : Model} {d : Bytes} {b : Nat} {e1 : Engine} (hm : e.modelFor p = some m) (hd : m.program (arg % 1024) = some d)
  (hb : e.steer false p.fhash = (some b, e1))
include hm hd hb

/-- SPROUT with a program and a bank: the first context that is FREE in its order, if any. -/
theorem sproutStep_bank : sproutStep p arg e =
    match e1.coreCtx (32 * b + p.fhash / 8 % 32), e1.firstCtx (e1.sproutOthers d b (p.fhash / 8 % 32)) with
    | some x, _ => (e1.startThread x 0 (arg % 1024) m d (sproutBlock p)).2.advance p.id
    | none, some x => ((e1.startThread x 0 (arg % 1024) m d (sproutBlock p)).2.count (Reg.RIL_CNT 4)).advance p.id
    | none, none => ((e1.count (Reg.RIL_CNT 3)).evt Fld.RIL_EVT_SPROUT_SKIP).advance p.id := by
  rw [sproutStep, if_neg (by simp [heval]), if_neg (by simp [hlive])]
  dsimp only
  rw [hm, Option.bind_some, hd, Option.map_some]
  dsimp only
  rw [hb] <;> rfl

end

/-! ### The thread commands -/

theorem Engine.startable_cmd {e : Engine} {id op : Nat} {c : Cmd} (h : e.startable id op = some c) : e.cmd id = some c := by
  unfold Engine.startable at h
  split at h
  · cases h
  · rename_i x hx
    split at h
    · cases h
      exact hx
    · cases h

section
variable {e : Engine} {id : Nat} {h : HostRead} {c : Cmd} (hc : e.startable id 0x60 = some c) (hbank : c.arg 34 1 < 8) (hcore : c.arg 35 1 < 32)
include hc hbank hcore

theorem thrStart_badLength (hlen : c.len ≠ 256) : thrStart id h e =
    (e.started c (32 * c.arg 34 1 + c.arg 35 1)).complete c.id 0x10 0 0 none (32 * c.arg 34 1 + c.arg 35 1) := by
  rw [thrStart, Engine.startable_cmd hc]
  dsimp only
  rw [Nat.mod_eq_of_lt hbank, if_pos hcore, withCmd_some hc, if_pos (.inl hlen)]

variable (hlen : c.len = 256) (hdom : (e.started c (32 * c.arg 34 1 + c.arg 35 1)).domOn (c.arg 34 1) = true) {m : Model} {d : Bytes}
  (hm : e.gft.live = some m) (hd : m.program (c.arg 32 2) = some d)
include hlen hdom hm hd

theorem thrStart_noContext (hx : (e.started c (32 * c.arg 34 1 + c.arg 35 1)).firstCtx [32 * c.arg 34 1 + c.arg 35 1] = none) : thrStart id h e =
    (e.started c (32 * c.arg 34 1 + c.arg 35 1)).complete c.id 0x20 1 0 none (32 * c.arg 34 1 + c.arg 35 1) := by
  rw [thrStart, Engine.startable_cmd hc]
  dsimp only
  rw [Nat.mod_eq_of_lt hbank, if_pos hcore, withCmd_some hc, if_neg (by omega), if_neg (by simp [hdom]), Engine.started_gft, hm,
    Option.bind_some, hd, Option.map_some]
  dsimp only
  rw [if_neg (by omega), hx]

theorem thrStart_starts {x : Nat} {b : Bytes} {e1 : Engine} (hnowait : c.arg 36 1 % 2 = 0)
    (hx : (e.started c (32 * c.arg 34 1 + c.arg 35 1)).firstCtx [32 * c.arg 34 1 + c.arg 35 1] = some x)
    (hb : (e.started c (32 * c.arg 34 1 + c.arg 35 1)).cmdData c h = (some b, e1)) : thrStart id h e =
    (e1.startThread x 1 (c.arg 32 2) m d b).2.complete c.id 0 (e1.startThread x 1 (c.arg 32 2) m d b).1 0 none
      (32 * c.arg 34 1 + c.arg 35 1) := by
  have hbit : bitOf (c.arg 36 1) 0 = false := by simp [bitOf, hnowait]
  rw [thrStart, Engine.startable_cmd hc]
  dsimp only
  rw [Nat.mod_eq_of_lt hbank, if_pos hcore, withCmd_some hc, if_neg (by omega), if_neg (by simp [hdom]), Engine.started_gft, hm,
    Option.bind_some, hd, Option.map_some]
  dsimp only
  rw [if_neg (by omega), hx]
  dsimp only
  rw [hb]
  dsimp only
  rw [hbit, if_neg (by decide)]

end

theorem Engine.started_thread (e : Engine) (c : Cmd) (n tid : Nat) : (e.started c n).thread tid = e.thread tid :=
  Engine.thread_congr (e.started_ends c n).ril tid

/-! ### Ends -/

/-- An ended thread whose stores have been performed, with nothing of its own outstanding, ends for those who wait. -/
theorem threadEndFree_ends {e : Engine} {tid : Nat} {t : Thread} (ht : e.thread tid = some t) (hst : t.st = .ending)
    (hstores : t.storesOut = false) (htickets : t.tickets = []) (hfault : t.fault = none) : threadEndFree tid e = e.threadEnds t := by
  unfold threadEndFree
  rw [ht]
  dsimp only
  rw [if_neg (by simp [hst, hstores, htickets]), hfault, ite_self]

theorem Engine.finishAll_ends (l : List Nat) (e : Engine) : e.Ends (l.foldl (fun e c => e.finishOk c 1) e) := by
  induction l generalizing e with
  | nil => exact .refl e
  | cons c l ih => exact (Engine.complete_ends _ _ _ _ _ _ _).trans (ih _)

/-- The end of a thread completes commands and frees its context. -/
theorem Engine.threadEnds_frees (e : Engine) (t : Thread) : ∃ e1, e.Ends e1 ∧ (e1.freeContext t.id).Ends (e.threadEnds t) := by
  unfold Engine.threadEnds
  refine ⟨_, ?_, Engine.finishAll_ends _ _⟩
  split
  · exact Engine.complete_ends _ _ _ _ _ _ _
  · exact Engine.complete_ends _ _ _ _ _ _ _
  · exact Engine.complete_ends _ _ _ _ _ _ _
  · exact .refl e

/-- Settles O50. -/
theorem threadsStartAndEnd : Obligations.ThreadsStartAndEnd := by
  unfold Obligations.ThreadsStartAndEnd
  refine ⟨fun e ctx kind prog m desc block hctx => ?_, fun s id p arg e m d b e1 x hup hdisp heval hlive hm hd hb hx => ?_,
    fun s id p arg e m d b e1 hup hdisp heval hlive hm hd hmode hb hx => ?_,
    fun s id p arg e m d b e1 x hup hdisp heval hlive hm hd hmode hb hnone hx => ?_, fun s id p arg e hup hdisp heval hlive hprog => ?_,
    fun s id p arg e hup hdisp heval => ?_, fun s id h c m d x b e1 hup hc hlen hbank hcore hnowait hdom hm hd hx hb => ?_,
    fun s id h c m d hup hc hlen hbank hcore hdom hm hd hx => ?_, fun s id h c hup hc hlen hbank hcore => ?_,
    fun s id c t hup hc ht hend => ?_, fun s id c hup hc ht => ?_, fun e t => ⟨rfl, ?_⟩, fun s id c hup hc hlen => ?_,
    fun s tag r tid hup hr howner hlate => ?_, fun s tag r tid hup hr howner hearly => ?_, fun s tid t hup ht hwait => ?_,
    fun s tid t hup ht hst hstores htickets hfault => ?_, fun s tid t v c hup ht hst hend hstores htickets hfault hwait hkill => ?_⟩
  · obtain ⟨h10, h11, h12, h13⟩ := e.newThread_regs kind m desc hctx
    rw [Engine.startThread_tid, Engine.startThread_thread, Option.map_some, Option.map_some, h10, h11, h12, h13]
    exact ⟨rfl, rfl, rfl, Engine.startThread_mem _ _ _ _ _ _ _⟩
  · refine (Does.engine (show exec _ s = execSprout id s from rfl) hup).congr ((Engine.dispatch_some hdisp).trans ?_)
    rw [sproutStep_bank heval hlive hm hd hb, hx]
  · refine (Does.engine (show exec _ s = execSprout id s from rfl) hup).congr ((Engine.dispatch_some hdisp).trans ?_)
    have hothers : e1.sproutOthers d b (p.fhash / 8 % 32) = [] := by simp [Engine.sproutOthers, hmode]
    rw [sproutStep_bank heval hlive hm hd hb, hx, hothers]
    rfl
  · refine (Does.engine (show exec _ s = execSprout id s from rfl) hup).congr ((Engine.dispatch_some hdisp).trans ?_)
    have hothers : e1.sproutOthers d b (p.fhash / 8 % 32) = (List.range 31).map fun i => 32 * b + (p.fhash / 8 % 32 + 1 + i) % 32 := by
      simp [Engine.sproutOthers, hmode]
    rw [sproutStep_bank heval hlive hm hd hb, hnone, hothers, hx]
  · exact (Does.engine (show exec _ s = execSprout id s from rfl) hup).congr
      ((Engine.dispatch_some hdisp).trans (sproutStep_noProgram heval hlive hprog))
  · refine (Does.engine (show exec _ s = execSprout id s from rfl) hup).congr ((Engine.dispatch_some hdisp).trans ?_)
    rw [sproutStep, if_pos heval]
  · exact (Does.engine (show exec _ s = execThrStart id h s from rfl) hup).congr
      (thrStart_starts hc hbank hcore hlen hdom hm hd hnowait hx hb)
  · exact (Does.engine (show exec _ s = execThrStart id h s from rfl) hup).congr (thrStart_noContext hc hbank hcore hlen hdom hm hd hx)
  · exact (Does.engine (show exec _ s = execThrStart id h s from rfl) hup).congr (thrStart_badLength hc hbank hcore hlen)
  · refine (Does.engine (show exec _ s = execThrKill id s from rfl) hup).congr ?_
    rw [thrKill, withCmd_some hc, Engine.started_thread, ht]
    exact if_neg (by simp [hend])
  · refine (Does.engine (show exec _ s = execThrKill id s from rfl) hup).congr ?_
    rw [thrKill, withCmd_some hc, Engine.started_thread, ht]
  · exact congrArg (Option.map fun u : Thread => (u.st, u.ended, u.reqs)) (Engine.thread_setThread_same _
      { t with st := .ending, ended := some .killed, reqs := t.reqs.filter ThrReq.isStore, fault := none })
  · refine (Does.engine (show exec _ s = execThrStatus id s from rfl) hup).congr ?_
    rw [thrStatus, withCmd_some hc]
    exact if_neg (not_not.mpr hlen)
  · refine (Does.engine (show exec _ s = execRemoteRequestTimeout tag s from rfl) hup).congr ?_
    rw [remoteRequestTimeout, hr]
    dsimp only
    rw [howner]
    exact if_neg (Nat.not_lt.mpr hlate)
  · refine (Does.engine (show exec _ s = execRemoteRequestTimeout tag s from rfl) hup).congr (g := fun e => e) ?_
    rw [remoteRequestTimeout, hr]
    dsimp only
    rw [howner]
    exact if_pos hearly
  · refine (Does.engine (show exec _ s = execThreadEndFree tid s from rfl) hup).congr (g := fun e => e) ?_
    rw [threadEndFree, ht]
    exact if_pos (hwait.imp_right .inl)
  · refine .engine (show exec _ s = execThreadEndFree tid s from rfl) hup ?_
    obtain ⟨e1, hcmds, hfree⟩ := s.eng.threadEnds_frees t
    rw [State.onEng_eng, threadEndFree_ends ht hst hstores htickets hfault]
    refine ⟨?_, hfree.mem.trans hcmds.mem, hfree.gft.trans hcmds.gft⟩
    rw [Engine.thread_congr hfree.ril, ← Engine.thread_id ht, Engine.thread_freeContext]
  · refine (Does.engine (show exec _ s = execThreadEndFree tid s from rfl) hup).congr ?_
    rw [threadEndFree_ends ht hst hstores htickets hfault, Engine.threadEnds, hwait, hend, hkill]
    rfl

end Sys2Proof.Machine

/-!
PROOFS. Requests and responses between members (O53).
-/
namespace Sys2Proof.Machine

/-! ### Requests -/

theorem Engine.Sends.memRil {e e' : Engine} (h : e.Sends e') : e'.mem = e.mem ∧ e'.ril = e.ril := by
  obtain ⟨⟨rs, n, o, g, ps, rfl⟩, -⟩ := h
  exact ⟨rfl, rfl⟩

/-- A message that leaves its buffer touches neither memory nor threads. -/
theorem Engine.freeMsg_memRil (e : Engine) (m : FlgMsg) : (e.freeMsg m).mem = e.mem ∧ (e.freeMsg m).ril = e.ril := by
  unfold Engine.freeMsg
  dsimp only
  split
  · exact (Engine.pump_sends _ _ _).memRil
  · exact ⟨rfl, rfl⟩

theorem Engine.refuse_memRil (e : Engine) (m : FlgMsg) : (e.refuse m).mem = e.mem ∧ (e.refuse m).ril = e.ril := by
  obtain ⟨hmem, hril⟩ := (Engine.flgSend_sends (e.freeMsg m) 0xFE m.src m.tag (natLE 8 1) []).memRil
  obtain ⟨hmem', hril'⟩ := e.freeMsg_memRil m
  exact ⟨hmem.trans hmem', hril.trans hril'⟩

section
variable {e : Engine} {id op : Nat} {m : FlgMsg} {f : FlgMsg → Engine → Engine} (hm : e.flgMsg id op = some m)
include hm

theorem Engine.request_met (hpend : bitOf (e.rd Reg.GLB_PEND) 0 = false) : e.request id op f = f m e := by
  rw [Engine.request, hm]
  exact if_neg (by simp [hpend])

theorem Engine.request_applying (hpend : bitOf (e.rd Reg.GLB_PEND) 0 = true) : e.request id op f = e.refuse m := by
  rw [Engine.request, hm]
  exact if_pos hpend

end

/-! ### Responses -/

/-- Request `r` is the one that a response of OP `op` answers. -/
def FlgMsg.answers (m : FlgMsg) (op : Nat) (r : FlgReq) : Bool := r.tag == m.tag && r.dst == m.src && (op == 0xFE || r.op + 0x80 == op)

theorem FlgMsg.answers_eq (m : FlgMsg) {op : Nat} (hop : op ≠ 0x7E) :
    m.answers (op + 0x80) = fun r => r.tag == m.tag && r.dst == m.src && (r.op == op) := by
  funext r
  have h1 : (op + 0x80 == 0xFE) = false := by simp; omega
  have h2 : (r.op + 0x80 == op + 0x80) = (r.op == op) := by simp
  rw [FlgMsg.answers, h1, h2, Bool.false_or]

theorem FlgMsg.answers_nack (m : FlgMsg) : m.answers 0xFE = fun r => r.tag == m.tag && r.dst == m.src := by
  funext r
  rw [FlgMsg.answers, beq_self_eq_true, Bool.true_or, Bool.and_true]

section
variable {e : Engine} {id op : Nat} {m : FlgMsg} {f : FlgReq → FlgMsg → Engine → Engine} (hm : e.flgMsg id op = some m)
include hm

theorem Engine.response_met {r : FlgReq} (hr : (e.freeMsg m).flg.reqs.find? (m.answers op) = some r) :
    e.response id op f = f r m (e.freeMsg m) := by
  rw [Engine.response, hm]
  dsimp only
  rw [show (fun r : FlgReq => r.tag == m.tag && r.dst == m.src && (op == 0xFE || r.op + 0x80 == op)) = m.answers op from rfl, hr]

theorem Engine.response_unmet (hr : (e.freeMsg m).flg.reqs = []) : e.response id op f = (e.freeMsg m).count (Reg.FLG_CNT 2) := by
  rw [Engine.response, hm]
  dsimp only
  rw [hr]
  rfl

end

/-- A thread that waits for the answer to a request, or one of whose stores it answers, goes on without the request. -/
theorem Engine.threadAnswer_met {e : Engine} {r : FlgReq} {tid : Nat} {t : Thread} {q : ThrReq} {f : ThrReq → Thread → Engine → Engine}
    (howner : r.owner = .thread tid) (ht : (e.dropReq r.tag).thread tid = some t) (hq : t.req r.tag = some q)
    (hwait : q.isStore = true ∨ t.st = .waiting (.remote r.tag)) : e.threadAnswer r f = f q (t.dropReq r.tag) (e.dropReq r.tag) := by
  rw [Engine.threadAnswer, howner]
  dsimp only
  rw [ht]
  dsimp only
  rw [hq]
  exact if_pos (by rcases hwait with h | h <;> simp [Thread.dropReq, h])

/-- A packet's SH_FETCH_RSP that finds no sheaf. -/
theorem shFetchRsp_absent {e : Engine} {r : FlgReq} {m : FlgMsg} {pk : Nat} {p : Pkt} {q : PShf} (howner : r.owner = .fetch pk)
    (hwait : (e.dropReq r.tag).waitingPkt pk = some (p, q)) (hb : byteAt m.arg 0 = 0) : shFetchRsp r m e =
      ((e.dropReq r.tag).setPkt pk fun p0 => (p0.withSheaf { q with
        done := true, present := false, isNew := false, interval := 0, histLen := 0, hot := slice m.data 0 128,
        cur := slice m.data 0 128, hist := slice m.data 128 512, nohist := false, genReset := false, holding := true,
        tag := none }).flagIf (leAt m.arg 4 4 != p.epoch.getD 0) flMIXED_EPOCH).advance pk := by
  rw [shFetchRsp, howner]
  dsimp only
  rw [hwait]
  dsimp only
  rw [hb]
  rfl

/-- Settles O53. -/
theorem membersServeEachOther : Obligations.MembersServeEachOther := by
  unfold Obligations.MembersServeEachOther
  refine ⟨fun s id ecc m d e1 hup hm hpend hacc hd => ?_, fun s id ecc m hup hm hpend hacc => ?_, fun s id m hup hm hpend hacc => ?_,
    fun s id m hup hm hbad => ?_, fun s id ecc m d e1 v hup hm hpend hacc hal hd hv => ?_,
    fun s id ecc m e1 f e2 e3 no hist hup hm hpend hrate hf hh => ?_, fun s id ecc m hup hm hpend hrate => ?_,
    fun s id m e1 hup hm hpend hrate hsum hc => ?_, fun s id m hup hm hundo hhold => ?_, fun s id m hup hm hhold hpend hrel => ?_,
    fun s src ptag hup => ?_, fun s id m e1 hup hm hpend hrate hgot => ?_,
    fun s id m r tid t q n rd signed hup hm hr howner ht hq hkind hst => ?_, fun s id m r tid t q hup hm hr howner ht hq hkind => ?_,
    fun s id m r tid t q n rd hup hm hr howner ht hq hkind hst => ?_,
    fun s id m r tid t q rd buf len hup hm hr howner ht hq hkind hst hdata => ?_, fun s id m r p q pk hup hm hr howner hwait hb => ?_,
    fun s id m r pk hup hm hr howner hwait => ?_, fun s id m r tid hup hm hr howner => ?_, fun s id m hup hm hnone => ?_⟩
  · refine (Does.engine (show exec _ s = execRd id ecc s from rfl) hup).congr ((Engine.request_met hm hpend).trans ?_)
    rw [rdRecv, if_neg (not_not.mpr hacc), hd]
  · refine (Does.engine (show exec _ s = execRd id ecc s from rfl) hup).congr ((Engine.request_met hm hpend).trans ?_)
    rw [rdRecv, if_pos hacc]
    rfl
  · refine (Does.engine (show exec _ s = execWr id s from rfl) hup).congr ((Engine.request_met hm hpend).trans ?_)
    rw [wrRecv, if_neg (not_not.mpr hacc)]
  · refine .engine (show exec _ s = execWr id s from rfl) hup ?_
    have hrefuse : s.eng.request id 0x02 wrRecv = s.eng.refuse m := by
      cases hpend : bitOf (s.eng.rd Reg.GLB_PEND) 0
      · rw [Engine.request_met hm hpend, wrRecv, if_pos (hbad.resolve_left (by simp [hpend]))]
      · exact Engine.request_applying hm hpend
    rw [State.onEng_eng, hrefuse]
    exact s.eng.refuse_memRil m
  · refine (Does.engine (show exec _ s = execAmoRequest id ecc s from rfl) hup).congr ((Engine.request_met hm hpend).trans ?_)
    rw [amoRecv]
    dsimp only
    rw [if_neg (by simp [hacc, hal]), hd]
    dsimp only
    rw [hv]
  · refine (Does.engine (show exec _ s = execShFetch id ecc s from rfl) hup).congr ((Engine.request_met hm hpend).trans ?_)
    rw [shFetchRecv, hrate]
    dsimp only
    rw [hf]
    dsimp only
    rw [hh]
  · refine (Does.engine (show exec _ s = execShFetch id ecc s from rfl) hup).congr ((Engine.request_met hm hpend).trans ?_)
    rw [shFetchRecv, hrate]
  · refine (Does.engine (show exec _ s = execShCommit id s from rfl) hup).congr ((Engine.request_met hm hpend).trans ?_)
    rw [shCommitRecv, hrate]
    dsimp only
    rw [hsum, if_neg (by decide)]
    obtain ⟨⟨fl, e2⟩, hc'⟩ := Option.isSome_iff_exists.mp ((Option.isSome_map ..).symm.trans hc)
    rw [hc']
    rfl
  · refine (Does.engine (show exec _ s = execShResolve id s from rfl) hup).congr ?_
    rw [shResolve, hm]
    dsimp only
    rw [if_neg (by simp [hhold, Option.isNone_iff_eq_none.mp hundo])]
  · refine (Does.engine (show exec _ s = execShResolve id s from rfl) hup).congr ?_
    rw [shResolve, hm]
    dsimp only
    rw [if_pos (by simp [hhold, hpend]), hrel]
    rfl
  · refine .engine (show exec _ s = execShResolveHoldTimeout src ptag s from rfl) hup ?_
    rw [State.onEng_eng, shResolveHoldTimeout]
    refine ⟨fun x hx hlate => ?_, fun x hx hother => ?_, rfl⟩
    · obtain ⟨hsrc, htag, hat⟩ := hlate
      have := (List.mem_filter.mp hx).2
      simp [hsrc, htag, hat] at this
    · refine List.mem_filter.mpr ⟨hx, ?_⟩
      rcases hother with h | h | h
      · simp [h]
      · simp [h]
      · simp [h]
  · refine (Does.engine (show exec _ s = execShInsn id s from rfl) hup).congr ((Engine.request_met hm hpend).trans ?_)
    rw [shInsnRecv, hrate]
    dsimp only
    rw [hgot]
    rfl
  · refine (Does.engine (show exec _ s = execRdRsp id s from rfl) hup).congr
      ((Engine.response_met hm (op := 0x81) ((m.answers_eq (op := 1) (by decide)).symm ▸ hr)).trans
        ((Engine.threadAnswer_met howner ht hq (.inr hst)).trans ?_))
    rw [hkind]
  · refine (Does.engine (show exec _ s = execWrAck id s from rfl) hup).congr
      ((Engine.response_met hm (op := 0x82) ((m.answers_eq (op := 2) (by decide)).symm ▸ hr)).trans
        (Engine.threadAnswer_met howner ht hq (.inl (by rw [ThrReq.isStore, hkind]))))
  · refine (Does.engine (show exec _ s = execAmoRsp id s from rfl) hup).congr
      ((Engine.response_met hm (op := 0x83) ((m.answers_eq (op := 3) (by decide)).symm ▸ hr)).trans
        ((Engine.threadAnswer_met howner ht hq (.inr hst)).trans ?_))
    rw [hkind]
  · refine (Does.engine (show exec _ s = execShInsnRsp id s from rfl) hup).congr
      ((Engine.response_met hm (op := 0x93) ((m.answers_eq (op := 0x13) (by decide)).symm ▸ hr)).trans
        ((Engine.threadAnswer_met howner ht hq (.inr hst)).trans ?_))
    rw [hkind]
    dsimp only
    rw [if_neg (by simp [hdata])]
  · exact (Does.engine (show exec _ s = execShFetchRsp id s from rfl) hup).congr
      ((Engine.response_met hm (op := 0x90) ((m.answers_eq (op := 0x10) (by decide)).symm ▸ hr)).trans (shFetchRsp_absent howner hwait hb))
  · refine (Does.engine (show exec _ s = execShAck id s from rfl) hup).congr
      ((Engine.response_met hm (op := 0x91) ((m.answers_eq (op := 0x11) (by decide)).symm ▸ hr)).trans ?_)
    rw [shAck, howner]
    dsimp only
    rw [hwait]
  · refine (Does.engine (show exec _ s = execNack id s from rfl) hup).congr
      ((Engine.response_met hm (op := 0xFE) (m.answers_nack.symm ▸ hr)).trans ?_)
    rw [nackRecv, howner]
  · exact (Does.engine (show exec _ s = execRdRsp id s from rfl) hup).congr (Engine.response_unmet hm hnone)

end Sys2Proof.Machine

/-!
PROOFS. Reachability, routes, lattice time and the lattice commands (O54).
-/
namespace Sys2Proof.Machine

/-! ### LSAs and routes -/

theorem Engine.fstate_of_rd {e e' : Engine} {p : Nat} (h : e'.rd (Reg.FLG_PORT_STAT p) = e.rd (Reg.FLG_PORT_STAT p)) :
    e'.fstate p = e.fstate p := by
  rw [Engine.fstate, Engine.fstate, Engine.get, Engine.get]
  exact congrArg (bitsOf · 2 0) h

theorem Engine.lsaPorts_congr {e e' : Engine} (h : ∀ p < 8, e'.rd (Reg.FLG_PORT_STAT p) = e.rd (Reg.FLG_PORT_STAT p)) :
    e'.lsaPorts = e.lsaPorts :=
  List.filter_congr fun p hp => by rw [Engine.fstate_of_rd (h p (List.mem_range.mp hp))]

/-- The engine as it floods its own LSA, before it sends it. -/
def Engine.lsaDrawn (e : Engine) : Engine :=
  (e.fresh Config.fLsa).2.setFlg fun g => { g with lsaSeq := (e.flg.lsaSeq + 1) % 2 ^ 32, lsaAt := e.cyc, lsaDue := false }

/-- With no port to send on, a flood renews the sequence alone. -/
theorem lsaFlood_alone {e : Engine} (hdue : e.flg.lsaDue = true ∨ e.flg.lsaAt + 1250000000 ≤ e.cyc) (hports : e.lsaPorts = []) :
    lsaFlood e = e.lsaDrawn := by
  have hnone : e.lsaDrawn.lsaPorts = [] := (Engine.lsaPorts_congr fun p _ => Engine.rd_of_regs rfl _).trans hports
  unfold lsaFlood
  dsimp only
  rw [if_neg (by rcases hdue with h | h <;> simp [h])]
  exact (congrArg (fun l => List.foldl _ e.lsaDrawn l) hnone)

/-- The engine with what an LSA says of its member kept. -/
def Engine.lsaKept (e : Engine) (m : FlgMsg) (info : LsaInfo) : Engine :=
  let l : Lsa := ⟨leAt m.arg 0 4, info.epoch, info.suspect, info.root, info.ports, e.cyc⟩
  (e.setFlg fun g => { g with lsas := Tbl.put g.lsas m.src l }).lsaChanged.count (Reg.FLG_CNT 3)

/-- The first LSA of a member is kept; with no other port it goes nowhere. -/
theorem lsaRecv_first {e : Engine} {id : Nat} {m : FlgMsg} {info : LsaInfo} (hm : e.flgMsg id 0xC0 = some m)
    (hself : m.src ≠ (e.freeMsg m).selfId) (hnew : Tbl.find (e.freeMsg m).flg.lsas m.src = none) (hroot : info.root = false)
    (hports : (e.freeMsg m).lsaPorts = []) : lsaRecv id info e = (e.freeMsg m).lsaKept m info := by
  have hnone : ((e.freeMsg m).lsaKept m info).lsaPorts = [] := by
    refine (Engine.lsaPorts_congr fun p hp => ?_).trans hports
    unfold Engine.lsaKept
    rw [Engine.rd_count_other _ (by simp only [Reg.FLG_PORT_STAT, Reg.FLG_CNT]; omega)]
    exact Engine.rd_of_regs rfl _
  rw [lsaRecv, hm]
  dsimp only
  rw [hnew, if_neg (by simp [hself])]
  change List.foldl _ (((e.freeMsg m).lsaKept m info).evtIf _ _) (List.filter _ (((e.freeMsg m).lsaKept m info).evtIf _ _).lsaPorts) = _
  rw [hroot, Bool.false_and, Engine.evtIf_false, hnone]
  rfl

theorem lsaRecv_old {e : Engine} {id : Nat} {m : FlgMsg} {info : LsaInfo} {l : Lsa} (hm : e.flgMsg id 0xC0 = some m)
    (hl : Tbl.find (e.freeMsg m).flg.lsas m.src = some l) (hold : seqNewer (leAt m.arg 0 4) l.seq = false) :
    lsaRecv id info e = e.freeMsg m := by
  rw [lsaRecv, hm]
  dsimp only
  rw [hl]
  exact if_pos (.inr hold)

theorem Engine.freshLsa_old {e : Engine} {m : Nat} {l : Lsa} (hl : Tbl.find e.flg.lsas m = some l) (h : l.at_ + 3750000000 ≤ e.cyc) :
    e.freshLsa m = none := by rw [Engine.freshLsa, hl, Option.bind_some, if_neg (Nat.not_lt.mpr h)]

theorem Engine.freshLsa_young {e : Engine} {m : Nat} {l : Lsa} (hl : Tbl.find e.flg.lsas m = some l) (h : e.cyc < l.at_ + 3750000000) :
    e.freshLsa m = some l := by rw [Engine.freshLsa, hl, Option.bind_some, if_pos h]

/-- This member's own route crosses no link. -/
theorem Engine.routeTo_self (e : Engine) (mg : Bool) : e.routeTo mg e.selfId = some ⟨0, 0⟩ := by
  have hwalk : ∀ d neg, e.walk mg e.selfId e.selfId d neg 32 = some (e.selfId, 0) := fun d neg => by
    rw [Engine.walk, if_pos rfl]
  have hdim : ∀ d, e.routeDim mg e.selfId (some (e.selfId, ⟨0, 0⟩)) d = some (e.selfId, ⟨0, 0⟩) := fun d => by
    rw [Engine.routeDim]
    dsimp only
    rw [hwalk, hwalk]
    rfl
  rw [Engine.routeTo, List.foldl_cons, hdim, List.foldl_cons, hdim, List.foldl_cons, hdim]
  rfl

/-- The engine with both route tables computed again. -/
def Engine.retabled (e : Engine) : Engine :=
  ((e.setFlg fun g => { g with routesDue := none, routes := e.routeTable false, mgmt := e.routeTable true }).count
    (Reg.FLG_CNT 4)).put Fld.FLG_STAT_ROUTES_VALID 1

/-- The engine with its parent's port, whether it has one, and its hops to the root. -/
def Engine.withParent (e : Engine) (p v n : Nat) : Engine :=
  ((e.put Fld.FLG_TIME_STAT_PARENT p).put Fld.FLG_TIME_STAT_PARENT_VALID v).put Fld.FLG_TIME_STAT_HOPS n

theorem routeRecompute_due {e : Engine} {t : Nat} (h : e.flg.routesDue = some t) :
    ∃ p v n, routeRecompute e = (e.retabled.withParent p v n).noteReach := by
  rw [routeRecompute, if_neg (by simp [h])]
  dsimp only
  cases hp : e.retabled.parent with
  | none =>
    rw [Engine.retabled] at hp
    rw [hp]
    exact ⟨0, 0, 0, rfl⟩
  | some x =>
    rw [Engine.retabled] at hp
    rw [hp]
    exact ⟨x.1, 1, x.2, rfl⟩

theorem Engine.retabled_rd (e : Engine) : e.retabled.rd (Reg.FLG_CNT 4) = satCount 48 (e.rd (Reg.FLG_CNT 4)) 1 := by
  have hset : (e.setFlg fun g => { g with routesDue := none, routes := e.routeTable false, mgmt := e.routeTable true }).rd
      (Reg.FLG_CNT 4) = e.rd (Reg.FLG_CNT 4) := Engine.rd_of_regs rfl _
  rw [Engine.retabled, Engine.rd_put_other _ _ _ (by decide), Engine.rd_count_same, hset]

/-- Beside the counter and two status registers, a recomputation changes the routes alone. -/
theorem Engine.rerouted_spec (e : Engine) (p v n : Nat) :
    (e.retabled.withParent p v n).flg =
      { e.flg with routesDue := none, routes := e.routeTable false, mgmt := e.routeTable true } ∧
    (e.retabled.withParent p v n).shf = e.shf ∧ (e.retabled.withParent p v n).mem = e.mem ∧
    (e.retabled.withParent p v n).is Fld.FLG_STAT_ROUTES_VALID = true ∧
    (e.retabled.withParent p v n).rd (Reg.FLG_CNT 4) = satCount 48 (e.rd (Reg.FLG_CNT 4)) 1 := by
  unfold Engine.withParent
  refine ⟨?_, ?_, ?_, ?_, ?_⟩
  · simp only [Engine.retabled, Engine.put_flg, Engine.count_flg]
    rfl
  · simp only [Engine.retabled, Engine.put_shf, Engine.count_shf]
    rfl
  · simp only [Engine.retabled, Engine.put_mem, Engine.count_mem]
    rfl
  · rw [Engine.is_put_other _ _ _ _ (by decide), Engine.is_put_other _ _ _ _ (by decide), Engine.is_put_other _ _ _ _ (by decide),
      Engine.retabled, Engine.is_put_same _ _ _ (by decide)]
    rfl
  · rw [Engine.rd_put_other _ _ _ (by decide), Engine.rd_put_other _ _ _ (by decide), Engine.rd_put_other _ _ _ (by decide),
      Engine.retabled_rd]

/-- REACHABLE changes what is reached, its field and its event. -/
theorem Engine.noteReach_spec (e : Engine) :
    e.noteReach.flg = { e.flg with reach := e.reachable } ∧ e.noteReach.shf = e.shf ∧ e.noteReach.mem = e.mem ∧
    (∀ off, off ≠ Reg.FLG_EVT → off ≠ Reg.FLG_STAT → e.noteReach.rd off = e.rd off) ∧
    e.noteReach.is Fld.FLG_STAT_ROUTES_VALID = e.is Fld.FLG_STAT_ROUTES_VALID := by
  have hevt : ∀ c, (e.evtIf c Fld.FLG_EVT_UNREACH).flg = e.flg ∧ (e.evtIf c Fld.FLG_EVT_UNREACH).shf = e.shf ∧
      (e.evtIf c Fld.FLG_EVT_UNREACH).is Fld.FLG_STAT_ROUTES_VALID = e.is Fld.FLG_STAT_ROUTES_VALID := fun c => by
    cases c
    · exact ⟨rfl, rfl, rfl⟩
    · exact ⟨e.evt_flg _, e.evt_shf _, Engine.is_evt_other _ _ _ (by decide)⟩
  unfold Engine.noteReach
  refine ⟨?_, ?_, ?_, fun off he hs => ?_, ?_⟩
  · rw [Engine.put_flg, Engine.setFlg, (hevt _).1]
  · rw [Engine.put_shf, Engine.setFlg, (hevt _).2.1]
  · rw [Engine.put_mem, Engine.setFlg, Engine.evtIf_mem]
  · rw [Engine.rd_put_other _ _ _ hs]
    exact (Engine.rd_of_regs rfl off).trans (Engine.rd_evtIf_other _ _ _ he)
  · rw [Engine.is_put_other _ _ _ _ (by decide)]
    exact (Engine.is_of_regs rfl _).trans (hevt _).2.2

/-! ### Time -/

theorem Engine.setSuspect_suspect (e : Engine) (b : Bool) : (e.setSuspect b).suspect = b := by
  unfold Engine.setSuspect
  split
  · assumption
  · cases b
    · rw [if_neg (by decide), Engine.suspect, Engine.is_evt_other _ _ _ (by decide), Engine.is_put_same _ _ _ (by decide)]
      rfl
    · rw [if_pos rfl, Engine.suspect, Engine.is_count_other _ _ (by decide), Engine.is_evt_other _ _ _ (by decide),
        Engine.is_put_same _ _ _ (by decide)]
      rfl

/-- SUSPECT changes its bit, its events and its counter. -/
theorem Engine.setSuspect_spec (e : Engine) (b : Bool) :
    (e.setSuspect b).flg = e.flg ∧ (e.setSuspect b).time = e.time ∧
    (∀ off, off ≠ Reg.FLG_TIME_STAT → off ≠ Reg.FLG_EVT → off ≠ Reg.FLG_CNT 7 → (e.setSuspect b).rd off = e.rd off) ∧
    (e.setSuspect b).is Fld.FLG_TIME_STAT_SYNCED = e.is Fld.FLG_TIME_STAT_SYNCED := by
  unfold Engine.setSuspect
  split
  · exact ⟨rfl, rfl, fun _ _ _ _ => rfl, rfl⟩
  · split
    · refine ⟨by simp only [Engine.count_flg, Engine.evt_flg, Engine.put_flg],
        by simp only [Engine.count_time, Engine.evt_time, Engine.put_time], fun off h h' h'' => ?_, ?_⟩
      · rw [Engine.rd_count_other _ h'', Engine.rd_evt_other _ _ h', Engine.rd_put_other _ _ _ h]
      · rw [Engine.is_count_other _ _ (by decide), Engine.is_evt_other _ _ _ (by decide), Engine.is_put_other _ _ _ _ (by decide)]
    · refine ⟨by simp only [Engine.evt_flg, Engine.put_flg], by simp only [Engine.evt_time, Engine.put_time], fun off h h' h'' => ?_, ?_⟩
      · rw [Engine.rd_evt_other _ _ h', Engine.rd_put_other _ _ _ h]
      · rw [Engine.is_evt_other _ _ _ (by decide), Engine.is_put_other _ _ _ _ (by decide)]

/-- The engine with its runs of offsets counted. -/
def Engine.ranOffset (e : Engine) (off : Int) : Engine := e.setFlg fun g => { g with
  outRun := if 4000 < off.natAbs then e.flg.outRun + 1 else 0, inRun := if off.natAbs ≤ 2000 then e.flg.inRun + 1 else 0 }

theorem Engine.judgeOffset_eq (e : Engine) (off : Int) : e.judgeOffset off =
    if ((e.ranOffset off).is Fld.FLG_TIME_CFG_ROOT || !(e.ranOffset off).inLattice) = true then e.ranOffset off
    else if 3 ≤ (e.ranOffset off).flg.outRun then (e.ranOffset off).setSuspect true
    else if 3 ≤ (e.ranOffset off).flg.inRun then (e.ranOffset off).setSuspect false
    else e.ranOffset off := rfl

/-- Judging an offset counts the runs and at most sets SUSPECT. -/
theorem Engine.judgeOffset_cases (e : Engine) (off : Int) :
    e.judgeOffset off = e.ranOffset off ∨ ∃ b, e.judgeOffset off = (e.ranOffset off).setSuspect b := by
  rw [Engine.judgeOffset_eq]
  by_cases hroot : ((e.ranOffset off).is Fld.FLG_TIME_CFG_ROOT || !(e.ranOffset off).inLattice) = true
  · exact .inl (if_pos hroot)
  · rw [if_neg hroot]
    by_cases hout : 3 ≤ (e.ranOffset off).flg.outRun
    · exact .inr ⟨true, if_pos hout⟩
    · rw [if_neg hout]
      by_cases hin : 3 ≤ (e.ranOffset off).flg.inRun
      · exact .inr ⟨false, if_pos hin⟩
      · exact .inl (if_neg hin)

theorem Engine.judgeOffset_spec (e : Engine) (off : Int) :
    (e.judgeOffset off).flg = (e.ranOffset off).flg ∧ (e.judgeOffset off).time = e.time ∧
    (∀ o, o ≠ Reg.FLG_TIME_STAT → o ≠ Reg.FLG_EVT → o ≠ Reg.FLG_CNT 7 → (e.judgeOffset off).rd o = e.rd o) ∧
    (e.judgeOffset off).is Fld.FLG_TIME_STAT_SYNCED = e.is Fld.FLG_TIME_STAT_SYNCED := by
  rcases e.judgeOffset_cases off with h | ⟨b, h⟩
  · rw [h]
    exact ⟨rfl, rfl, fun o _ _ _ => Engine.rd_of_regs rfl o, Engine.is_of_regs rfl _⟩
  · rw [h]
    obtain ⟨hf, ht, hr, hi⟩ := (e.ranOffset off).setSuspect_spec b
    exact ⟨hf, ht, fun o h1 h2 h3 => (hr o h1 h2 h3).trans (Engine.rd_of_regs rfl o), hi.trans (Engine.is_of_regs rfl _)⟩

theorem Engine.inLattice_of_regs {e e' : Engine} (h : e'.regs = e.regs) : e'.inLattice = e.inLattice := by
  unfold Engine.inLattice
  exact congrArg (List.any _) (funext fun p => Engine.is_of_regs h _)

/-- A member that is no root and has a port enabled is judged by its runs. -/
theorem Engine.ranOffset_judged {e : Engine} (off : Int) (hroot : e.is Fld.FLG_TIME_CFG_ROOT = false) (hlat : e.inLattice = true) :
    ¬ ((e.ranOffset off).is Fld.FLG_TIME_CFG_ROOT || !(e.ranOffset off).inLattice) = true := by
  have hregs : (e.ranOffset off).regs = e.regs := rfl
  rw [Engine.is_of_regs hregs, Engine.inLattice_of_regs hregs, hroot, hlat]
  decide

/-- Three offsets in a row beyond 200 ns make the member time-suspect. -/
theorem Engine.judgeOffset_suspect {e : Engine} {off : Int} (hroot : e.is Fld.FLG_TIME_CFG_ROOT = false) (hlat : e.inLattice = true)
    (hrun : e.flg.outRun = 2) (hoff : 4000 < off.natAbs) : (e.judgeOffset off).suspect = true := by
  have hout : (e.ranOffset off).flg.outRun = 3 := (if_pos hoff).trans (by rw [hrun])
  rw [Engine.judgeOffset_eq, if_neg (Engine.ranOffset_judged off hroot hlat), if_pos hout.ge, Engine.setSuspect_suspect]

/-- Three in a row within 100 ns end it. -/
theorem Engine.judgeOffset_trusted {e : Engine} {off : Int} (hroot : e.is Fld.FLG_TIME_CFG_ROOT = false) (hlat : e.inLattice = true)
    (hrun : e.flg.inRun = 2) (hoff : off.natAbs ≤ 2000) : (e.judgeOffset off).suspect = false := by
  have hout : (e.ranOffset off).flg.outRun = 0 := if_neg (by omega)
  have hin : (e.ranOffset off).flg.inRun = 3 := (if_pos hoff).trans (by rw [hrun])
  rw [Engine.judgeOffset_eq, if_neg (Engine.ranOffset_judged off hroot hlat), if_neg (by rw [hout]; decide), if_pos hin.ge,
    Engine.setSuspect_suspect]

theorem Engine.setTime_time (e : Engine) (t : Nat) : (e.setTime t).time = t % 2 ^ 64 := rfl

/-- Where no step is allowed the servo slews. -/
theorem Engine.servo_slews {e : Engine} {off : Int} (h : e.flg.stepOk = false) :
    (e.servo off).time = e.time ∧ (e.servo off).flg.slew = -(off.tdiv 16) := by
  rw [Engine.servo, if_neg (by simp [h])]
  exact ⟨Engine.put_time .., congrArg Flg.slew (Engine.put_flg ..)⟩

/-- Where one is allowed it steps lattice time once. -/
theorem Engine.servo_steps {e : Engine} {off : Int} (h : e.flg.stepOk = true) :
    (e.servo off).time = ((e.time : Int) - off / 16).toNat % 2 ^ 64 ∧ (e.servo off).flg.stepOk = false ∧ (e.servo off).flg.slew = 0 := by
  rw [Engine.servo, if_pos h]
  refine ⟨?_, ?_, ?_⟩
  · exact (Engine.put_time ..).trans (Engine.count_time ..)
  · exact congrArg Flg.stepOk ((Engine.put_flg ..).trans (Engine.count_flg ..))
  · exact congrArg Flg.slew ((Engine.put_flg ..).trans (Engine.count_flg ..))

/-- The servo writes OFFSET and counts its steps. -/
theorem Engine.servo_rd (e : Engine) (off : Int) {o : Nat} (hstat : o ≠ Reg.FLG_TIME_STAT) (hcnt : o ≠ Reg.FLG_CNT 6) :
    (e.servo off).rd o = e.rd o := by
  unfold Engine.servo
  split
  · rw [Engine.rd_put_other _ _ _ hstat, Engine.rd_count_other _ hcnt]
    exact Engine.rd_of_regs rfl o
  · rw [Engine.rd_put_other _ _ _ hstat]
    exact Engine.rd_of_regs rfl o

theorem Engine.servo_synced (e : Engine) (off : Int) : (e.servo off).is Fld.FLG_TIME_STAT_SYNCED = e.is Fld.FLG_TIME_STAT_SYNCED := by
  unfold Engine.servo
  split
  · rw [Engine.is_put_other _ _ _ _ (by decide), Engine.is_count_other _ _ (by decide)]
    exact Engine.is_of_regs rfl _
  · rw [Engine.is_put_other _ _ _ _ (by decide)]
    exact Engine.is_of_regs rfl _

/-- Taking a control body changes the port's list alone. -/
theorem Engine.takeCtrl_some {e e1 : Engine} {p ctype : Nat} {x : Nat × Bytes} (h : e.takeCtrl p ctype = some (x, e1)) :
    ∃ f, e1 = e.setFport p f := by
  unfold Engine.takeCtrl at h
  dsimp only at h
  split at h
  · exact absurd h (by simp)
  · obtain ⟨y, -, hy⟩ := Option.map_eq_some_iff.mp h
    exact ⟨_, (Prod.mk.inj hy).2.symm⟩

/-- The engine with a SYNC exchange completed, before its offset is judged. -/
def Engine.exchanged (e : Engine) : Engine :=
  ((((e.setFlg fun g => { g with synced := true, rspAt := e.cyc }).count (Reg.FLG_CNT 5)).put Fld.FLG_TIME_STAT_SYNCED 1).put
    Fld.GLB_STAT_TIME_VALID 1)

theorem Engine.exchanged_spec (e : Engine) :
    e.exchanged.flg = { e.flg with synced := true, rspAt := e.cyc } ∧ e.exchanged.time = e.time ∧
    e.exchanged.is Fld.FLG_TIME_STAT_SYNCED = true ∧ e.exchanged.is Fld.GLB_STAT_TIME_VALID = true ∧
    e.exchanged.rd (Reg.FLG_CNT 5) = satCount 48 (e.rd (Reg.FLG_CNT 5)) 1 := by
  have hset : (e.setFlg fun g => { g with synced := true, rspAt := e.cyc }).rd (Reg.FLG_CNT 5) = e.rd (Reg.FLG_CNT 5) :=
    Engine.rd_of_regs rfl _
  unfold Engine.exchanged
  refine ⟨by simp only [Engine.put_flg, Engine.count_flg]; rfl, by simp only [Engine.put_time, Engine.count_time]; rfl, ?_, ?_, ?_⟩
  · rw [Engine.is_put_other _ _ _ _ (by decide), Engine.is_put_same _ _ _ (by decide)]
    rfl
  · rw [Engine.is_put_same _ _ _ (by decide)]
    rfl
  · rw [Engine.rd_put_other _ _ _ (by decide), Engine.rd_put_other _ _ _ (by decide), Engine.rd_count_same, hset]

theorem syncRsp_parent {e e1 : Engine} {p t4 : Nat} {b : Bytes} (h : e.takeCtrl p 3 = some ((t4, b), e1))
    (hroot : e.is Fld.FLG_TIME_CFG_ROOT = false) (hvalid : e.is Fld.FLG_TIME_STAT_PARENT_VALID = true)
    (hp : p = e.get Fld.FLG_TIME_STAT_PARENT) :
    syncRsp p e = (e1.exchanged.judgeOffset (int64 b 32 - (((leAt b 16 8 : Int) - (leAt b 8 8 : Int)) - ((t4 : Int) - (leAt b 24 8 : Int))) / 2)).servo
      (int64 b 32 - (((leAt b 16 8 : Int) - (leAt b 8 8 : Int)) - ((t4 : Int) - (leAt b 24 8 : Int))) / 2) := by
  obtain ⟨f, hf⟩ := Engine.takeCtrl_some h
  have hregs : e1.regs = e.regs := by rw [hf]; rfl
  have hg : e1.get Fld.FLG_TIME_STAT_PARENT = e.get Fld.FLG_TIME_STAT_PARENT := by
    rw [Engine.get, Engine.get, Engine.rd_of_regs hregs]
  rw [syncRsp, h]
  dsimp only
  rw [if_neg (by rw [Engine.is_of_regs hregs, Engine.is_of_regs hregs, hroot, hvalid, hg]; simp [hp])]
  rfl

/-! ### O54 -/

/-- Settles O54, clause by clause: an LSA that is not newer changes nothing beyond its buffers; the servo and the judging of an offset
each touch their own registers. -/
theorem latticeKeepsRoutesAndTime : Obligations.LatticeKeepsRoutesAndTime := by
  refine ⟨fun s hup hdue hat => ?_, fun s hup hdue hports => ?_, fun s id m info l hup hm hl hold => ?_,
    fun s id m info hup hm hself hnew hroot hports => ?_, fun s m l hup hl hage hreach => ?_, fun s m l hup hl hage => ?_,
    fun s hup hdue => ?_, fun s t hup hdue => ?_, fun e mg r hr => ?_, fun s frac hup hoff => ?_,
    fun s frac hup hroot hvalid hst hrt hat => ?_, fun s p frac t2 b e1 hup htake hroot => ?_,
    fun s p t4 b e1 off hup htake hroot hvalid hp hoff => ?_, fun e off hroot hlat hrun hoff => ?_,
    fun e off hroot hlat hrun hoff => ?_, fun s hup hroot hlat hat => ?_, fun s hup hoff => ?_, fun s hup hroot hsrc hlost hat => ?_,
    fun s id m hup hm hlt htime => ?_, fun s id c hup hc hlt => ?_, fun s id c hup hc hle hnone => ?_, fun s id c hup hc hlen => ?_,
    fun s id c hup hc hp ha => ?_, fun s id c hup hc hbad => ?_, fun s id c hup hc => ?_⟩
  · refine (Does.engine (show exec _ s = execLsaFloodTimer s from rfl) hup).congr (g := fun e => e) ?_
    rw [lsaFlood]
    exact if_pos ⟨by simp [hdue], hat⟩
  · refine .engine (show exec _ s = execLsaFloodTimer s from rfl) hup ?_
    rw [State.onEng_eng, lsaFlood_alone hdue hports]
    exact ⟨rfl, rfl, rfl, rfl, rfl⟩
  · exact (Does.engine (show exec _ s = execLsa id info s from rfl) hup).congr (lsaRecv_old hm hl hold)
  · exact (Does.engine (show exec _ s = execLsa id info s from rfl) hup).congr (lsaRecv_first hm hself hnew hroot hports)
  · refine (Does.engine (show exec _ s = execLsaAgeExpiry m s from rfl) hup).congr ?_
    rw [lsaAgeExpiry, if_pos ⟨by rw [hl]; rfl, by rw [Engine.freshLsa_old hl hage]; rfl, hreach⟩]
  · refine (Does.engine (show exec _ s = execLsaAgeExpiry m s from rfl) hup).congr (g := fun e => e) ?_
    rw [lsaAgeExpiry, Engine.freshLsa_young hl hage, if_neg (by simp)]
  · refine (Does.engine (show exec _ s = execRouteRecompute s from rfl) hup).congr (g := fun e => e) ?_
    rw [routeRecompute, if_pos (by rw [hdue]; rfl)]
  · refine .engine (show exec _ s = execRouteRecompute s from rfl) hup ?_
    obtain ⟨p, v, n, hrun⟩ := routeRecompute_due hdue
    obtain ⟨hflg, hshf, hmem, hvalid, hcnt⟩ := s.eng.rerouted_spec p v n
    obtain ⟨hflg', hshf', hmem', hrd', hvalid'⟩ := (s.eng.retabled.withParent p v n).noteReach_spec
    rw [State.onEng_eng, hrun]
    refine ⟨?_, ?_, ?_, hvalid'.trans hvalid, (hrd' _ (by decide) (by decide)).trans hcnt, hshf'.trans hshf, hmem'.trans hmem⟩
    · rw [hflg', hflg]
    · rw [hflg', hflg]
    · rw [hflg', hflg]
  · exact (Option.some.inj ((e.routeTo_self mg).symm.trans hr)).symm
  · refine (Does.engine (show exec _ s = execSyncSend frac s from rfl) hup).congr (g := fun e => e) ?_
    rw [syncSend]
    exact if_pos (by rcases hoff with h | h | h <;> simp [h])
  · refine (Does.engine (show exec _ s = execSyncSend frac s from rfl) hup).congr ?_
    rw [syncSend]
    exact if_neg (by simp [hroot, hvalid, hst, hrt, hat])
  · refine (Does.engine (show exec _ s = execSync p frac s from rfl) hup).congr ?_
    obtain ⟨f, hf⟩ := Engine.takeCtrl_some htake
    have hroot1 : e1.is Fld.FLG_TIME_CFG_ROOT = true := (Engine.is_of_regs (by rw [hf]; rfl) _).trans hroot
    have htime : e1.time = s.eng.time := by rw [hf]; rfl
    rw [syncRecv, htake]
    dsimp only
    rw [hroot1, if_pos rfl, htime]
    rfl
  · refine .engine (show exec _ s = execSyncRsp p s from rfl) hup ?_
    obtain ⟨f, hf⟩ := Engine.takeCtrl_some htake
    obtain ⟨hflg, htime, hsynced, htv, hcnt⟩ := e1.exchanged_spec
    obtain ⟨jflg, jtime, jrd, jsynced⟩ := e1.exchanged.judgeOffset_spec off
    have hstep : (e1.exchanged.judgeOffset off).flg.stepOk = s.eng.flg.stepOk := by
      rw [jflg, Engine.ranOffset, Engine.setFlg, hflg, hf]
      rfl
    have ht : (e1.exchanged.judgeOffset off).time = s.eng.time := by
      rw [jtime, htime, hf]
      rfl
    have hcnt1 : e1.rd (Reg.FLG_CNT 5) = s.eng.rd (Reg.FLG_CNT 5) := Engine.rd_of_regs (by rw [hf]; rfl) _
    rw [State.onEng_eng, syncRsp_parent htake hroot hvalid hp, hoff]
    refine ⟨?_, ?_, ?_, fun hno => ?_, fun hyes => ?_⟩
    · rw [Engine.servo_synced, jsynced, hsynced]
    · refine Eq.trans ?_ htv
      rw [Engine.is, Engine.is, Engine.get, Engine.get, Engine.servo_rd _ _ (by decide) (by decide),
        jrd _ (by decide) (by decide) (by decide)]
    · rw [Engine.servo_rd _ _ (by decide) (by decide), jrd _ (by decide) (by decide) (by decide), hcnt, hcnt1]
    · obtain ⟨h1, h2⟩ := Engine.servo_slews (off := off) (hstep.trans hno)
      exact ⟨h1.trans ht, h2⟩
    · obtain ⟨h1, h2, h3⟩ := Engine.servo_steps (off := off) (hstep.trans hyes)
      exact ⟨by rw [h1, ht], h2, h3⟩
  · exact Engine.judgeOffset_suspect hroot hlat hrun hoff
  · exact Engine.judgeOffset_trusted hroot hlat hrun hoff
  · refine .engine (show exec _ s = execTimeSuspectTimeout s from rfl) hup ?_
    obtain ⟨hflg, htime, -, -⟩ := (s.eng.setFlg fun g => { g with inRun := 0 }).setSuspect_spec true
    rw [State.onEng_eng, timeSuspectTimeout, if_neg (by simp [hroot, hlat, hat])]
    exact ⟨Engine.setSuspect_suspect _ _, by rw [hflg]; rfl, htime⟩
  · refine (Does.engine (show exec _ s = execTimeSuspectTimeout s from rfl) hup).congr (g := fun e => e) ?_
    rw [timeSuspectTimeout, if_pos hoff]
  · refine (Does.engine (show exec _ s = execPpsLost s from rfl) hup).congr ?_
    rw [ppsLost, if_pos ⟨hroot, hsrc, hlost, hat⟩]
  · refine (Does.engine (show exec _ s = execLReset id s from rfl) hup).congr ?_
    rw [lReset, hm]
    dsimp only
    rw [if_neg (by rw [htime]; omega)]
  · refine (Does.engine (show exec _ s = execLatticeReset id s from rfl) hup).congr ?_
    rw [latticeReset, withCmd_some hc]
    dsimp only
    rw [if_pos hlt]
  · refine (Does.engine (show exec _ s = execLatticeReset id s from rfl) hup).congr ?_
    rw [latticeReset, withCmd_some hc]
    dsimp only
    rw [if_neg (by omega), hnone]
    rfl
  · refine (Does.engine (show exec _ s = execLatTopology id s from rfl) hup).congr ?_
    rw [latTopology, withCmd_some hc]
    dsimp only
    rw [if_neg (by simp [hlen])]
  · refine (Does.engine (show exec _ s = execLatLink id s from rfl) hup).congr ?_
    rw [latLink, withCmd_some hc]
    dsimp only
    rw [if_neg (by omega), if_neg (by omega)]
  · refine (Does.engine (show exec _ s = execLatLink id s from rfl) hup).congr ?_
    rw [latLink, withCmd_some hc]
    dsimp only
    rw [if_pos hbad]
  · refine (Does.engine (show exec _ s = execLatResync id s from rfl) hup).congr ?_
    rw [latResync, withCmd_some hc]

end Sys2Proof.Machine

/-!
PROOFS. The gleaner: tally boundaries, counter reads, traces and waits (O55).
-/
namespace Sys2Proof.Machine

/-! ### Which registers a boundary latches -/

theorem regFind_mem {off : Nat} {r : RegRow} {ij : Nat × Nat} (h : regFind off = some (r, ij)) : r ∈ regRowsAt off := by
  obtain ⟨x, hx, hm⟩ := List.exists_of_findSome?_eq_some h
  obtain ⟨_, -, hy⟩ := Option.map_eq_some_iff.mp hm
  exact (Prod.mk.inj hy).1 ▸ hx

/-- Tally counters lie in the winnow, the cascade, the orchard and the sluice. -/
theorem kindAt_tally {off : Nat} (h : kindAt off .tally = true) :
    off / 0x100000 = 4 ∨ off / 0x100000 = 5 ∨ off / 0x100000 = 7 ∨ off / 0x100000 = 12 := by
  unfold kindAt at h
  split at h
  · rename_i r ij hf
    have hmem := regFind_mem hf
    have hk : r.kind = .tally := by simpa using h
    unfold regRowsAt at hmem
    have hno : ∀ l : List RegRow, r ∈ l → (l.all fun r => r.kind != .tally) = true → False := fun l hl ha => by
      have := List.all_eq_true.mp ha r hl
      simp [hk] at this
    split at hmem
    · exact (hno _ hmem (by decide)).elim
    · split at hmem
      · exact (hno _ hmem (by decide)).elim
      · split at hmem
        all_goals try omega
        all_goals exact (hno _ hmem (by decide)).elim
  · exact absurd h (by decide)

/-- High-water marks lie in the mills, the garners and the sluice. -/
theorem hwmFields_some {off : Nat} (h : hwmFields off ≠ []) :
    off / 0x100000 = 8 ∨ off / 0x100000 = 11 ∨ off / 0x100000 = 12 := by
  by_contra hn
  refine h ?_
  rw [hwmFields, if_neg (by simp only [Reg.MIL_QSTAT]; omega), if_neg (by simp only [Reg.GAR_SP_DEPTH]; omega),
    if_neg (by simp only [Reg.SLC_TXQ_HWM]; omega), if_neg (by simp only [Reg.SLC_HBQ_HWM]; omega)]

/-- The registers that a boundary may restart. -/
def latchBlock (off : Nat) : Prop :=
  off / 0x100000 = 4 ∨ off / 0x100000 = 5 ∨ off / 0x100000 = 7 ∨ off / 0x100000 = 8 ∨ off / 0x100000 = 11 ∨ off / 0x100000 = 12

theorem latched_block {off v w : Nat} (h : latched off v = some w) : latchBlock off := by
  unfold latchBlock
  unfold latched at h
  split at h
  · have := kindAt_tally ‹_›
    omega
  · by_cases hf : hwmFields off = []
    · rw [hf] at h
      exact absurd h (by simp)
    · have := hwmFields_some hf
      omega

/-- The counter of a cascade entry is a tally counter that starts from zero. -/
theorem entcnt_tally : ∀ i < 1024, kindAt (Reg.CSC_ENTCNT i) .tally = true ∧ regReset (Reg.CSC_ENTCNT i) = 0 := by decide +kernel

/-! ### Latching -/

/-- A register restarts. -/
def Engine.restart (e : Engine) (off : Nat) : Engine := e.wr off (e.restartAt off (e.rd off))

theorem Engine.restart_tally {e : Engine} {off : Nat} (h : kindAt off .tally = true) : (e.restart off).rd off = 0 := by
  rw [Engine.restart, Engine.rd_wr_same, Engine.restartAt, if_pos h, Nat.zero_mod]

theorem Engine.restartAll_other {off : Nat} : ∀ (l : List Nat) (e : Engine), off ∉ l → (l.foldl Engine.restart e).rd off = e.rd off
  | [], _, _ => rfl
  | o :: l, e, h => by
    rw [List.foldl_cons, Engine.restartAll_other l _ fun hl => h (List.mem_cons_of_mem _ hl)]
    exact Engine.rd_wr_other _ _ fun ho => h (ho ▸ List.mem_cons_self)

theorem Engine.restartAll_tally {off : Nat} (hk : kindAt off .tally = true) (l : List Nat) (e : Engine) (h : off ∈ l) :
    (l.foldl Engine.restart e).rd off = 0 := by
  induction l generalizing e with
  | nil => exact absurd h List.not_mem_nil
  | cons o l ih =>
    rw [List.foldl_cons]
    by_cases hl : off ∈ l
    · exact ih _ hl
    · rw [Engine.restartAll_other l _ hl]
      obtain rfl : off = o := (List.mem_cons.mp h).resolve_right hl
      exact Engine.restart_tally hk

/-- What a boundary latches. -/
def Engine.tallyBank (e : Engine) : Tbl Word :=
  e.regs.filterMap fun (x : Nat × Word) => (latched x.1 x.2.toNat).map fun v => (x.1, BitVec.ofNat 64 v)

theorem Engine.tallyBank_block {e : Engine} {off : Nat} (h : off ∈ e.tallyBank.map Prod.fst) : latchBlock off := by
  obtain ⟨x, hx, rfl⟩ := List.mem_map.mp h
  obtain ⟨y, -, hy⟩ := List.mem_filterMap.mp hx
  obtain ⟨v, hv, rfl⟩ := Option.map_eq_some_iff.mp hy
  exact latched_block hv

/-- The bank lists a tally counter with its value. -/
theorem latchAll_find {off : Nat} (hk : kindAt off .tally = true) : ∀ l : Tbl Word,
    Tbl.find (l.filterMap fun (x : Nat × Word) => (latched x.1 x.2.toNat).map fun v => (x.1, BitVec.ofNat 64 v)) off = Tbl.find l off
  | [] => rfl
  | (o, w) :: l => by
    by_cases ho : off = o
    · subst ho
      have hv : latched off w.toNat = some w.toNat := if_pos hk
      simp only [List.filterMap_cons, hv, Option.map_some, Tbl.find, if_true, BitVec.ofNat_toNat, BitVec.setWidth_eq]
    · rw [Tbl.find, if_neg ho, ← latchAll_find hk l, List.filterMap_cons]
      cases latched o w.toNat with
      | none => rfl
      | some v => simp only [Option.map_some, Tbl.find, if_neg ho]

theorem Tbl.find_key {α : Type} {k : Nat} {v : α} : ∀ {l : Tbl α}, Tbl.find l k = some v → k ∈ l.map Prod.fst
  | (o, w) :: l, h => by
    by_cases ho : k = o
    · simp [ho]
    · rw [Tbl.find, if_neg ho] at h
      exact List.mem_cons_of_mem _ (Tbl.find_key h)

theorem Engine.latchTally_rd (e : Engine) (t off : Nat) : (e.latchTally t).rd off = ((e.tallyBank.map Prod.fst).foldl Engine.restart e).rd off :=
  Engine.rd_of_regs rfl off

theorem Engine.latchTally_other (e : Engine) (t : Nat) {off : Nat} (h : ¬ latchBlock off) : (e.latchTally t).rd off = e.rd off := by
  rw [Engine.latchTally_rd, Engine.restartAll_other _ _ fun hm => h (Engine.tallyBank_block hm)]

/-- A tally counter that counts restarts, and the bank holds what it counted. -/
theorem Engine.latchTally_tally {e : Engine} (t : Nat) {off : Nat} (hk : kindAt off .tally = true) (hz : regReset off = 0)
    (h : e.rd off ≠ 0) : (e.latchTally t).rd off = 0 ∧ (Tbl.get 0 (e.latchTally t).glnKeep.shadow off).toNat = e.rd off := by
  have hfind : Tbl.find e.tallyBank off = Tbl.find e.regs off := latchAll_find hk e.regs
  cases hv : Tbl.find e.regs off with
  | none =>
    refine absurd ?_ h
    rw [Engine.rd, Tbl.get, hv, hz]
    rfl
  | some w =>
    constructor
    · rw [Engine.latchTally_rd]
      exact Engine.restartAll_tally hk _ _ (Tbl.find_key (hfind.trans hv))
    · have hs : (e.latchTally t).glnKeep.shadow = e.tallyBank := rfl
      rw [hs, Engine.rd, Tbl.get, Tbl.get, hfind, hv]
      rfl

/-! ### What is left alone by the end of a boundary -/

/-- Lattice time, memory, the packets, what the gleaner keeps and the trigger. -/
def Engine.boundaryView (e : Engine) : Nat × Tbl Byte × List Pkt × GlnKeep × Bool :=
  (e.time, e.mem, e.pkts, e.glnKeep, e.gln.trigDue)

/-- What staging a record leaves of the gleaner, and what it adds. -/
def Gln.StagesTo (g g' : Gln) : Prop := g'.trigDue = g.trigDue ∧ g'.pcAt = g.pcAt ∧ g'.staged ≤ g.staged + 2

/-- Staging a record counts its loss and flags it, or stages it, behind a GAP record at most. -/
theorem Engine.stage_spec (e : Engine) (r : Bytes) (t : Nat) :
    ∃ e0 f, e.stage r t = Engine.setGln e0 f ∧ (∀ g, Gln.StagesTo g (f g)) ∧ e0.gln = e.gln ∧ e0.mem = e.mem ∧ e0.ril = e.ril := by
  rw [Engine.stage]
  by_cases h : e.stagingMax < e.gln.staging.length + (if e.gln.dropped = 0 then 1 else 2)
  · rw [if_pos h]
    exact ⟨_, _, rfl, fun g => ⟨rfl, rfl, Nat.le_add_right _ _⟩, by rw [Engine.evt_gln, Engine.count_gln],
      by rw [Engine.evt_mem, Engine.count_mem], by rw [Engine.evt_ril, Engine.count_ril]⟩
  · rw [if_neg h]
    refine ⟨_, _, rfl, fun g => ⟨rfl, rfl, ?_⟩, rfl, rfl, rfl⟩
    by_cases hd : e.gln.dropped = 0
    · simp only [if_pos hd, List.length_nil]
      omega
    · simp only [if_neg hd, List.length_singleton]
      omega

theorem Engine.stage_gln (e : Engine) (r : Bytes) (t : Nat) : Gln.StagesTo e.gln (e.stage r t).gln := by
  obtain ⟨e0, f, h, hf, hg, -, -⟩ := e.stage_spec r t
  rw [h, ← hg]
  exact hf e0.gln

theorem Engine.stage_memRil (e : Engine) (r : Bytes) (t : Nat) : (e.stage r t).mem = e.mem ∧ (e.stage r t).ril = e.ril := by
  obtain ⟨e0, f, h, -, -, hm, hr⟩ := e.stage_spec r t
  rw [h]
  exact ⟨hm, hr⟩

theorem Engine.trace_trigDue (e : Engine) (src : Fld) (k w1 w2 aux : Nat) : (e.trace src k w1 w2 aux).gln.trigDue = e.gln.trigDue := by
  unfold Engine.trace
  split
  · exact (e.stage_gln _ _).1
  · rfl

theorem Engine.dropCmd_gln (e : Engine) (id : Nat) : (e.dropCmd id).gln = e.gln := by
  unfold Engine.dropCmd
  split
  · rfl
  · exact foldl_keeps (f := fun e d => Engine.endsUnstarted e d 0x01) Engine.gln (fun _ _ => rfl) _ _

theorem Engine.complete_trigDue (e : Engine) (id st res fl : Nat) (stamp : Option Nat) (n : Nat) :
    (e.complete id st res fl stamp n).gln.trigDue = e.gln.trigDue := by
  unfold Engine.complete
  split
  · rfl
  · dsimp only
    split
    · rw [Engine.dropCmd_gln]
      exact e.trace_trigDue _ _ _ _ _
    · rfl

theorem Engine.finishOk_boundaryView (e : Engine) (id res : Nat) : (e.finishOk id res).boundaryView = e.boundaryView := by
  have htrig := e.complete_trigDue id 0 res 0 none 328
  obtain ⟨⟨rs, h, g, heq⟩, -⟩ := e.complete_ends id 0 res 0 none 328
  unfold Engine.finishOk Engine.boundaryView
  rw [htrig, heq]

@[simp] theorem Engine.put_boundaryView (e : Engine) (f : Fld) (v : Nat) : (e.put f v).boundaryView = e.boundaryView := (rfl)
@[simp] theorem Engine.evt_boundaryView (e : Engine) (f : Fld) : (e.evt f).boundaryView = e.boundaryView := (rfl)

/-- The home table that was staged is in its registers, and its size too. -/
def Engine.homeWritten (e : Engine) : Engine :=
  let e1 := e.shf.stagedHome.foldl (fun e x => e.put (Fld.SHF_HOMETAB_ID x.1) x.2) e
  match e1.shf.stagedN with | some n => e1.put Fld.SHF_HOME_N n | none => e1

/-- The engine whose staged home table has been applied and whose commands have completed. -/
def Engine.homeEnds (e : Engine) : Engine := e.homeWritten.shf.stagedCmds.foldl (fun e c => e.finishOk c 0) e.homeWritten

theorem Engine.applyHome_cases (e : Engine) (t : Nat) : e.applyHome t = e ∨
    ∃ s, e.applyHome t = (({ e.homeEnds with shf := s }.put Fld.SHF_HOME_PEND 0).evt Fld.SHF_EVT_HOME_APPLIED) := by
  unfold Engine.applyHome
  split
  · exact .inl rfl
  · exact .inr ⟨_, rfl⟩

theorem Engine.homeEnds_boundaryView (e : Engine) : e.homeEnds.boundaryView = e.boundaryView := by
  refine (foldl_keeps Engine.boundaryView (fun e c => e.finishOk_boundaryView c 0) _ _).trans ?_
  unfold Engine.homeWritten
  dsimp only
  split
  · exact (Engine.put_boundaryView _ _ _).trans (foldl_keeps Engine.boundaryView (fun e x => e.put_boundaryView _ _) _ _)
  · exact foldl_keeps Engine.boundaryView (fun e x => e.put_boundaryView _ _) _ _

/-- Below the sheaf's registers nothing changes. -/
theorem Engine.homeEnds_rd (e : Engine) {off : Nat} (h : off < 0x600000) : e.homeEnds.rd off = e.rd off := by
  refine (foldl_keeps (fun e : Engine => e.rd off) (fun e c => (e.complete_ends c 0 0 0 none 328).2 off ?_ ?_) _ _).trans ?_
  · simp only [Reg.GLN_CNT]; omega
  · simp only [Reg.GLN_EVT]; omega
  have hput : ∀ (e : Engine) (x : Nat × Nat), (e.put (Fld.SHF_HOMETAB_ID x.1) x.2).rd off = e.rd off := fun e x =>
    Engine.rd_put_other _ _ _ (by simp only [Fld.SHF_HOMETAB_ID, Reg.SHF_HOMETAB]; omega)
  unfold Engine.homeWritten
  dsimp only
  split
  · exact (Engine.rd_put_other _ _ _ (by simp only [Fld.SHF_HOME_N, Reg.SHF_HOME]; omega)).trans
      (foldl_keeps (fun e : Engine => e.rd off) hput _ _)
  · exact foldl_keeps (fun e : Engine => e.rd off) hput _ _

theorem Engine.applyHome_boundaryView (e : Engine) (t : Nat) : (e.applyHome t).boundaryView = e.boundaryView := by
  obtain h | ⟨s, h⟩ := e.applyHome_cases t
  · rw [h]
  · rw [h, Engine.evt_boundaryView, Engine.put_boundaryView]
    exact e.homeEnds_boundaryView

theorem Engine.applyHome_rd (e : Engine) (t : Nat) {off : Nat} (h : off < 0x600000) : (e.applyHome t).rd off = e.rd off := by
  obtain h' | ⟨s, h'⟩ := e.applyHome_cases t
  · rw [h']
  · rw [h', Engine.rd_evt_other _ _ (by simp only [Fld.SHF_EVT_HOME_APPLIED, Reg.SHF_EVT]; omega),
      Engine.rd_put_other _ _ _ (by simp only [Fld.SHF_HOME_PEND, Reg.SHF_HOME]; omega)]
    exact (Engine.rd_of_regs rfl off).trans (e.homeEnds_rd h)

/-! ### A boundary -/

/-- The engine with the counters latched and the boundary's number and time shown. -/
def Engine.stamped (e : Engine) (t : Nat) : Engine :=
  ((e.latchTally t).wr Reg.GLN_TALLY_STAT ((e.latchTally t).rd Reg.GLN_TALLY_STAT + 1)).wr Reg.GLN_TALLY_TIME t

/-- The next boundary is set, and what waited for this one is due. -/
def Engine.boundaryPast (e : Engine) (t : Nat) : Engine :=
  let e := { e with gln := { e.gln with trigDue := false, nextT := (e.time / e.tallyPeriod + 1) * e.tallyPeriod } }
  let e := { e with tab := { e.tab with pend := e.tab.pend.map fun (x : PendSwitch) => if x.mode = 1 then { x with due := true, t := t } else x } }
  e.setGft fun g => { g with arm := g.arm.map fun (a : Armed) => match a.mode with
    | .tally | .learned => { a with due := true, t := t }
    | _ => a }

theorem tallyBoundary_due {e : Engine} {t : Nat} {trig : Bool} (h : e.boundaryDue = some (t, trig)) (hnum : e.num = []) :
    tallyBoundary e = (((e.stamped t).tallyRecord t trig).boundaryPast t).applyHome t := by
  have hclose : e.closeModelWindows = e := by
    unfold Engine.closeModelWindows
    rw [hnum]
    rfl
  rw [tallyBoundary, h]
  dsimp only
  rw [hclose]
  rfl

theorem Engine.stamped_rd (e : Engine) (t : Nat) {off : Nat} (h : off < 0xF00000) (hb : ¬ latchBlock off) :
    (e.stamped t).rd off = e.rd off := by
  rw [Engine.stamped, Engine.rd_wr_other _ _ (by simp only [Reg.GLN_TALLY_TIME]; omega),
    Engine.rd_wr_other _ _ (by simp only [Reg.GLN_TALLY_STAT]; omega), Engine.latchTally_other _ _ hb]

theorem Engine.stamped_is (e : Engine) (t : Nat) (f : Fld) (h : f.off < 0xF00000) (hb : ¬ latchBlock f.off) : (e.stamped t).is f = e.is f := by
  rw [Engine.is, Engine.is, Engine.get, Engine.get, e.stamped_rd t h hb]

theorem Engine.stamped_ringState (e : Engine) (t : Nat) {k : Nat} (hk : k < 4096) : (e.stamped t).ringState k = e.ringState k := by
  have hoff : (Fld.HIF_RING_STAT_STATE k).off = 0x18001C + 0x40 * k := rfl
  rw [Engine.ringState, Engine.ringState, Engine.get, Engine.get, e.stamped_rd t]
  · rw [hoff]
    omega
  · rw [hoff, latchBlock]
    omega

theorem Engine.tallyRecord_off {e : Engine} {t : Nat} {trig : Bool} (h : e.is Fld.HIF_TALLY_EN = false) : e.tallyRecord t trig = e := by
  rw [Engine.tallyRecord, if_pos (by simp [h])]

/-- Latching leaves time, memory and the packets. -/
theorem Engine.latchTally_view (e : Engine) (t : Nat) :
    (e.latchTally t).time = e.time ∧ (e.latchTally t).mem = e.mem ∧ (e.latchTally t).pkts = e.pkts :=
  ⟨foldl_keeps (f := Engine.restart) Engine.time (fun _ _ => rfl) (e.tallyBank.map Prod.fst) e,
    foldl_keeps (f := Engine.restart) Engine.mem (fun _ _ => rfl) (e.tallyBank.map Prod.fst) e,
    foldl_keeps (f := Engine.restart) Engine.pkts (fun _ _ => rfl) (e.tallyBank.map Prod.fst) e⟩

theorem Engine.boundaryPast_regs (e : Engine) (t : Nat) : (e.boundaryPast t).regs = e.regs := rfl

theorem Engine.message_regs (e : Engine) (v : Nat) : (e.message v).regs = e.regs := by
  unfold Engine.message
  split <;> rfl

theorem Engine.hifEvt_is (e : Engine) (f : Fld) (h : f.hi = f.lo) (h64 : f.hi < 64) : (e.hifEvt f).is f = true := by
  unfold Engine.hifEvt
  by_cases hf : e.is f = true
  · rw [if_pos hf, hf]
  · rw [if_neg hf]
    rw [Engine.is_of_regs ((e.evt f).message_regs _), Engine.is_evt_same _ _ h h64]

/-- A record whose ring is not ACTIVE is lost. -/
theorem Engine.tallyRecord_lost {e : Engine} {t : Nat} {trig : Bool} (h : e.is Fld.HIF_TALLY_EN = true)
    (hst : e.ringState (e.get Fld.HIF_TALLY_RING) ≠ 1) : e.tallyRecord t trig = e.hifEvt Fld.HIF_EVT_TALLY_LOST := by
  rw [Engine.tallyRecord, if_neg (by simp [h])]
  exact if_pos (.inl hst)


/-- With no TALLY record to write, the registers outside what is latched read as they did. -/
theorem tallyBoundary_quiet {e : Engine} {t : Nat} {trig : Bool} (h : e.boundaryDue = some (t, trig)) (hnum : e.num = [])
    (hoff : e.is Fld.HIF_TALLY_EN = false) : tallyBoundary e = ((e.stamped t).boundaryPast t).applyHome t := by
  rw [tallyBoundary_due h hnum, Engine.tallyRecord_off ((e.stamped_is t _ (by decide) (by unfold latchBlock; decide)).trans hoff)]

theorem Engine.applyHome_idle {e : Engine} {t : Nat} (h : e.is Fld.SHF_HOME_PEND = false) : e.applyHome t = e := by
  rw [Engine.applyHome, if_pos (by simp [h])]

/-! ### Reads leave lattice time -/

theorem Engine.memCe_time (e : Engine) (m a : Nat) : (e.memCe m a).time = e.time := by
  unfold Engine.memCe
  dsimp only
  split
  · rw [Engine.errRecord_time, Engine.fresh]
    dsimp only
    rw [Engine.evt_time, Engine.alwaysN_time]
  · dsimp only
    rw [Engine.evt_time, Engine.alwaysN_time]

theorem Engine.memUe_time (e : Engine) (m a : Nat) (patrol : Bool) : (e.memUe m a patrol).time = e.time := by
  unfold Engine.memUe
  rw [Engine.errRecord_time, Engine.fresh]
  dsimp only
  rw [Engine.evt_time, Engine.alwaysN_time]

theorem Engine.takeInject_time (e : Engine) (m : Nat) (ecc : Ecc) : (e.takeInject m ecc).2.time = e.time := by
  unfold Engine.takeInject
  split
  · dsimp only
    rw [Engine.count_time, Engine.put_time]
  · rfl

theorem Engine.checkRead_time (e : Engine) (m a n : Nat) (ecc : Ecc) : (e.checkRead m a n ecc).2.time = e.time := by
  have ht := e.takeInject_time m ecc
  unfold Engine.checkRead
  split
  · rfl
  · dsimp only
    split
    · rw [Engine.memUe_time, ht]
    · split
      · rw [Engine.memCe_time, ht]
      · rw [Engine.memUe_time, ht]
      · exact ht

theorem Engine.hostData_time (e : Engine) (h : HostRead) : (e.hostData h).2.time = e.time := by
  have ht := e.takeInject_time 6 .clean
  unfold Engine.hostData
  dsimp only
  split
  · rw [Engine.memUe_time, ht]
  · rw [Engine.memCe_time, ht]
  · rw [Engine.memUe_time, ht]
  · exact ht

/-- Reading a command's data leaves lattice time. -/
theorem Engine.cmdData_time {e e1 : Engine} {c : Cmd} {h : HostRead} {b : Bytes} (hd : e.cmdData c h = (some b, e1)) : e1.time = e.time := by
  unfold Engine.cmdData Engine.cmdDataN at hd
  split at hd
  · have ht := e.checkRead_time (localMem (c.src % 2 ^ 42)) (c.src % 2 ^ 42) c.len .clean
    dsimp only at hd
    split at hd
    · exact absurd (Prod.mk.inj hd).1 (by simp)
    · rename_i hr
      rw [hr] at ht
      rw [← (Prod.mk.inj hd).2]
      exact ht
  · have ht := e.hostData_time h
    split at hd
    · rename_i hr
      rw [hr] at ht
      rw [← (Prod.mk.inj hd).2]
      exact ht
    · exact absurd (Prod.mk.inj hd).1 (by simp)
    · exact absurd (Prod.mk.inj hd).1 (by simp)

/-! ### Counters -/

theorem countN_max {e : Engine} {off n : Nat} (h : 2 ^ 48 ≤ bitsOf (e.rd off) 47 0 + n) : (e.countN off n).rd off = 2 ^ 63 + (2 ^ 48 - 1) := by
  rw [Engine.rd_countN_same]
  exact if_neg (Nat.not_lt.mpr h)

theorem tallyN_max {e : Engine} {off n : Nat} (h : 2 ^ 40 ≤ bitsOf (e.rd off) 39 0 + n) : (e.tallyN off n).rd off = 2 ^ 63 + (2 ^ 40 - 1) := by
  rw [Engine.rd_tallyN_same]
  exact if_neg (Nat.not_lt.mpr h)

/-- Below its largest value a counter counts. -/
theorem satCount_below {c n : Nat} (hc : c < 2 ^ 64) (htop : bitsOf c 63 48 = 0) (h : bitsOf c 47 0 + n < 2 ^ 48) :
    satCount 48 c n = c + n := by
  have hlow : c < 2 ^ 48 := by
    rw [bitsOf_eq] at htop
    omega
  have hb : bitsOf c 47 0 = c := by
    rw [bitsOf_eq, pow_zero, Nat.div_one]
    exact Nat.mod_eq_of_lt hlow
  rw [hb] at h
  rw [satCount, hb, if_pos h, withBits, hb, pow_zero, Nat.mul_one, Nat.sub_self, Nat.zero_add, Nat.mul_one]
  exact Nat.mod_eq_of_lt h

/-- A cleared event counter reads its Reset value. -/
theorem find_filter_key {α : Type} {p : Nat → Bool} {k : Nat} : ∀ l : Tbl α,
    Tbl.find (l.filter fun x => p x.1) k = if p k then Tbl.find l k else none
  | [] => by simp [Tbl.find]
  | (o, w) :: l => by
    by_cases ho : k = o
    · subst ho
      by_cases hp : p k = true
      · simp [hp, Tbl.find]
      · simp [hp, find_filter_key l]
    · by_cases hp : p o = true
      · simp [hp, Tbl.find, ho, find_filter_key l]
      · simp [hp, Tbl.find, ho, find_filter_key l]

/-- CNT_CLEAR of a mask keeps the register at an offset. -/
def clearKeeps (m off : Nat) : Bool := match regFind off with | some (r, _) => !(r.kind == .event && bitOf m r.blk) | none => true

theorem clearKeeps_eq (m off : Nat) : clearKeeps m off = !((regFind off).any fun x => x.1.kind == .event && bitOf m x.1.blk) := by
  unfold clearKeeps
  cases regFind off <;> rfl

theorem Engine.clearEvents_rd (e : Engine) (m off : Nat) :
    (e.clearEvents m).rd off = if clearKeeps m off then e.rd off else (regReset off).toNat := by
  have hregs : (e.clearEvents m).regs = e.regs.filter fun x => clearKeeps m x.1 := rfl
  rw [Engine.rd, Tbl.get, hregs, find_filter_key]
  by_cases h : clearKeeps m off = true
  · rw [if_pos h, if_pos h]
    rfl
  · rw [if_neg h, if_neg h]
    rfl

/-! ### Traces -/

/-- The engine with a record in the region at an offset. -/
def Engine.recordAt (e : Engine) (o w : Nat) (r : Bytes) : Engine :=
  let e := (e.store (glnRegion + o) r).count (Reg.GLN_CNT 0)
  { e with glnKeep := { e.glnKeep with write := o + 32, wraps := e.glnKeep.wraps + w, lastWrite := e.time } }

theorem Engine.recordAt_spec (e : Engine) (o w : Nat) (r : Bytes) : (e.recordAt o w r).mem = Tbl.writeBytes e.mem (glnRegion + o) r ∧
    (e.recordAt o w r).glnKeep.write = o + 32 ∧ (e.recordAt o w r).glnKeep.wraps = e.glnKeep.wraps + w := by
  have hmem : (e.store (glnRegion + o) r).mem = Tbl.writeBytes e.mem (glnRegion + o) r := rfl
  have hkeep : (e.store (glnRegion + o) r).glnKeep = e.glnKeep := rfl
  unfold Engine.recordAt
  dsimp only
  rw [Engine.count_mem, Engine.count_glnKeep, hmem, hkeep]
  exact ⟨rfl, rfl, rfl⟩

/-- A record goes behind the last, while there is room. -/
theorem Engine.regionRecord_room {e : Engine} {r : Bytes} (hrun : e.gln.stopped = false) (hroom : e.glnKeep.write + 32 ≤ e.glnSize) :
    e.regionRecord r = e.recordAt e.glnKeep.write 0 r := by
  have hfull : decide (e.glnSize < e.glnKeep.write + 32) = false := decide_eq_false (Nat.not_lt.mpr hroom)
  unfold Engine.regionRecord
  dsimp only
  rw [hfull, hrun, Bool.false_and, Bool.or_false, if_neg (by decide), if_neg (by decide)]
  rfl

/-- A full region that wraps starts again behind its header. -/
theorem Engine.regionRecord_wraps {e : Engine} {r : Bytes} (hrun : e.gln.stopped = false) (hfull : e.glnSize < e.glnKeep.write + 32)
    (hmode : e.is Fld.GLN_TRACE_CFG_FULL_MODE = false) : e.regionRecord r = e.recordAt 4096 1 r := by
  unfold Engine.regionRecord
  dsimp only
  rw [decide_eq_true hfull, hrun, hmode, if_neg (by decide), if_pos rfl]
  rfl

theorem Engine.regionRecord_lost {e : Engine} {r : Bytes} (hfull : e.glnSize < e.glnKeep.write + 32)
    (hmode : e.is Fld.GLN_TRACE_CFG_FULL_MODE = true) : e.regionRecord r = e.glnLose := by
  unfold Engine.regionRecord
  dsimp only
  rw [decide_eq_true hfull, hmode, if_pos (by simp)]

/-- A core notes the context it samples. -/
def Engine.noteSample (e : Engine) (c i : Nat) : Engine := { e with gln := { e.gln with pcLast := Tbl.put e.gln.pcLast c i } }

/-- A core samples its next context. -/
def Engine.sampleCore (e : Engine) (c : Nat) : Engine :=
  match e.nextSample c with
  | none => e
  | some t => (e.noteSample c (t.id % 8192)).stage ((e.noteSample c (t.id % 8192)).pcRecord t) (e.noteSample c (t.id % 8192)).time

/-- A sample stages two records at most and changes no memory and no thread. -/
theorem Engine.sampleCore_spec (e : Engine) (c : Nat) : (e.sampleCore c).gln.pcAt = e.gln.pcAt ∧ (e.sampleCore c).ril = e.ril ∧
    (e.sampleCore c).mem = e.mem ∧ (e.sampleCore c).gln.staged ≤ e.gln.staged + 2 := by
  unfold Engine.sampleCore
  split
  · exact ⟨rfl, rfl, rfl, Nat.le_add_right _ _⟩
  · rename_i t _
    generalize (e.noteSample c (t.id % 8192)).pcRecord t = r
    generalize (e.noteSample c (t.id % 8192)).time = at_
    obtain ⟨-, hpc, hst⟩ := (e.noteSample c (t.id % 8192)).stage_gln r at_
    obtain ⟨hm, hr⟩ := (e.noteSample c (t.id % 8192)).stage_memRil r at_
    exact ⟨hpc, hr, hm, hst⟩

theorem Engine.sampleCores_spec (l : List Nat) (e : Engine) : (l.foldl Engine.sampleCore e).gln.pcAt = e.gln.pcAt ∧
    (l.foldl Engine.sampleCore e).ril = e.ril ∧ (l.foldl Engine.sampleCore e).mem = e.mem ∧
    (l.foldl Engine.sampleCore e).gln.staged ≤ e.gln.staged + 2 * l.length := by
  induction l generalizing e with
  | nil => exact ⟨rfl, rfl, rfl, Nat.le_add_right _ _⟩
  | cons c l ih =>
    obtain ⟨hpc, hr, hm, hst⟩ := ih (e.sampleCore c)
    obtain ⟨hpc', hr', hm', hst'⟩ := e.sampleCore_spec c
    rw [List.foldl_cons, List.length_cons]
    exact ⟨hpc.trans hpc', hr.trans hr', hm.trans hm', by omega⟩

theorem pcSample_due {e : Engine} (hen : e.is Fld.GLN_TRACE_CFG_EN = true) (hpc : e.is Fld.GLN_TRACE_CFG_PC_EN = true)
    (hat : e.gln.pcAt = none) (hcyc : e.cyc % 2 ^ e.get Fld.GLN_TRACE_CFG_PC_LOG2 = 0) :
    pcSample e = (List.range 256).foldl Engine.sampleCore { e with gln := { e.gln with pcAt := some e.cyc } } := by
  unfold pcSample
  rw [if_neg (by rw [hen, hpc, hcyc, hat]; simp)]
  rfl

/-! ### O55 -/

/-- Settles O55: a boundary touches only registers of the blocks that have tally counters or marks, so what is read around it is kept. -/
theorem countersTracesAndWaits : Obligations.CountersTracesAndWaits := by
  refine ⟨fun s hup hdue => ?_, fun s t trig hup hdue hoff hnum => ?_, fun s t trig i hup hdue hoff hnum hi hpend hcnt => ?_,
    fun s t trig hup hdue hon hnum hst => ?_, fun e off n hlt htop => ?_, fun e off n => countN_max, fun e off n => tallyN_max,
    fun s id h c b e1 rs hup hc hlen hsh hdst hloc hd hrs hroom => ?_, fun s id h c b e1 hup hc hlen hsh hdst hd hrs => ?_,
    fun s id c hup hc hm => ?_, fun e m off h => ?_, fun e m off h => ?_, fun s id c hup hc hle => ?_, fun s id c hup hc hlt => ?_,
    fun s hup hnone => ?_, fun s r rs hup hst hdest => ?_, fun e r hrun hroom _ => ?_,
    fun e r hrun hfull hmode => ?_, fun e r hfull hmode => ?_, fun s id m hup hm hen hdest => ?_,
    fun s id m hup hm hen => ?_, fun s hup hoff => ?_, fun s hup hen hpc hat hcyc => ?_, fun s hup hus => ?_,
    fun s hup hus hold => ?_, fun s w hup hus hw hsus hold => ?_, fun s id c hup hc hlen hdom => ?_,
    fun s id c hup hc hlen hdom hws => ?_⟩
  · refine (Does.engine (show exec _ s = execTallyBoundary s from rfl) hup).congr (g := fun e => e) ?_
    rw [tallyBoundary, hdue]
  · refine .engine (show exec _ s = execTallyBoundary s from rfl) hup ?_
    have hview := ((s.eng.stamped t).boundaryPast t).applyHome_boundaryView t
    obtain ⟨htime, hmem, hpkts⟩ := s.eng.latchTally_view t
    simp only [Engine.boundaryView, Prod.mk.injEq] at hview
    obtain ⟨vtime, vmem, vpkts, vkeep, vtrig⟩ := hview
    rw [State.onEng_eng, tallyBoundary_quiet hdue hnum hoff]
    exact ⟨congrArg GlnKeep.shadowT vkeep, congrArg GlnKeep.shadowTally vkeep, vtrig, vtime.trans htime, vmem.trans hmem,
      vpkts.trans hpkts⟩
  · refine .engine (show exec _ s = execTallyBoundary s from rfl) hup ?_
    obtain ⟨hk, hz⟩ := entcnt_tally i hi
    obtain ⟨hzero, hkeep⟩ := Engine.latchTally_tally t hk hz hcnt
    have hidle : ((s.eng.stamped t).boundaryPast t).is Fld.SHF_HOME_PEND = false :=
      (Engine.is_of_regs (Engine.boundaryPast_regs _ t) _).trans ((s.eng.stamped_is t _ (by decide) (by unfold latchBlock; decide)).trans hpend)
    rw [State.onEng_eng, tallyBoundary_quiet hdue hnum hoff, Engine.applyHome_idle hidle]
    refine ⟨?_, hkeep⟩
    rw [Engine.rd_of_regs (Engine.boundaryPast_regs _ t), Engine.stamped,
      Engine.rd_wr_other _ _ (by simp only [Reg.GLN_TALLY_TIME, Reg.CSC_ENTCNT]; omega),
      Engine.rd_wr_other _ _ (by simp only [Reg.GLN_TALLY_STAT, Reg.CSC_ENTCNT]; omega), hzero]
  · refine .engine (show exec _ s = execTallyBoundary s from rfl) hup ?_
    have hen : (s.eng.stamped t).is Fld.HIF_TALLY_EN = true :=
      (s.eng.stamped_is t _ (by decide) (by unfold latchBlock; decide)).trans hon
    have hring : (s.eng.stamped t).get Fld.HIF_TALLY_RING = s.eng.get Fld.HIF_TALLY_RING := by
      rw [Engine.get, Engine.get, s.eng.stamped_rd t (by decide) (by unfold latchBlock; decide)]
    have hk : s.eng.get Fld.HIF_TALLY_RING < 4096 := bitsOf_lt _ _ _
    have hstate := s.eng.stamped_ringState t hk
    rw [State.onEng_eng, tallyBoundary_due hdue hnum, Engine.tallyRecord_lost hen (by rw [hring, hstate]; exact hst), Engine.is, Engine.get,
      Engine.applyHome_rd _ _ (by decide), Engine.rd_of_regs (Engine.boundaryPast_regs _ t)]
    exact Engine.hifEvt_is (s.eng.stamped t) Fld.HIF_EVT_TALLY_LOST (by decide) (by decide)
  · rw [Engine.rd_countN_same, satCount_below (e.rd_lt off) htop hlt]
  · refine .engine (show exec _ s = execCntSnap id h s from rfl) hup ?_
    rw [State.onEng_eng, cntSnap, withCmd_some hc]
    dsimp only
    rw [if_neg (by simp [hlen, hdst, hsh]), hd]
    dsimp only
    rw [hrs]
    dsimp only
    rw [if_neg (by omega), hloc, if_pos rfl, hsh, decide_eq_false (by decide : ¬ (0 : Nat) = 1)]
    have htime : e1.time = s.eng.time :=
      (Engine.cmdData_time hd).trans (congrArg Prod.fst (Engine.started_ends s.eng c 335).slots)
    simp only [Bool.false_eq_true, if_false, Nat.mul_zero, Nat.add_zero, Nat.zero_add, show bit false = 0 from rfl]
    have hends := fun e : Engine => e.complete_ends c.id 0 (rs.map Prod.snd).sum 0 none 328
    refine ⟨((hends _).mem.trans (Engine.count_mem ..)).trans (Engine.store_mem ..), ?_⟩
    exact (congrArg Prod.fst (hends _).slots).trans htime
  · refine (Does.engine (show exec _ s = execCntSnap id h s from rfl) hup).congr ?_
    rw [cntSnap, withCmd_some hc]
    dsimp only
    rw [if_neg (by simp [hlen, hdst]; omega), hd]
    dsimp only
    rw [hrs]
  · refine (Does.engine (show exec _ s = execCntClear id s from rfl) hup).congr ?_
    rw [cntClear, withCmd_some hc]
    dsimp only
    rw [if_neg (by omega)]
  · rw [Engine.clearEvents_rd, clearKeeps_eq, h, if_neg (by decide)]
  · rw [Engine.clearEvents_rd, clearKeeps_eq, h, if_pos (by decide)]
  · refine (Does.engine (show exec _ s = execTraceFlush id s from rfl) hup).congr ?_
    rw [traceFlush, hc]
    dsimp only
    rw [if_neg (by omega), withCmd_some hc]
  · refine (Does.engine (show exec _ s = execTraceFlush id s from rfl) hup).congr (g := fun e => e) ?_
    rw [traceFlush, hc]
    dsimp only
    rw [if_pos hlt]
  · refine (Does.engine (show exec _ s = execTraceDrain s from rfl) hup).congr (g := fun e => e) ?_
    rw [traceDrain]
    exact if_pos (by rw [hnone]; rfl)
  · refine (Does.engine (show exec _ s = execTraceDrain s from rfl) hup).congr ?_
    have hdest' : (s.eng.unstage (rs.length + 1)).get Fld.GLN_TRACE_CFG_DEST = 0 := by
      rw [← hdest, Engine.get, Engine.get]
      exact congrArg (bitsOf · _ _) (Engine.rd_of_regs rfl _)
    rw [traceDrain, hst]
    dsimp only
    rw [if_neg (by simp), if_pos (by omega), List.length_cons, Engine.writeRecords, if_pos hdest']
  · rw [e.regionRecord_room hrun hroom]
    exact e.recordAt_spec _ 0 r
  · rw [e.regionRecord_wraps hrun hfull hmode]
    exact (e.recordAt_spec 4096 1 r).2
  · rw [Engine.regionRecord_lost hfull hmode, Engine.glnLose]
    refine ⟨?_, ?_, Engine.is_evt_same _ _ (by decide) (by decide)⟩
    · rw [Engine.evt_mem, Engine.count_mem]
    · rw [Engine.evt_glnKeep, Engine.count_glnKeep]
  · refine (Does.engine (show exec _ s = execTrace id s from rfl) hup).congr ?_
    rw [traceRecv, hm]
    dsimp only
    rw [if_pos ⟨hen, hdest⟩]
  · refine (Does.engine (show exec _ s = execTrace id s from rfl) hup).congr ?_
    rw [traceRecv, hm]
    dsimp only
    rw [if_neg (by rw [hen]; simp)]
  · refine (Does.engine (show exec _ s = execPcSample s from rfl) hup).congr (g := fun e => e) ?_
    rw [pcSample]
    exact if_pos (by rcases hoff with h | h <;> simp [h])
  · refine .engine (show exec _ s = execPcSample s from rfl) hup ?_
    rw [State.onEng_eng, pcSample_due hen hpc hat hcyc]
    have hcores : (List.range 256).length = 256 := List.length_range
    generalize List.range 256 = cores at hcores
    obtain ⟨hat', hril, hmem, hst⟩ := Engine.sampleCores_spec cores { s.eng with gln := { s.eng.gln with pcAt := some s.eng.cyc } }
    rw [hcores] at hst
    exact ⟨hat', hril, hmem, hst⟩
  · refine (Does.engine (show exec _ s = execHangCheck s from rfl) hup).congr (g := fun e => e) ?_
    rw [hangCheck]
    exact if_pos hus
  · refine (Does.engine (show exec _ s = execHangCheck s from rfl) hup).congr ?_
    have hnone : (s.eng.waitRegs.filter fun w => decide (s.eng.get Fld.GLN_HANG_US * usTicks < s.eng.time - w.at_)) = [] :=
      List.filter_eq_nil_iff.mpr (List.any_eq_false.mp hold)
    rw [hangCheck]
    dsimp only
    rw [if_neg hus, hnone]
    rfl
  · refine .engine (show exec _ s = execHangCheck s from rfl) hup ?_
    have hone : ([w].filter fun w => decide (s.eng.get Fld.GLN_HANG_US * usTicks < s.eng.time - w.at_)) = [w] :=
      List.filter_eq_self.mpr fun x hx => by rw [List.mem_singleton.mp hx]; exact decide_eq_true hold
    rw [State.onEng_eng, hangCheck]
    dsimp only
    rw [if_neg hus, hw, hone, hsus]
    have hnew : ([w].filter fun w => !List.contains ([] : List Nat) (w.waiter + 2 ^ 64 * w.res + 2 ^ 128 * w.at_)) = [w] := rfl
    rw [hnew, if_neg (by simp)]
    refine ⟨?_, Engine.is_evt_same _ _ (by decide) (by decide), ?_⟩
    · rw [Engine.rd_evt_other _ _ (by decide), Engine.rd_countN_same]
      exact congrArg (satCount 48 · 1) (Engine.rd_of_regs rfl _)
    · rw [Engine.evt_gln, Engine.countN_gln]
      rfl
  · refine (Does.engine (show exec _ s = execHangAnalyze id s from rfl) hup).congr ?_
    rw [hangAnalyze, hdom]
    dsimp only
    rw [if_pos rfl, withCmd_some hc, if_pos hlen]
  · refine (Does.engine (show exec _ s = execHangAnalyze id s from rfl) hup).congr ?_
    rw [hangAnalyze, hdom]
    dsimp only
    rw [if_pos rfl, withCmd_some hc, if_neg (by omega), hws, List.length_nil, Nat.zero_min]
    rfl

end Sys2Proof.Machine

/-!
PROOFS. Felgen links: flits, retry, retrain and training (O52).
-/
namespace Sys2Proof.Machine

/-! ### A port's book -/

theorem Engine.fport_setFport (e : Engine) (p : Nat) (f : FlgPort → FlgPort) : (e.setFport p f).fport p = f (e.fport p) :=
  Tbl.get_set_same _ _ _ _

theorem Engine.fport_congr {e e' : Engine} (h : e'.flg = e.flg) (p : Nat) : e'.fport p = e.fport p := by
  rw [Engine.fport, Engine.fport, h]

theorem Engine.get_of_rd {e e' : Engine} {f : Fld} (h : e'.rd f.off = e.rd f.off) : e'.get f = e.get f := by
  rw [Engine.get, Engine.get, h]

theorem Engine.get_of_regs {e e' : Engine} (h : e'.regs = e.regs) (f : Fld) : e'.get f = e.get f :=
  Engine.get_of_rd (Engine.rd_of_regs h _)

/-- A flit's header takes credits off those owed, and nothing else. -/
theorem Engine.flitHead_spec (e : Engine) (p vc cls kind first last nak seq : Nat) :
    (e.flitHead p vc cls kind first last nak seq).2.regs = e.regs ∧
    ∃ o, (e.flitHead p vc cls kind first last nak seq).2.fport p = { e.fport p with owed := o } := by
  unfold Engine.flitHead
  dsimp only
  split
  · exact ⟨rfl, _, rfl⟩
  · exact ⟨rfl, _, Engine.fport_setFport _ _ _⟩

/-- So do flits that are sent. -/
theorem Engine.sendFlits_spec (e : Engine) (p : Nat) (fs : List TxFlit) :
    (e.sendFlits p fs).regs = e.regs ∧ ∃ o, (e.sendFlits p fs).fport p = { e.fport p with owed := o } := by
  unfold Engine.sendFlits
  dsimp only
  refine List.foldlRecOn (motive := fun x : Engine => x.regs = e.regs ∧ ∃ o, x.fport p = { e.fport p with owed := o }) _ _ ?_
    fun x hx i _ => hx
  refine List.foldlRecOn (motive := fun r : Bytes × Engine => r.2.regs = e.regs ∧ ∃ o, r.2.fport p = { e.fport p with owed := o }) _ _
    ⟨rfl, _, rfl⟩ fun r hr f _ => ?_
  obtain ⟨hregs, o, ho⟩ := hr
  obtain ⟨hregs', o', ho'⟩ := r.2.flitHead_spec p f.flit.vc f.flit.cls f.kind (bit f.flit.first) (bit f.flit.last) (bit f.nak) f.seq
  exact ⟨hregs'.trans hregs, o', by rw [ho', ho]⟩

theorem Engine.setFport_regs (e : Engine) (p : Nat) (f : FlgPort → FlgPort) : (e.setFport p f).regs = e.regs := rfl

/-- A TRAIN record that is sent leaves registers, the replay buffer and the retrain. -/
theorem Engine.sendTrain_spec (e : Engine) (p : Nat) : (e.sendTrain p).regs = e.regs ∧
    ((e.sendTrain p).fport p).replay = (e.fport p).replay ∧ ((e.sendTrain p).fport p).retrain = (e.fport p).retrain := by
  unfold Engine.sendTrain Engine.sendCtrl
  obtain ⟨hregs, o, ho⟩ := e.sendFlits_spec p [⟨2, 0, false, ⟨0, 0, false, false, e.trainBody p⟩⟩]
  rw [Engine.setFport_regs, Engine.fport_setFport, hregs, ho]
  exact ⟨rfl, rfl, rfl⟩

/-! ### Flits received -/

/-- A port with the flits of a group taken in, each stamped at its start. -/
def Engine.flitsIn (e : Engine) (p t : Nat) (fs : List Bytes) : Engine :=
  fs.zipIdx.foldl (fun e (x : Bytes × Nat) => e.flitIn p (t - ceilDiv ((9 - x.2) * 2048) 45) x.1) e

theorem flitReceive_clean {e : Engine} {p frac : Nat} {g : Bytes} {fs : List Bytes} (hp : p < 8) (hlen : g.length = 2304)
    (hst : e.fstate p = 3) (hfs : groupFlits g = (fs, 0, false)) : flitReceive p frac g e =
      (e.flitsIn p (16 * e.time + frac % 16) fs).pump p (((e.flitsIn p (16 * e.time + frac % 16) fs).fport p).rxExp !=
        (e.fport p).rxExp) := by
  unfold flitReceive
  rw [if_neg (by simp [hlen, hst, hp]), hfs]
  rfl

/-- A good DATA flit on a port that is UP: its notices are taken, then its SEQ decides. -/
theorem Engine.flitIn_data {e e1 : Engine} {p stamp : Nat} {f : Bytes} (hcrc : crc64 (slice f 0 248) = leAt f 248 8)
    (hlow : leAt f 0 8 < 2 ^ 43) (hkind : bitsOf (leAt f 0 8) 4 3 = 1) (hst : e.fstate p = 3)
    (hn : e.flitNotices p (leAt f 0 8) = e1) : e.flitIn p stamp f =
      if e1.fcarries p (bitsOf (leAt f 0 8) 1 0) = false then e1
      else if bitsOf (leAt f 0 8) 19 8 = (e1.fport p).rxExp then
        ((((e1.setFport p fun q => { q with rxExp := (bitsOf (leAt f 0 8) 19 8 + 1) % 4096, discarding := false }).traceLink p 6 stamp
          (bitsOf (leAt f 0 8) 19 8) (bitsOf (leAt f 0 8) 1 0)).alwaysN (Reg.FLG_PCNT p 1) 1).acceptFlit p (bitsOf (leAt f 0 8) 1 0)
          (bitsOf (leAt f 0 8) 2 2) (bitOf (leAt f 0 8) 5) (bitOf (leAt f 0 8) 6) (slice f 8 240))
      else if ((e1.fport p).rxExp + 4096 - bitsOf (leAt f 0 8) 19 8) % 4096 ≤ 2048 ∨ (e1.fport p).discarding = true then e1
      else e1.sendNak p := by
  unfold Engine.flitIn
  dsimp only
  have hlive : (e.fstate p == 3 || e.fstate p == 4) = true := by rw [hst]; rfl
  rw [if_neg (by rw [hcrc, hkind, Nat.div_eq_of_lt hlow]; simp), if_pos hlive, hn, hkind, if_neg (by decide : ¬ (1 : Nat) = 2)]
  cases e1.fcarries p (bitsOf (leAt f 0 8) 1 0)
  · rw [if_pos (by simp), if_pos rfl]
  · rw [if_neg (by simp), if_neg (by decide : ¬ true = false)]

theorem Engine.flitIn_bad {e : Engine} {p stamp : Nat} {f : Bytes} (hcrc : crc64 (slice f 0 248) ≠ leAt f 248 8) (hst : e.fstate p = 3)
    (hrt : (e.fport p).retrain = none) : e.flitIn p stamp f = (e.count (Reg.FLG_PCNT p 4)).sendNak p := by
  unfold Engine.flitIn
  dsimp only
  rw [if_pos (.inl hcrc), if_pos (by rw [hst, hrt]; rfl)]

/-! ### Retrain -/

/-- A retrain books the credits that a channel-class was advertised as in transit. -/
def Engine.bookInTransit (p : Nat) (e : Engine) (k : Nat) : Engine :=
  e.wr (Reg.FLG_PORT_CREDIT p k) (2 ^ 32 * e.get (Fld.FLG_PORT_CREDIT_ADV p k) + 2 ^ 48 * e.get (Fld.FLG_PORT_CREDIT_ADV p k))

theorem Engine.bookInTransit_other (p : Nat) {off : Nat} (n : Nat) (e : Engine) (h : ∀ k < n, off ≠ Reg.FLG_PORT_CREDIT p k) :
    ((List.range n).foldl (Engine.bookInTransit p) e).rd off = e.rd off := by
  induction n with
  | zero => rfl
  | succ n ih =>
    rw [List.range_succ, List.foldl_concat, Engine.bookInTransit, Engine.rd_wr_other _ _ (h n (Nat.lt_succ_self n)),
      ih fun k hk => h k (Nat.lt_succ_of_lt hk)]

theorem Engine.bookInTransit_at (p : Nat) {k : Nat} (n : Nat) (e : Engine) (h : k < n) :
    ((List.range n).foldl (Engine.bookInTransit p) e).rd (Reg.FLG_PORT_CREDIT p k) =
      2 ^ 32 * e.get (Fld.FLG_PORT_CREDIT_ADV p k) + 2 ^ 48 * e.get (Fld.FLG_PORT_CREDIT_ADV p k) := by
  induction n with
  | zero => exact absurd h (Nat.not_lt_zero k)
  | succ n ih =>
    rw [List.range_succ, List.foldl_concat]
    obtain rfl | hne := eq_or_ne k n
    · have hsame : ((List.range k).foldl (Engine.bookInTransit p) e).get (Fld.FLG_PORT_CREDIT_ADV p k) =
          e.get (Fld.FLG_PORT_CREDIT_ADV p k) := Engine.get_of_rd (Engine.bookInTransit_other p k e fun i hi => by
            simp only [Fld.FLG_PORT_CREDIT_ADV, Reg.FLG_PORT_CREDIT]; omega)
      have hlt : e.get (Fld.FLG_PORT_CREDIT_ADV p k) < 2 ^ 9 := bitsOf_lt _ _ _
      rw [Engine.bookInTransit, Engine.rd_wr_same, hsame]
      exact Nat.mod_eq_of_lt (by omega)
    · rw [Engine.bookInTransit, Engine.rd_wr_other _ _ (by simp only [Reg.FLG_PORT_CREDIT]; omega)]
      exact ih (by omega)

/-- The engine with a retrain counted and its credits booked. -/
def Engine.creditsKept (e : Engine) (p : Nat) : Engine :=
  (List.range 8).foldl (Engine.bookInTransit p) ((e.count (Reg.FLG_PCNT p 7)).evt Fld.FLG_EVT_RETRAIN)

/-- A port's book as a retrain begins. -/
def FlgPort.retraining (q : FlgPort) (t : Nat) : FlgPort :=
  { q with retrain := some t, owed := [], nak := none, nakRun := 0, nakTimes := [],
           partOld := q.part.map fun (x : Nat × List Bytes) => (x.1, x.2.length), ctrl := q.ctrl.filter fun x => byteAt x.2 0 != 1 }

/-- The engine whose retrain has begun, before its record goes out. -/
def Engine.retrained (e : Engine) (p : Nat) : Engine :=
  ((e.creditsKept p).setFport p fun q => q.retraining (e.creditsKept p).cyc).unbuffer p

theorem Engine.startRetrain_eq (e : Engine) (p : Nat) : e.startRetrain p = (e.retrained p).sendTrain p := rfl

theorem Engine.retrained_rd (e : Engine) (p off : Nat) : (e.retrained p).rd off = (e.creditsKept p).rd off := by
  have hregs : (e.retrained p).regs = (e.creditsKept p).regs := by
    unfold Engine.retrained
    rfl
  exact Engine.rd_of_regs hregs off

theorem Engine.creditsKept_flg (e : Engine) (p : Nat) : (e.creditsKept p).flg = e.flg ∧ (e.creditsKept p).cyc = e.cyc := by
  unfold Engine.creditsKept
  constructor
  · rw [foldl_keeps (f := Engine.bookInTransit p) Engine.flg (fun _ _ => rfl), Engine.evt_flg, Engine.count_flg]
  · rw [foldl_keeps (f := Engine.bookInTransit p) Engine.cyc (fun _ _ => rfl), Engine.evt_cyc, Engine.count_cyc]

theorem Engine.unbuffer_fport (e : Engine) (p q : Nat) : (e.unbuffer p).fport q = e.fport q := rfl

theorem Engine.retrained_fport (e : Engine) (p : Nat) : (e.retrained p).fport p = (e.fport p).retraining e.cyc := by
  obtain ⟨hflg, hcyc⟩ := e.creditsKept_flg p
  rw [Engine.retrained, Engine.unbuffer_fport, Engine.fport_setFport, Engine.fport_congr hflg, hcyc]

/-- A retrain keeps the port's state and books ADVERTISED as INTRANSIT. -/
theorem Engine.startRetrain_spec (e : Engine) {p : Nat} (hp : p < 8) :
    ((e.startRetrain p).fport p).replay = (e.fport p).replay ∧ ((e.startRetrain p).fport p).retrain = some e.cyc ∧
    (e.startRetrain p).fstate p = e.fstate p ∧
    ∀ k < 8, (e.startRetrain p).rd (Reg.FLG_PORT_CREDIT p k) =
      2 ^ 32 * e.get (Fld.FLG_PORT_CREDIT_ADV p k) + 2 ^ 48 * e.get (Fld.FLG_PORT_CREDIT_ADV p k) := by
  obtain ⟨hregs, hreplay, hretrain⟩ := (e.retrained p).sendTrain_spec p
  rw [e.retrained_fport p] at hreplay hretrain
  rw [Engine.startRetrain_eq]
  refine ⟨hreplay, hretrain, ?_, fun k hk => ?_⟩
  · refine Engine.fstate_of_rd ?_
    rw [Engine.rd_of_regs hregs, Engine.retrained_rd, Engine.creditsKept, Engine.bookInTransit_other p 8 _ fun k hk => by
        simp only [Reg.FLG_PORT_STAT, Reg.FLG_PORT_CREDIT]; omega,
      Engine.rd_evt_other _ _ (by simp only [Reg.FLG_PORT_STAT, Fld.FLG_EVT_RETRAIN, Reg.FLG_EVT]; omega),
      Engine.rd_count_other _ (by simp only [Reg.FLG_PORT_STAT, Reg.FLG_PCNT]; omega)]
  · have hadv : ((e.count (Reg.FLG_PCNT p 7)).evt Fld.FLG_EVT_RETRAIN).get (Fld.FLG_PORT_CREDIT_ADV p k) =
        e.get (Fld.FLG_PORT_CREDIT_ADV p k) := by
      refine Engine.get_of_rd ?_
      rw [Engine.rd_evt_other _ _ (by simp only [Fld.FLG_PORT_CREDIT_ADV, Reg.FLG_PORT_CREDIT, Fld.FLG_EVT_RETRAIN, Reg.FLG_EVT]; omega),
        Engine.rd_count_other _ (by simp only [Fld.FLG_PORT_CREDIT_ADV, Reg.FLG_PORT_CREDIT, Reg.FLG_PCNT]; omega)]
    rw [Engine.rd_of_regs hregs, Engine.retrained_rd, Engine.creditsKept, Engine.bookInTransit_at p 8 _ hk, hadv]

/-- The four parts of a credit register that books `a` as advertised and in transit. -/
theorem inTransit_parts {a : Nat} (h : a < 2 ^ 9) : bitsOf (2 ^ 32 * a + 2 ^ 48 * a) 8 0 = 0 ∧ bitsOf (2 ^ 32 * a + 2 ^ 48 * a) 24 16 = 0 ∧
    bitsOf (2 ^ 32 * a + 2 ^ 48 * a) 40 32 = a ∧ bitsOf (2 ^ 32 * a + 2 ^ 48 * a) 56 48 = a := by
  simp only [bitsOf_eq]
  refine ⟨by omega, by omega, by omega, ?_⟩
  rw [Nat.add_comm, Nat.mul_add_div (by decide), Nat.div_eq_of_lt (by omega), Nat.add_zero]
  exact Nat.mod_eq_of_lt h

/-! ### Training -/

/-- One engine has the other's set-up of the lattice and of a port. -/
def Engine.SameSetup (p : Nat) (e e' : Engine) : Prop := ∀ off, off < 0xE00028 ∨ off = Reg.FLG_PORT_CFG p → e'.rd off = e.rd off

theorem Engine.trainReason_of_setup {e e' : Engine} {p : Nat} (h : e.SameSetup p e') (b : Bytes) : e'.trainReason p b = e.trainReason p b := by
  have hget : ∀ f : Fld, f.off < 0xE00028 ∨ f.off = Reg.FLG_PORT_CFG p → e'.get f = e.get f := fun f hf => Engine.get_of_rd (h _ hf)
  have hlat : ∀ d, e'.latSize d = e.latSize d := fun d => hget _ (.inl (by split <;> [decide; split <;> decide]))
  have hself : e'.selfId = e.selfId := hget _ (.inl (by decide))
  have hneigh : ∀ i r, e'.neighbour i r = e.neighbour i r := fun i r => by rw [Engine.neighbour, Engine.neighbour, hlat]
  have hcfg : e'.cfgHash = e.cfgHash := by
    rw [Engine.cfgHash, Engine.cfgHash, hlat, hlat, hlat, hget _ (.inl (by decide)), h _ (.inl (by decide))]
  unfold Engine.trainReason
  dsimp only
  rw [hget (Fld.FLG_PORT_CFG_ROLE p) (.inr rfl), hget Fld.FLG_VER_VMIN (.inl (by decide)), hget Fld.FLG_VER_VMAX (.inl (by decide)),
    hget Fld.FLG_BASIC_LATTICE_NAME (.inl (by decide)), hcfg, hlat, hneigh, hself]

theorem Engine.trainReason_le (e : Engine) (p : Nat) (b : Bytes) : e.trainReason p b ≤ 6 := by
  unfold Engine.trainReason
  dsimp only
  repeat' split
  all_goals omega

/-- A record that is booked writes credit registers only. -/
theorem Engine.bookFull_rd (e : Engine) (p : Nat) (b : Bytes) {off : Nat} (h : off < Reg.FLG_PORT_CREDIT p 0) :
    (e.bookFull p b).rd off = e.rd off :=
  foldl_keeps (fun e : Engine => e.rd off) (fun e k => Engine.rd_wr_other _ _ (by simp only [Reg.FLG_PORT_CREDIT] at h ⊢; omega)) _ _

theorem Engine.bookFull_flg (e : Engine) (p : Nat) (b : Bytes) : (e.bookFull p b).flg = e.flg := by
  unfold Engine.bookFull
  exact foldl_keeps Engine.flg (fun e k => Engine.wr_flg ..) _ _

theorem Engine.noteFar_flg (e : Engine) (p : Nat) (b : Bytes) : (e.noteFar p b).flg = e.flg := by
  unfold Engine.noteFar
  dsimp only
  rw [Engine.put_flg, Engine.put_flg, Engine.put_flg]

/-- A record shows in its port's status alone. -/
theorem Engine.noteFar_rd (e : Engine) (p : Nat) (b : Bytes) {off : Nat} (h : off ≠ Reg.FLG_PORT_STAT p) :
    (e.noteFar p b).rd off = e.rd off := by
  unfold Engine.noteFar
  dsimp only
  rw [Engine.rd_put_other _ _ _ h, Engine.rd_put_other _ _ _ h, Engine.rd_put_other _ _ _ h]

theorem Engine.noteFar_fstate (e : Engine) (p : Nat) (b : Bytes) : (e.noteFar p b).fstate p = e.fstate p := by
  unfold Engine.noteFar Engine.fstate
  dsimp only
  rw [Engine.get_put_other _ _ _ _ (.inr ⟨.inl (show 2 < 28 by decide), show 31 < 64 by decide, show 28 ≤ 31 by decide⟩),
    Engine.get_put_other _ _ _ _ (.inr ⟨.inl (show 2 < 24 by decide), show 26 < 64 by decide, show 24 ≤ 26 by decide⟩),
    Engine.get_put_other _ _ _ _ (.inr ⟨.inl (show 2 < 8 by decide), show 21 < 64 by decide, show 8 ≤ 21 by decide⟩)]

theorem Engine.noteFar_id (e : Engine) (p : Nat) (b : Bytes) :
    (e.noteFar p b).get (Fld.FLG_PORT_STAT_NEIGH_ID p) = leAt b 12 2 % 2 ^ 14 := by
  unfold Engine.noteFar
  dsimp only
  rw [Engine.get_put_other _ _ _ _ (.inr ⟨.inl (show 21 < 28 by decide), show 31 < 64 by decide, show 28 ≤ 31 by decide⟩),
    Engine.get_put_other _ _ _ _ (.inr ⟨.inl (show 21 < 24 by decide), show 26 < 64 by decide, show 24 ≤ 26 by decide⟩),
    Engine.get_put_same _ _ _ (by decide : 21 < 64) (by decide : 8 ≤ 21)]
  rfl

theorem Engine.noteFar_ver {e : Engine} {p : Nat} {b : Bytes} (h : e.trainReason p b = 0) :
    (e.noteFar p b).get (Fld.FLG_PORT_STAT_VER p) = min (byteAt b 4) (e.get Fld.FLG_VER_VMAX) % 2 ^ 4 := by
  have hsetup : e.SameSetup p ((e.put (Fld.FLG_PORT_STAT_NEIGH_ID p) (leAt b 12 2)).put (Fld.FLG_PORT_STAT_NEIGH_PORT p) (byteAt b 1)) :=
    fun off ho => by
      have hne : off ≠ Reg.FLG_PORT_STAT p := by
        simp only [Reg.FLG_PORT_STAT, Reg.FLG_PORT_CFG] at ho ⊢
        omega
      rw [Engine.rd_put_other _ _ _ hne, Engine.rd_put_other _ _ _ hne]
  unfold Engine.noteFar
  dsimp only
  rw [Engine.get_put_same _ _ _ (by decide : 31 < 64) (by decide : 28 ≤ 31), Engine.trainReason_of_setup hsetup, h, if_neg (by decide),
    Engine.get_of_rd (hsetup Fld.FLG_VER_VMAX.off (.inl (by decide)))]
  rfl

/-- The registers of a port that takes another state. -/
theorem Engine.setPortState_regs {e : Engine} {p st : Nat} (h : e.fstate p ≠ st) : (e.setPortState p st).regs =
    (if st = 4 then ((e.put (Fld.FLG_PORT_STAT_STATE p) st).evt Fld.FLG_EVT_PORT_CHANGE).evt Fld.FLG_EVT_QUARANTINE
      else (e.put (Fld.FLG_PORT_STAT_STATE p) st).evt Fld.FLG_EVT_PORT_CHANGE).regs := by
  rw [Engine.setPortState, if_neg h]
  rfl

/-- A port that takes another state shows it, and only that. -/
theorem Engine.setPortState_stat {e : Engine} {p st : Nat} (h : e.fstate p ≠ st) :
    (e.setPortState p st).rd (Reg.FLG_PORT_STAT p) = (e.put (Fld.FLG_PORT_STAT_STATE p) st).rd (Reg.FLG_PORT_STAT p) := by
  have hevt : Reg.FLG_PORT_STAT p ≠ Reg.FLG_EVT := by
    simp only [Reg.FLG_PORT_STAT, Reg.FLG_EVT]
    omega
  rw [Engine.rd_of_regs (Engine.setPortState_regs h)]
  split
  · rw [Engine.rd_evt_other _ _ hevt, Engine.rd_evt_other _ _ hevt]
  · rw [Engine.rd_evt_other _ _ hevt]

theorem Engine.setPortState_fstate {e : Engine} {p st : Nat} (h : e.fstate p ≠ st) : (e.setPortState p st).fstate p = st % 8 :=
  (Engine.fstate_of_rd (Engine.setPortState_stat h)).trans
    (Engine.get_put_same _ _ _ (show 2 < 64 by decide) (show 0 ≤ 2 by decide))

theorem Engine.setPortState_get {e : Engine} {p st : Nat} (h : e.fstate p ≠ st) {f : Fld} (hf : f.off = Reg.FLG_PORT_STAT p)
    (hlo : 2 < f.lo) : (e.setPortState p st).get f = e.get f := by
  refine Eq.trans (Engine.get_of_rd (hf ▸ Engine.setPortState_stat h)) ?_
  exact Engine.get_put_other _ _ _ _ (.inr ⟨.inr hlo, show 2 < 64 by decide, show 0 ≤ 2 by decide⟩)

theorem Engine.setPortState_quarantine {e : Engine} {p : Nat} (h : e.fstate p ≠ 4) :
    (e.setPortState p 4).is Fld.FLG_EVT_QUARANTINE = true := by
  rw [Engine.is_of_regs (Engine.setPortState_regs h), if_pos rfl, Engine.is_evt_same _ _ (by decide) (by decide)]

/-- A training port with what a record advertises and shows. -/
def Engine.recorded (e : Engine) (p : Nat) (b : Bytes) : Engine := (e.bookFull p b).noteFar p b

theorem Engine.recorded_fstate (e : Engine) (p : Nat) (b : Bytes) : (e.recorded p b).fstate p = e.fstate p := by
  rw [Engine.recorded, Engine.noteFar_fstate]
  exact Engine.fstate_of_rd (e.bookFull_rd p b (by simp only [Reg.FLG_PORT_STAT, Reg.FLG_PORT_CREDIT]; omega))

theorem Engine.recorded_ver {e : Engine} {p : Nat} {b : Bytes} (h : e.trainReason p b = 0) :
    (e.recorded p b).get (Fld.FLG_PORT_STAT_VER p) = min (byteAt b 4) (e.get Fld.FLG_VER_VMAX) % 2 ^ 4 := by
  have hsetup : e.SameSetup p (e.bookFull p b) := fun off ho => e.bookFull_rd p b (by
    simp only [Reg.FLG_PORT_CFG, Reg.FLG_PORT_CREDIT] at ho ⊢
    omega)
  rw [Engine.recorded, Engine.noteFar_ver ((Engine.trainReason_of_setup hsetup b).trans h),
    Engine.get_of_rd (hsetup Fld.FLG_VER_VMAX.off (.inl (by decide)))]

/-- A record on a training port: UP, or quarantine with the first reason. -/
theorem Engine.checkRecord_up {e : Engine} {p : Nat} {b : Bytes} (hst : e.fstate p = 2) (hr : e.trainReason p b = 0)
    (hq : byteAt b 14 = 0) : e.checkRecord p b = (e.recorded p b).setPortState p 3 := by
  have hst' := (e.recorded_fstate p b).trans hst
  rw [Engine.recorded] at hst'
  rw [Engine.checkRecord]
  simp only [hr, hq, hst, ne_eq, not_true_eq_false, if_false, if_true, hst']
  rfl

theorem Engine.checkRecord_quarantine {e : Engine} {p why : Nat} {b : Bytes} (hst : e.fstate p = 2) (hwhy : why ≠ 0)
    (h : (if e.trainReason p b ≠ 0 then e.trainReason p b else if byteAt b 14 ≠ 0 then 7 else 0) = why) :
    e.checkRecord p b = ((((e.recorded p b).setFport p fun q => { q with qreason := why }).put (Fld.FLG_PORT_STAT_REASON p) why).setPortState
      p 4) := by
  have hst' := (e.recorded_fstate p b).trans hst
  rw [Engine.recorded] at hst'
  rw [Engine.checkRecord, h, if_pos hst, if_pos hwhy, Engine.quarantine, if_neg (by rw [hst']; omega)]
  rfl

/-- A port in quarantine with its reason shown. -/
theorem Engine.quarantined_spec {e : Engine} {p why : Nat} (hst : e.fstate p = 2) (hwhy : why < 16) :
    ((((e.setFport p fun q => { q with qreason := why }).put (Fld.FLG_PORT_STAT_REASON p) why).setPortState p 4).fstate p = 4) ∧
    ((((e.setFport p fun q => { q with qreason := why }).put (Fld.FLG_PORT_STAT_REASON p) why).setPortState p 4).get
      (Fld.FLG_PORT_STAT_REASON p) = why) ∧
    ((((e.setFport p fun q => { q with qreason := why }).put (Fld.FLG_PORT_STAT_REASON p) why).setPortState p 4).is
      Fld.FLG_EVT_QUARANTINE = true) := by
  have hne : (((e.setFport p fun q => { q with qreason := why }).put (Fld.FLG_PORT_STAT_REASON p) why).fstate p) ≠ 4 := by
    have hsame : ((e.setFport p fun q => { q with qreason := why }).put (Fld.FLG_PORT_STAT_REASON p) why).fstate p = e.fstate p :=
      (Engine.get_put_other _ _ _ _ (.inr ⟨.inl (show 2 < 4 by decide), show 7 < 64 by decide, show 4 ≤ 7 by decide⟩)).trans
        (Engine.get_of_regs (Engine.setFport_regs e p _) _)
    rw [hsame, hst]
    decide
  refine ⟨Engine.setPortState_fstate hne, ?_, Engine.setPortState_quarantine hne⟩
  rw [Engine.setPortState_get hne rfl (show 2 < 4 by decide),
    Engine.get_put_same _ _ _ (show 7 < 64 by decide) (show 4 ≤ 7 by decide)]
  exact Nat.mod_eq_of_lt hwhy

/-- The record that a training port has received is checked. -/
theorem trainRecv_training {e e1 : Engine} {p stamp : Nat} {b : Bytes} (hst : e.fstate p = 2) (hrt : (e.fport p).retrain = none)
    (ht : e.takeCtrl p 1 = some ((stamp, b), e1)) : trainRecv p e = e1.checkRecord p b ∧ e1.regs = e.regs := by
  constructor
  · rw [trainRecv, if_neg (by simp [hrt, hst]), ht]
  · obtain ⟨f, hf⟩ := Engine.takeCtrl_some ht
    rw [hf, Engine.setFport_regs]

theorem Engine.trainReason_of_regs {e e' : Engine} (h : e'.regs = e.regs) (p : Nat) (b : Bytes) :
    e'.trainReason p b = e.trainReason p b := Engine.trainReason_of_setup (fun off _ => Engine.rd_of_regs h off) b

/-! ### Set-up -/

/-- What a change of EN does to the book of SYNCs. -/
def Engine.syncBook (e : Engine) (was : Bool) : Engine :=
  if !e.inLattice then (e.setFlg fun g => { g with synced := false, outRun := 0, inRun := 0 }).put Fld.FLG_TIME_STAT_SYNCED 0
  else if !was then e.setFlg fun g => { g with rspAt := e.cyc } else e

theorem Engine.suspectCheck_cases (e : Engine) (was : Bool) :
    e.suspectCheck was = e.syncBook was ∨ ∃ b, e.suspectCheck was = (e.syncBook was).setSuspect b := by
  have heq : e.suspectCheck was =
      if ((e.syncBook was).is Fld.FLG_TIME_CFG_ROOT || !(e.syncBook was).inLattice) = true then (e.syncBook was).setSuspect false
      else if (!(e.syncBook was).flg.synced) = true then (e.syncBook was).setSuspect true else e.syncBook was := rfl
  rw [heq]
  by_cases hroot : ((e.syncBook was).is Fld.FLG_TIME_CFG_ROOT || !(e.syncBook was).inLattice) = true
  · exact .inr ⟨false, if_pos hroot⟩
  · rw [if_neg hroot]
    by_cases hs : (!(e.syncBook was).flg.synced) = true
    · exact .inr ⟨true, if_pos hs⟩
    · exact .inl (if_neg hs)

theorem Engine.syncBook_rd (e : Engine) (was : Bool) {off : Nat} (h : off ≠ Reg.FLG_TIME_STAT) : (e.syncBook was).rd off = e.rd off := by
  have hset : ∀ f, (e.setFlg f).rd off = e.rd off := fun f => Engine.rd_of_regs rfl off
  unfold Engine.syncBook
  split
  · rw [Engine.rd_put_other _ _ _ h, hset]
  · split
    · exact hset _
    · rfl

theorem Engine.suspectCheck_rd (e : Engine) (was : Bool) {off : Nat} (h : off ≠ Reg.FLG_TIME_STAT) (h' : off ≠ Reg.FLG_EVT)
    (h'' : off ≠ Reg.FLG_CNT 7) : (e.suspectCheck was).rd off = e.rd off := by
  obtain heq | ⟨b, heq⟩ := e.suspectCheck_cases was
  · rw [heq, Engine.syncBook_rd _ _ h]
  · rw [heq, ((e.syncBook was).setSuspect_spec b).2.2.1 off h h' h'', Engine.syncBook_rd _ _ h]

theorem flgConfig_port {p v : Nat} {e : Engine} (hp : p < 8) :
    flgConfig (Reg.FLG_PORT_CFG p) v e = (e.portCfg p v).put Fld.FLG_PROFILE_PROFILE 7 := by
  have hfind : ∀ p < 8, ((List.range 8).find? fun q => Reg.FLG_PORT_CFG q == Reg.FLG_PORT_CFG p) = some p := by decide
  rw [flgConfig, if_neg (by simp only [Reg.FLG_PORT_CFG, Reg.FLG_ID]; omega), if_neg (by simp only [Reg.FLG_PORT_CFG, Reg.FLG_BASIC]; omega),
    if_neg (by simp only [Reg.FLG_PORT_CFG, Reg.FLG_USERHASH]; omega), hfind p hp]

/-- Writing the set-up a port has already does not restart it. -/
theorem flgConfig_same {p v : Nat} {e : Engine} (hp : p < 8) (h : e.rd (Reg.FLG_PORT_CFG p) = v % 16) :
    (flgConfig (Reg.FLG_PORT_CFG p) v e).fstate p = e.fstate p := by
  rw [flgConfig_port hp, Engine.portCfg, if_pos h]
  refine Engine.fstate_of_rd ?_
  rw [Engine.rd_put_other _ _ _ (by simp only [Reg.FLG_PORT_STAT, Fld.FLG_PROFILE_PROFILE, Reg.FLG_PROFILE]; omega),
    Engine.suspectCheck_rd _ _ (by simp only [Reg.FLG_PORT_STAT, Reg.FLG_TIME_STAT]; omega)
      (by simp only [Reg.FLG_PORT_STAT, Reg.FLG_EVT]; omega) (by simp only [Reg.FLG_PORT_STAT, Reg.FLG_CNT]; omega),
    Engine.rd_wr_other _ _ (by simp only [Reg.FLG_PORT_STAT, Reg.FLG_PORT_CFG]; omega)]

/-! ### O52 -/

/-- Settles O52: a good DATA flit acts by its SEQ, a retrain books the credits of each channel-class, and a record on a training port
leads to UP or quarantine. -/
theorem linksTrainAndRetry : Obligations.LinksTrainAndRetry := by
  refine ⟨fun s p frac g hup hno => ?_, fun s p frac g fs hup hp hlen hst hfs => ?_, fun e p stamp f hcrc hst hrt => ?_,
    fun e e1 p stamp f hcrc hlow hkind hst hn hcar hseq => ?_, fun e e1 p stamp f hcrc hlow hkind hst hn hcar hfar hdis => ?_,
    fun e e1 p stamp f hcrc hlow hkind hst hn hseq hnear => ?_, fun s p hup hnone => ?_, fun s p n hup hnak => ?_,
    fun s p hup hp hcan => ?_, fun s p hup hcan hrun => ?_, fun s p hup hrun hlen => ?_, fun s p t hup hrt hlate => ?_,
    fun s p t stamp b e1 hup hrt hat htake => ?_, fun s p hup hrt => ?_, fun s p hup hst hwant hcable => ?_, fun s p hup hno => ?_,
    fun s p hup hst hat => ?_, fun s p hup hat => ?_, fun s p hup hst hwant hat => ?_, fun s p hup hat => ?_,
    fun s p hup hst hrt hat => ?_, fun s p stamp b e1 hup hp hst hrt htake hr hq => ?_,
    fun s p stamp b e1 r hup hp hst hrt htake hr hne => ?_, fun s p stamp b e1 hup hp hst hrt htake hr hq => ?_,
    fun e p b => e.trainReason_le p b, fun s off v hup hpcie hpend => ?_, fun e v hid => ?_,
    fun e p v hp hsame _ => flgConfig_same hp hsame⟩
  · refine (Does.engine (show exec _ s = execFlitReceive p frac g s from rfl) hup).congr (g := fun e => e) ?_
    rw [flitReceive, if_pos (by rcases hno with h | h | h | h <;> simp [h]; omega)]
  · refine .engine (show exec _ s = execFlitReceive p frac g s from rfl) hup ?_
    rw [State.onEng_eng, flitReceive_clean hp hlen hst hfs]
    rfl
  · exact Engine.flitIn_bad hcrc hst hrt
  · rw [Engine.flitIn_data hcrc hlow hkind hst hn, if_neg (by simp [hcar]), if_pos hseq.symm]
  · have hne : bitsOf (leAt f 0 8) 19 8 ≠ (e1.fport p).rxExp := fun h => by
      rw [h, Nat.add_sub_cancel_left] at hfar
      omega
    rw [Engine.flitIn_data hcrc hlow hkind hst hn, if_neg (by simp [hcar]), if_neg hne, if_neg (by rw [hdis]; simp; omega)]
  · rw [Engine.flitIn_data hcrc hlow hkind hst hn]
    by_cases hcar : e1.fcarries p (bitsOf (leAt f 0 8) 1 0) = false
    · rw [if_pos hcar]
    · rw [if_neg hcar, if_neg (Ne.symm hseq), if_pos (.inl hnear)]
  · refine (Does.engine (show exec _ s = execNakReceive p s from rfl) hup).congr (g := fun e => e) ?_
    rw [nakReceive, hnone]
  · refine (Does.engine (show exec _ s = execNakReceive p s from rfl) hup).congr ?_
    rw [nakReceive, hnak]
    rfl
  · refine .engine (show exec _ s = execRetrainStart p true s from rfl) hup ?_
    obtain ⟨hreplay, hretrain, hst, hcredit⟩ := s.eng.startRetrain_spec hp
    rw [State.onEng_eng, retrainStart, if_pos ⟨hcan, .inl rfl⟩]
    refine ⟨hreplay, hretrain, hst, fun k hk => ?_⟩
    obtain ⟨hfree, hheld, hin, hadv⟩ := inTransit_parts (bitsOf_lt (s.eng.rd (Reg.FLG_PORT_CREDIT p k)) 56 48)
    refine ⟨?_, ?_, ?_, ?_⟩
    · exact (congrArg (bitsOf · 8 0) (hcredit k hk)).trans hfree
    · exact (congrArg (bitsOf · 24 16) (hcredit k hk)).trans hheld
    · exact (congrArg (bitsOf · 40 32) (hcredit k hk)).trans hin
    · exact (congrArg (bitsOf · 56 48) (hcredit k hk)).trans hadv
  · refine (Does.engine (show exec _ s = execRetrainStart p false s from rfl) hup).congr ?_
    rw [retrainStart]
    exact if_pos ⟨hcan, .inr (.inl hrun)⟩
  · refine (Does.engine (show exec _ s = execRetrainStart p false s from rfl) hup).congr (g := fun e => e) ?_
    have hmany := List.length_filter_le (fun t => decide (s.eng.cyc < t + 1250000)) (s.eng.fport p).nakTimes
    rw [retrainStart]
    refine if_neg fun h => ?_
    obtain h | h | h := h.2
    · exact absurd h (by decide)
    · omega
    · omega
  · refine (Does.engine (show exec _ s = execRetrainComplete p s from rfl) hup).congr ?_
    rw [retrainComplete, hrt]
    exact if_pos hlate
  · refine (Does.engine (show exec _ s = execRetrainComplete p s from rfl) hup).congr ?_
    rw [retrainComplete, hrt]
    dsimp only
    rw [if_neg (by omega), htake]
  · refine (Does.engine (show exec _ s = execRetrainComplete p s from rfl) hup).congr (g := fun e => e) ?_
    rw [retrainComplete, hrt]
  · refine (Does.engine (show exec _ s = execTrainingStart p s from rfl) hup).congr ?_
    rw [trainingStart, if_pos ⟨hst, hwant, hcable⟩, Engine.startTraining]
  · refine (Does.engine (show exec _ s = execTrainingStart p s from rfl) hup).congr (g := fun e => e) ?_
    rw [trainingStart, if_neg (by rcases hno with h | h <;> simp [h])]
  · refine (Does.engine (show exec _ s = execTrainingTimeout p s from rfl) hup).congr ?_
    rw [trainingTimeout, if_pos ⟨hst, hat⟩]
  · refine (Does.engine (show exec _ s = execTrainingTimeout p s from rfl) hup).congr (g := fun e => e) ?_
    rw [trainingTimeout, if_neg (by omega)]
  · refine (Does.engine (show exec _ s = execTrainingRetry p s from rfl) hup).congr ?_
    rw [trainingRetry, if_pos ⟨hst, hwant, hat⟩]
  · refine (Does.engine (show exec _ s = execTrainingRetry p s from rfl) hup).congr (g := fun e => e) ?_
    rw [trainingRetry, if_neg (by omega)]
  · refine (Does.engine (show exec _ s = execTrainResend p s from rfl) hup).congr ?_
    rw [trainResend, if_pos ⟨hst, by rw [hrt]; rfl, hat⟩]
  · refine .engine (show exec _ s = execTrain p s from rfl) hup ?_
    obtain ⟨hrun, hregs⟩ := trainRecv_training hst hrt htake
    have hst1 : e1.fstate p = 2 := (Engine.get_of_regs hregs _).trans hst
    have hr1 := (Engine.trainReason_of_regs hregs p b).trans hr
    have hne : (e1.recorded p b).fstate p ≠ 3 := by rw [e1.recorded_fstate p b, hst1]; decide
    rw [State.onEng_eng, hrun, Engine.checkRecord_up hst1 hr1 hq]
    refine ⟨Engine.setPortState_fstate hne, ?_, ?_⟩
    · rw [Engine.setPortState_get hne rfl (show 2 < 8 by decide), Engine.recorded, Engine.noteFar_id]
    · rw [Engine.setPortState_get hne rfl (show 2 < 28 by decide), Engine.recorded_ver hr1, Engine.get_of_regs hregs]
  · refine .engine (show exec _ s = execTrain p s from rfl) hup ?_
    obtain ⟨hrun, hregs⟩ := trainRecv_training hst hrt htake
    have hst1 : e1.fstate p = 2 := (Engine.get_of_regs hregs _).trans hst
    have hr1 := (Engine.trainReason_of_regs hregs p b).trans hr
    have hlt : r < 16 := by
      have := s.eng.trainReason_le p b
      omega
    rw [State.onEng_eng, hrun, Engine.checkRecord_quarantine hst1 hne (by rw [hr1, if_pos hne])]
    exact Engine.quarantined_spec ((e1.recorded_fstate p b).trans hst1) hlt
  · refine .engine (show exec _ s = execTrain p s from rfl) hup ?_
    obtain ⟨hrun, hregs⟩ := trainRecv_training hst hrt htake
    have hst1 : e1.fstate p = 2 := (Engine.get_of_regs hregs _).trans hst
    have hr1 := (Engine.trainReason_of_regs hregs p b).trans hr
    rw [State.onEng_eng, hrun, Engine.checkRecord_quarantine hst1 (why := 7) (by decide) (by rw [hr1, if_neg (by decide), if_pos hq])]
    obtain ⟨h1, h2, -⟩ := Engine.quarantined_spec (why := 7) ((e1.recorded_fstate p b).trans hst1) (by decide)
    exact ⟨h1, h2⟩
  · refine (Does.host (show exec _ s = execFlgConfigWrite off v s from rfl) hup hpcie).congr ?_
    rw [pendWrite, hpend, if_neg (by decide)]
  · rw [flgConfig, if_pos rfl, Engine.writeFlgId, hid, if_pos (by decide)]

end Sys2Proof.Machine

/-!
PROOFS. Accesses by the host: registers, BAR4, lattice time and partitions (O17).
-/
namespace Sys2Proof.Machine

/-! ### Writes of one register -/

/-- A module whose engine is up is past its resets and not in recovery. -/
theorem State.engineUp_spec {s : State} (h : s.engineUp = true) : s.eng.is Fld.CLK_RST_STAT_BUSY = false ∧ (s.stw.boot == .recovery) = false := by
  simp only [State.engineUp, Bool.and_eq_true, Bool.not_eq_true', bne_iff_ne] at h
  exact ⟨h.1.2, by simpa using h.2⟩

theorem State.bar0Up_of_up {s : State} (hup : s.engineUp = true) (hpcie : s.pcieUp = true) : s.bar0Up = true := by
  rw [State.bar0Up, hpcie, (State.engineUp_spec hup).1]
  rfl

/-- The row of GLB_SCRATCH. -/
def scratchRow : RegRow := ⟨0, 0x20, 0x8, 1, 0x8, 1, 64, 0xFFFFFFFFFFFFFFFF, 0x0, 0x0, 0x0, .setup⟩
/-- The row of GLB_EVT. -/
def glbEvtRow : RegRow := ⟨0, 0x2C, 0x8, 1, 0x8, 1, 32, 0x0, 0x1F, 0x0, 0x0, .setup⟩

theorem regWrite_scratch (v : Nat) (s : State) : regWrite 0x20 v s = .next (s.onEng fun e => e.plainWrite scratchRow 0x20 v) := rfl
theorem regWrite_glbEvt (v : Nat) (s : State) : regWrite 0x2C v s = .next (s.onEng fun e => e.plainWrite glbEvtRow 0x2C v) := rfl

/-- A write of a 64-bit register. -/
theorem registerWrite_long {s : State} {off v : Nat} (hup : s.engineUp = true) (hpcie : s.pcieUp = true)
    (hok : accessOk false off 8 = true) (hw : regWidth false off = some 64) (hlow : off < 0x140000) (hv : v < 2 ^ 64) :
    execRegisterWrite off (natLE 8 v) s = regWrite off v s := by
  have hlen : (natLE 8 v).length = 8 := length_natLE 8 v
  have hnat : leNat (natLE 8 v) = v := (leNat_natLE 8 v).trans (Nat.mod_eq_of_lt (by norm_num; omega))
  unfold execRegisterWrite
  rw [State.bar0Up_of_up hup hpcie, (State.engineUp_spec hup).2, hlen]
  dsimp only
  rw [hok, if_neg (by decide), if_neg (by decide), if_neg (by omega), if_neg (by omega), if_neg (by omega), barWrite,
    if_neg (by rw [hw]; simp), hnat]

/-- A write of a 32-bit register. -/
theorem registerWrite_short {s : State} {off v : Nat} (hup : s.engineUp = true) (hpcie : s.pcieUp = true)
    (hok : accessOk false off 4 = true) (hlow : off < 0x140000) (hv : v < 2 ^ 32) :
    execRegisterWrite off (natLE 4 v) s = regWrite off v s := by
  have hlen : (natLE 4 v).length = 4 := length_natLE 4 v
  have hnat : leNat (natLE 4 v) = v := (leNat_natLE 4 v).trans (Nat.mod_eq_of_lt (by norm_num; omega))
  unfold execRegisterWrite
  rw [State.bar0Up_of_up hup hpcie, (State.engineUp_spec hup).2, hlen]
  dsimp only
  rw [hok, if_neg (by decide), if_neg (by decide), if_neg (by omega), if_neg (by omega), if_neg (by omega), barWrite,
    if_neg (by rw [hlen]; simp), hnat]

theorem Engine.plainWrite_eq (e : Engine) (r : RegRow) (off v : Nat) :
    e.plainWrite r off v = e.wr off ((e.rd off &&& ((2 ^ 64 - 1) ^^^ (r.rw ||| (v &&& r.w1c)))) ||| (v &&& r.rw)) := rfl

/-- A scratch register takes what is written. -/
theorem Engine.plainWrite_scratch (e : Engine) {v : Nat} (hv : v < 2 ^ 64) : e.plainWrite scratchRow 0x20 v = e.wr 0x20 v := by
  have hrw : scratchRow.rw = 2 ^ 64 - 1 := rfl
  have hw1c : scratchRow.w1c = 0 := rfl
  rw [Engine.plainWrite_eq, hrw, hw1c, Nat.and_zero, Nat.or_zero, Nat.xor_self, Nat.and_zero, Nat.zero_or, Nat.and_two_pow_sub_one_eq_mod,
    Nat.mod_eq_of_lt hv]

/-- A written 1 clears an event bit. -/
theorem Engine.plainWrite_glbEvt (e : Engine) (v : Nat) {i : Nat} (hi : i < 4) :
    bitOf ((e.plainWrite glbEvtRow 0x2C v).rd 0x2C) i = (bitOf (e.rd 0x2C) i && !bitOf v i) := by
  have hrw : glbEvtRow.rw = 0 := rfl
  have hw1c : glbEvtRow.w1c = 2 ^ 5 - 1 := rfl
  rw [Engine.plainWrite_eq, Engine.rd_wr_same, hrw, hw1c, Nat.and_zero, Nat.or_zero, Nat.zero_or]
  simp only [bitOf_eq_testBit, Nat.testBit_mod_two_pow, Nat.testBit_and, Nat.testBit_xor, Nat.testBit_two_pow_sub_one]
  simp [show i < 64 by omega, show i < 5 by omega]

/-! ### BAR4 -/

/-- An access inside the window reaches the granary. -/
theorem bar4_granary {e : Engine} {off n : Nat} (hen : e.is Fld.HIF_BAR4_EN = true) (hroom : off + n ≤ 0x0C000000) :
    ¬ (e.is Fld.HIF_BAR4_EN = false ∨ localPopulated off n = false) := by
  have hpop : localPopulated off n = true := by
    rw [localPopulated, decide_eq_true hroom]
    rfl
  rw [hen, hpop]
  decide

theorem bar4Access_store {e : Engine} {off : Nat} {d : Bytes} (hen : e.is Fld.HIF_BAR4_EN = true) (hbase : e.get Fld.HIF_BAR4_BASE = 0)
    (hroom : off + d.length ≤ 0x0C000000) : bar4Access true off d e = e.store off d := by
  unfold bar4Access
  rw [hbase, Nat.zero_mul, Nat.zero_add, if_neg (bar4_granary hen hroom), if_pos rfl]

/-- With no poison and no injection a read delivers. -/
theorem Engine.checkRead_clean {e : Engine} (m a n : Nat) (hpoison : e.poison = []) (harm : e.is Fld.ERR_INJECT_ARMED = false) :
    e.checkRead m a n .clean = (false, e) := by
  have hnone : (protWords m a n).find? (fun w => decide (w ∈ e.poison)) = none :=
    List.find?_eq_none.mpr fun w _ => by simp [hpoison]
  unfold Engine.checkRead
  rw [Engine.takeInject_unarmed _ _ harm]
  dsimp only
  rw [hnone]
  split <;> rfl

theorem bar4Access_read {e : Engine} {off : Nat} {d : Bytes} (hen : e.is Fld.HIF_BAR4_EN = true) (hbase : e.get Fld.HIF_BAR4_BASE = 0)
    (hroom : off + d.length ≤ 0x0C000000) (hpoison : e.poison = []) (harm : e.is Fld.ERR_INJECT_ARMED = false) :
    bar4Access false off d e = e.emit (.readData (e.readMem off d.length) false) := by
  unfold bar4Access
  rw [hbase, Nat.zero_mul, Nat.zero_add, if_neg (bar4_granary hen hroom), if_neg (by decide), Engine.checkRead_clean _ _ _ hpoison harm]
  rfl

theorem Engine.hifEvt_mem (e : Engine) (f : Fld) : (e.hifEvt f).mem = e.mem := by
  unfold Engine.hifEvt
  split
  · rfl
  · unfold Engine.message
    split <;> rfl

theorem Engine.hifEvt_rd (e : Engine) (f : Fld) {off : Nat} (h : off ≠ f.off) : (e.hifEvt f).rd off = e.rd off := by
  unfold Engine.hifEvt
  split
  · rfl
  · rw [Engine.rd_of_regs (Engine.message_regs _ _), Engine.rd_evt_other _ _ h]

/-! ### Partitions -/

/-- A partition lies below 512 MiB. -/
theorem Engine.part_below (e : Engine) (i : Nat) : e.partBase i + e.partSize i ≤ 0x1FE00000 := by
  have hb := bitsOf_lt (e.rd Reg.GLB_PART_BASE) (8 * i + 7) (8 * i)
  have hs := bitsOf_lt (e.rd Reg.GLB_PART_LIVE) (8 * i + 7) (8 * i)
  rw [show 8 * i + 7 + 1 - 8 * i = 8 by omega] at hb hs
  rw [Engine.partBase, Engine.partSize]
  omega

theorem Engine.groupReset_ends (e : Engine) (g : Nat) : e.Ends (e.groupReset g) := by
  unfold Engine.groupReset
  generalize List.filter _ e.hif.cmds = l
  induction l generalizing e with
  | nil => exact .refl e
  | cons c l ih => exact (e.complete_ends c.id 0x22 0 0 none 328).trans (ih _)

theorem Tbl.get_clearRange_inside {t : Tbl Byte} {lo hi a : Nat} (h : lo ≤ a ∧ a < hi) : Tbl.get 0 (Tbl.clearRange t lo hi) a = 0 := by
  rw [Tbl.get, Tbl.clearRange, find_filter_key (p := fun k => !(decide (lo ≤ k) && decide (k < hi))), if_neg (by simp [h.1, h.2])]
  rfl

theorem Tbl.get_clearRange_outside {t : Tbl Byte} {lo hi a : Nat} (h : a < lo ∨ hi ≤ a) :
    Tbl.get 0 (Tbl.clearRange t lo hi) a = Tbl.get 0 t a := by
  rw [Tbl.get, Tbl.clearRange, find_filter_key (p := fun k => !(decide (lo ≤ k) && decide (k < hi))), if_pos (by simp; omega)]
  rfl

/-- Deleting the sheaves clears their partition and nothing above 512 MiB. -/
theorem Engine.deleteSheaves_spec (e : Engine) : e.deleteSheaves.shf.sheaves = [] ∧
    (∀ off < 0xF00000, e.deleteSheaves.rd off = e.rd off) ∧
    ∀ a, 0x20000000 ≤ a → Tbl.get 0 e.deleteSheaves.mem a = Tbl.get 0 e.mem a := by
  have hends := (e.zeroMem (e.partBase 1) (e.partSize 1)).groupReset_ends 3
  have hmem : e.deleteSheaves.mem = ((e.zeroMem (e.partBase 1) (e.partSize 1)).groupReset 3).mem := rfl
  have hregs : e.deleteSheaves.regs = ((e.zeroMem (e.partBase 1) (e.partSize 1)).groupReset 3).regs := rfl
  refine ⟨rfl, fun off ho => ?_, fun a ha => ?_⟩
  · rw [Engine.rd_of_regs hregs, hends.2 off (by simp only [Reg.GLN_CNT]; omega) (by simp only [Reg.GLN_EVT]; omega)]
    exact Engine.rd_of_regs rfl off
  · have hpart := e.part_below 1
    rw [hmem, hends.mem]
    exact Tbl.get_clearRange_outside (.inr (by omega))

theorem packSizes_lt (l : List Nat) (h : l.length = 6) : packSizes l < 2 ^ 64 := by
  have := leNat_lt (l.map fun x => BitVec.ofNat 8 x)
  rw [List.length_map, h] at this
  exact this.trans (by norm_num)

/-- The engine with the staged sizes live. -/
def Engine.sizesLive (e : Engine) : Engine :=
  (e.wr Reg.GLB_PART_LIVE (packSizes e.staged)).wr Reg.GLB_PART_BASE (packSizes (partBases e.staged))

/-- The engine whose granary has been cleared, with the sizes that follow from the partitions. -/
def Engine.cleared (e : Engine) (l : List Nat) : Engine :=
  ((((e.zeroMem 0 0x0C000000).wr Reg.SHF_LOFT 0).wr (Reg.SHF_CAP 2) 0).wr (Reg.SHF_CAP 0) (l.getD 1 0 * 8192)).put Fld.ITK_CELLS_TOTAL
    (l.getD 0 0 * 4096)

theorem Engine.applyParts_eq (e : Engine) : ∃ g, e.applyParts = { e.sizesLive.deleteSheaves.cleared e.staged with gln := g } := ⟨_, rfl⟩

theorem Engine.cleared_spec (e : Engine) (l : List Nat) : (e.cleared l).shf = e.shf ∧ (e.cleared l).mem = Tbl.clearRange e.mem 0 0x0C000000 ∧
    (e.cleared l).rd Reg.GLB_PART_LIVE = e.rd Reg.GLB_PART_LIVE := by
  unfold Engine.cleared
  refine ⟨?_, ?_, ?_⟩
  · rw [Engine.put_shf, Engine.wr_shf, Engine.wr_shf, Engine.wr_shf]
    rfl
  · rw [Engine.put_mem, Engine.wr_mem, Engine.wr_mem, Engine.wr_mem, Engine.zeroMem]
  · rw [Engine.rd_put_other _ _ _ (by decide), Engine.rd_wr_other _ _ (by decide), Engine.rd_wr_other _ _ (by decide),
      Engine.rd_wr_other _ _ (by decide)]
    exact Engine.rd_of_regs rfl _

theorem Engine.applyParts_spec (e : Engine) : e.applyParts.shf.sheaves = [] ∧ e.applyParts.rd Reg.GLB_PART_LIVE = packSizes e.staged ∧
    (∀ a, a < 0x0C000000 → Tbl.get 0 e.applyParts.mem a = 0) ∧
    ∀ a, 0x20000000 ≤ a → Tbl.get 0 e.applyParts.mem a = Tbl.get 0 e.mem a := by
  obtain ⟨g, hg⟩ := e.applyParts_eq
  obtain ⟨hshf, hmem, hlive⟩ := e.sizesLive.deleteSheaves.cleared_spec e.staged
  obtain ⟨hnone, hrd, hhigh⟩ := e.sizesLive.deleteSheaves_spec
  have hregs : e.applyParts.regs = (e.sizesLive.deleteSheaves.cleared e.staged).regs := by rw [hg]
  have hmem' : e.applyParts.mem = (e.sizesLive.deleteSheaves.cleared e.staged).mem := by rw [hg]
  refine ⟨?_, ?_, fun a ha => ?_, fun a ha => ?_⟩
  · rw [hg]
    exact (congrArg Shf.sheaves hshf).trans hnone
  · rw [Engine.rd_of_regs hregs, hlive, hrd _ (by decide), Engine.sizesLive, Engine.rd_wr_other _ _ (by decide), Engine.rd_wr_same]
    exact Nat.mod_eq_of_lt (packSizes_lt _ rfl)
  · rw [hmem', hmem, Tbl.get_clearRange_inside ⟨Nat.zero_le _, ha⟩]
  · rw [hmem', hmem, Tbl.get_clearRange_outside (.inr (by omega)), hhigh a ha]
    rw [Engine.sizesLive, Engine.wr_mem, Engine.wr_mem]

theorem partApplyComplete_busy {e : Engine} (h : e.is Fld.GLB_PART_STAT_BUSY = true) : partApplyComplete e =
    (((e.applyParts.put Fld.GLB_PART_STAT_BUSY 0).wr Reg.GLB_PEND
      (withBits ((e.applyParts.put Fld.GLB_PART_STAT_BUSY 0).rd Reg.GLB_PEND) 0 0 0)).evt Fld.GLB_EVT_PART_DONE).count (Reg.GLB_CNT 2) := by
  rw [partApplyComplete, if_neg (by simp [h])]

/-! ### O17 -/

/-- Settles O17: a register's row says what a write keeps, and a partition apply clears the granary alone. -/
theorem hostRegisterAccesses : Obligations.HostRegisterAccesses := by
  refine ⟨fun s v hup hpcie hv => ?_, fun s v i hup hpcie hv hi => ?_, fun s off w hup hpcie hbad => ?_,
    fun s off d hup hpcie hcap hen hoff hbase hroom => ?_, fun s off d hup hpcie hcap hen hbase hroom hpoison harm => ?_,
    fun s off d hup hpcie hcap hen hoff => ?_, fun s v hup hpcie hlat => ?_, fun s v hup hpcie hlat hroot => ?_,
    fun s hup hpcie hok => ?_, fun s hup hpcie hno => ?_, fun s hup hbusy _ => ?_⟩
  · refine .next ((show exec _ s = execRegisterWrite 0x20 (natLE 8 v) s from rfl).trans
      ((registerWrite_long hup hpcie (by decide) (by decide) (by decide) hv).trans (regWrite_scratch v s))) ?_
    rw [State.onEng_eng, Engine.plainWrite_scratch _ hv]
    refine ⟨?_, Engine.wr_mem .., fun off ho => Engine.rd_wr_other _ _ ho⟩
    rw [show Reg.GLB_SCRATCH = 0x20 from rfl, Engine.rd_wr_same, Nat.mod_eq_of_lt hv]
  · refine .next ((show exec _ s = execRegisterWrite 0x2C (natLE 4 v) s from rfl).trans
      ((registerWrite_short hup hpcie (by decide) (by decide) hv).trans (regWrite_glbEvt v s))) ?_
    exact s.eng.plainWrite_glbEvt v hi
  · have hrun : ¬ (!s.bar0Up || accessOk (s.stw.boot == .recovery) off w) = true := by
      rw [State.bar0Up_of_up hup hpcie, (State.engineUp_spec hup).2, hbad]
      decide
    exact ⟨congrArg Host.Outcome.next (if_neg hrun), congrArg Host.Outcome.next (if_neg hrun)⟩
  · refine .host (show exec _ s = execBar4Access true off d s from rfl) hup hpcie ?_
    rw [State.onEng_eng, if_neg (by rw [hcap]; simp; omega), bar4Access_store hen hbase hroom]
    refine ⟨?_, rfl, fun a ha => ?_⟩
    · rw [Engine.readMem, Engine.store_mem, Tbl.readBytes_writeBytes]
    · rw [Engine.readMem, Engine.readMem, Tbl.readBytes, Tbl.readBytes, List.range_one, List.map_singleton, List.map_singleton, Nat.add_zero,
        Engine.store_other _ _ _ _ ha]
  · refine (Does.host (show exec _ s = execBar4Access false off d s from rfl) hup hpcie).congr ?_
    rw [if_neg (by rw [hcap]; simp; omega), bar4Access_read hen hbase hroom hpoison harm]
  · refine .host (show exec _ s = execBar4Access true off d s from rfl) hup hpcie ?_
    rw [State.onEng_eng, if_neg (by rw [hcap]; simp; omega), bar4Access, if_pos (.inl hen)]
    dsimp only
    rw [if_pos rfl]
    refine ⟨?_, ?_, Engine.hifEvt_is _ _ (by decide) (by decide)⟩
    · rw [Engine.hifEvt_mem, Engine.count_mem]
    · rw [Engine.hifEvt_rd _ _ (by decide), Engine.rd_count_same]
  · refine .host (show exec _ s = execGlbTimeSet v s from rfl) hup hpcie ?_
    rw [State.onEng_eng, glbTimeSet, if_pos (by rw [hlat]; simp)]
    refine ⟨?_, ?_, ?_⟩
    · rw [Engine.count_time, Engine.evt_time, Engine.put_time, Engine.setTime_time, Nat.mod_mod]
    · rw [Engine.is_count_other _ _ (by decide), Engine.is_evt_other _ _ _ (by decide), Engine.is_put_same _ _ _ (by decide)]
      rfl
    · rw [Engine.is_count_other _ _ (by decide), Engine.is_evt_same _ _ (by decide) (by decide)]
  · refine (Does.host (show exec _ s = execGlbTimeSet v s from rfl) hup hpcie).congr ?_
    rw [glbTimeSet, if_neg (by rw [hlat, hroot]; decide)]
  · refine (Does.host (show exec _ s = execPartApply 0x41600001 s from rfl) hup hpcie).congr ?_
    rw [partApply, if_neg (by decide), hok]
    rfl
  · refine (Does.host (show exec _ s = execPartApply 0x41600001 s from rfl) hup hpcie).congr ?_
    rw [partApply, if_neg (by decide)]
    exact if_pos hno
  · refine .engine (show exec _ s = execPartApplyComplete s from rfl) hup ?_
    obtain ⟨hshf, hlive, hlow, hhigh⟩ := s.eng.applyParts_spec
    rw [State.onEng_eng, partApplyComplete_busy hbusy]
    refine ⟨?_, ?_, ?_, ?_, fun a ha => ?_, fun a ha => ?_⟩
    · rw [Engine.is_count_other _ _ (by decide), Engine.is_evt_other _ _ _ (by decide), Engine.is_wr_other _ _ _ (by decide),
        Engine.is_put_same _ _ _ (by decide)]
      rfl
    · rw [Engine.rd_count_other _ (by decide), Engine.rd_evt_other _ _ (by decide), Engine.rd_wr_same,
        Nat.mod_eq_of_lt (withBits_lt _ _ _ _ 64 (Engine.rd_lt _ _) (by decide) le_rfl), bitOf_withBits_same]
      rfl
    · rw [Engine.rd_count_other _ (by decide), Engine.rd_evt_other _ _ (by decide), Engine.rd_wr_other _ _ (by decide),
        Engine.rd_put_other _ _ _ (by decide), hlive]
    · rw [Engine.count_shf, Engine.evt_shf, Engine.wr_shf, Engine.put_shf, hshf]
    · rw [Engine.count_mem, Engine.evt_mem, Engine.wr_mem, Engine.put_mem, hlow a ha]
    · rw [Engine.count_mem, Engine.evt_mem, Engine.wr_mem, Engine.put_mem, hhigh a ha]

end Sys2Proof.Machine

/-!
PROOFS. Field ports: UP, LINK and set-up (O20).
-/
namespace Sys2Proof.Machine

/-! ### Discarding a port's queued frames -/

/-- Memory, and the registers below the port counters, as they were. -/
def Engine.SetupKept (e e' : Engine) : Prop := e'.mem = e.mem ∧ ∀ off, off < 0x210000 → e'.rd off = e.rd off

theorem Engine.SetupKept.refl (e : Engine) : e.SetupKept e := ⟨rfl, fun _ _ => rfl⟩

theorem Engine.SetupKept.trans {e e' e'' : Engine} (h : e.SetupKept e') (h' : e'.SetupKept e'') : e.SetupKept e'' :=
  ⟨h'.1.trans h.1, fun off ho => (h'.2 off ho).trans (h.2 off ho)⟩

theorem Engine.SetupKept.of_regs {e e' : Engine} (hmem : e'.mem = e.mem) (hregs : e'.regs = e.regs) : e.SetupKept e' :=
  ⟨hmem, fun off _ => Engine.rd_of_regs hregs off⟩

theorem Engine.count_setupKept (e : Engine) {off : Nat} (h : 0x210000 ≤ off) : e.SetupKept (e.count off) :=
  ⟨e.count_mem off, fun _ ho => e.rd_count_other (by omega)⟩

theorem Engine.put_setupKept (e : Engine) {f : Fld} (v : Nat) (h : 0x210000 ≤ f.off) : e.SetupKept (e.put f v) :=
  ⟨e.put_mem f v, fun _ ho => e.rd_put_other f v (by omega)⟩

theorem Engine.evt_setupKept (e : Engine) {f : Fld} (h : 0x210000 ≤ f.off) : e.SetupKept (e.evt f) :=
  ⟨e.evt_mem f, fun _ ho => e.rd_evt_other f (by omega)⟩

theorem Engine.foldl_setupKept {α : Type} {f : Engine → α → Engine} (h : ∀ (e : Engine) a, e.SetupKept (f e a)) (l : List α) (e : Engine) :
    e.SetupKept (l.foldl f e) := by
  induction l generalizing e with
  | nil => exact .refl e
  | cons a l ih => exact (h e a).trans (ih _)

theorem tagReg_high (t : Nat) : 0x210000 ≤ (Fld.SLC_TXQ_TAG_F t).off := by
  show 0x210000 ≤ 0xC10028 + 0x40 * t
  omega

theorem Engine.setTxq_setupKept (e : Engine) (t : Nat) (g : TxQ → TxQ) : e.SetupKept (e.setTxq t g) := .of_regs rfl rfl

theorem Engine.setPkt_setupKept (e : Engine) (id : Nat) (g : Pkt → Pkt) : e.SetupKept (e.setPkt id g) := .of_regs rfl rfl

theorem Engine.retagged_setupKept (e : Engine) (t v : Nat) (g : TxQ → TxQ) : e.SetupKept ((e.put (Fld.SLC_TXQ_TAG_F t) v).setTxq t g) :=
  (e.put_setupKept v (tagReg_high t)).trans (Engine.setTxq_setupKept _ t g)

/-- A new head writes its tag, and counts a late launch. -/
theorem Engine.txRetag_setupKept (e : Engine) (t : Nat) : e.SetupKept (e.txRetag t) := by
  unfold Engine.txRetag
  split
  · exact e.put_setupKept 0 (tagReg_high t)
  next =>
    dsimp only
    split
    · exact (e.retagged_setupKept t _ _).trans ((Engine.count_setupKept _ (by decide)).trans (Engine.evt_setupKept _ (by decide)))
    · exact e.retagged_setupKept t _ _

theorem Engine.txTake_setupKept (e : Engine) (t : Nat) (src : TxSrc) : e.SetupKept (e.txTake t src) := by
  unfold Engine.txTake
  dsimp only
  split
  · exact (e.setTxq_setupKept t _).trans (Engine.txRetag_setupKept _ t)
  · exact e.setTxq_setupKept t _

theorem Engine.settle_setupKept (e : Engine) (id : Nat) : e.SetupKept (e.settle id) := by
  obtain ⟨ps, hps⟩ := e.settle_eq id
  rw [hps]
  exact .of_regs rfl rfl

theorem Engine.ends_setupKept (e : Engine) (c : Cmd) (st res fl : Nat) (stamp : Option Nat) (n : Nat) :
    e.SetupKept (e.ends c st res fl stamp n) := .of_regs rfl rfl

/-- A command that ends as REFUSED leaves no trace record. -/
theorem Engine.finish_refused_setupKept (e : Engine) (id : Nat) : e.SetupKept (e.finish id 0x20) := by
  unfold Engine.finish Engine.complete
  split
  · exact .refl e
  next c _ =>
    dsimp only
    rw [if_neg (by simp)]
    exact Engine.ends_setupKept _ _ _ _ _ _ _

theorem Engine.dropEmit_setupKept (e : Engine) (es : List Emit) : e.SetupKept { e with slc := { e.slc with emits := es } } :=
  .of_regs rfl rfl

theorem Engine.txDiscard_setupKept (e : Engine) (t : Nat) (f : TxFrame) : e.SetupKept (e.txDiscard t f) := by
  have hcount : e.SetupKept ((e.txTake t f.src).count (Reg.ITK_PCNT (e.txPortOf t) 14)) :=
    (e.txTake_setupKept t f.src).trans (Engine.count_setupKept _ (by
      show 0x210000 ≤ 0x210000 + 0x100 * e.txPortOf t + 0x8 * 14
      omega))
  unfold Engine.txDiscard
  dsimp only
  split
  · exact hcount.trans ((Engine.setPkt_setupKept _ _ _).trans (Engine.settle_setupKept _ _))
  · exact hcount.trans ((Engine.dropEmit_setupKept _ _).trans (Engine.finish_refused_setupKept _ _))

theorem Engine.txFlush_setupKept (e : Engine) (p : Nat) : e.SetupKept (e.txFlush p) :=
  Engine.foldl_setupKept (fun _ t => Engine.foldl_setupKept (fun e f => e.txDiscard_setupKept t f) _ _) _ e

/-! ### LINK -/

/-- LINK reads what its conditions give; beside it only the intake's events change below the port counters. -/
theorem Engine.relink_spec (e : Engine) (p : Nat) (hp : p < 32) : (e.relink p).is (Fld.ITK_PORT_STAT_LINK p) = e.linkNow p ∧
    (e.relink p).mem = e.mem ∧
    ∀ off, off < 0x210000 → off ≠ Reg.ITK_PORT_STAT p → off ≠ Reg.ITK_EVT → (e.relink p).rd off = e.rd off := by
  have hstat : Reg.ITK_PORT_STAT p < 0x210000 ∧ Reg.ITK_PORT_STAT p ≠ Reg.ITK_EVT := by
    show 0x200108 + 0x40 * p < 0x210000 ∧ 0x200108 + 0x40 * p ≠ 0x200010
    omega
  unfold Engine.relink
  dsimp only
  split
  next hsame => exact ⟨hsame, rfl, fun _ _ _ _ => rfl⟩
  next =>
    have hlink : ∀ l, ((e.put (Fld.ITK_PORT_STAT_LINK p) (bit l)).evt Fld.ITK_EVT_LINK_CHANGE).is (Fld.ITK_PORT_STAT_LINK p) = l := fun l => by
      rw [Engine.is_evt_other _ _ _ (.inl hstat.2), Engine.is_put_same _ _ _ ⟨show 1 < 64 by decide, rfl⟩]
      cases l <;> rfl
    have hmem : ((e.put (Fld.ITK_PORT_STAT_LINK p) (bit (e.linkNow p))).evt Fld.ITK_EVT_LINK_CHANGE).mem = e.mem := by
      rw [Engine.evt_mem, Engine.put_mem]
    have hrd : ∀ off, off ≠ Reg.ITK_PORT_STAT p → off ≠ Reg.ITK_EVT →
        ((e.put (Fld.ITK_PORT_STAT_LINK p) (bit (e.linkNow p))).evt Fld.ITK_EVT_LINK_CHANGE).rd off = e.rd off := fun off h h' => by
      rw [Engine.rd_evt_other _ _ h', Engine.rd_put_other _ _ _ h]
    split
    · exact ⟨hlink _, hmem, fun off _ => hrd off⟩
    · obtain ⟨hm, hr⟩ := Engine.txFlush_setupKept
        ((e.put (Fld.ITK_PORT_STAT_LINK p) (bit (e.linkNow p))).evt Fld.ITK_EVT_LINK_CHANGE) p
      refine ⟨?_, hm.trans hmem, fun off ho h h' => (hr off ho).trans (hrd off h h')⟩
      rw [Engine.is, Engine.get_of_rd (hr _ hstat.1)]
      exact hlink _

/-- A port's UP is untouched by what its LINK does. -/
theorem Engine.relink_up (e : Engine) (p q : Nat) (hp : p < 32) (hq : q < 32) :
    (e.relink p).get (Fld.ITK_PORT_CTRL_UP q) = e.get (Fld.ITK_PORT_CTRL_UP q) := by
  obtain ⟨-, -, hrd⟩ := e.relink_spec p hp
  refine Engine.get_of_rd (hrd _ ?_ ?_ ?_)
  · show 0x200100 + 0x40 * q < 0x210000
    omega
  · show 0x200100 + 0x40 * q ≠ 0x200108 + 0x40 * p
    omega
  · show 0x200100 + 0x40 * q ≠ 0x200010
    omega

theorem Engine.cutFrame_idle {e : Engine} {p : Nat} (h : (e.rxOf p).cur = none) (d : Bytes) (st : Nat) : e.cutFrame p d st = e := by
  rw [Engine.cutFrame, h]

theorem Engine.rxOf_setRx (e : Engine) (p : Nat) (f : Rx → Rx) : (e.setRx p f).rxOf p = f (e.rxOf p) := by
  rw [Engine.rxOf, Engine.setRx, Tbl.get_set_same]

/-! ### PRESENT and SPEED -/

/-- What a sub-port shows of the breakout. -/
def Engine.showPort (c : Nat) (e : Engine) (s : Nat) : Engine :=
  (e.put (Fld.ITK_PORT_STAT_PRESENT (4 * c + s)) (bit (e.present (4 * c + s)))).put (Fld.ITK_PORT_STAT_SPEED (4 * c + s))
    (if e.present (4 * c + s) then e.speed (4 * c + s) else 0)

theorem Engine.showBreakout_eq (e : Engine) (c : Nat) : e.showBreakout c = (List.range 4).foldl (Engine.showPort c) e := rfl

theorem Engine.showPort_rd (e : Engine) {c s off : Nat} (h : off ≠ Reg.ITK_PORT_STAT (4 * c + s)) : (e.showPort c s).rd off = e.rd off := by
  rw [Engine.showPort, Engine.rd_put_other _ _ _ h, Engine.rd_put_other _ _ _ h]

theorem cageReg_ne_statReg (c p : Nat) (hc : c < 8) : Reg.ITK_CAGE_CFG c ≠ Reg.ITK_PORT_STAT p := by
  show 0x200080 + 0x4 * c ≠ 0x200108 + 0x40 * p
  omega

theorem Engine.present_of_rd {e e' : Engine} {p : Nat} (h : e'.rd (Reg.ITK_CAGE_CFG (p / 4)) = e.rd (Reg.ITK_CAGE_CFG (p / 4))) :
    e'.present p = e.present p := by
  rw [Engine.present, Engine.present, Engine.subPorts, Engine.subPorts,
    Engine.get_of_rd (f := Fld.ITK_CAGE_CFG_BREAKOUT (p / 4)) h]

theorem Engine.showBreakout_cage (e : Engine) (c c' : Nat) (hc : c' < 8) :
    (e.showBreakout c).rd (Reg.ITK_CAGE_CFG c') = e.rd (Reg.ITK_CAGE_CFG c') :=
  foldl_keeps (f := Engine.showPort c) (fun e => e.rd (Reg.ITK_CAGE_CFG c')) (fun e _ => e.showPort_rd (cageReg_ne_statReg _ _ hc)) _ e

theorem Engine.present_showPort (e : Engine) {c s p : Nat} (hp : p < 32) : (e.showPort c s).present p = e.present p :=
  Engine.present_of_rd (e.showPort_rd (cageReg_ne_statReg _ _ (by omega)))

/-- PRESENT shows each sub-port of the cage as the breakout gives it. -/
theorem Engine.showBreakout_present (e : Engine) {c k : Nat} (hc : c < 8) (hk : k < 4) :
    (e.showBreakout c).is (Fld.ITK_PORT_STAT_PRESENT (4 * c + k)) = (e.showBreakout c).present (4 * c + k) := by
  have hp : 4 * c + k < 32 := by omega
  rw [e.showBreakout_eq]
  refine foldl_range_at (P := fun x : Engine => x.is (Fld.ITK_PORT_STAT_PRESENT (4 * c + k)) = x.present (4 * c + k)) hk
    (fun x => ?_) (fun x i hi hx => ?_) e
  · rw [x.present_showPort hp, Engine.showPort,
      Engine.is_put_other _ _ _ _ (.inr ⟨.inl (show 0 < 2 by decide), show 3 < 64 by decide, show 2 ≤ 3 by decide⟩),
      Engine.is_put_same _ _ _ ⟨show 0 < 64 by decide, rfl⟩]
    cases x.present (4 * c + k) <;> rfl
  · rw [x.present_showPort hp, ← hx, Engine.is, Engine.is, Engine.get_of_rd (x.showPort_rd ?_)]
    show 0x200108 + 0x40 * (4 * c + k) ≠ 0x200108 + 0x40 * (4 * c + i)
    omega

/-! ### O20 -/

/-- Settles O20: what a port's registers show follows from its conditions, whatever frames a lost link discards. -/
theorem portsFollowTheirRules : Obligations.PortsFollowTheirRules := by
  refine ⟨fun s p hup hpcie hpend hp hdown hok => ?_, fun s p hup hpcie hpend hp hdown hno => ?_,
    fun s p d hup hpcie hpend hp hlive hcur => ?_, fun s p a hup hp => ?_, fun s p v hup hpcie hpend hp hdown hmode hlo hhi => ?_,
    fun s p v hup hpcie hpend hp hbad => ?_, fun s c v hup hpcie hpend hc hv hdown => ?_, fun s c k v hup hpcie hpend hc hk hlive => ?_,
    fun s v hup hpcie hpend hv hlow hok => ?_, fun s v hup hpcie hpend hbad => ?_⟩
  · refine .host (show exec _ s = execPortUp p s from rfl) hup hpcie ?_
    rw [State.onEng_eng, pendWrite, hpend, if_neg (by decide), portUp, if_neg (by rw [hdown]; simp; omega), if_pos hok]
    refine ⟨?_, ?_, fun q hq hne => ?_⟩
    · rw [Engine.is, Engine.relink_up _ _ _ hp hp]
      exact Engine.is_put_same _ _ _ ⟨show 0 < 64 by decide, rfl⟩
    · obtain ⟨-, hmem, -⟩ := (s.eng.put (Fld.ITK_PORT_CTRL_UP p) 1).relink_spec p hp
      exact hmem.trans (s.eng.put_mem _ _)
    · rw [Engine.relink_up _ _ _ hp hq]
      refine Engine.get_put_other _ _ _ _ (.inl ?_)
      show 0x200100 + 0x40 * q ≠ 0x200100 + 0x40 * p
      omega
  · refine (Does.host (show exec _ s = execPortUp p s from rfl) hup hpcie).congr ?_
    rw [pendWrite, hpend, if_neg (by decide), portUp, if_neg (by rw [hdown]; simp; omega), if_neg (by rw [hno]; decide)]
  · refine .host (show exec _ s = execPortDown p d s from rfl) hup hpcie ?_
    rw [State.onEng_eng, pendWrite, hpend, if_neg (by decide), portDown, if_neg (by rw [hlive]; simp; omega),
      Engine.cutFrame_idle (by exact hcur)]
    obtain ⟨hlink, hmem, -⟩ := ((s.eng.put (Fld.ITK_PORT_CTRL_UP p) 0).setRx p fun r => { r with aligned := false }).relink_spec p hp
    have hoff : (s.eng.put (Fld.ITK_PORT_CTRL_UP p) 0).is (Fld.ITK_PORT_CTRL_UP p) = false := Engine.is_put_same _ _ _ ⟨show 0 < 64 by decide, rfl⟩
    refine ⟨?_, hlink.trans ?_, hmem.trans (s.eng.put_mem (Fld.ITK_PORT_CTRL_UP p) 0)⟩
    · rw [Engine.is, Engine.relink_up _ _ _ hp hp]
      exact hoff
    · rw [Engine.linkNow, Engine.rxOf_setRx]
      simp
  · refine .engine (show exec _ s = execLinkChange p a s from rfl) hup ?_
    rw [State.onEng_eng, linkChange, if_neg (by omega)]
    obtain ⟨hlink, -, -⟩ := (s.eng.setRx p fun r => { r with aligned := a && s.eng.is (Fld.ITK_PORT_CTRL_UP p) }).relink_spec p hp
    refine ⟨hlink.trans ?_, Engine.relink_up _ _ _ hp hp⟩
    rw [Engine.linkNow, Engine.rxOf_setRx]
    show (s.eng.present p && s.eng.is (Fld.ITK_PORT_CTRL_UP p) && _ && _ && _ && (a && s.eng.is (Fld.ITK_PORT_CTRL_UP p))) = _
    cases s.eng.is (Fld.ITK_PORT_CTRL_UP p) <;> simp
  · refine (Does.host (show exec _ s = execItkPortCfgWrite p v s from rfl) hup hpcie).congr ?_
    rw [pendWrite, hpend, if_neg (by decide), portCfgWrite, if_neg (by omega)]
    exact if_neg (by rw [hdown]; simp; omega)
  · refine (Does.host (show exec _ s = execItkPortCfgWrite p v s from rfl) hup hpcie).congr ?_
    rw [pendWrite, hpend, if_neg (by decide), portCfgWrite, if_neg (by omega)]
    exact if_pos hbad
  · refine .host (show exec _ s = execItkCageCfgWrite c v s from rfl) hup hpcie ?_
    have hnone : ¬ (v % 4 = 3 ∨ (List.range 4).any (fun k => s.eng.is (Fld.ITK_PORT_CTRL_UP (4 * c + k))) = true) := by
      rintro (h | h)
      · omega
      · obtain ⟨k, hk, hlive⟩ := List.any_eq_true.mp h
        rw [hdown k (List.mem_range.mp hk)] at hlive
        exact absurd hlive (by decide)
    rw [State.onEng_eng, pendWrite, hpend, if_neg (by decide), cageCfgWrite, if_neg (by omega), if_neg hnone]
    have hcage : ∀ x : Engine, ∀ c', c' < 8 → (x.put Fld.ITK_PROFILE_PROFILE 7).rd (Reg.ITK_CAGE_CFG c') = x.rd (Reg.ITK_CAGE_CFG c') :=
      fun x c' hc' => x.rd_put_other _ _ (by show 0x200080 + 0x4 * c' ≠ 0x200000; omega)
    refine ⟨?_, Engine.get_put_same _ _ _ (by decide) (by decide), fun k hk => ?_⟩
    · rw [hcage _ c hc, Engine.showBreakout_cage _ _ _ hc, Engine.rd_wr_same]
      omega
    · rw [Engine.present_of_rd (hcage _ _ (by omega)), ← Engine.showBreakout_present _ hc hk]
      refine Engine.is_put_other _ _ _ _ (.inl ?_)
      show 0x200108 + 0x40 * (4 * c + k) ≠ 0x200000
      omega
  · refine (Does.host (show exec _ s = execItkCageCfgWrite c v s from rfl) hup hpcie).congr ?_
    rw [pendWrite, hpend, if_neg (by decide), cageCfgWrite, if_neg (by omega)]
    exact if_pos (.inr (List.any_eq_true.mpr ⟨k, List.mem_range.mpr hk, hlive⟩))
  · refine (Does.host (show exec _ s = execThrMalActWrite v s from rfl) hup hpcie).congr ?_
    have hnone : ¬ (v % 4 ≠ 0 ∨ (List.range 16).any (fun k => bitsOf v (2 * k + 1) (2 * k) == 3) = true) := by
      rintro (h | h)
      · exact h hlow
      · obtain ⟨k, hk, h3⟩ := List.any_eq_true.mp h
        exact hok k (List.mem_range.mp hk) (by simpa using h3)
    rw [pendWrite, hpend, if_neg (by decide), thrMalActWrite, if_neg hnone, Nat.mod_eq_of_lt hv]
  · refine (Does.host (show exec _ s = execThrMalActWrite v s from rfl) hup hpcie).congr ?_
    rw [pendWrite, hpend, if_neg (by decide), thrMalActWrite, if_pos (.inl hbad)]

end Sys2Proof.Machine

/-!
PROOFS. Doorbells and rings (O18): what a record on a ring leaves alone, and the ring's registers under each row.
-/
namespace Sys2Proof.Machine

/-! ### Records on a ring -/

/-- A register of ring `j` that its records write. -/
def bookReg (j off : Nat) : Prop := off = Reg.HIF_RING_PROD j ∨ off = Reg.HIF_RING_CNT_WRITTEN j ∨ off = Reg.HIF_RING_CNT_DISCARD j

/-- One engine is the other but for records on ring `j`: of the registers only those of the ring's book change, and outputs follow the
earlier ones. -/
def Engine.Records (j : Nat) (e e' : Engine) : Prop :=
  (∀ off, ¬ bookReg j off → e'.rd off = e.rd off) ∧ e'.hif.cmds = e.hif.cmds ∧ e'.mem = e.mem ∧ ∃ o, e'.out = e.out ++ o

theorem Engine.Records.refl (j : Nat) (e : Engine) : e.Records j e := ⟨fun _ _ => rfl, rfl, rfl, [], (List.append_nil _).symm⟩

theorem Engine.Records.trans {j : Nat} {e e' e'' : Engine} (h : e.Records j e') (h' : e'.Records j e'') : e.Records j e'' := by
  obtain ⟨hrd, hcmds, hmem, o, ho⟩ := h
  obtain ⟨hrd', hcmds', hmem', o', ho'⟩ := h'
  exact ⟨fun off hn => (hrd' off hn).trans (hrd off hn), hcmds'.trans hcmds, hmem'.trans hmem, o ++ o', by rw [ho', ho, List.append_assoc]⟩

theorem Engine.Records.ite {j : Nat} {e e' e'' : Engine} {p : Prop} [Decidable p] (h : e.Records j e') (h' : e.Records j e'') :
    e.Records j (if p then e' else e'') := by
  split
  · exact h
  · exact h'

theorem Engine.wr_records (e : Engine) {j off : Nat} (v : Nat) (h : bookReg j off) : e.Records j (e.wr off v) :=
  ⟨fun _ hn => Engine.rd_wr_other _ _ fun heq => hn (heq ▸ h), by rw [Engine.wr_hif], e.wr_mem off v, [], by
    rw [Engine.wr_out, List.append_nil]⟩

theorem Engine.count_records (e : Engine) {j off : Nat} (h : bookReg j off) : e.Records j (e.count off) := e.wr_records _ h

theorem Engine.emit_records (j : Nat) (e : Engine) (o : Out) : e.Records j (e.emit o) := ⟨fun _ _ => rfl, rfl, rfl, [o], rfl⟩

theorem Engine.setRing_records (j : Nat) (e : Engine) (k : Nat) (f : RingAux → RingAux) : e.Records j (e.setRing k f) :=
  ⟨fun _ _ => rfl, rfl, rfl, [], (List.append_nil _).symm⟩

theorem Engine.busy_records (j : Nat) (e : Engine) (i : Nat) : e.Records j (e.busy i) := by
  obtain ⟨g, hg⟩ := e.busy_eq i
  rw [hg]
  exact ⟨fun _ _ => rfl, rfl, rfl, [], (List.append_nil _).symm⟩

theorem Engine.message_records (j : Nat) (e : Engine) (v : Nat) : e.Records j (e.message v) := by
  unfold Engine.message
  exact .ite ⟨fun _ _ => rfl, rfl, rfl, [], (List.append_nil _).symm⟩ (e.emit_records j _)

theorem Engine.writeBack_records (j : Nat) (e : Engine) (k : Nat) : e.Records j (e.writeBack k) :=
  (e.emit_records j _).trans (Engine.setRing_records j _ _ _)

theorem Engine.signal_records (j : Nat) (e : Engine) (k : Nat) : e.Records j (e.signal k) := by
  unfold Engine.signal
  exact (Engine.Records.ite (e.writeBack_records j k) (.refl j e)).trans
    ((Engine.message_records j _ _).trans (Engine.setRing_records j _ _ _))

theorem Engine.signal_rd (e : Engine) (k off : Nat) : (e.signal k).rd off = e.rd off := by
  have hback : (if (e.ring k).stale = true then e.writeBack k else e).regs = e.regs := by split <;> rfl
  rw [Engine.signal, Engine.setRing_rd, Engine.rd_of_regs (Engine.message_regs _ _), Engine.rd_of_regs hback]

/-- The book of ring `k` with one more record in its next slot. -/
def Engine.booked (e : Engine) (k : Nat) (ws : List Nat) : Engine :=
  Engine.setRing (((((e.emit (.hostWrite (e.rd (Reg.HIF_RING_BASE k) + e.prod k % e.ringSize k * entrySize (e.ringKind k))
    (slotBytes (e.ringKind k) (e.prod k) (e.ringSize k) ws))).busy 329).wr (Reg.HIF_RING_PROD k) ((e.prod k + 1) % 2 ^ 32)).count
      (Reg.HIF_RING_CNT_WRITTEN k))) k fun r => { r with stale := true, unsignalled := r.unsignalled + 1 }

theorem Engine.putRecord_eq (e : Engine) (k : Nat) (ws : List Nat) (irq : Bool) : e.putRecord k ws irq =
    if (irq || decide (max ((e.booked k ws).get (Fld.HIF_RING_COAL_COAL_CNT k)) 1 ≤ ((e.booked k ws).ring k).unsignalled)) = true
    then (e.booked k ws).signal k else e.booked k ws := rfl

theorem Engine.booked_records (e : Engine) (k : Nat) (ws : List Nat) : e.Records k (e.booked k ws) :=
  (e.emit_records k _).trans ((Engine.busy_records k _ _).trans ((Engine.wr_records _ _ (.inl rfl)).trans
    ((Engine.count_records _ (.inr (.inl rfl))).trans (Engine.setRing_records k _ _ _))))

theorem Engine.booked_prod (e : Engine) (k : Nat) (ws : List Nat) : (e.booked k ws).prod k = (e.prod k + 1) % 2 ^ 32 := by
  have hne : Reg.HIF_RING_PROD k ≠ Reg.HIF_RING_CNT_WRITTEN k := by simp only [Reg.HIF_RING_PROD, Reg.HIF_RING_CNT_WRITTEN]; omega
  rw [Engine.prod, Engine.booked, Engine.setRing_rd, Engine.rd_count_other _ hne, Engine.rd_wr_same]
  omega

theorem Engine.booked_out (e : Engine) (k : Nat) (ws : List Nat) : (e.booked k ws).out =
    e.out ++ [.hostWrite (e.rd (Reg.HIF_RING_BASE k) + e.prod k % e.ringSize k * entrySize (e.ringKind k))
      (slotBytes (e.ringKind k) (e.prod k) (e.ringSize k) ws)] := by
  rw [Engine.booked]
  generalize hx : e.emit _ = x
  obtain ⟨g, hg⟩ := x.busy_eq 329
  rw [hg]
  rw [Engine.setRing_out, Engine.count_out, Engine.wr_out, ← hx]
  rfl

theorem Engine.putRecord_records (e : Engine) (k : Nat) (ws : List Nat) (irq : Bool) : e.Records k (e.putRecord k ws irq) := by
  rw [e.putRecord_eq]
  exact .ite ((e.booked_records k ws).trans (Engine.signal_records k _ k)) (e.booked_records k ws)

theorem Engine.putRecord_prod (e : Engine) (k : Nat) (ws : List Nat) (irq : Bool) : (e.putRecord k ws irq).prod k = (e.prod k + 1) % 2 ^ 32 := by
  rw [e.putRecord_eq]
  split
  · rw [Engine.prod, Engine.signal_rd]
    exact e.booked_prod k ws
  · exact e.booked_prod k ws

/-- The record goes to the host, in the slot that PROD names. -/
theorem Engine.putRecord_out (e : Engine) (k : Nat) (ws : List Nat) (irq : Bool) :
    Out.hostWrite (e.rd (Reg.HIF_RING_BASE k) + e.prod k % e.ringSize k * entrySize (e.ringKind k))
      (slotBytes (e.ringKind k) (e.prod k) (e.ringSize k) ws) ∈ (e.putRecord k ws irq).out := by
  have hin : Out.hostWrite (e.rd (Reg.HIF_RING_BASE k) + e.prod k % e.ringSize k * entrySize (e.ringKind k))
      (slotBytes (e.ringKind k) (e.prod k) (e.ringSize k) ws) ∈ (e.booked k ws).out := by
    rw [e.booked_out]
    exact List.mem_append_right _ (List.mem_singleton.mpr rfl)
  rw [e.putRecord_eq]
  split
  · obtain ⟨-, -, -, o, ho⟩ := (e.booked k ws).signal_records k k
    rw [ho]
    exact List.mem_append_left _ hin
  · exact hin

theorem Engine.flushGap_records (e : Engine) (k : Nat) : e.Records k (e.flushGap k) := by
  unfold Engine.flushGap
  split
  · exact .refl k e
  · exact .ite ((e.putRecord_records k _ _).trans (Engine.setRing_records k _ _ _)) (.refl k e)

/-- An error record writes its ring's book, where that ring is an ACTIVE error ring, and two counters. -/
theorem Engine.errRecord_rd (e : Engine) (code sev blk mem count addr obj d4 d5 d6 : Nat) {off : Nat} (h0 : off ≠ Reg.ERR_CNT 0)
    (h1 : off ≠ Reg.ERR_CNT 1) (hring : e.ringState (e.get Fld.ERR_CFG_RING) = 1 → ¬ bookReg (e.get Fld.ERR_CFG_RING) off) :
    (e.errRecord code sev blk mem count addr obj d4 d5 d6).rd off = e.rd off := by
  unfold Engine.errRecord
  dsimp only
  split
  next hactive =>
    have hn := hring hactive.1
    obtain ⟨hflush, -⟩ := e.flushGap_records (e.get Fld.ERR_CFG_RING)
    split
    · obtain ⟨hput, -⟩ := (e.flushGap (e.get Fld.ERR_CFG_RING)).putRecord_records (e.get Fld.ERR_CFG_RING)
        [(e.flushGap (e.get Fld.ERR_CFG_RING)).time, code + 2 ^ 16 * sev + 2 ^ 24 * blk + 2 ^ 29 * mem + 2 ^ 32 * (count % 2 ^ 32), addr, obj,
          d4, d5, d6, (e.flushGap (e.get Fld.ERR_CFG_RING)).prod (e.get Fld.ERR_CFG_RING) % 2 ^ 32 + 2 ^ 56] false
      rw [Engine.rd_count_other _ h0, hput off hn, hflush off hn]
    · rw [Engine.rd_count_other _ h1, Engine.rd_count_other _ fun heq => hn (.inr (.inr heq))]
      exact hflush off hn
  next => exact Engine.rd_count_other _ h1

theorem Engine.errInfo_rd (e : Engine) (code blk obj d4 d5 d6 : Nat) {off : Nat} (h0 : off ≠ Reg.ERR_CNT 0) (h1 : off ≠ Reg.ERR_CNT 1)
    (hring : e.ringState (e.get Fld.ERR_CFG_RING) = 1 → ¬ bookReg (e.get Fld.ERR_CFG_RING) off) :
    (e.errInfo code blk obj d4 d5 d6).rd off = e.rd off := e.errRecord_rd _ _ _ _ _ _ _ _ _ _ h0 h1 hring

/-! ### A ring's registers -/

section RingRegs
variable {j k : Nat}

theorem not_bookReg_stat : ¬ bookReg j (Reg.HIF_RING_STAT k) := by
  simp only [bookReg, Reg.HIF_RING_STAT, Reg.HIF_RING_PROD, Reg.HIF_RING_CNT_WRITTEN, Reg.HIF_RING_CNT_DISCARD]
  omega

theorem not_bookReg_below {off : Nat} (h : off < 0x180000) : ¬ bookReg j off := by
  simp only [bookReg, Reg.HIF_RING_PROD, Reg.HIF_RING_CNT_WRITTEN, Reg.HIF_RING_CNT_DISCARD]
  omega

theorem not_bookReg_prod (h : k ≠ j) : ¬ bookReg j (Reg.HIF_RING_PROD k) := by
  simp only [bookReg, Reg.HIF_RING_PROD, Reg.HIF_RING_CNT_WRITTEN, Reg.HIF_RING_CNT_DISCARD]
  omega

theorem statReg_ne_prod : Reg.HIF_RING_STAT k ≠ Reg.HIF_RING_PROD j := by simp only [Reg.HIF_RING_STAT, Reg.HIF_RING_PROD]; omega
theorem statReg_ne_cons : Reg.HIF_RING_STAT k ≠ Reg.HIF_RING_CONS j := by simp only [Reg.HIF_RING_STAT, Reg.HIF_RING_CONS]; omega
theorem statReg_ne_ctrl : Reg.HIF_RING_STAT k ≠ Reg.HIF_RING_CTRL j := by simp only [Reg.HIF_RING_STAT, Reg.HIF_RING_CTRL]; omega
theorem statReg_ne_stat (h : k ≠ j) : Reg.HIF_RING_STAT k ≠ Reg.HIF_RING_STAT j := by simp only [Reg.HIF_RING_STAT]; omega
theorem prodReg_ne_cons : Reg.HIF_RING_PROD k ≠ Reg.HIF_RING_CONS j := by simp only [Reg.HIF_RING_PROD, Reg.HIF_RING_CONS]; omega
theorem prodReg_ne_stat : Reg.HIF_RING_PROD k ≠ Reg.HIF_RING_STAT j := statReg_ne_prod.symm
theorem prodReg_ne_ctrl : Reg.HIF_RING_PROD k ≠ Reg.HIF_RING_CTRL j := by simp only [Reg.HIF_RING_PROD, Reg.HIF_RING_CTRL]; omega
theorem prodReg_ne_prod (h : k ≠ j) : Reg.HIF_RING_PROD k ≠ Reg.HIF_RING_PROD j := by simp only [Reg.HIF_RING_PROD]; omega
theorem consReg_ne_stat : Reg.HIF_RING_CONS k ≠ Reg.HIF_RING_STAT j := statReg_ne_cons.symm
theorem consReg_ne_ctrl : Reg.HIF_RING_CONS k ≠ Reg.HIF_RING_CTRL j := by simp only [Reg.HIF_RING_CONS, Reg.HIF_RING_CTRL]; omega
theorem cfgReg_ne_ctrl : Reg.HIF_RING_CFG k ≠ Reg.HIF_RING_CTRL j := by simp only [Reg.HIF_RING_CFG, Reg.HIF_RING_CTRL]; omega

end RingRegs

theorem Engine.ringState_of_rd {e e' : Engine} {k : Nat} (h : e'.rd (Reg.HIF_RING_STAT k) = e.rd (Reg.HIF_RING_STAT k)) :
    e'.ringState k = e.ringState k := Engine.get_of_rd (f := Fld.HIF_RING_STAT_STATE k) h

theorem Engine.ringState_put (e : Engine) (k v : Nat) (hv : v < 4) : (e.put (Fld.HIF_RING_STAT_STATE k) v).ringState k = v :=
  (e.get_put_same (Fld.HIF_RING_STAT_STATE k) v (show 1 < 64 by decide) (show 0 ≤ 1 by decide)).trans (Nat.mod_eq_of_lt hv)

/-- STATE stands beside the event bits of its register. -/
theorem Engine.ringState_evt (e : Engine) (k : Nat) {f : Fld} (h : f.off ≠ Reg.HIF_RING_STAT k ∨ 1 < f.lo ∧ f.lo = f.hi ∧ f.hi < 64) :
    (e.evt f).ringState k = e.ringState k := by
  refine e.get_evt_other f (Fld.HIF_RING_STAT_STATE k) ?_
  obtain h | ⟨hlo, heq, h64⟩ := h
  · exact .inl (Ne.symm h)
  · exact .inr ⟨.inl hlo, h64, heq.le⟩

theorem Engine.ringState_hifEvt (e : Engine) (k : Nat) {f : Fld} (h : f.off < 0x180000) : (e.hifEvt f).ringState k = e.ringState k :=
  Engine.ringState_of_rd (e.hifEvt_rd f (by simp only [Reg.HIF_RING_STAT]; omega))

theorem Engine.hifCustom_rd (e : Engine) {off : Nat} (h : off ≠ Reg.HIF_PROFILE) : e.hifCustom.rd off = e.rd off := e.rd_put_other _ _ h

theorem Engine.hifCustom_ringState (e : Engine) (k : Nat) : e.hifCustom.ringState k = e.ringState k :=
  Engine.ringState_of_rd (e.hifCustom_rd (by simp only [Reg.HIF_RING_STAT, Reg.HIF_PROFILE]; omega))

theorem Engine.hifCustom_prod (e : Engine) (k : Nat) : e.hifCustom.prod k = e.prod k :=
  e.hifCustom_rd (by simp only [Reg.HIF_RING_PROD, Reg.HIF_PROFILE]; omega)

theorem Engine.hifCustom_cons (e : Engine) (k : Nat) : e.hifCustom.cons k = e.cons k :=
  e.hifCustom_rd (by simp only [Reg.HIF_RING_CONS, Reg.HIF_PROFILE]; omega)

theorem Engine.ring_setRing (e : Engine) (k : Nat) (f : RingAux → RingAux) : (e.setRing k f).ring k = f (e.ring k) := by
  rw [Engine.ring, Engine.setRing, Tbl.get_set_same]

theorem hifWrite_idle {e : Engine} (h : bitOf (e.rd Reg.GLB_PEND) 2 = false) (f : Engine → Engine) : hifWrite f e = f e := by
  rw [hifWrite, h, if_neg (by decide)]

/-! ### Doorbells -/

/-- A doorbell on ring `k`'s page that the ring takes. -/
theorem doorbellRow_active {e : Engine} {k v : Nat} (hk : k < 4096) (hv : v < 2 ^ 32) (hst : e.ringState k = 1) :
    (if (4 : Nat) ≠ 4 ∨ 0x1000 * k % 0x1000 ≠ 0 ∨ 4096 ≤ 0x1000 * k / 0x1000 then e.doorbellIgnored
      else if e.ringState (0x1000 * k / 0x1000) = 1 ∨ (e.ringState (0x1000 * k / 0x1000) = 3 ∧ e.ringKind (0x1000 * k / 0x1000) = 3)
        then doorbell (0x1000 * k / 0x1000) (v % 2 ^ 32) e
      else e.doorbellIgnored) = doorbell k v e := by
  rw [Nat.mul_div_cancel_left k (by decide), if_neg (by omega), if_pos (.inl hst), Nat.mod_eq_of_lt hv]

/-- The ring in ERROR, with its fetches to be discarded and DB_ERR shown. -/
def Engine.ringError (e : Engine) (k : Nat) : Engine :=
  Engine.hifEvt ((Engine.setRing ((e.put (Fld.HIF_RING_STAT_STATE k) 2).doorbellIgnored) k fun r =>
    { r with fetches := r.fetches.map fun f => { f with discard := true } }).evt (Fld.HIF_RING_STAT_DB_ERR k)) Fld.HIF_EVT_DB_ERR

theorem doorbell_outOfRange {e : Engine} {k v : Nat} (hhost : e.hostRing k = true) (h : e.ringSize k < cntSub v (e.cons k)) :
    doorbell k v e = (e.ringError k).errInfo 0x01 2 0 k v 0 := by
  rw [doorbell, if_pos hhost]
  exact if_neg (fun hin => absurd hin.1 (by omega))

theorem Engine.ringError_state (e : Engine) (k : Nat) : (e.ringError k).ringState k = 2 := by
  rw [Engine.ringError, Engine.ringState_hifEvt _ _ (by decide),
    Engine.ringState_evt _ _ (.inr ⟨show 1 < 3 by decide, rfl, show 3 < 64 by decide⟩)]
  refine (Engine.ringState_of_rd (Engine.rd_count_other _ ?_)).trans (e.ringState_put k 2 (by decide))
  simp only [Reg.HIF_RING_STAT, Reg.HIF_CNT]
  omega

theorem Engine.ringError_dbErr (e : Engine) (k : Nat) : (e.ringError k).is (Fld.HIF_RING_STAT_DB_ERR k) = true := by
  rw [Engine.ringError, Engine.is, Engine.get_of_rd (Engine.hifEvt_rd _ _ (show Reg.HIF_RING_STAT k ≠ Reg.HIF_EVT by
    simp only [Reg.HIF_RING_STAT, Reg.HIF_EVT]; omega))]
  exact Engine.is_evt_same _ _ rfl (show 3 < 64 by decide)

theorem Engine.ringError_prod (e : Engine) (k : Nat) : (e.ringError k).prod k = e.prod k := by
  rw [Engine.prod, Engine.ringError, Engine.hifEvt_rd _ _ (show Reg.HIF_RING_PROD k ≠ Reg.HIF_EVT by
    simp only [Reg.HIF_RING_PROD, Reg.HIF_EVT]; omega), Engine.rd_evt_other _ _ prodReg_ne_stat]
  refine (Engine.rd_count_other _ ?_).trans (Engine.rd_put_other _ _ _ prodReg_ne_stat)
  simp only [Reg.HIF_RING_PROD, Reg.HIF_CNT]
  omega

/-- The record of a ring in ERROR is on another ring. -/
theorem Engine.ringError_report (e : Engine) (k v : Nat) {off : Nat} (h0 : off ≠ Reg.ERR_CNT 0) (h1 : off ≠ Reg.ERR_CNT 1)
    (h : ∀ j, k ≠ j → ¬ bookReg j off) : ((e.ringError k).errInfo 0x01 2 0 k v 0).rd off = (e.ringError k).rd off := by
  refine Engine.errInfo_rd _ _ _ _ _ _ _ h0 h1 fun hactive => h _ fun heq => ?_
  rw [← heq, e.ringError_state] at hactive
  exact absurd hactive (by decide)

/-! ### Enabling, disabling, messages -/

/-- A ring that has become ACTIVE. -/
def Engine.ringStarted (e : Engine) (k : Nat) : Engine :=
  Engine.setRing (((((e.wr (Reg.HIF_RING_PROD k) 0).wr (Reg.HIF_RING_CONS k) 0).put (Fld.HIF_RING_STAT_STATE k) 1).put
    (Fld.HIF_RING_CTRL_EN k) 1)) k fun r => { fetches := r.fetches.map fun f => { f with discard := true } }

theorem ringEnable_ok {e : Engine} {k : Nat} (hst : e.ringState k = 0) (hok : e.ringOk k = true) : ringEnable k e = e.ringStarted k := by
  rw [ringEnable, if_neg (by omega), if_pos hok]
  rfl

theorem ringEnable_bad {e : Engine} {k : Nat} (hst : e.ringState k = 0) (hok : e.ringOk k = false) :
    ringEnable k e = (e.evt (Fld.HIF_RING_STAT_CFG_ERR k)).hifEvt Fld.HIF_EVT_CFG_ERR := by
  rw [ringEnable, if_neg (by omega), if_neg (by rw [hok]; decide)]

/-- Registers beside a ring's counts, state and enable. -/
theorem Engine.ringStarted_rd (e : Engine) (k : Nat) {off : Nat} (hp : off ≠ Reg.HIF_RING_PROD k) (hc : off ≠ Reg.HIF_RING_CONS k)
    (hs : off ≠ Reg.HIF_RING_STAT k) (hen : off ≠ Reg.HIF_RING_CTRL k) : (e.ringStarted k).rd off = e.rd off := by
  rw [Engine.ringStarted, Engine.setRing_rd, Engine.rd_put_other _ _ _ hen, Engine.rd_put_other _ _ _ hs, Engine.rd_wr_other _ _ hc, Engine.rd_wr_other _ _ hp]

theorem Engine.ringStarted_state (e : Engine) (k : Nat) : (e.ringStarted k).ringState k = 1 := by
  rw [Engine.ringStarted, Engine.ringState, Engine.setRing_get]
  exact (Engine.ringState_of_rd (Engine.rd_put_other _ _ _ statReg_ne_ctrl)).trans (Engine.ringState_put _ k 1 (by decide))

theorem Engine.ringStarted_prod (e : Engine) (k : Nat) : (e.ringStarted k).prod k = 0 := by
  rw [Engine.prod, Engine.ringStarted, Engine.setRing_rd, Engine.rd_put_other _ _ _ prodReg_ne_ctrl,
    Engine.rd_put_other _ _ _ prodReg_ne_stat, Engine.rd_wr_other _ _ prodReg_ne_cons, Engine.rd_wr_same,
    Nat.zero_mod]

theorem Engine.ringStarted_cons (e : Engine) (k : Nat) : (e.ringStarted k).cons k = 0 := by
  rw [Engine.cons, Engine.ringStarted, Engine.setRing_rd, Engine.rd_put_other _ _ _ consReg_ne_ctrl,
    Engine.rd_put_other _ _ _ consReg_ne_stat, Engine.rd_wr_same, Nat.zero_mod]

theorem Engine.ringStarted_en (e : Engine) (k : Nat) : (e.ringStarted k).is (Fld.HIF_RING_CTRL_EN k) = true := by
  rw [Engine.ringStarted, Engine.is, Engine.setRing_get]
  exact Engine.is_put_same _ _ _ ⟨show 0 < 64 by decide, rfl⟩

/-- What a ring that is disabled at once keeps. -/
theorem ringDisable_spec {e : Engine} {k : Nat} (hst : e.ringState k = 1) :
    (ringDisable k e).ringState k = (if e.ringKind k = 3 then 3 else 0) ∧ (ringDisable k e).prod k = e.prod k ∧
      (ringDisable k e).cons k = e.cons k ∧ (ringDisable k e).hif.cmds = e.hif.cmds := by
  have hst' : (e.put (Fld.HIF_RING_CTRL_EN k) 0).ringState k = 1 :=
    (Engine.ringState_of_rd (Engine.rd_put_other _ _ _ statReg_ne_ctrl)).trans hst
  have hkind : (e.put (Fld.HIF_RING_CTRL_EN k) 0).ringKind k = e.ringKind k :=
    Engine.get_of_rd (f := Fld.HIF_RING_CFG_KIND k) (Engine.rd_put_other _ _ _ cfgReg_ne_ctrl)
  have hprod : ∀ v, ((e.put (Fld.HIF_RING_CTRL_EN k) 0).put (Fld.HIF_RING_STAT_STATE k) v).prod k = e.prod k := fun v =>
    (Engine.rd_put_other _ _ _ prodReg_ne_stat).trans (Engine.rd_put_other _ _ _ prodReg_ne_ctrl)
  have hcons : ∀ v, ((e.put (Fld.HIF_RING_CTRL_EN k) 0).put (Fld.HIF_RING_STAT_STATE k) v).cons k = e.cons k := fun v =>
    (Engine.rd_put_other _ _ _ consReg_ne_stat).trans (Engine.rd_put_other _ _ _ consReg_ne_ctrl)
  rw [ringDisable, hst', hkind]
  by_cases h3 : e.ringKind k = 3
  · rw [if_pos ⟨rfl, h3⟩, if_pos h3]
    exact ⟨Engine.ringState_put _ k 3 (by decide), hprod 3, hcons 3, by rw [Engine.put_hif, Engine.put_hif]⟩
  · rw [if_neg (fun h => h3 h.2), if_pos (.inl rfl), if_neg h3]
    refine ⟨Engine.ringState_put _ k 0 (by decide), hprod 0, hcons 0, ?_⟩
    rw [Engine.setRing, Engine.put_hif, Engine.put_hif]

theorem Engine.hifCustom_cmds (e : Engine) : e.hifCustom.hif.cmds = e.hif.cmds := by rw [Engine.hifCustom, Engine.put_hif]

/-- A message of a ring with no write-back to make first. -/
theorem Engine.signal_fresh {e : Engine} {k v : Nat} (hstale : (e.ring k).stale = false) (hv : e.get (Fld.HIF_RING_CFG_VECTOR k) = v) :
    e.signal k = (e.message v).setRing k fun r => { r with unsignalled := 0 } := by
  rw [Engine.signal, hstale, if_neg (by decide), hv]

/-! ### O18 -/

/-- Settles O18: the ring's registers and book row by row; a doorbell error's record goes to another ring. -/
theorem ringsAndDoorbells : Obligations.RingsAndDoorbells := by
  refine ⟨fun s k v hup hpcie hk hv hst hhost hroom hge => ?_, fun s k v hup hpcie hk hv hst hhost hover => ?_,
    fun s k v hup hpcie hk hv hst hhost hle => ?_, fun s off w v hup hpcie hw => ?_, fun s k hup hpcie hpend hk hst hok => ?_,
    fun s k hup hpcie hpend hk hst hok => ?_, fun s k hup hpcie hpend hk hst => ?_, fun s k hup hk hst hidle => ?_,
    fun s k hup hpcie hstale hhost => ?_, fun s k v hup hpcie hun hstale htime hv hmask => ?_,
    fun s k v hup hpcie hun hstale htime hv hmask => ?_⟩
  · refine (Does.host (show exec _ s = execDoorbell (0x1000 * k) 4 v s from rfl) hup hpcie).congr ?_
    refine (doorbellRow_active hk hv hst).trans ?_
    rw [doorbell, if_pos hhost]
    exact (if_pos ⟨hroom, hge⟩).trans (by rw [Nat.mod_eq_of_lt hv])
  · refine .host (show exec _ s = execDoorbell (0x1000 * k) 4 v s from rfl) hup hpcie ?_
    rw [State.onEng_eng, doorbellRow_active hk hv hst, doorbell_outOfRange hhost hover]
    have hstat : ((s.eng.ringError k).errInfo 0x01 2 0 k v 0).rd (Reg.HIF_RING_STAT k) = (s.eng.ringError k).rd (Reg.HIF_RING_STAT k) :=
      s.eng.ringError_report k v (by simp only [Reg.HIF_RING_STAT, Reg.ERR_CNT]; omega) (by simp only [Reg.HIF_RING_STAT, Reg.ERR_CNT]; omega)
        fun _ _ => not_bookReg_stat
    refine ⟨?_, (Engine.ringState_of_rd hstat).trans (s.eng.ringError_state k), ?_, ?_⟩
    · exact (s.eng.ringError_report k v (by simp only [Reg.HIF_RING_PROD, Reg.ERR_CNT]; omega)
        (by simp only [Reg.HIF_RING_PROD, Reg.ERR_CNT]; omega) fun _ => not_bookReg_prod).trans (s.eng.ringError_prod k)
    · rw [Engine.is, Engine.get_of_rd (f := Fld.HIF_RING_STAT_DB_ERR k) hstat]
      exact s.eng.ringError_dbErr k
    · rw [Engine.is, Engine.get_of_rd (f := Fld.HIF_EVT_DB_ERR) (s.eng.ringError_report k v (by decide) (by decide)
        fun _ _ => not_bookReg_below (by decide))]
      exact Engine.hifEvt_is _ _ rfl (by decide)
  · refine (Does.host (show exec _ s = execDoorbell (0x1000 * k) 4 v s from rfl) hup hpcie).congr ?_
    refine (doorbellRow_active hk hv hst).trans ?_
    rw [doorbell, if_neg (by rw [hhost]; decide), if_pos hle, Nat.mod_eq_of_lt hv]
  · refine (Does.host (show exec _ s = execDoorbell off w v s from rfl) hup hpcie).congr ?_
    exact if_pos (.inl hw)
  · refine .host (show exec _ s = execRingEnable k s from rfl) hup hpcie ?_
    rw [State.onEng_eng, if_neg (by omega), hifWrite_idle hpend, ringEnable_ok hst hok]
    refine ⟨?_, ?_, ?_, ?_, ?_, fun k' _ hne => ⟨?_, ?_⟩⟩
    · rw [Engine.hifCustom_ringState, Engine.ringStarted_state]
    · rw [Engine.hifCustom_prod, Engine.ringStarted_prod]
    · rw [Engine.hifCustom_cons, Engine.ringStarted_cons]
    · rw [Engine.is, Engine.get_of_rd (Engine.hifCustom_rd _ (show Reg.HIF_RING_CTRL k ≠ Reg.HIF_PROFILE by
        simp only [Reg.HIF_RING_CTRL, Reg.HIF_PROFILE]; omega))]
      exact s.eng.ringStarted_en k
    · exact Engine.get_put_same _ _ _ (by decide) (by decide)
    · rw [Engine.hifCustom_ringState]
      exact Engine.ringState_of_rd (s.eng.ringStarted_rd k statReg_ne_prod statReg_ne_cons (statReg_ne_stat hne) statReg_ne_ctrl)
    · rw [Engine.hifCustom_prod]
      exact s.eng.ringStarted_rd k (prodReg_ne_prod hne) prodReg_ne_cons prodReg_ne_stat prodReg_ne_ctrl
  · refine .host (show exec _ s = execRingEnable k s from rfl) hup hpcie ?_
    rw [State.onEng_eng, if_neg (by omega), hifWrite_idle hpend, ringEnable_bad hst hok]
    constructor
    · rw [Engine.hifCustom_ringState, Engine.ringState_hifEvt _ _ (by decide),
        Engine.ringState_evt _ _ (.inr ⟨show 1 < 2 by decide, rfl, show 2 < 64 by decide⟩), hst]
    · rw [Engine.is, Engine.get_of_rd (Engine.hifCustom_rd _ (show Reg.HIF_RING_STAT k ≠ Reg.HIF_PROFILE by
        simp only [Reg.HIF_RING_STAT, Reg.HIF_PROFILE]; omega)),
        Engine.get_of_rd (Engine.hifEvt_rd _ _ (show Reg.HIF_RING_STAT k ≠ Reg.HIF_EVT by simp only [Reg.HIF_RING_STAT, Reg.HIF_EVT]; omega))]
      exact Engine.is_evt_same _ _ rfl (show 2 < 64 by decide)
  · refine .host (show exec _ s = execRingDisable k s from rfl) hup hpcie ?_
    rw [State.onEng_eng, if_neg (by omega), hifWrite_idle hpend, Engine.hifCustom_ringState, Engine.hifCustom_prod, Engine.hifCustom_cons,
      Engine.hifCustom_cmds]
    exact ringDisable_spec hst
  · refine .engine (show exec _ s = execRingDrainComplete k s from rfl) hup ?_
    rw [State.onEng_eng, ringDrained, if_pos ⟨hst, hidle⟩]
    refine ⟨Engine.ringState_put _ k 0 (by decide), ?_⟩
    rw [Engine.setRing, Engine.put_hif]
  · refine .host (show exec _ s = execWriteBackRefresh k s from rfl) hup hpcie ?_
    rw [State.onEng_eng, if_pos hstale, Engine.writeBack, if_neg (by rw [hhost]; decide), Engine.ring_setRing]
    exact ⟨rfl, rfl, rfl⟩
  · refine .host (show exec _ s = execMsixCoalesceTimeout k s from rfl) hup hpcie ?_
    rw [State.onEng_eng, if_pos ⟨hun, htime⟩, Engine.signal_fresh hstale hv, Engine.ring_setRing, Engine.message, if_neg (by rw [hmask]; decide)]
    exact ⟨rfl, rfl⟩
  · refine .host (show exec _ s = execMsixCoalesceTimeout k s from rfl) hup hpcie ?_
    rw [State.onEng_eng, if_pos ⟨hun, htime⟩, Engine.signal_fresh hstale hv, Engine.message, if_pos hmask]
    refine ⟨?_, rfl⟩
    show v ∈ (if v ∈ s.eng.hif.pba then s.eng.hif.pba else s.eng.hif.pba ++ [v])
    split
    · assumption
    · exact List.mem_append_right _ (List.mem_singleton.mpr rfl)

end Sys2Proof.Machine

/-!
PROOFS. Descriptors, NOP, COPY and completions (O19).
-/
namespace Sys2Proof.Machine

/-! ### Fetches -/

theorem Engine.quota_le (e : Engine) (pd : Nat) : e.quota pd ≤ 65536 := Nat.min_le_right _ _

/-- The burst of a ring's first fetch, with no other slot held: within BURST, what is posted, the quota and 127. -/
def Engine.firstBurst (e : Engine) (k : Nat) : Nat :=
  min (min (e.get Fld.HIF_FETCH_BURST) (e.inTransit k)) (min (e.quota (e.ringPd k)) 127)

/-- The ring's book with that burst. -/
def Engine.burstTaken (e : Engine) (k : Nat) : Engine :=
  e.setRing k fun r => { r with quotaAt := none, fetches := r.fetches ++ [⟨e.cons k % 2 ^ 32, e.firstBurst k, false⟩] }

/-- A ring's first fetch takes one burst. -/
theorem Engine.fetchRing_first {e : Engine} {k : Nat} (hst : e.ringState k = 1) (hhost : e.hostRing k = true) (hrings : e.hif.rings = [])
    (hcmds : e.hif.cmds = []) (hposted : e.inTransit k ≠ 0) (hburst : e.get Fld.HIF_FETCH_BURST ≠ 0) (hquota : e.quota (e.ringPd k) ≠ 0) :
    e.fetchRing k = (e.burstTaken k).busy 328 := by
  have hring : e.ring k = {} := by rw [Engine.ring, hrings]; rfl
  have hheld : e.held k = 0 := by rw [Engine.held, hring]; rfl
  have hlive : e.heldLive k = 0 := by rw [Engine.heldLive, hring]; rfl
  have hfree : min (65536 - (e.inflight + e.fetching)) (e.quota (e.ringPd k) - (e.inflightPd (e.ringPd k) + e.fetchingPd (e.ringPd k))) =
      e.quota (e.ringPd k) := by
    have hle := e.quota_le (e.ringPd k)
    rw [Engine.inflight, Engine.fetching, Engine.inflightPd, Engine.fetchingPd, hrings, hcmds]
    exact Nat.min_eq_right hle
  have hsome : e.firstBurst k ≠ 0 := by rw [Engine.firstBurst]; omega
  unfold Engine.fetchRing
  rw [if_neg (by rw [hst, hhost]; simpa using hposted)]
  dsimp only
  rw [hfree, if_neg hquota, hheld, hlive, Nat.sub_zero, Nat.add_zero]
  exact if_neg hsome

/-! ### Descriptors that return -/

/-- The engine once a fetch's data has come back: HEAD has moved and is written back. -/
def Engine.fetched (e : Engine) (k n : Nat) (rest : List FetchReq) : Engine :=
  Engine.writeBack ((e.setRing k fun r => { r with fetches := rest }).wr (Reg.HIF_RING_CONS k) (n % 2 ^ 32)) k

theorem Engine.writeBack_rd (e : Engine) (k off : Nat) : (e.writeBack k).rd off = e.rd off := rfl

theorem Engine.fetched_rd (e : Engine) (k n : Nat) (rest : List FetchReq) {off : Nat} (h : off ≠ Reg.HIF_RING_CONS k) :
    (e.fetched k n rest).rd off = e.rd off := by
  rw [Engine.fetched, Engine.writeBack_rd, Engine.rd_wr_other _ _ h, Engine.setRing_rd]

theorem Engine.fetched_get (e : Engine) (k n : Nat) (rest : List FetchReq) {f : Fld} (h : f.off ≠ Reg.HIF_RING_CONS k) :
    (e.fetched k n rest).get f = e.get f := Engine.get_of_rd (e.fetched_rd k n rest h)

theorem Engine.fetched_cons (e : Engine) (k n : Nat) (rest : List FetchReq) : (e.fetched k n rest).cons k = n % 2 ^ 32 := by
  rw [Engine.cons, Engine.fetched, Engine.writeBack_rd, Engine.rd_wr_same]
  omega

theorem Engine.fetched_ring (e : Engine) (k n : Nat) (rest : List FetchReq) : ((e.fetched k n rest).ring k).fetches = rest := by
  have hback : ∀ x : Engine, ((x.writeBack k).ring k).fetches = (x.ring k).fetches := fun x => by
    rw [Engine.writeBack, Engine.ring_setRing]
    rfl
  rw [Engine.fetched, hback, Engine.ring, Engine.wr_hif]
  exact congrArg RingAux.fetches (e.ring_setRing k _)

theorem Engine.fetched_cmds (e : Engine) (k n : Nat) (rest : List FetchReq) : (e.fetched k n rest).hif.cmds = e.hif.cmds := by
  obtain ⟨-, hback, -⟩ := ((e.setRing k fun r => { r with fetches := rest }).wr (Reg.HIF_RING_CONS k) (n % 2 ^ 32)).writeBack_records k k
  rw [Engine.fetched, hback, Engine.wr_hif]
  rfl

/-- The data of a fetch that is to be discarded. -/
theorem fetchReturn_discard {e : Engine} {k : Nat} {f : FetchReq} {r : List FetchReq} (d : Bytes) (h : (e.ring k).fetches = f :: r)
    (hd : f.discard = true) : fetchReturn k d e = e.setRing k fun x => { x with fetches := r } := by
  rw [fetchReturn, h]
  exact if_pos hd

theorem fitTo_slice {d : Bytes} (h : d.length = 64) : fitTo 64 (slice d (64 * 0) 64) = d := by
  have hs : slice d (64 * 0) 64 = d := by rw [slice, Nat.mul_zero, List.drop_zero, ← h, List.take_length]
  rw [hs, fitTo, h, Nat.sub_self, List.replicate_zero, List.append_nil, ← h, List.take_length]

/-- A fetch of one descriptor. -/
theorem fetchReturn_one {e : Engine} {k st : Nat} {d : Bytes} (h : (e.ring k).fetches = [⟨st, 1, false⟩]) (hd : d.length = 64) :
    fetchReturn k d e = (e.fetched k (st + 1) []).acceptDesc k st d := by
  rw [fetchReturn, h]
  dsimp only
  rw [if_neg (by decide), List.range_one, List.map_singleton, fitTo_slice hd, Engine.acceptAll, Engine.acceptAll]
  rfl

/-! ### Acceptance -/

/-- The command that a descriptor makes, on the completion ring that it names. -/
def Engine.newCmd (e : Engine) (k n : Nat) (d : Bytes) : Cmd :=
  { id := e.hif.nextId, ring := k, cnt := n % 2 ^ 32, pd := e.ringPd k, comp := bitsOf (descWord d 0) 27 16, desc := d, ph := .accepted,
    at_ := e.time, since := e.time, staged := e.gln.staged, inStage := e.gln.staging.length }

/-- The engine with a command in an in-flight slot. -/
def Engine.holdCmd (e : Engine) (c : Cmd) : Engine := { e with hif := { e.hif with nextId := e.hif.nextId + 1, cmds := e.hif.cmds ++ [c] } }

theorem Engine.acceptDesc_starts {e : Engine} {k n : Nat} {d : Bytes} (hring : e.compRingOk (e.ringPd k) (bitsOf (descWord d 0) 27 16) = true)
    (hok : (e.holdCmd (e.newCmd k n d)).acceptStatus (e.newCmd k n d) (e.ringKind k) = none) :
    e.acceptDesc k n d = e.holdCmd (e.newCmd k n d) := by
  unfold Engine.acceptDesc
  refine (if_pos hring).trans ?_
  show (match (e.holdCmd (e.newCmd k n d)).acceptStatus (e.newCmd k n d) (e.ringKind k) with
    | none => e.holdCmd (e.newCmd k n d)
    | some 0x01 => if (e.holdCmd (e.newCmd k n d)).orderMet (e.newCmd k n d)
        then (e.holdCmd (e.newCmd k n d)).endsUnstarted (e.newCmd k n d) 0x01 else e.holdCmd (e.newCmd k n d)
    | some st => (e.holdCmd (e.newCmd k n d)).endsUnstarted (e.newCmd k n d) st) = _
  rw [hok]

/-- With no completion ring that can take it, and no default one, a command is lost. -/
theorem Engine.acceptDesc_lost {e : Engine} {k n : Nat} {d : Bytes} (hring : e.compRingOk (e.ringPd k) (bitsOf (descWord d 0) 27 16) = false)
    (hdef : e.is (Fld.HIF_PD_CTRL_DEF_EN (e.ringPd k)) = false) : e.acceptDesc k n d = e.loseCmd (e.newCmd k n d) := by
  unfold Engine.acceptDesc
  refine (if_neg (by rw [hring]; decide)).trans ?_
  rw [hdef, Bool.false_and]
  rfl

theorem Engine.errRecord_cmds (e : Engine) (code sev blk mem count addr obj d4 d5 d6 : Nat) :
    (e.errRecord code sev blk mem count addr obj d4 d5 d6).hif.cmds = e.hif.cmds := by
  unfold Engine.errRecord
  obtain ⟨-, hflush, -⟩ := e.flushGap_records (e.get Fld.ERR_CFG_RING)
  dsimp only
  split
  · split
    · obtain ⟨-, hput, -⟩ := (e.flushGap (e.get Fld.ERR_CFG_RING)).putRecord_records (e.get Fld.ERR_CFG_RING)
        [(e.flushGap (e.get Fld.ERR_CFG_RING)).time, code + 2 ^ 16 * sev + 2 ^ 24 * blk + 2 ^ 29 * mem + 2 ^ 32 * (count % 2 ^ 32), addr, obj,
          d4, d5, d6, (e.flushGap (e.get Fld.ERR_CFG_RING)).prod (e.get Fld.ERR_CFG_RING) % 2 ^ 32 + 2 ^ 56] false
      rw [Engine.count_hif, hput, hflush]
    · rw [Engine.count_hif, Engine.count_hif]
      exact hflush
  · rw [Engine.count_hif]

theorem Engine.hifEvt_cmds (e : Engine) (f : Fld) : (e.hifEvt f).hif.cmds = e.hif.cmds := by
  unfold Engine.hifEvt
  split
  · rfl
  · obtain ⟨-, hmsg, -⟩ := (e.evt f).message_records 0 (e.get Fld.HIF_EVT_VEC_VECTOR)
    rw [hmsg, Engine.evt_hif]

/-- A lost command is counted and reported, and holds no slot. -/
theorem Engine.loseCmd_spec (e : Engine) (c : Cmd) : (e.loseCmd c).hif.cmds = e.hif.cmds ∧
    (e.loseCmd c).is Fld.HIF_EVT_CMD_LOST = true ∧ (e.loseCmd c).rd (Reg.HIF_CNT 1) = satCount 48 (e.rd (Reg.HIF_CNT 1)) 1 := by
  have hevt : ∀ x y : Engine, y.rd Reg.HIF_EVT = (x.hifEvt Fld.HIF_EVT_CMD_LOST).rd Reg.HIF_EVT → y.is Fld.HIF_EVT_CMD_LOST = true := fun x y h => by
    rw [Engine.is, Engine.get_of_rd (f := Fld.HIF_EVT_CMD_LOST) h]
    exact x.hifEvt_is _ rfl (by decide)
  have hcnt : ((e.count (Reg.HIF_CNT 1)).hifEvt Fld.HIF_EVT_CMD_LOST).rd (Reg.HIF_CNT 1) = satCount 48 (e.rd (Reg.HIF_CNT 1)) 1 := by
    rw [Engine.hifEvt_rd _ _ (by decide), Engine.rd_count_same]
  have hcmds : ((e.count (Reg.HIF_CNT 1)).hifEvt Fld.HIF_EVT_CMD_LOST).hif.cmds = e.hif.cmds := by
    rw [Engine.hifEvt_cmds, Engine.count_hif]
  unfold Engine.loseCmd
  dsimp only
  split
  · exact ⟨(Engine.errRecord_cmds ..).trans hcmds,
      hevt _ _ (Engine.errInfo_rd _ _ _ _ _ _ _ (by decide) (by decide) fun _ => not_bookReg_below (by decide)),
      (Engine.errInfo_rd _ _ _ _ _ _ _ (by decide) (by decide) fun _ => not_bookReg_below (by decide)).trans hcnt⟩
  · exact ⟨(Engine.errRecord_cmds ..).trans hcmds,
      hevt _ _ (Engine.errInfo_rd _ _ _ _ _ _ _ (by decide) (by decide) fun _ => not_bookReg_below (by decide)),
      (Engine.errInfo_rd _ _ _ _ _ _ _ (by decide) (by decide) fun _ => not_bookReg_below (by decide)).trans hcnt⟩

/-! ### A NOP's descriptor -/

/-- The descriptor of a NOP: a completion ring, a tag, and zeros. -/
def nopDesc (comp tag : Nat) : Bytes := natLE 8 (2 ^ 16 * comp) ++ natLE 8 tag ++ List.replicate 48 0

theorem leNat_zeros (n : Nat) : leNat (List.replicate n 0) = 0 := by
  induction n with
  | zero => rfl
  | succ n ih => rw [List.replicate_succ, leNat, ih]; rfl

/-- A field in the zeros that follow. -/
theorem leAt_zeros {l : Bytes} {m off k : Nat} (h : l.length ≤ off) : leAt (l ++ List.replicate m 0) off k = 0 := by
  rw [leAt, slice, List.drop_append, List.drop_eq_nil_of_le h, List.nil_append, List.drop_replicate, List.take_replicate, leNat_zeros]

theorem nopDesc_length (comp tag : Nat) : (nopDesc comp tag).length = 64 := by simp [nopDesc]

theorem nopDesc_word0 {comp : Nat} (tag : Nat) (h : comp < 4096) : descWord (nopDesc comp tag) 0 = 2 ^ 16 * comp := by
  rw [descWord, nopDesc, List.append_assoc, leAt_natLE_append]
  omega

theorem nopDesc_word1 (comp tag : Nat) : descWord (nopDesc comp tag) 1 = tag % 2 ^ 64 := by
  rw [descWord, nopDesc, List.append_assoc, leAt_append (length_natLE 8 _), leAt_natLE_append]
  rfl

theorem nopDesc_zero (comp tag : Nat) {i : Nat} (h : 2 ≤ i) : descWord (nopDesc comp tag) i = 0 :=
  leAt_zeros (by rw [List.length_append, length_natLE, length_natLE]; omega)

theorem nopDesc_byte (comp tag : Nat) (i : Nat) : byteAt (nopDesc comp tag) (32 + i) = 0 := by
  have hlen : (natLE 8 (2 ^ 16 * comp) ++ natLE 8 tag).length = 16 := by rw [List.length_append, length_natLE, length_natLE]
  rw [byteAt, nopDesc, List.getD_append_right _ _ _ _ (by omega)]
  rw [List.getD_eq_getElem?_getD, List.getElem?_replicate]
  split <;> rfl

section NopStatus
variable {e : Engine} {k st comp tag : Nat} (hcomp : comp < 4096)
include hcomp

theorem newCmd_nop_op : (e.newCmd k st (nopDesc comp tag)).op = 0 := by
  show bitsOf (descWord (nopDesc comp tag) 0) 7 0 = 0
  rw [nopDesc_word0 tag hcomp, bitsOf_eq]
  omega

theorem newCmd_nop_len : (e.newCmd k st (nopDesc comp tag)).len = 0 := by
  show bitsOf (descWord (nopDesc comp tag) 0) 63 32 = 0
  rw [nopDesc_word0 tag hcomp, bitsOf_eq]
  omega

theorem newCmd_nop_comp : (e.newCmd k st (nopDesc comp tag)).comp = comp := by
  show bitsOf (descWord (nopDesc comp tag) 0) 27 16 = comp
  rw [nopDesc_word0 tag hcomp, bitsOf_eq]
  omega

theorem newCmd_nop_wordsOk : (e.newCmd k st (nopDesc comp tag)).wordsOk = true := by
  have hsrc : (e.newCmd k st (nopDesc comp tag)).src = 0 := nopDesc_zero comp tag (by decide)
  have hdst : (e.newCmd k st (nopDesc comp tag)).dst = 0 := nopDesc_zero comp tag (by decide)
  have hw : descWord (e.newCmd k st (nopDesc comp tag)).desc 0 = 2 ^ 16 * comp := nopDesc_word0 tag hcomp
  have h1 : bitsOf (2 ^ 16 * comp) 15 13 = 0 := by rw [bitsOf_eq]; omega
  have h2 : bitsOf (2 ^ 16 * comp) 31 28 = 0 := by rw [bitsOf_eq]; omega
  rw [Cmd.wordsOk, hw, newCmd_nop_len hcomp, hsrc, hdst, h1, h2]
  rfl

end NopStatus

theorem Cmd.uses_nop {c : Cmd} (h : c.op = 0) : c.uses = some {} := by
  unfold Cmd.uses
  rw [h]
  rfl

theorem Cmd.operandsOk_nop {c : Cmd} (h : c.op = 0) : c.operandsOk = true := by
  unfold Cmd.operandsOk
  rw [h]
  rfl

/-- Nothing of a NOP's descriptor is used beside its word 0 and its tag. -/
theorem Cmd.unusedOk_nop {c : Cmd} (hsrc : c.src = 0) (hdst : c.dst = 0) (hargs : ∀ i, byteAt c.desc (32 + i) = 0) (hlen : c.len = 0) :
    c.unusedOk {} = true := by
  have hall : ((List.range 32).all fun i => (([] : List (Nat × Nat)).any fun x => decide (x.1 ≤ 32 + i) && decide (32 + i < x.1 + x.2)) ||
      byteAt c.desc (32 + i) == 0) = true := List.all_eq_true.mpr fun i _ => by rw [hargs i]; rfl
  unfold Cmd.unusedOk
  rw [hsrc, hdst, hlen]
  dsimp only
  rw [hall]
  show (_ && (dataOps.contains c.op || true)) = true
  rw [Bool.or_true]
  rfl

/-- A NOP may start. -/
theorem Engine.acceptStatus_nop {e : Engine} {c : Cmd} (hop : c.op = 0) (hwords : c.wordsOk = true) (hunused : c.unusedOk {} = true)
    (hpd : bitOf (e.get (Fld.HIF_PD_CTRL_OPMASK c.pd)) 0 = true) : e.acceptStatus c 1 = none := by
  have hempty : c.empty = false := by rw [Cmd.empty, hop]; rfl
  have hranges : OpUse.ranges {} c = [] := rfl
  unfold Engine.acceptStatus
  rw [if_neg (by rw [hwords]; decide), Cmd.uses_nop hop]
  dsimp only
  rw [if_neg (by rw [hunused]; decide), if_neg (by simp [hop]), if_neg (by rw [hop, hpd]; decide), if_neg (by rw [hempty]; decide),
    hranges, if_neg (by simp), if_neg (by simp), if_neg (by rw [Cmd.operandsOk_nop hop]; decide)]

theorem Engine.fetched_ringPd (e : Engine) (k n j : Nat) (rest : List FetchReq) : (e.fetched k n rest).ringPd j = e.ringPd j :=
  e.fetched_get k n rest (by show Reg.HIF_RING_CFG j ≠ _; simp only [Reg.HIF_RING_CFG, Reg.HIF_RING_CONS]; omega)

theorem Engine.fetched_ringKind (e : Engine) (k n j : Nat) (rest : List FetchReq) : (e.fetched k n rest).ringKind j = e.ringKind j :=
  e.fetched_get k n rest (by show Reg.HIF_RING_CFG j ≠ _; simp only [Reg.HIF_RING_CFG, Reg.HIF_RING_CONS]; omega)

/-- HEAD's move makes no completion ring good or bad. -/
theorem Engine.fetched_compRingOk (e : Engine) (k n pd j : Nat) (rest : List FetchReq) :
    (e.fetched k n rest).compRingOk pd j = e.compRingOk pd j := by
  rw [Engine.compRingOk, Engine.compRingOk, Engine.fetched_ringKind, Engine.fetched_ringPd,
    Engine.ringState_of_rd (e.fetched_rd k n rest statReg_ne_cons)]

/-- A domain's control register is no ring's. -/
theorem pdReg_ne_cons (k pd : Nat) : Reg.HIF_PD_CTRL pd ≠ Reg.HIF_RING_CONS k := by
  simp only [Reg.HIF_PD_CTRL, Reg.HIF_RING_CONS]
  omega

/-- Where a command comes from, what it is and where it stands. -/
def Cmd.marks (c : Cmd) : Nat × Nat × Nat × Nat × Nat × CmdPh := (c.ring, c.cnt, c.op, c.tag, c.comp, c.ph)

/-- A NOP whose fetch has returned is accepted. -/
theorem Engine.fetched_nop {e : Engine} {k st comp tag : Nat} (hkind : e.ringKind k = 1) (hcomp : comp < 4096)
    (hring : e.compRingOk (e.ringPd k) comp = true) (hmask : bitOf (e.get (Fld.HIF_PD_CTRL_OPMASK (e.ringPd k))) 0 = true) :
    ((e.fetched k (st + 1) []).newCmd k st (nopDesc comp tag)).marks = (k, st % 2 ^ 32, 0, tag % 2 ^ 64, comp, .accepted) ∧
      (e.fetched k (st + 1) []).acceptDesc k st (nopDesc comp tag) =
        (e.fetched k (st + 1) []).holdCmd ((e.fetched k (st + 1) []).newCmd k st (nopDesc comp tag)) := by
  have hop := newCmd_nop_op (e := e.fetched k (st + 1) []) (k := k) (st := st) (tag := tag) hcomp
  have hwant := newCmd_nop_comp (e := e.fetched k (st + 1) []) (k := k) (st := st) (tag := tag) hcomp
  have htag : ((e.fetched k (st + 1) []).newCmd k st (nopDesc comp tag)).tag = tag % 2 ^ 64 := nopDesc_word1 comp tag
  have hpd : ((e.fetched k (st + 1) []).newCmd k st (nopDesc comp tag)).pd = e.ringPd k := e.fetched_ringPd k _ k _
  refine ⟨?_, Engine.acceptDesc_starts ?_ ?_⟩
  · show (k, st % 2 ^ 32, Cmd.op _, Cmd.tag _, Cmd.comp _, CmdPh.accepted) = _
    rw [hop, htag, hwant]
  · rw [Engine.fetched_ringPd, Engine.fetched_compRingOk]
    exact (congrArg (e.compRingOk (e.ringPd k)) hwant).trans hring
  · rw [Engine.fetched_ringKind, hkind]
    refine Engine.acceptStatus_nop hop (newCmd_nop_wordsOk hcomp) (Cmd.unusedOk_nop (nopDesc_zero comp tag (by decide))
      (nopDesc_zero comp tag (by decide)) (nopDesc_byte comp tag) (newCmd_nop_len hcomp)) ?_
    rw [hpd]
    exact (congrArg (bitOf · 0) (e.fetched_get k _ _ (pdReg_ne_cons k _))).trans hmask

/-! ### COPY -/

theorem Engine.hostData_unarmed {e : Engine} (d : Bytes) (h : e.is Fld.ERR_INJECT_ARMED = false) : e.hostData (.ok d) = (.ok d, e) := by
  rw [Engine.hostData, Engine.takeInject_unarmed _ _ h]

theorem Engine.copyOut_local {e : Engine} {c : Cmd} (d : Bytes) (h : c.dstLoc = true) : e.copyOut c d [] = e.store (c.dst % 2 ^ 42) d := by
  rw [Engine.copyOut, if_pos h]
  show { e.store (c.dst % 2 ^ 42) d with poison := (e.store (c.dst % 2 ^ 42) d).poison ++ [] } = _
  rw [List.append_nil]

theorem Engine.copyOut_host {e : Engine} {c : Cmd} (d : Bytes) {ps : List (Nat × Nat × Bool)} (h : c.dstLoc = false)
    (hps : ps.filter (fun p => p.2.2) = []) : e.copyOut c d ps = e.emit (.hostWrite c.dst d) := by
  rw [Engine.copyOut, hps, if_neg (by rw [h]; decide)]
  rfl

/-- With no word poisoned, no piece is. -/
theorem Engine.pieces_clean {e : Engine} (a n : Nat) (h : e.poison = []) : (e.pieces a n).filter (fun p => p.2.2) = [] := by
  rw [List.filter_eq_nil_iff]
  intro p hp
  obtain ⟨w, -, rfl⟩ := List.mem_map.mp hp
  simp [h]

theorem Engine.started_poison (e : Engine) (c : Cmd) (n : Nat) : (e.started c n).poison = e.poison := by
  obtain ⟨⟨rs, h, g, heq⟩, -⟩ := e.started_ends c n
  rw [heq]

theorem Engine.started_unarmed (e : Engine) (c : Cmd) (n : Nat) : (e.started c n).is Fld.ERR_INJECT_ARMED = e.is Fld.ERR_INJECT_ARMED := by
  rw [Engine.is, e.started_get c n _ (by decide) (by decide), Engine.is]

/-- Host bytes are copied to module memory. -/
theorem copyCmd_in {e : Engine} {id : Nat} {c : Cmd} (d : Bytes) (ecc : Ecc) (hc : e.startable id 0x01 = some c) (hsrc : c.srcLoc = false)
    (hdst : c.dstLoc = true) (harm : e.is Fld.ERR_INJECT_ARMED = false) :
    copyCmd id (.ok d) ecc e = ((e.started c 328).store (c.dst % 2 ^ 42) (fitTo c.len d)).finishOk id 0 := by
  rw [copyCmd, withCmd_some hc]
  dsimp only
  rw [if_neg (by rw [hsrc]; decide), Engine.hostData_unarmed d ((e.started_unarmed c 328).trans harm)]
  dsimp only
  rw [Engine.copyOut_local _ hdst, Engine.startable_id hc]

/-- Module memory is copied to the host. -/
theorem copyCmd_out {e : Engine} {id : Nat} {c : Cmd} (src : HostRead) (hc : e.startable id 0x01 = some c) (hsrc : c.srcLoc = true)
    (hdst : c.dstLoc = false) (harm : e.is Fld.ERR_INJECT_ARMED = false) (hpoison : e.poison = []) :
    copyCmd id src .clean e = ((e.started c 328).emit (.hostWrite c.dst (e.readMem (c.src % 2 ^ 42) c.len))).finishOk id 0 := by
  have hp : (e.started c 328).poison = [] := (e.started_poison c 328).trans hpoison
  have hread : (e.started c 328).readMem (c.src % 2 ^ 42) c.len = e.readMem (c.src % 2 ^ 42) c.len := by
    rw [Engine.readMem, Engine.started_mem, Engine.readMem]
  rw [copyCmd, withCmd_some hc]
  dsimp only
  rw [if_pos hsrc, Engine.checkRead_clean _ _ _ hp ((e.started_unarmed c 328).trans harm)]
  dsimp only
  rw [Engine.pieces_clean _ _ hp]
  refine (if_pos rfl).trans ?_
  rw [List.drop_nil, List.foldl_nil, Engine.copyOut_host _ hdst (Engine.pieces_clean _ _ hp), hread, Engine.startable_id hc]

/-! ### Completions -/

/-- No command of an identity is held. -/
def Engine.NoCmd (id : Nat) (e : Engine) : Prop := ∀ c ∈ e.hif.cmds, c.id ≠ id

theorem Engine.NoCmd.cmd {id : Nat} {e : Engine} (h : e.NoCmd id) : e.cmd id = none :=
  List.find?_eq_none.mpr fun c hc => by simpa using h c hc

theorem Engine.NoCmd.endsUnstarted {id : Nat} {e : Engine} (h : e.NoCmd id) (d : Cmd) (st : Nat) : (e.endsUnstarted d st).NoCmd id := by
  intro c hc
  obtain ⟨c', hc', rfl⟩ := List.mem_map.mp (show c ∈ (e.setCmd d.id fun c => { c with ph := .done }).hif.cmds from hc)
  split
  · exact h c' hc'
  · exact h c' hc'

theorem Engine.NoCmd.endAll {id : Nat} (st : Nat) (l : List Cmd) {e : Engine} (h : e.NoCmd id) :
    (l.foldl (fun e d => e.endsUnstarted d st) e).NoCmd id := by
  induction l generalizing e with
  | nil => exact h
  | cons d l ih => exact ih (h.endsUnstarted d st)

/-- A command that is dropped is held no more. -/
theorem Engine.dropCmd_none (e : Engine) (id : Nat) : (e.dropCmd id).cmd id = none := by
  unfold Engine.dropCmd
  split
  · assumption
  next c _ =>
    refine Engine.NoCmd.cmd (Engine.NoCmd.endAll 0x01 _ ?_)
    intro d hd
    simpa using (List.mem_filter.mp (show d ∈ e.hif.cmds.filter fun c => c.id != id from hd)).2

theorem Engine.Ends.out {e e' : Engine} (h : e.Ends e') : e'.out = e.out := by
  obtain ⟨⟨rs, hf, g, rfl⟩, -⟩ := h
  rfl

/-- The engine with the front completion of ring `k` written. -/
def Engine.cplWritten (e : Engine) (k : Nat) (x : Cpl) (r : List Cpl) (c : Cmd) : Engine :=
  (e.setRing k fun a => { a with queue := r }).putRecord k (e.cplWords c x) c.irq

theorem completionWrite_cmd {e : Engine} {k : Nat} {x : Cpl} {r : List Cpl} {c : Cmd} (hkind : e.ringKind k = 3) (hst : e.ringState k = 1)
    (hq : (e.ring k).queue = x :: r) (htally : x.tally = none) (hc : e.cmd x.cmd = some c) (hroom : e.ringRoom k = true) :
    completionWrite k e = ((e.cplWritten k x r c).traceCmd c 3 x.engine x.status).dropCmd x.cmd := by
  rw [completionWrite, if_neg (by rw [hkind, hst]; simp), hq]
  dsimp only
  rw [htally, hc]
  exact if_neg (by rw [hroom]; decide)

/-- A completion ring with no free slot keeps its waiting completions. -/
theorem completionWrite_full {e : Engine} {k : Nat} (hroom : e.ringRoom k = false)
    (hq : ∀ x ∈ (e.ring k).queue, x.tally = none ∧ e.cmd x.cmd ≠ none) : completionWrite k e = e := by
  unfold completionWrite
  split
  · rfl
  split
  · rfl
  next x r hxr =>
    obtain ⟨htally, hne⟩ := hq x (by rw [hxr]; exact List.mem_cons_self)
    obtain ⟨c, hc⟩ := Option.ne_none_iff_exists'.mp hne
    rw [htally, hc]
    exact if_pos (by rw [hroom]; rfl)

/-! ### O19 -/

/-- Settles O19: one row at a time, from the fetch to the completion that frees the slot. -/
theorem commandsFlowThroughRings : Obligations.CommandsFlowThroughRings := by
  refine ⟨fun s k hup hpcie hk hst hhost hrings hcmds hposted hburst hquota => ?_, fun s k f r d hup hpcie hf hd => ?_,
    fun s k st comp tag hup hpcie hf hkind hcomp hring hmask => ?_, fun s k st d hup hpcie hf hring hdef hlen => ?_,
    fun s id c hup hc => ?_, fun s id c d ecc hup hc hsrc hdst harm => ?_, fun s id c src hup hc hsrc hdst harm hpoison => ?_,
    fun s id src ecc hup hc => ?_, fun s k x r c hup hpcie hkind hst hq htally hc hroom => ?_,
    fun s k hup hpcie hroom hkind hst hq => ?_⟩
  · refine .host (show exec _ s = execDescriptorFetch s from rfl) hup hpcie ?_
    rw [State.onEng_eng, hk, List.foldl_cons, List.foldl_nil, Engine.fetchRing_first hst hhost hrings hcmds hposted hburst hquota]
    obtain ⟨g, hg⟩ := (s.eng.burstTaken k).busy_eq 328
    have hring : s.eng.ring k = {} := by rw [Engine.ring, hrings]; rfl
    rw [hg]
    refine ⟨rfl, rfl, ?_⟩
    show ((s.eng.burstTaken k).ring k).fetches = _
    rw [Engine.burstTaken, Engine.ring_setRing, hring]
    rfl
  · refine (Does.host (show exec _ s = execFetchDataReturn k d s from rfl) hup hpcie).congr ?_
    rw [fetchReturn_discard d hf hd]
  · refine .host (show exec _ s = execFetchDataReturn k (nopDesc comp tag) s from rfl) hup hpcie ?_
    rw [State.onEng_eng, fetchReturn_one hf (nopDesc_length comp tag)]
    obtain ⟨hc, hmade⟩ := s.eng.fetched_nop (st := st) (tag := tag) hkind hcomp hring hmask
    rw [hmade]
    refine ⟨s.eng.fetched_cons k _ _, s.eng.fetched_ring k _ _, ?_⟩
    show ((s.eng.fetched k (st + 1) []).hif.cmds ++ [_]).map _ = _
    rw [List.map_append, List.map_singleton, Engine.fetched_cmds]
    exact congrArg (_ ++ [·]) hc
  · refine .host (show exec _ s = execFetchDataReturn k d s from rfl) hup hpcie ?_
    rw [State.onEng_eng, fetchReturn_one hf hlen, Engine.acceptDesc_lost (by rw [Engine.fetched_ringPd, Engine.fetched_compRingOk, hring])
      (by rw [Engine.fetched_ringPd, Engine.is, Engine.fetched_get _ _ _ _ (pdReg_ne_cons k _)]; exact hdef)]
    obtain ⟨hcmds, hevt, hcnt⟩ := (s.eng.fetched k (st + 1) []).loseCmd_spec ((s.eng.fetched k (st + 1) []).newCmd k st d)
    refine ⟨hcmds.trans (s.eng.fetched_cmds k _ _), hevt, hcnt.trans ?_⟩
    rw [Engine.fetched_rd _ _ _ _ (by simp only [Reg.HIF_CNT, Reg.HIF_RING_CONS]; omega)]
  · refine (Does.engine (show exec _ s = execNop id s from rfl) hup).congr ?_
    rw [withCmd_some hc, Engine.startable_id hc]
  · refine (Does.engine (show exec _ s = execCopy id (.ok d) ecc s from rfl) hup).congr ?_
    exact copyCmd_in d ecc hc hsrc hdst harm
  · refine (Does.engine (show exec _ s = execCopy id src .clean s from rfl) hup).congr ?_
    exact copyCmd_out src hc hsrc hdst harm hpoison
  · refine (Does.engine (show exec _ s = execCopy id src ecc s from rfl) hup).congr (g := fun e => e) ?_
    rw [copyCmd, withCmd_none hc]
  · refine .host (show exec _ s = execCompletionWrite k s from rfl) hup hpcie ?_
    rw [State.onEng_eng, completionWrite_cmd hkind hst hq htally hc hroom]
    have hends := (Engine.trace_ends (s.eng.cplWritten k x r c) _ 3 _ _ _).trans
      (Engine.dropCmd_ends ((s.eng.cplWritten k x r c).traceCmd c 3 x.engine x.status) x.cmd)
    obtain ⟨-, -, hmem, -⟩ := (s.eng.setRing k fun a => { a with queue := r }).putRecord_records k (s.eng.cplWords c x) c.irq
    refine ⟨?_, Engine.dropCmd_none _ _, hends.mem.trans hmem, ?_⟩
    · rw [Engine.prod, hends.2 _ (by simp only [Reg.HIF_RING_PROD, Reg.GLN_CNT]; omega)
        (by simp only [Reg.HIF_RING_PROD, Reg.GLN_EVT]; omega)]
      exact Engine.putRecord_prod _ _ _ _
    · have hout := (s.eng.setRing k fun a => { a with queue := r }).putRecord_out k (s.eng.cplWords c x) c.irq
      rw [show (s.eng.setRing k fun a => { a with queue := r }).ringKind k = 3 from hkind] at hout
      rw [hends.out]
      exact hout
  · refine (Does.host (show exec _ s = execCompletionWrite k s from rfl) hup hpcie).congr (g := fun e => e) ?_
    exact completionWrite_full hroom hq

end Sys2Proof.Machine

/-!
PROOFS. A frame's reception and handoff (O21).
-/
namespace Sys2Proof.Machine

/-! ### Frames by their identity -/

/-- A frame found under an identity bears it. -/
theorem Engine.pkt_bears {e : Engine} {id : Nat} {p : Pkt} (h : e.pkt id = some p) : p.id = id := by
  have := List.find?_some h
  simpa using this

theorem Engine.dropPkt_pkt (e : Engine) (id : Nat) : (e.dropPkt id).pkt id = none :=
  List.find?_eq_none.mpr fun p hp => by simpa using (List.mem_filter.mp hp).2

/-- The frame of an identity replaced. -/
theorem Engine.pkt_replaced {e : Engine} {id : Nat} {p q : Pkt} (h : e.pkt id = some p) (hq : q.id = id) :
    (e.setPkt id fun _ => q).pkt id = some q := Engine.pkt_setPkt (f := fun _ => q) h fun _ _ => hq

theorem Engine.pkt_of_pkts {e e' : Engine} (h : e'.pkts = e.pkts) (id : Nat) : e'.pkt id = e.pkt id := by
  rw [Engine.pkt, h, Engine.pkt]

/-! ### What a parse counts -/

/-- One engine is the other but for the thresher's counters. -/
def Engine.Counted (e e' : Engine) : Prop :=
  (∃ rs, e' = { e with regs := rs }) ∧ ∀ off, off < 0x300108 ∨ 0x300300 ≤ off → e'.rd off = e.rd off

theorem Engine.Counted.refl (e : Engine) : e.Counted e := ⟨⟨_, rfl⟩, fun _ _ => rfl⟩

theorem Engine.Counted.trans {e e' e'' : Engine} (h : e.Counted e') (h' : e'.Counted e'') : e.Counted e'' := by
  obtain ⟨⟨rs, rfl⟩, hrd⟩ := h
  obtain ⟨⟨rs', rfl⟩, hrd'⟩ := h'
  exact ⟨⟨_, rfl⟩, fun off ho => (hrd' off ho).trans (hrd off ho)⟩

theorem Engine.count_counted (e : Engine) {off : Nat} (h : 0x300108 ≤ off ∧ off < 0x300300) : e.Counted (e.count off) :=
  ⟨⟨_, rfl⟩, fun _ ho => e.rd_count_other (by omega)⟩

theorem Engine.malCounts_counted (l : List Nat) (e : Engine) : e.Counted (l.foldl (fun e k => e.count (Reg.THR_MALCNT (k % 16))) e) := by
  induction l generalizing e with
  | nil => exact .refl e
  | cons k l ih => exact (e.count_counted (by simp only [Reg.THR_MALCNT]; omega)).trans (ih _)

theorem Engine.parseCounts_counted (e : Engine) (r : Parse) : e.Counted (e.parseCounts r) := by
  have hmals := Engine.malCounts_counted r.mals e
  unfold Engine.parseCounts
  dsimp only
  split
  · exact hmals
  · exact hmals.trans (Engine.count_counted _ (by simp only [Reg.THR_SLOWCNT]; omega))

theorem Engine.Counted.mem {e e' : Engine} (h : e.Counted e') : e'.mem = e.mem := by
  obtain ⟨⟨rs, rfl⟩, -⟩ := h
  rfl

/-- The engine once a parse has completed. -/
def Engine.parseDone (e : Engine) (r : Parse) : Engine := (e.parseCounts r).busy 291

theorem Engine.parseDone_rd (e : Engine) (r : Parse) {off : Nat} (h : off < 0x300108 ∨ 0x300300 ≤ off) : (e.parseDone r).rd off = e.rd off := by
  obtain ⟨g, hg⟩ := (e.parseCounts r).busy_eq 291
  rw [Engine.parseDone, hg]
  exact (e.parseCounts_counted r).2 off h

theorem Engine.parseDone_fields (e : Engine) (r : Parse) :
    (e.parseDone r).pkts = e.pkts ∧ (e.parseDone r).tab = e.tab ∧ (e.parseDone r).err = e.err := by
  obtain ⟨g, hg⟩ := (e.parseCounts r).busy_eq 291
  obtain ⟨⟨rs, hrs⟩, -⟩ := e.parseCounts_counted r
  rw [Engine.parseDone, hg, hrs]
  exact ⟨rfl, rfl, rfl⟩

/-! ### The first byte -/

/-- The frame that a first byte on a port brings. -/
def Engine.firstPkt (e : Engine) (p frac : Nat) : Pkt :=
  { id := e.nextPkt, port := p, ts := stampOf e.time frac (e.get (Fld.ITK_PORT_TSOFF_RX p)), maxlen := e.get (Fld.ITK_PORT_CFG_MAXLEN p),
    need := ceilDiv (e.get (Fld.ITK_PORT_CFG_MAXLEN p)) 256 }

/-- The port's receiver with the stamp of that first byte. -/
def Engine.rxStamped (e : Engine) (p frac : Nat) : Engine :=
  e.setRx p fun r => { r with last := some (e.get (Fld.ITK_PORT_TSOFF_RX p), stampOf e.time frac (e.get (Fld.ITK_PORT_TSOFF_RX p))) }

/-- A receiver that is free, with no earlier stamp, takes a frame, or drops it where its earmark does not fit. -/
theorem frameStart_free {e : Engine} {p frac : Nat} (hp : p < 32) (hpres : e.present p = true) (hlive : e.portLive p = true)
    (hmode : e.portMode p < 2) (hcur : (e.rxOf p).cur = none) (hlast : (e.rxOf p).last = none) :
    frameStart p frac e = if e.cellsFree < ceilDiv (e.get (Fld.ITK_PORT_CFG_MAXLEN p)) 256
      then ((e.rxStamped p frac).count (Reg.ITK_PCNT p 7)).evt Fld.ITK_EVT_EXHAUST
      else Engine.setRx { e.rxStamped p frac with nextPkt := e.nextPkt + 1, pkts := e.pkts ++ [e.firstPkt p frac] } p
        fun r => { r with cur := some e.nextPkt } := by
  unfold frameStart
  rw [hlast, hcur, hpres, hlive]
  exact if_neg (by simp; omega)

/-! ### The end -/

/-- A frame whose reception has ended with status `st`. -/
def Pkt.received (p : Pkt) (d : Bytes) (st : Nat) : Pkt := { p with rx := false, data := d.take p.maxlen, len := d.length, status := some st }

theorem Engine.rxDone_pkt (e : Engine) (p : Pkt) (id : Nat) : (e.rxDone p).pkt id = e.pkt id := rfl

theorem Engine.dropPkt_rd (e : Engine) (id off : Nat) : (e.dropPkt id).rd off = e.rd off := rfl

theorem Engine.dropPkt_mem (e : Engine) (id : Nat) : (e.dropPkt id).mem = e.mem := rfl

theorem Engine.rd_alwaysN_same (e : Engine) (off n : Nat) : (e.alwaysN off n).rd off = (e.rd off + n) % 2 ^ 64 := by
  rw [Engine.alwaysN, Engine.rd_wr_same, Nat.mod_mod]

theorem Engine.rd_alwaysN_other (e : Engine) {off off' : Nat} (n : Nat) (h : off' ≠ off) : (e.alwaysN off n).rd off' = e.rd off' :=
  Engine.rd_wr_other _ _ h

theorem Engine.rxDone_mem (e : Engine) (p : Pkt) : (e.rxDone p).mem = e.mem := rfl

theorem Engine.rxDone_rd (e : Engine) (p : Pkt) (off : Nat) : (e.rxDone p).rd off = e.rd off := rfl

theorem Engine.frameEnds_good {e : Engine} {id : Nat} {p : Pkt} (d : Bytes) (h : e.pkt id = some p) (hrx : p.rx = true) (hh : p.handed = false) :
    e.frameEnds id d 0 = Engine.setPkt (((e.rxDone p).alwaysN (Reg.ITK_PCNT p.port 0) 1).alwaysN (Reg.ITK_PCNT p.port 1) d.length) id
      fun _ => p.received d 0 := by
  rw [Engine.frameEnds, h]
  dsimp only
  rw [if_neg (by rw [hrx]; decide), if_pos rfl, if_pos (by rw [hh]; rfl), if_pos rfl]
  rfl

/-- A frame that fails before its handoff is gone. -/
theorem Engine.frameEnds_failed {e : Engine} {id st : Nat} {p : Pkt} (d : Bytes) (h : e.pkt id = some p) (hrx : p.rx = true)
    (hh : p.handed = false) (hst : st ≠ 0) : e.frameEnds id d st =
      (Engine.parseCounts (((e.rxDone p).count (Reg.ITK_PCNT p.port (statusCounter st))).setPkt id fun _ => p.received d st)
        (parseFrame (d.take (d.length - 4)) true)).dropPkt id := by
  rw [Engine.frameEnds, h]
  dsimp only
  rw [if_neg (by rw [hrx]; decide), if_neg hst, if_pos (by rw [hh]; rfl), if_neg hst]
  rfl

/-- A frame that is too short to hold its header. -/
theorem frameEnd_runt {e : Engine} {id : Nat} {p : Pkt} {d : Bytes} (h : e.pkt id = some p) (hd : d.length < 14) :
    frameEnd id d false e = e.frameEnds id d 3 := by
  have hst : frameStatus d p.maxlen false = 3 := by
    unfold frameStatus
    exact (if_neg (by decide)).trans (if_pos (by omega))
  rw [frameEnd, h]
  dsimp only
  rw [if_neg (by simp; omega), hst]

theorem frameEnd_known {e : Engine} {id : Nat} {p : Pkt} {d : Bytes} (h : e.pkt id = some p) (hmacc : p.macc = true) :
    frameEnd id d false e = e.frameEnds id d (frameStatus d p.maxlen false) := by
  rw [frameEnd, h]
  dsimp only
  rw [if_neg (by rw [hmacc]; simp)]

/-! ### Handoff -/

/-- A frame in reception as its parse leaves it. -/
def Engine.parsedPkt (e : Engine) (p : Pkt) (r : Parse) (hdr : Bytes) (len : Nat) : Pkt :=
  { p with pv := r.vector ((e.parseDone r).rd Reg.THR_MAL_ACT), data := hdr, len := len }

/-- The frame handed off in bypass. -/
def Engine.bypassed (e : Engine) (p : Pkt) : Pkt := { p with handed := true, byp := true, bypCfg := (e.count (Reg.ERR_CNT 3)).rd Reg.ERR_CFG }

theorem frameHandoff_rx {e : Engine} {id : Nat} {p : Pkt} {hdr : Bytes} (len : Nat) (h : e.pkt id = some p) (hrx : p.rx = true)
    (hh : p.handed = false) (hmacc : p.macc = true) (hmore : (parseFrame hdr false).more = false) (hdue : e.switchDue p.ts = false) :
    frameHandoff id hdr len e = if (e.parseDone (parseFrame hdr false)).tsBypass p.ts = true
      then (if (e.parsedPkt p (parseFrame hdr false) hdr len).good = true
        then (((e.parseDone (parseFrame hdr false)).count (Reg.ERR_CNT 3)).setPkt id fun _ =>
          (e.parseDone (parseFrame hdr false)).bypassed (e.parsedPkt p (parseFrame hdr false) hdr len)).finishByp id
        else ((e.parseDone (parseFrame hdr false)).count (Reg.ERR_CNT 3)).setPkt id fun _ =>
          (e.parseDone (parseFrame hdr false)).bypassed (e.parsedPkt p (parseFrame hdr false) hdr len))
      else (e.parseDone (parseFrame hdr false)).startPath (e.parsedPkt p (parseFrame hdr false) hdr len) := by
  rw [frameHandoff, h]
  dsimp only
  simp only [if_pos hrx, show (!p.rx) = false by rw [hrx]; rfl]
  generalize parseFrame hdr false = r at hmore ⊢
  rw [if_neg (by rw [hh, hmore, hdue, hmacc]; simp)]
  rfl

theorem frameHandoff_handed {e : Engine} {id : Nat} {p : Pkt} (hdr : Bytes) (len : Nat) (h : e.pkt id = some p) (hh : p.handed = true) :
    frameHandoff id hdr len e = e := by
  rw [frameHandoff, h]
  exact if_pos (.inl hh)

theorem Engine.tsBypass_parseDone (e : Engine) (r : Parse) (ts : Nat) : (e.parseDone r).tsBypass ts = e.tsBypass ts := by
  obtain ⟨-, -, herr⟩ := e.parseDone_fields r
  rw [Engine.tsBypass, Engine.tsBypass, Engine.inBypass, Engine.inBypass, Engine.is, Engine.is, herr, e.parseDone_rd r (.inr (by decide)),
    Engine.get_of_rd (e.parseDone_rd r (.inr (by decide)))]

theorem Engine.genOf_parseDone (e : Engine) (r : Parse) (ts : Nat) : (e.parseDone r).genOf ts = e.genOf ts := by
  obtain ⟨-, htab, -⟩ := e.parseDone_fields r
  rw [Engine.genOf, Engine.genOf, htab, e.parseDone_rd r (.inr (by decide)), e.parseDone_rd r (.inr (by decide)),
    Engine.get_of_rd (e.parseDone_rd r (.inr (by decide)))]

/-- The frame on its path. -/
def Engine.pathPkt (e : Engine) (p : Pkt) : Pkt := { p with handed := true, gen := e.genOf p.ts }

/-- The engine that counts the path's start. -/
def Engine.pathCounted (e : Engine) (p : Pkt) : Engine := (e.setPkt p.id fun _ => e.pathPkt p).count (Reg.CSC_CNT 0)

/-- A frame at its port's start entry. -/
def Engine.atStart (e : Engine) (p : Pkt) : Pkt := { p with entry := (e.bankOf p).start p.port }

theorem Engine.bankOf_bad {e : Engine} (h : ∀ b ∈ [e.tab.live, e.tab.shadow], b.bad = []) (p : Pkt) : (e.bankOf p).bad = [] := by
  unfold Engine.bankOf
  split
  · exact h _ (by simp)
  · exact h _ (by simp)

/-- With a generation to start in, and no start entry poisoned, the path begins. -/
theorem Engine.startPath_clean {e : Engine} {p : Pkt} (hgen : e.genOf p.ts ≠ 0) (harm : e.is Fld.ERR_INJECT_ARMED = false)
    (hbad : ∀ b ∈ [e.tab.live, e.tab.shadow], b.bad = []) :
    e.startPath p = (e.pathCounted p).setPkt p.id (e.pathCounted p).atStart := by
  have harm' : (e.pathCounted p).is Fld.ERR_INJECT_ARMED = false := (Engine.is_count_other _ _ (by decide)).trans harm
  have hclean : (4, p.port) ∉ ((e.pathCounted p).bankOf (e.pathPkt p)).bad := by
    rw [Engine.bankOf_bad (by rw [Engine.pathCounted, Engine.count_tab]; exact hbad)]
    exact List.not_mem_nil
  have hread := Engine.tableRead_unarmed (e.pathPkt p) harm' hclean
  unfold Engine.pathCounted Engine.pathPkt at hread ⊢
  unfold Engine.startPath
  dsimp only
  rw [if_neg hgen, hread]
  dsimp only
  rw [if_neg Bool.false_ne_true]
  rfl

/-! ### O21 -/

/-- Settles O21: a frame from its first byte to its end and to its handoff. -/
theorem framesAreReceived : Obligations.FramesAreReceived := by
  refine ⟨fun s p frac hup hp hpres hlive hmode hfree hcells => ?_, fun s p frac hup hp hpres hlive hmode hfree hcells => ?_,
    fun s p hup hpres hlive hmode => ?_, fun s id p hup hpkt hrx hh hmacc hctl => ?_, fun s id p d hup hpkt hrx hh hd => ?_,
    fun s id p d hup hpkt hrx hh hmacc hst hport => ?_, fun s id p hdr len hup hpkt hrx hh hmacc hbyp hmore hdue hts hgen harm hbad => ?_,
    fun s id p hdr len hup hpkt hrx hh hmacc hst hmore hdue hts => ?_, fun s id p hdr len hup hpkt hh => ?_⟩
  · refine .engine (show exec _ s = execFrameStart p frac s from rfl) hup ?_
    rw [State.onEng_eng, frameStart_free hp hpres hlive hmode (by rw [hfree]) (by rw [hfree]), if_neg (by omega)]
    refine ⟨?_, rfl, rfl, rfl⟩
    rw [Engine.rxOf_setRx]
  · refine .engine (show exec _ s = execFrameStart p frac s from rfl) hup ?_
    rw [State.onEng_eng, frameStart_free hp hpres hlive hmode (by rw [hfree]) (by rw [hfree]), if_pos hcells]
    refine ⟨?_, Engine.is_evt_same _ _ rfl (by decide), ?_⟩
    · rw [Engine.evt_pkts, Engine.count_pkts]
      rfl
    · rw [Engine.rd_evt_other _ _ (show Reg.ITK_PCNT p 7 ≠ Reg.ITK_EVT by simp only [Reg.ITK_PCNT, Reg.ITK_EVT]; omega), Engine.rd_count_same]
      rfl
  · refine (Does.engine (show exec _ s = execEmitPortFrame p s from rfl) hup).congr ?_
    exact if_pos ⟨hpres, hlive, hmode⟩
  · refine .engine (show exec _ s = execMacControlDiscard id s from rfl) hup ?_
    have hctl' : (s.eng.count (Reg.ITK_PCNT p.port 8)).is (Fld.ITK_PORT_CFG_MACCTL p.port) = false :=
      (Engine.is_count_other _ _ (show Reg.ITK_PORT_CFG p.port ≠ _ by simp only [Reg.ITK_PORT_CFG, Reg.ITK_PCNT]; omega)).trans hctl
    rw [State.onEng_eng, macControl, hpkt]
    dsimp only
    rw [if_neg (by rw [hrx, hh, hmacc]; decide), if_neg (by rw [hctl']; decide)]
    rw [Engine.rxDone_pkt, Engine.dropPkt_pkt, Engine.rxDone_rd, Engine.dropPkt_rd, Engine.rd_count_same]
    exact ⟨rfl, rfl⟩
  · refine .engine (show exec _ s = execFrameEnd id d false s from rfl) hup ?_
    rw [State.onEng_eng, frameEnd_runt hpkt hd, Engine.frameEnds_failed d hpkt hrx hh (by decide)]
    refine ⟨Engine.dropPkt_pkt _ id, ?_⟩
    rw [Engine.dropPkt_mem, (Engine.parseCounts_counted _ _).mem, Engine.setPkt_mem, Engine.count_mem, Engine.rxDone_mem]
  · refine .engine (show exec _ s = execFrameEnd id d false s from rfl) hup ?_
    rw [State.onEng_eng, frameEnd_known hpkt hmacc, hst, Engine.frameEnds_good d hpkt hrx hh]
    have hne : Reg.ITK_PCNT p.port 0 ≠ Reg.ITK_PCNT p.port 1 := by simp only [Reg.ITK_PCNT]; omega
    have hbears : p.id = id := Engine.pkt_bears hpkt
    have hid : (p.received d 0).id = id := hbears
    refine ⟨?_, ?_, ?_⟩
    · rw [Engine.pkt_replaced (p := p) ((Engine.pkt_of_pkts (by rw [Engine.alwaysN_pkts, Engine.alwaysN_pkts]; rfl) id).trans hpkt) hid]
      rfl
    · rw [Engine.setPkt_rd, Engine.rd_alwaysN_other _ _ hne, Engine.rd_alwaysN_same, Engine.rxDone_rd]
    · rw [Engine.setPkt_rd, Engine.rd_alwaysN_same, Engine.rd_alwaysN_other _ _ hne.symm, Engine.rxDone_rd]
  · refine .engine (show exec _ s = execFrameHandoff id hdr len s from rfl) hup ?_
    rw [State.onEng_eng, frameHandoff_rx len hpkt hrx hh hmacc hmore hdue, Engine.tsBypass_parseDone, if_neg (by rw [hts]; decide)]
    generalize parseFrame hdr false = r
    obtain ⟨hpkts, htab, -⟩ := s.eng.parseDone_fields r
    have hbears : p.id = id := Engine.pkt_bears hpkt
    have hid : (s.eng.parsedPkt p r hdr len).id = id := hbears
    have hgenOf : (s.eng.parseDone r).genOf (s.eng.parsedPkt p r hdr len).ts = s.eng.genOf p.ts := s.eng.genOf_parseDone r p.ts
    have harm' : (s.eng.parseDone r).is Fld.ERR_INJECT_ARMED = false := by
      rw [Engine.is, Engine.get_of_rd (s.eng.parseDone_rd r (.inr (by decide)))]
      exact harm
    rw [Engine.startPath_clean (by rw [hgenOf]; exact hgen) harm' (by rw [htab]; exact hbad), hid]
    have hfirst : ((s.eng.parseDone r).pathCounted (s.eng.parsedPkt p r hdr len)).pkt id =
        some ((s.eng.parseDone r).pathPkt (s.eng.parsedPkt p r hdr len)) := by
      rw [Engine.pathCounted, hid]
      exact (Engine.pkt_of_pkts (Engine.count_pkts _ _) id).trans (Engine.pkt_replaced ((Engine.pkt_of_pkts hpkts id).trans hpkt) hid)
    rw [Engine.pkt_setPkt (f := Engine.atStart _) hfirst fun _ h => h]
    refine ⟨?_, ?_⟩
    · show some (true, p.byp, (s.eng.parseDone r).genOf p.ts, len) = _
      rw [hbyp, s.eng.genOf_parseDone]
    · show some (r.vector ((s.eng.parseDone r).rd Reg.THR_MAL_ACT)) = _
      rw [s.eng.parseDone_rd r (.inl (by decide))]
  · refine .engine (show exec _ s = execFrameHandoff id hdr len s from rfl) hup ?_
    rw [State.onEng_eng, frameHandoff_rx len hpkt hrx hh hmacc hmore hdue, Engine.tsBypass_parseDone, if_pos hts]
    generalize parseFrame hdr false = r
    obtain ⟨hpkts, -, -⟩ := s.eng.parseDone_fields r
    have hbears : p.id = id := Engine.pkt_bears hpkt
    have hopen : ¬ (s.eng.parsedPkt p r hdr len).good = true := by
      show ¬ (p.status == some 0) = true
      rw [hst]
      decide
    have hcount : ((s.eng.parseDone r).count (Reg.ERR_CNT 3)).pkt id = some p :=
      (Engine.pkt_of_pkts ((Engine.count_pkts _ _).trans hpkts) id).trans hpkt
    rw [if_neg hopen, Engine.pkt_replaced (q := (s.eng.parseDone r).bypassed (s.eng.parsedPkt p r hdr len)) hcount hbears]
    show some (true, true, ((s.eng.parseDone r).count (Reg.ERR_CNT 3)).rd Reg.ERR_CFG) = _
    rw [Engine.rd_count_other _ (by decide), s.eng.parseDone_rd r (.inr (by decide))]
  · exact (Does.engine (show exec _ s = execFrameHandoff id hdr len s from rfl) hup).congr (g := fun e => e)
      (frameHandoff_handed hdr len hpkt hh)

end Sys2Proof.Machine
